-- ==== Sys2Proof/Word.lean ====
section
/-! DEFINITION. The word types of the FS16 and their plainest arithmetic. -/
namespace Sys2Proof

/-- One byte of an SRAM word, a line, a packet or a message. -/
abbrev Byte := BitVec 8

/-- A vector register: lane k lies at bits [32k + 31:32k] (R102). -/
abbrev Lanes := BitVec 512

/-- The 16 data bytes of a flit (R199). -/
abbrev Flit := BitVec 128

/-- x[hi:lo] of R89, on a natural number. -/
def bitsOf (x hi lo : Nat) : Nat := (x >>> lo) % 2 ^ (hi + 1 - lo)

/-- Bit k of a natural number, as 0 or 1. -/
def bitOf (x k : Nat) : Nat := (x >>> k) % 2

/-- An unsigned N-bit field read as two's complement (R89). -/
def toSigned (n x : Nat) : Int :=
  if x % 2 ^ n < 2 ^ (n - 1) then (x % 2 ^ n : Nat) else ((x % 2 ^ n : Nat) : Int) - 2 ^ n

/-- The low n bits of an integer, as an unsigned number (R89). -/
def ofSigned (n : Nat) (x : Int) : Nat := (x % (2 ^ n : Nat)).toNat

/-- A saturating counter of n bits: it stops at its largest value. -/
def satAdd (n x d : Nat) : Nat := min (2 ^ n - 1) (x + d)

/-- The smallest multiple of m at or above x (m > 0). -/
def roundUpTo (m x : Nat) : Nat := (x + m - 1) / m * m

end Sys2Proof
end

