-- ==== Sys2Proof/Machine/Fields.lean ====
section
/-! DEFINITION. The operand fields of the bundle's slots, as raw bits, so that a reserved code or a non-zero RSVD field
can be written down (R54, R59). -/
namespace Sys2Proof

/-- MX slot fields (R67). -/
structure MxFields where
  fmt : BitVec 4
  tile : BitVec 2
  row : BitVec 4
  acc : BitVec 1
  va : BitVec 5
  part : BitVec 2
  bg : BitVec 2
  deriving DecidableEq, Repr

/-- VX slot fields (R69). -/
structure VxFields where
  pm : BitVec 2
  vd : BitVec 5
  va : BitVec 5
  vb : BitVec 5
  vc : BitVec 5
  deriving DecidableEq, Repr

/-- SX slot fields (R71). -/
structure SxFields where
  vd : BitVec 5
  ve : BitVec 5
  ss : BitVec 4
  ap : BitVec 2
  deriving DecidableEq, Repr

/-- MV layout M (R72). -/
structure MvM where
  pm : BitVec 2
  d : BitVec 5
  ab : BitVec 3
  off : BitVec 8
  deriving DecidableEq, Repr

/-- MV layout X (R72). -/
structure MvX where
  pm : BitVec 2
  d : BitVec 5
  ab : BitVec 3
  si : BitVec 4
  rsvd : BitVec 4
  deriving DecidableEq, Repr

/-- MV layout G (R72). -/
structure MvG where
  pm : BitVec 2
  d : BitVec 5
  ab : BitVec 3
  vi : BitVec 5
  sh : BitVec 2
  rsvd : BitVec 1
  deriving DecidableEq, Repr

/-- MV layout A (R72): y is bits [5:0], a register number or an immediate. -/
structure MvA where
  rsvd : BitVec 2
  d : BitVec 5
  x : BitVec 5
  y : BitVec 6
  deriving DecidableEq, Repr

/-- MV layout T (R72). -/
structure MvT where
  rsvd : BitVec 2
  tile : BitVec 2
  fmt : BitVec 4
  rnd : BitVec 2
  ab : BitVec 3
  vr : BitVec 5
  deriving DecidableEq, Repr

/-- MV layout P (R72). -/
structure MvP where
  rsvd : BitVec 2
  tile : BitVec 2
  row : BitVec 4
  col : BitVec 4
  vd : BitVec 5
  rsvd0 : BitVec 1
  deriving DecidableEq, Repr

/-- NX fields of SEND and RECV (R77). -/
structure NxReg where
  v : BitVec 5
  h : BitVec 1
  rsvd : BitVec 8
  deriving DecidableEq, Repr

/-- NX fields of SENDM and RECVM (R77). -/
structure NxMem where
  ab : BitVec 3
  off : BitVec 8
  rsvd : BitVec 3
  deriving DecidableEq, Repr

/-- NX fields of MRD and MWR (R77). -/
structure NxSlot where
  slot : BitVec 2
  ab : BitVec 3
  ss : BitVec 4
  rsvd : BitVec 5
  deriving DecidableEq, Repr

end Sys2Proof
end

