-- ==== Sys2Proof/Machine/Table.lean ====
section
/-! DEFINITION. Sparse tables keyed by a number, and byte memories in one canonical form. -/
namespace Sys2Proof

/-- A sparse table: the keys listed and their values. A key not listed holds the table's default. -/
abbrev Table (α : Type) := List (Nat × α)

/-- The value of key k, d when the table does not list it. -/
def Table.get {α : Type} (d : α) (k : Nat) : Table α → α
  | [] => d
  | (k', v) :: t => if k' = k then v else Table.get d k t

/-- The table with key k set to v; keys keep rising order. -/
def Table.put {α : Type} (k : Nat) (v : α) : Table α → Table α
  | [] => [(k, v)]
  | (k', v') :: t =>
    if k' = k then (k, v) :: t
    else if k < k' then (k, v) :: (k', v') :: t
    else (k', v') :: Table.put k v t

/-- The table without key k, which then holds the default. -/
def Table.erase {α : Type} (k : Nat) : Table α → Table α
  | [] => []
  | (k', v) :: t => if k' = k then Table.erase k t else (k', v) :: Table.erase k t

/-- Apply f to the value of key k. -/
def Table.modify {α : Type} (d : α) (k : Nat) (f : α → α) (t : Table α) : Table α :=
  Table.put k (f (Table.get d k t)) t

/-- Apply f to every listed value. -/
def Table.mapVals {α : Type} (f : Nat → α → α) : Table α → Table α
  | [] => []
  | (k, v) :: t => (k, f k v) :: Table.mapVals f t

/-- Whether key k is listed. -/
def Table.has {α : Type} (k : Nat) : Table α → Bool
  | [] => false
  | (k', _) :: t => if k' = k then true else Table.has k t

/-- Keys strictly rising. -/
def Table.sorted {α : Type} : Table α → Bool
  | [] => true
  | [_] => true
  | (k, _) :: (k', v') :: t => decide (k < k') && Table.sorted ((k', v') :: t)

/-- A byte memory: addresses strictly rising, no entry equal to 0, which is what an unlisted address reads as. -/
abbrev Memory := List Host.Cell

/-- What an unlisted address reads as: core SRAM and HBM blocks are written with zero before anything reads
them (R53, R458, R556). -/
def Memory.unlisted : Byte := 0

/-- The byte at an address. -/
def Memory.read (m : Memory) (a : Nat) : Byte := Table.get Memory.unlisted a m

/-- Write one byte; writing the unlisted value removes the entry. -/
def Memory.write (m : Memory) (a : Nat) (b : Byte) : Memory :=
  if b = Memory.unlisted then Table.erase a m else Table.put a b m

/-- The canonical form of a memory. -/
def Memory.wf (m : Memory) : Bool :=
  Table.sorted m && m.all (fun c => c.2 != Memory.unlisted)

/-- The bytes of n addresses from a on, from cells in rising order of which none lies below a. -/
def Memory.spread : Memory → Nat → Nat → List Byte
  | _, _, 0 => []
  | [], a, n + 1 => Memory.unlisted :: Memory.spread [] (a + 1) n
  | (k, v) :: t, a, n + 1 =>
    if k = a then v :: Memory.spread t (a + 1) n else Memory.unlisted :: Memory.spread ((k, v) :: t) (a + 1) n

/-- The n bytes from address a on. -/
def Memory.readBytes (m : Memory) (a n : Nat) : List Byte := Memory.spread (m.filter (fun c => decide (a ≤ c.1))) a n

/-- Every byte from address lo to below hi becomes zero. -/
def Memory.clearRange (m : Memory) (lo hi : Nat) : Memory :=
  m.filter (fun c => decide (c.1 < lo) || decide (hi ≤ c.1))

/-- The listed cells of consecutive bytes from address a on. -/
def Memory.ofBytes (a : Nat) : List Byte → Memory
  | [] => []
  | b :: bs => if b = Memory.unlisted then Memory.ofBytes (a + 1) bs else (a, b) :: Memory.ofBytes (a + 1) bs

/-- Replace what a table lists for n keys from a on by the entries given. -/
def Table.overlay {α : Type} (t : Table α) (a n : Nat) (new : Table α) : Table α :=
  t.filter (fun c => decide (c.1 < a)) ++ new ++ t.filter (fun c => decide (a + n ≤ c.1))

/-- Write consecutive bytes from address a on. -/
def Memory.patch (m : Memory) (a : Nat) (bs : List Byte) : Memory := Table.overlay m a bs.length (Memory.ofBytes a bs)

/-- Write consecutive bytes from address a on, each only where its mask bit is set. -/
def Memory.writeMasked (m : Memory) (a : Nat) (l : List (Bool × Byte)) : Memory :=
  m.patch a (List.zipWith (fun e old => if e.1 then e.2 else old) l (m.readBytes a l.length))

/-- The cells of n addresses from src on, as they lie from dst on. -/
def Memory.shifted (m : Memory) (src dst n : Nat) : Memory :=
  (m.filter (fun c => decide (src ≤ c.1) && decide (c.1 < src + n))).map (fun c => (c.1 - src + dst, c.2))

end Sys2Proof
end

