-- ==== Sys2Proof/Machine/Bytes.lean ====
section
/-! DEFINITION. Byte order: numbers as bytes, least significant byte first (R274, R381, R439). -/
namespace Sys2Proof

/-- The n low bytes of v, least significant first. -/
def leBytes : Nat → Nat → List Byte
  | 0, _ => []
  | n + 1, v => BitVec.ofNat 8 v :: leBytes n (v / 256)

/-- A byte string read least significant byte first. -/
def ofLE : List Byte → Nat
  | [] => 0
  | b :: bs => b.toNat + 256 * ofLE bs

/-- The n low bytes of v, most significant first (R274: digests and signature values). -/
def beBytes (n v : Nat) : List Byte := (leBytes n v).reverse

/-- A byte string read most significant byte first. -/
def ofBE (bs : List Byte) : Nat := ofLE bs.reverse

/-- n bytes of a string from offset off; bytes past its end read as zero. -/
def sliceBytes (bs : List Byte) (off n : Nat) : List Byte :=
  let t := (bs.drop off).take n
  t ++ List.replicate (n - t.length) 0

/-- A little-endian field of n bytes at offset off. -/
def fieldLE (bs : List Byte) (off n : Nat) : Nat := ofLE (sliceBytes bs off n)

/-- Replace the bytes of a string from offset off on, zero-filling a gap (a window's bytes, R378). -/
def spliceBytes (bs : List Byte) (off : Nat) (new : List Byte) : List Byte :=
  sliceBytes bs 0 off ++ new ++ bs.drop (off + new.length)

/-- Every byte is zero. -/
def allZero (bs : List Byte) : Bool := bs.all (fun b => b == 0)

/-- Cut a byte string into pieces of n bytes (n > 0), at most fuel of them. -/
def chunksOf (n : Nat) : Nat → List Byte → List (List Byte)
  | 0, _ => []
  | _ + 1, [] => []
  | f + 1, b :: bs => (b :: bs).take n :: chunksOf n f ((b :: bs).drop n)

/-- The ASCII bytes of a string. -/
def asciiBytes (s : String) : List Byte := s.toList.map (fun c => BitVec.ofNat 8 c.toNat)

/-- Lane k of a vector register (R102). -/
def lane (v : Lanes) (k : Nat) : BitVec 32 := v.extractLsb' (32 * k) 32

/-- Packed element j of width w of a 512-bit register (R102). -/
def packed (w j : Nat) (v : Lanes) : Nat := (v.toNat >>> (w * j)) % 2 ^ w

/-- A register from a function giving lane k, for k below n. -/
def lanesFrom (f : Nat → BitVec 32) : Nat → Nat
  | 0 => 0
  | n + 1 => lanesFrom f n + (f n).toNat * 2 ^ (32 * n)

/-- A whole register from its 16 lanes. -/
def mkLanes (f : Nat → BitVec 32) : Lanes := BitVec.ofNat 512 (lanesFrom f 16)

/-- The number formed by n elements of width w, element j at bits w·j on (R102). -/
def packFrom (w : Nat) (f : Nat → Nat) : Nat → Nat
  | 0 => 0
  | n + 1 => packFrom w f n + (f n % 2 ^ w) * 2 ^ (w * n)

/-- The 64 bytes of a register, byte 0 first. -/
def lanesBytes (v : Lanes) : List Byte := leBytes 64 v.toNat

/-- A register from 64 bytes. -/
def lanesOfBytes (bs : List Byte) : Lanes := BitVec.ofNat 512 (ofLE (bs.take 64))

/-- A mask of lanes as a mask of register bits: lane k enabled gives 32 ones. -/
def laneMask (en : Nat → Bool) : Lanes :=
  mkLanes (fun k => if en k then 0xFFFFFFFF#32 else 0#32)

/-- The 16 bytes of a flit, byte 0 = bits [7:0] (R200). -/
def flitBytes (f : Flit) : List Byte := leBytes 16 f.toNat

/-- A flit from 16 bytes. -/
def flitOfBytes (bs : List Byte) : Flit := BitVec.ofNat 128 (ofLE (bs.take 16))

end Sys2Proof
end

