-- ==== Sys2Proof/Machine/Drbg.lean ====
section
/-! DEFINITION. AES-256 of FIPS 197, and the CTR_DRBG of NIST SP 800-90A over it, with the derivation function and without
prediction resistance (R370). -/
namespace Sys2Proof

/-! AES-256. -/

/-- Substitution of bytes 0x00 to 0x7F. -/
def aesBoxLow : List Byte :=
  [0x63, 0x7C, 0x77, 0x7B, 0xF2, 0x6B, 0x6F, 0xC5, 0x30, 0x01, 0x67, 0x2B, 0xFE, 0xD7, 0xAB, 0x76,
   0xCA, 0x82, 0xC9, 0x7D, 0xFA, 0x59, 0x47, 0xF0, 0xAD, 0xD4, 0xA2, 0xAF, 0x9C, 0xA4, 0x72, 0xC0,
   0xB7, 0xFD, 0x93, 0x26, 0x36, 0x3F, 0xF7, 0xCC, 0x34, 0xA5, 0xE5, 0xF1, 0x71, 0xD8, 0x31, 0x15,
   0x04, 0xC7, 0x23, 0xC3, 0x18, 0x96, 0x05, 0x9A, 0x07, 0x12, 0x80, 0xE2, 0xEB, 0x27, 0xB2, 0x75,
   0x09, 0x83, 0x2C, 0x1A, 0x1B, 0x6E, 0x5A, 0xA0, 0x52, 0x3B, 0xD6, 0xB3, 0x29, 0xE3, 0x2F, 0x84,
   0x53, 0xD1, 0x00, 0xED, 0x20, 0xFC, 0xB1, 0x5B, 0x6A, 0xCB, 0xBE, 0x39, 0x4A, 0x4C, 0x58, 0xCF,
   0xD0, 0xEF, 0xAA, 0xFB, 0x43, 0x4D, 0x33, 0x85, 0x45, 0xF9, 0x02, 0x7F, 0x50, 0x3C, 0x9F, 0xA8,
   0x51, 0xA3, 0x40, 0x8F, 0x92, 0x9D, 0x38, 0xF5, 0xBC, 0xB6, 0xDA, 0x21, 0x10, 0xFF, 0xF3, 0xD2]

/-- Substitution of bytes 0x80 to 0xFF. -/
def aesBoxHigh : List Byte :=
  [0xCD, 0x0C, 0x13, 0xEC, 0x5F, 0x97, 0x44, 0x17, 0xC4, 0xA7, 0x7E, 0x3D, 0x64, 0x5D, 0x19, 0x73,
   0x60, 0x81, 0x4F, 0xDC, 0x22, 0x2A, 0x90, 0x88, 0x46, 0xEE, 0xB8, 0x14, 0xDE, 0x5E, 0x0B, 0xDB,
   0xE0, 0x32, 0x3A, 0x0A, 0x49, 0x06, 0x24, 0x5C, 0xC2, 0xD3, 0xAC, 0x62, 0x91, 0x95, 0xE4, 0x79,
   0xE7, 0xC8, 0x37, 0x6D, 0x8D, 0xD5, 0x4E, 0xA9, 0x6C, 0x56, 0xF4, 0xEA, 0x65, 0x7A, 0xAE, 0x08,
   0xBA, 0x78, 0x25, 0x2E, 0x1C, 0xA6, 0xB4, 0xC6, 0xE8, 0xDD, 0x74, 0x1F, 0x4B, 0xBD, 0x8B, 0x8A,
   0x70, 0x3E, 0xB5, 0x66, 0x48, 0x03, 0xF6, 0x0E, 0x61, 0x35, 0x57, 0xB9, 0x86, 0xC1, 0x1D, 0x9E,
   0xE1, 0xF8, 0x98, 0x11, 0x69, 0xD9, 0x8E, 0x94, 0x9B, 0x1E, 0x87, 0xE9, 0xCE, 0x55, 0x28, 0xDF,
   0x8C, 0xA1, 0x89, 0x0D, 0xBF, 0xE6, 0x42, 0x68, 0x41, 0x99, 0x2D, 0x0F, 0xB0, 0x54, 0xBB, 0x16]

/-- Substitution of a byte. -/
def aesSub (b : Byte) : Byte := if b.toNat < 128 then aesBoxLow.getD b.toNat 0 else aesBoxHigh.getD (b.toNat - 128) 0

/-- Twice a byte in the field of AES. -/
def aesDouble (b : Byte) : Byte := (b <<< 1) ^^^ (if b.getLsbD 7 then 0x1B else 0)

/-- Bytes added one by one. -/
def xorBytes (a b : List Byte) : List Byte := List.zipWith (fun x y => x ^^^ y) a b

/-- A column after its mixing. -/
def aesMixColumn : List Byte → List Byte
  | [a, b, c, d] =>
    let t := a ^^^ b ^^^ c ^^^ d
    [a ^^^ t ^^^ aesDouble (a ^^^ b), b ^^^ t ^^^ aesDouble (b ^^^ c), c ^^^ t ^^^ aesDouble (c ^^^ d), d ^^^ t ^^^ aesDouble (d ^^^ a)]
  | l => l

/-- Substitution and the shift of the rows: the state is 16 bytes, column by column. -/
def aesShift (st : List Byte) : List Byte := (List.range 16).map (fun i => aesSub (st.getD ((5 * i) % 16) 0))

/-- The four columns mixed. -/
def aesMix (st : List Byte) : List Byte := (chunksOf 4 4 st).flatMap aesMixColumn

/-- The next word of the key schedule, of index i, from the 8 before it, latest first. -/
def aesNextWord (i : Nat) (w : List (List Byte)) : List Byte :=
  let last := w.headD []
  let t :=
    if i % 8 == 0 then
      let r := (last.drop 1 ++ last.take 1).map aesSub
      xorBytes r [BitVec.ofNat 8 (2 ^ (i / 8 - 1)), 0, 0, 0]
    else if i % 8 == 4 then last.map aesSub
    else last
  xorBytes (w.getD 7 []) t

/-- n more words of the key schedule from word i on, latest first. -/
def aesWords : Nat → Nat → List (List Byte) → List (List Byte)
  | 0, _, w => w
  | n + 1, i, w => aesWords n (i + 1) (aesNextWord i w :: w)

/-- The 15 round keys of a 32-byte key. -/
def aesRoundKeys (key : List Byte) : List (List Byte) :=
  chunksOf 16 15 ((aesWords 52 8 (chunksOf 4 8 key).reverse).reverse.flatMap (fun w => w))

/-- The rounds that the keys left give: the last has no mixing. -/
def aesRounds : List (List Byte) → List Byte → List Byte
  | [], st => st
  | [k], st => xorBytes (aesShift st) k
  | k :: ks, st => aesRounds ks (xorBytes (aesMix (aesShift st)) k)

/-- AES-256 of one block under a key. -/
def aes256 (key block : List Byte) : List Byte :=
  match aesRoundKeys key with
  | [] => block
  | k :: ks => aesRounds ks (xorBytes block k)

/-! The derivation function. -/

/-- The chained encryption of blocks. -/
def aesChain (key : List Byte) (data : List Byte) : List Byte :=
  (chunksOf 16 (data.length / 16) data).foldl (fun c b => aes256 key (xorBytes c b)) (List.replicate 16 0)

/-- 48 bytes derived from an input. -/
def drbgDerive (input : List Byte) : List Byte :=
  let s := beBytes 4 input.length ++ beBytes 4 48 ++ input ++ [0x80]
  let s := s ++ List.replicate ((16 - s.length % 16) % 16) 0
  let k0 := (List.range 32).map (fun i => BitVec.ofNat 8 i)
  let t := (List.range 3).flatMap (fun i => aesChain k0 (beBytes 4 i ++ List.replicate 12 0 ++ s))
  let a := aes256 (t.take 32) (t.drop 32)
  let b := aes256 (t.take 32) a
  a ++ b ++ aes256 (t.take 32) b

/-! The generator. -/

/-- The working state: Key and V. -/
structure Drbg where
  key : BitVec 256
  v : BitVec 128
  deriving DecidableEq, Repr

/-- The state before instantiation, and after OFF. -/
def Drbg.zero : Drbg := ⟨0, 0⟩

/-- n blocks of the keystream, from the value of V after the one given. -/
def drbgBlocks (d : Drbg) (n : Nat) : List Byte :=
  (List.range n).flatMap (fun i => aes256 (beBytes 32 d.key.toNat) (beBytes 16 (d.v + BitVec.ofNat 128 (i + 1)).toNat))

/-- Update of the working state with 48 bytes. -/
def drbgUpdate (d : Drbg) (data : List Byte) : Drbg :=
  let t := xorBytes (drbgBlocks d 3) data
  ⟨BitVec.ofNat 256 (ofBE (t.take 32)), BitVec.ofNat 128 (ofBE (t.drop 32))⟩

/-- Instantiation from an entropy input and a nonce. -/
def drbgInstantiate (entropy nonce : List Byte) : Drbg := drbgUpdate Drbg.zero (drbgDerive (entropy ++ nonce))

/-- Reseed with an entropy input. -/
def drbgReseed (d : Drbg) (entropy : List Byte) : Drbg := drbgUpdate d (drbgDerive entropy)

/-- n bytes generated, and the state after them. -/
def drbgBytes (d : Drbg) (n : Nat) : List Byte × Drbg :=
  let b := (n + 15) / 16
  ((drbgBlocks d b).take n, drbgUpdate ⟨d.key, d.v + BitVec.ofNat 128 b⟩ (List.replicate 48 0))

end Sys2Proof
end

