-- ==== Sys2Proof/Machine/Carve.lean ====
section
/-! DEFINITION. CARVE-128 (R144 to R147): the keyed permutation of a 128-bit counter. -/
namespace Sys2Proof

/-- rotl32 of R89. -/
def rotl32 (x : BitVec 32) (n : Nat) : BitVec 32 := x.rotateLeft n

/-- Four 32-bit words: a key, a counter, a state or a block. -/
structure Quad where
  w0 : BitVec 32
  w1 : BitVec 32
  w2 : BitVec 32
  w3 : BitVec 32
  deriving DecidableEq, Repr

/-- Word i of a quad, i modulo 4. -/
def Quad.get (q : Quad) (i : Nat) : BitVec 32 :=
  match i % 4 with
  | 0 => q.w0 | 1 => q.w1 | 2 => q.w2 | _ => q.w3

/-- The words of a 128-bit value, bits [31:0] first. -/
def Quad.ofBits (x : BitVec 128) : Quad :=
  ⟨x.extractLsb' 0 32, x.extractLsb' 32 32, x.extractLsb' 64 32, x.extractLsb' 96 32⟩

/-- The 128-bit value of four words. -/
def Quad.bits (q : Quad) : BitVec 128 := q.w3 ++ q.w2 ++ q.w1 ++ q.w0

/-- The key of R144: a 112-bit seed above a 16-bit key stream number. -/
def carveKey (seed : BitVec 112) (keystream : BitVec 16) : BitVec 128 := seed ++ keystream

/-- The counter of R145. -/
def carveCtr (lap : BitVec 48) (element : BitVec 56) (draw : BitVec 24) : BitVec 128 := lap ++ element ++ draw

/-- One row of R147: the rotation amounts of a round. -/
structure Rot where
  a : Nat
  b : Nat
  c : Nat
  d : Nat
  deriving DecidableEq, Repr

/-- The table of R147, round 0 first. -/
def carveRots : List Rot :=
  [⟨7, 13, 20, 17⟩, ⟨19, 2, 12, 28⟩, ⟨11, 27, 5, 8⟩, ⟨26, 10, 30, 4⟩, ⟨3, 21, 15, 25⟩, ⟨22, 6, 27, 13⟩,
   ⟨14, 18, 4, 30⟩, ⟨29, 31, 11, 7⟩, ⟨9, 12, 28, 22⟩, ⟨17, 25, 6, 2⟩, ⟨5, 8, 19, 26⟩, ⟨24, 15, 3, 10⟩]

/-- Round r of R146 with rotations t. -/
def carveRound (k : Quad) (r : Nat) (t : Rot) (x : Quad) : Quad :=
  let c : BitVec 32 := BitVec.ofNat 32 (r + 1) * 0x6C8E9CF5
  let p := k.get r ^^^ c
  let q := k.get (r + 2) + c
  let x0 := x.w0 + (rotl32 x.w3 t.a ^^^ p)
  let x1 := x.w1 ^^^ rotl32 (x0 + x.w2) t.b
  let x2 := x.w2 + (rotl32 x1 t.c ^^^ q)
  let x3 := x.w3 ^^^ rotl32 (x2 + x0) t.d
  ⟨x0, x1, x2, x3⟩

/-- The rounds from round r on. -/
def carveRounds (k : Quad) : Nat → List Rot → Quad → Quad
  | _, [], x => x
  | r, t :: ts, x => carveRounds k (r + 1) ts (carveRound k r t x)

/-- Input whitening. -/
def carveIn (k x : Quad) : Quad := ⟨x.w0 ^^^ k.w0, x.w1 ^^^ k.w1, x.w2 ^^^ k.w2, x.w3 ^^^ k.w3⟩

/-- Output whitening. -/
def carveOut (k x : Quad) : Quad := ⟨x.w0 + k.w3, x.w1 + k.w2, x.w2 + k.w1, x.w3 + k.w0⟩

/-- carve128 of R146 on words. -/
def carve128 (k x : Quad) : Quad := carveOut k (carveRounds k 0 carveRots (carveIn k x))

/-- The block of a 128-bit key and counter. -/
def carveBlock (key ctr : BitVec 128) : Quad := carve128 (Quad.ofBits key) (Quad.ofBits ctr)

/-- The states of the rounds from round r on, for TRACE (R169). -/
def carveStates (k : Quad) : Nat → List Rot → Quad → List Quad
  | _, [], _ => []
  | r, t :: ts, x =>
    let y := carveRound k r t x
    (if ts.isEmpty then carveOut k y else y) :: carveStates k (r + 1) ts y

/-- The 14 states of TRACE (R169). -/
def carveTrace (key ctr : BitVec 128) : List Quad :=
  let k := Quad.ofBits key
  let x := Quad.ofBits ctr
  let y := carveIn k x
  x :: y :: carveStates k 0 carveRots y

end Sys2Proof
end

