-- ==== Sys2Proof/Machine/Real.lean ====
section
/-! DEFINITION. Real functions in fixed point with 256 fraction bits (Q256), for the tables and functions that the
spec defines as an exact real value rounded once (R100, R107, R163, R173, R339). The error of every function here is
far below 2^-200; log entry 6 says why one rounding of its result is the rounding of the exact value. -/
namespace Sys2Proof.Real256

/-- One in Q256. -/
def one : Nat := 2 ^ 256

/-- Floor of the exact square root, bit by bit. -/
def isqrtLoop (n : Nat) : Nat → Nat → Nat
  | 0, acc => acc
  | i + 1, acc =>
    let t := acc + 2 ^ i
    isqrtLoop n i (if t * t ≤ n then t else acc)

/-- isqrt of R162: the floor of the exact square root. -/
def isqrt (n : Nat) : Nat := isqrtLoop n (n.log2 / 2 + 1) 0

/-- Sum of t/(2k+1), t·z²/(2k+3), …, alternating when alt, for odd power series in z. -/
def oddSeries (alt : Bool) (z2 : Nat) : Nat → Nat → Nat → Int → Int
  | 0, _, _, acc => acc
  | f + 1, k, t, acc =>
    let term : Int := ((t / (2 * k + 1) : Nat) : Int)
    let acc' := if alt && k % 2 == 1 then acc - term else acc + term
    oddSeries alt z2 f (k + 1) (t * z2 / one) acc'

/-- ln x for x in Q256, 1 ≤ x ≤ 2, as 2·atanh((x−1)/(x+1)). -/
def ln (x : Nat) : Nat :=
  let z := (x - one) * one / (x + one)
  (2 * oddSeries false (z * z / one) 90 0 z 0).toNat

/-- ln 2 in Q256. -/
def ln2 : Nat := ln (2 * one)

/-- arctan(1/n) in Q256. -/
def atanInv (n : Nat) : Int :=
  let z := one / n
  oddSeries true (z * z / one) 130 0 z 0

/-- π in Q256. -/
def pi : Nat := (16 * atanInv 5 - 4 * atanInv 239).toNat

/-- Sum of the exponential series from term t = y^k/k! on. -/
def expSeries (y : Nat) : Nat → Nat → Nat → Nat → Nat
  | 0, _, _, acc => acc
  | f + 1, k, t, acc => expSeries y f (k + 1) (t * y / one / (k + 1)) (acc + t)

/-- e^y for y in Q256, 0 ≤ y < 1. -/
def exp (y : Nat) : Nat := expSeries y 70 0 one 0

/-- 2^f for f in Q256, 0 ≤ f < 1. -/
def exp2 (f : Nat) : Nat := exp (f * ln2 / one)

/-- log2 of m·2^e for m > 0, as a signed Q256 number. -/
def log2 (m : Nat) (e : Int) : Int :=
  let k := m.log2
  let x := m * one / 2 ^ k
  ((k : Int) + e) * (one : Int) + ((ln x * one / ln2 : Nat) : Int)

/-- sin (sine = true) or cos of y in Q256, 0 ≤ y < 2, by the Taylor series. -/
def sinCosSeries (y2 : Nat) : Nat → Nat → Nat → Int → Int
  | 0, _, _, acc => acc
  | f + 1, k, t, acc =>
    -- t = y^k / k!; the next term is t·y²/((k+1)(k+2)) with the other sign
    let acc' := if k % 4 < 2 then acc + (t : Int) else acc - (t : Int)
    sinCosSeries y2 f (k + 2) (t * y2 / one / ((k + 1) * (k + 2))) acc'

/-- sin y in Q256. -/
def sin (y : Nat) : Int := sinCosSeries (y * y / one) 60 1 y 0

/-- cos y in Q256. -/
def cos (y : Nat) : Int := sinCosSeries (y * y / one) 60 0 one 0

/-- A signed Q256 number times s, rounded to the nearest integer, ties away from zero. -/
def roundScaled (s : Nat) (x : Int) : Int :=
  let m := (x.natAbs * s * 2 + one) / (2 * one)
  if x < 0 then -(m : Int) else (m : Int)

end Sys2Proof.Real256
end

