-- ==== Sys2Proof/Machine/Fp.lean ====
section
/-! DEFINITION. The number formats of R90 to R98 and exact arithmetic on their values, rounded once. -/
namespace Sys2Proof

/-- A floating-point format of R90: exponent and fraction widths, bias, and which special encodings it has. -/
structure FpFmt where
  ew : Nat
  mw : Nat
  bias : Nat
  /-- the format has infinities (exponent all ones, fraction 0) -/
  hasInf : Bool
  /-- the format has NaN encodings -/
  hasNan : Bool
  deriving DecidableEq, Repr

namespace FpFmt
def fp32 : FpFmt := ⟨8, 23, 127, true, true⟩
def fp16 : FpFmt := ⟨5, 10, 15, true, true⟩
def bf16 : FpFmt := ⟨8, 7, 127, true, true⟩
def e4m3 : FpFmt := ⟨4, 3, 7, false, true⟩
def e5m2 : FpFmt := ⟨5, 2, 15, true, true⟩
def e3m2 : FpFmt := ⟨3, 2, 3, false, false⟩
def e2m3 : FpFmt := ⟨2, 3, 1, false, false⟩
def e2m1 : FpFmt := ⟨2, 1, 1, false, false⟩
def acc40 : FpFmt := ⟨10, 29, 511, true, true⟩
end FpFmt

/-- Width of the whole encoding. -/
def FpFmt.width (f : FpFmt) : Nat := 1 + f.ew + f.mw

/-- The canonical NaN of the result format (R92); 0 where the format has none. -/
def FpFmt.nanCode (f : FpFmt) : Nat :=
  if f.hasInf then (2 ^ f.ew - 1) * 2 ^ f.mw + 2 ^ (f.mw - 1)
  else if f.hasNan then 2 ^ (f.ew + f.mw) - 1
  else 0

/-- The code of the largest finite magnitude (R90). -/
def FpFmt.maxCode (f : FpFmt) : Nat :=
  if f.hasInf then (2 ^ f.ew - 1) * 2 ^ f.mw - 1
  else if f.hasNan then 2 ^ (f.ew + f.mw) - 2
  else 2 ^ (f.ew + f.mw) - 1

/-- The code of +∞ in a format that has infinities. -/
def FpFmt.infCode (f : FpFmt) : Nat := (2 ^ f.ew - 1) * 2 ^ f.mw

/-- The exponent of the smallest normal value. -/
def FpFmt.emin (f : FpFmt) : Int := 1 - (f.bias : Int)

/-- The exponent of the highest binade that holds finite values. -/
def FpFmt.emax (f : FpFmt) : Int :=
  ((f.maxCode / 2 ^ f.mw : Nat) : Int) - (f.bias : Int)

/-- A value of a floating-point format: NaN, an infinity, or (−1)^neg · m · 2^e exactly. -/
inductive FpVal where
  | nan
  | inf (neg : Bool)
  | fin (neg : Bool) (m : Nat) (e : Int)
  deriving DecidableEq, Repr

/-- The value of an encoding (R91). -/
def FpFmt.decode (f : FpFmt) (x : Nat) : FpVal :=
  let neg := bitOf x (f.ew + f.mw) == 1
  let ex := bitsOf x (f.ew + f.mw - 1) f.mw
  let fr := x % 2 ^ f.mw
  if f.hasInf && ex == 2 ^ f.ew - 1 then
    if fr == 0 then .inf neg else .nan
  else if !f.hasInf && f.hasNan && ex == 2 ^ f.ew - 1 && fr == 2 ^ f.mw - 1 then .nan
  else if ex == 0 then .fin neg fr (f.emin - (f.mw : Int))
  else .fin neg (2 ^ f.mw + fr) ((ex : Int) - (f.bias : Int) - (f.mw : Int))

/-- The rounding choices of R111 and R115; stochastic carries the width and the random value. -/
inductive Rnd where
  | rne
  | rtz
  | sr (w u : Nat)
  deriving DecidableEq, Repr

/-- Round a ≥ 0 given as the quotient num/2^sh to an integer under R111 and R115. -/
def roundQuot (r : Rnd) (num : Nat) (sh : Nat) : Nat :=
  let q := num / 2 ^ sh
  let rem := num % 2 ^ sh
  if rem == 0 then q
  else match r with
    | .rtz => q
    | .rne => if 2 * rem > 2 ^ sh then q + 1 else if 2 * rem < 2 ^ sh then q else q + q % 2
    | .sr w u => if u < rem * 2 ^ w / 2 ^ sh then q + 1 else q

/-- m·2^e as a multiple of 2^q, rounded: the integer k with result k·2^q. -/
def roundTo (r : Rnd) (m : Nat) (e q : Int) : Nat :=
  if q ≤ e then m * 2 ^ (e - q).toNat else roundQuot r m (q - e).toNat

/-- The spacing exponent of the format's grid at m·2^e, m > 0, the extended grid above the largest finite value
included (R110). -/
def FpFmt.spacing (f : FpFmt) (m : Nat) (e : Int) : Int :=
  min (max ((m.log2 : Int) + e) f.emin) f.emax - (f.mw : Int)

/-- The magnitude code of k·2^q, for q a spacing exponent of the format. -/
def FpFmt.magCode (f : FpFmt) (k : Nat) (q : Int) : Nat :=
  ((q + (f.mw : Int) + (f.bias : Int)).toNat * 2 ^ f.mw + k) - 2 ^ f.mw

/-- Sticky flag bits of R80. -/
def flagInvalid : BitVec 16 := 1
def flagOverflow : BitVec 16 := 2
def flagUnderflow : BitVec 16 := 4
def flagSaturate : BitVec 16 := 8
def flagDeep : BitVec 16 := 16

/-- A rounded magnitude: its code, and whether it exceeded the largest finite value, and whether a non-zero value
became zero. -/
structure Rounded where
  code : Nat
  overflows : Bool
  zeroed : Bool
  deriving DecidableEq, Repr

/-- Round m·2^e to the format's extended grid (R110, R111). code is meaningful when over is false. -/
def FpFmt.round (f : FpFmt) (r : Rnd) (m : Nat) (e : Int) : Rounded :=
  if m == 0 then ⟨0, false, false⟩
  else
    let q := f.spacing m e
    let k := roundTo r m e q
    let c := f.magCode k q
    ⟨c, decide (f.maxCode < c), k == 0⟩

/-- The sign bit of an encoding. -/
def FpFmt.signed (f : FpFmt) (neg : Bool) (code : Nat) : Nat :=
  if neg then code + 2 ^ (f.ew + f.mw) else code

/-- Round an exact value once to a format with infinities, to nearest even (R104): the code and the sticky flags
OVERFLOW and UNDERFLOW of R80 and R106. -/
def FpFmt.encode (f : FpFmt) : FpVal → Nat × BitVec 16
  | .nan => (f.nanCode, 0)
  | .inf neg => (f.signed neg f.infCode, 0)
  | .fin neg m e =>
    let r := f.round .rne m e
    if r.overflows then (f.signed neg f.infCode, flagOverflow)
    else (f.signed neg r.code, if r.zeroed then flagUnderflow else 0)

/-- Exact sum of two finite values; an exact zero takes the sign R105 gives it. -/
def finAdd (n1 : Bool) (m1 : Nat) (e1 : Int) (n2 : Bool) (m2 : Nat) (e2 : Int) : FpVal :=
  let e := min e1 e2
  let a : Int := (m1 * 2 ^ (e1 - e).toNat : Nat)
  let b : Int := (m2 * 2 ^ (e2 - e).toNat : Nat)
  let s := (if n1 then -a else a) + (if n2 then -b else b)
  if s == 0 then .fin (m1 == 0 && m2 == 0 && n1 && n2) 0 e
  else .fin (decide (s < 0)) s.natAbs e

/-- The exact sum of two values, and INVALID for ∞ − ∞ (R105, R106). -/
def FpVal.add : FpVal → FpVal → FpVal × BitVec 16
  | .nan, _ => (.nan, 0)
  | _, .nan => (.nan, 0)
  | .inf a, .inf b => if a == b then (.inf a, 0) else (.nan, flagInvalid)
  | .inf a, .fin _ _ _ => (.inf a, 0)
  | .fin _ _ _, .inf b => (.inf b, 0)
  | .fin n1 m1 e1, .fin n2 m2 e2 => (finAdd n1 m1 e1 n2 m2 e2, 0)

/-- Sign inversion. -/
def FpVal.neg : FpVal → FpVal
  | .nan => .nan
  | .inf a => .inf (!a)
  | .fin n m e => .fin (!n) m e

/-- The exact product, and INVALID for 0 × ∞ (R106). -/
def FpVal.mul : FpVal → FpVal → FpVal × BitVec 16
  | .nan, _ => (.nan, 0)
  | _, .nan => (.nan, 0)
  | .inf a, .inf b => (.inf (a != b), 0)
  | .inf a, .fin n m _ => if m == 0 then (.nan, flagInvalid) else (.inf (a != n), 0)
  | .fin n m _, .inf b => if m == 0 then (.nan, flagInvalid) else (.inf (n != b), 0)
  | .fin n1 m1 e1, .fin n2 m2 e2 => (.fin (n1 != n2) (m1 * m2) (e1 + e2), 0)

/-- The exact a·b + c: INVALID of the product or of the sum (R106: even when the addend is NaN). -/
def FpVal.fma (a b c : FpVal) : FpVal × BitVec 16 :=
  let p := FpVal.mul a b
  let s := FpVal.add p.1 c
  (s.1, p.2 ||| s.2)

/-- Exact comparison of two finite values. -/
def finLt (n1 : Bool) (m1 : Nat) (e1 : Int) (n2 : Bool) (m2 : Nat) (e2 : Int) : Bool :=
  match finAdd n1 m1 e1 (!n2) m2 e2 with
  | .fin n m _ => n && m != 0
  | _ => false

/-- Less-than on numbers; false when either is NaN (R105). −0 and +0 are equal here. -/
def FpVal.lt : FpVal → FpVal → Bool
  | .nan, _ => false
  | _, .nan => false
  | .inf a, .inf b => a && !b
  | .inf a, .fin _ _ _ => a
  | .fin _ _ _, .inf b => !b
  | .fin n1 m1 e1, .fin n2 m2 e2 => finLt n1 m1 e1 n2 m2 e2

/-- Equality on numbers; false when either is NaN; +0 equals −0 (R105). -/
def FpVal.eqv (a b : FpVal) : Bool :=
  match a, b with
  | .nan, _ => false
  | _, .nan => false
  | .inf x, .inf y => x == y
  | .inf _, .fin _ _ _ => false
  | .fin _ _ _, .inf _ => false
  | .fin n1 m1 e1, .fin n2 m2 e2 =>
    match finAdd n1 m1 e1 (!n2) m2 e2 with
    | .fin _ m _ => m == 0
    | _ => false

/-- Whether the value is a zero with the given sign. -/
def FpVal.isZero (neg : Bool) : FpVal → Bool
  | .fin n m _ => m == 0 && n == neg
  | _ => false

/-- The order of VMAXI with NaN set aside: as lt, with −0 below +0 (R105). -/
def FpVal.ordLt (a b : FpVal) : Bool :=
  a.lt b || (a.isZero true && b.isZero false)

/-- The value of an FP32 word. -/
def fp32 (x : BitVec 32) : FpVal := FpFmt.fp32.decode x.toNat

/-- Whether an FP32 word is a NaN encoding. -/
def fp32IsNan (x : BitVec 32) : Bool := fp32 x == .nan

/-- The canonical FP32 NaN (R92). -/
def fp32Nan : BitVec 32 := 0x7FC00000

/-- Round an exact value once to FP32, adding the flags already raised. -/
def toFp32 (r : FpVal × BitVec 16) : BitVec 32 × BitVec 16 :=
  let c := FpFmt.fp32.encode r.1
  (BitVec.ofNat 32 c.1, r.2 ||| c.2)

def fpAdd (a b : BitVec 32) : BitVec 32 × BitVec 16 := toFp32 ((fp32 a).add (fp32 b))
def fpSub (a b : BitVec 32) : BitVec 32 × BitVec 16 := toFp32 ((fp32 a).add (fp32 b).neg)
def fpMul (a b : BitVec 32) : BitVec 32 × BitVec 16 := toFp32 ((fp32 a).mul (fp32 b))
def fpFma (a b c : BitVec 32) : BitVec 32 × BitVec 16 := toFp32 ((fp32 a).fma (fp32 b) (fp32 c))

/-- FMIN (R105). No flag: FMIN produces NaN from NaN operands only. -/
def fpMin (a b : BitVec 32) : BitVec 32 :=
  if fp32IsNan a || fp32IsNan b then fp32Nan else if (fp32 b).ordLt (fp32 a) then b else a

/-- FMAX (R105). -/
def fpMax (a b : BitVec 32) : BitVec 32 :=
  if fp32IsNan a || fp32IsNan b then fp32Nan else if (fp32 a).ordLt (fp32 b) then b else a

/-! Special functions (R107, R108): the exact result rounded once. A result that is not a dyadic number is given with
one more low bit set, which no rounding to 24 bits can tell from the exact value. -/

/-- 2^(m·2^e) (with sign) for a finite operand: EXP2. Operands of magnitude 2^9 or more are far outside the range. -/
def exp2Val (neg : Bool) (m : Nat) (e : Int) : FpVal :=
  if m == 0 then .fin false 1 0
  else if (m.log2 : Int) + e ≥ 9 then (if neg then .fin false 1 (-1000) else .fin false 1 1000)
  else
    let x : Int := (if neg then -1 else 1) * ((if e ≥ 0 then m * 2 ^ e.toNat * Real256.one
      else m * Real256.one / 2 ^ (-e).toNat : Nat) : Int)
    let n := x / (Real256.one : Int)
    let f := (x % (Real256.one : Int)).toNat
    if f == 0 then .fin false 1 n
    else .fin false (2 * Real256.exp2 f + 1) (n - 257)

/-- EXP2 of an FP32 word. -/
def fpExp2 (a : BitVec 32) : BitVec 32 × BitVec 16 :=
  match fp32 a with
  | .nan => (fp32Nan, 0)
  | .inf neg => if neg then (0, 0) else (BitVec.ofNat 32 FpFmt.fp32.infCode, 0)
  | .fin neg m e => toFp32 (exp2Val neg m e, 0)

/-- LOG2 of an FP32 word. -/
def fpLog2 (a : BitVec 32) : BitVec 32 × BitVec 16 :=
  match fp32 a with
  | .nan => (fp32Nan, 0)
  | .inf neg => if neg then (fp32Nan, flagInvalid) else (BitVec.ofNat 32 FpFmt.fp32.infCode, 0)
  | .fin neg m e =>
    if m == 0 then (0xFF800000, 0)
    else if neg then (fp32Nan, flagInvalid)
    else if m == 2 ^ m.log2 then
      let k := (m.log2 : Int) + e
      toFp32 (.fin (decide (k < 0)) k.natAbs 0, 0)
    else
      let l := Real256.log2 m e
      toFp32 (.fin (decide (l < 0)) (2 * l.natAbs + 1) (-257), 0)

/-- RCP of an FP32 word. -/
def fpRcp (a : BitVec 32) : BitVec 32 × BitVec 16 :=
  match fp32 a with
  | .nan => (fp32Nan, 0)
  | .inf neg => (if neg then 0x80000000 else 0, 0)
  | .fin neg m e =>
    if m == 0 then (if neg then 0xFF800000 else 0x7F800000, 0)
    else
      let q := 2 ^ 64 / m
      toFp32 (.fin neg (2 * q + (if 2 ^ 64 % m == 0 then 0 else 1)) (-65 - e), 0)

/-- RSQRT of an FP32 word. -/
def fpRsqrt (a : BitVec 32) : BitVec 32 × BitVec 16 :=
  match fp32 a with
  | .nan => (fp32Nan, 0)
  | .inf neg => if neg then (fp32Nan, flagInvalid) else (0, 0)
  | .fin neg m e =>
    if m == 0 then (if neg then 0xFF800000 else 0x7F800000, 0)
    else if neg then (fp32Nan, flagInvalid)
    else
      -- m·2^e = m'·2^(2h); 1/sqrt = sqrt(2^128/m')·2^(−64−h)
      let odd := e % 2 == 1
      let m' := if odd then 2 * m else m
      let h := (if odd then e - 1 else e) / 2
      let q := Real256.isqrt (2 ^ 128 / m')
      toFp32 (.fin false (2 * q + (if q * q * m' == 2 ^ 128 then 0 else 1)) (-65 - h), 0)

/-! ACC40 (R101, R127, R128). -/

/-- The canonical ACC40 NaN. -/
def acc40Nan : BitVec 40 := BitVec.ofNat 40 FpFmt.acc40.nanCode

/-- Round an exact value once to ACC40; an exact zero is +0 (R126, R128). -/
def toAcc40 : FpVal → BitVec 40
  | .fin neg m e => if m == 0 then 0 else BitVec.ofNat 40 (FpFmt.acc40.encode (.fin neg m e)).1
  | v => BitVec.ofNat 40 (FpFmt.acc40.encode v).1

/-- The value of an ACC40 word. -/
def acc40 (x : BitVec 40) : FpVal := FpFmt.acc40.decode x.toNat

/-- add40 of R128: the sum and the INVALID flag. -/
def add40 (a b : BitVec 40) : BitVec 40 × BitVec 16 :=
  let s := (acc40 a).add (acc40 b)
  (toAcc40 s.1, s.2)

end Sys2Proof
end

