-- ==== Sys2Proof/Machine/Convert.lean ====
section
/-! DEFINITION. Conversions between number formats: element values, narrowing, widening, block scales, LP16
arithmetic (R93 to R100, R109 to R120). -/
namespace Sys2Proof

/-- Element width of a format code of R60 (R102). -/
def fmtWidth (code : Nat) : Nat :=
  match code with
  | 0 => 32 | 1 => 16 | 2 => 16 | 3 => 8 | 4 => 8 | 5 => 6 | 6 => 6 | 7 => 4
  | 8 => 8 | 9 => 8 | 10 => 4 | 11 => 2 | 12 => 1 | 13 => 16 | 14 => 16 | _ => 40

/-- The floating-point format of a code of R60, where it names one (R90). -/
def fpFmtOf (code : Nat) : Option FpFmt :=
  match code with
  | 0 => some .fp32 | 1 => some .fp16 | 2 => some .bf16 | 3 => some .e4m3 | 4 => some .e5m2
  | 5 => some .e3m2 | 6 => some .e2m3 | 7 => some .e2m1 | 15 => some .acc40
  | _ => none

/-- An integer as an exact value times 2^e. -/
def intVal (i : Int) (e : Int) : FpVal := .fin (decide (i < 0)) i.natAbs e

/-- LP_ZERO, the log of probability zero (R97). -/
def lpZero : Nat := 0x8000

/-- The integer of an LP16 encoding other than LP_ZERO; an encoding above 0 reads as 0 (R97). -/
def lpInt (x : Nat) : Int := min 0 (toSigned 16 x)

/-- The exact value of an encoding of a format code (R91, R93, R95 to R98). -/
def formatVal (code x : Nat) : FpVal :=
  match fpFmtOf code with
  | some f => f.decode x
  | none =>
    match code with
    | 8 => if x == 255 then .nan else .fin false 1 ((x : Int) - 127)
    | 9 => intVal (toSigned 8 x) 0
    | 10 => intVal (toSigned 4 x) 0
    | 11 => if x == 2 then .fin false 0 0 else intVal (toSigned 2 x) 0
    | 12 => if x == 0 then .fin true 1 0 else .fin false 1 0
    | 13 => if x == lpZero then .inf true else intVal (lpInt x) (-10)
    | _ => .fin false x (-16)

/-! Narrowing. -/

/-- Narrowing to a floating-point target (R110 to R113, R115). DESIGN CHOICE (assumption 11): R112 has no row for an FP32 target;
a value beyond its range becomes, with RTZ, the largest finite value, with the other modes infinity, and sets OVERFLOW. -/
def narrowFloat (f : FpFmt) (r : Rnd) (v : FpVal) : Nat × BitVec 16 :=
  match v with
  | .nan => (f.nanCode, if f.hasNan then 0 else flagInvalid)
  | .inf neg =>
    if f.hasInf then (f.signed neg f.infCode, 0)
    else if f.hasNan then (f.nanCode, flagInvalid)
    else (f.signed neg f.maxCode, flagInvalid)
  | .fin neg m e =>
    let q := f.round r m e
    if q.overflows then
      (f.signed neg (if f.hasInf && r != .rtz then f.infCode else f.maxCode), flagOverflow)
    else (f.signed neg q.code, if q.zeroed then flagUnderflow else 0)

/-- The signed integer multiple of 2^q that a finite value rounds to (R110: the sign is applied after rounding). -/
def roundSigned (r : Rnd) (neg : Bool) (m : Nat) (e q : Int) : Int :=
  let k : Int := (roundTo r m e q : Nat)
  if neg then -k else k

/-- Narrowing to an integer format of w bits with limits lo and hi (R112). -/
def narrowInt (w : Nat) (lo hi : Int) (r : Rnd) (v : FpVal) : Nat × BitVec 16 :=
  match v with
  | .nan => (0, flagInvalid)
  | .inf neg => (ofSigned w (if neg then lo else hi), flagInvalid)
  | .fin neg m e =>
    let k := roundSigned r neg m e 0
    if k < lo then (ofSigned w lo, flagSaturate)
    else if hi < k then (ofSigned w hi, flagSaturate)
    else (ofSigned w k, 0)

/-- Narrowing to LP16 (R112). -/
def narrowLp (r : Rnd) (v : FpVal) : Nat × BitVec 16 :=
  match v with
  | .nan => (lpZero, flagInvalid)
  | .inf neg => if neg then (lpZero, 0) else (0, flagSaturate)
  | .fin neg m e =>
    let k := roundSigned r neg m e (-10)
    if 0 < k then (0, flagSaturate)
    else if k < -32767 then (lpZero, flagSaturate)
    else (ofSigned 16 k, 0)

/-- Narrowing to PQ16 (R112): every finite value below 0 gives 0 with SATURATE. -/
def narrowPq (r : Rnd) (v : FpVal) : Nat × BitVec 16 :=
  match v with
  | .nan => (0, flagInvalid)
  | .inf neg => (if neg then 0 else 0xFFFF, flagSaturate)
  | .fin neg m e =>
    if m == 0 then (0, 0)
    else if neg then (0, flagSaturate)
    else
      let k := roundTo r m e (-16)
      if 0xFFFF < k then (0xFFFF, flagSaturate) else (k, 0)

/-- floor(p·65536) of R118 for p = (clamp(x, −1, 1) + 1)/2. -/
def binThreshold : FpVal → Nat
  | .nan => 65536
  | .inf neg => if neg then 0 else 65536
  | .fin neg m e =>
    -- |x| · 32768 rounded down, and whether it was exact
    let num := if 0 ≤ e then m * 2 ^ e.toNat * 32768 else m * 32768
    let den := if 0 ≤ e then 1 else 2 ^ (-e).toNat
    if neg then
      let up := (num + den - 1) / den
      if 32768 ≤ up then 0 else 32768 - up
    else min 65536 (32768 + num / den)

/-- Narrowing to BIN1 (R114, R118). -/
def narrowBin (r : Rnd) (v : FpVal) : Nat × BitVec 16 :=
  match v with
  | .nan => (1, flagInvalid)
  | v =>
    match r with
    | .sr _ u => (if u < binThreshold v then 1 else 0, 0)
    | _ => (if v.lt (.fin false 0 0) then 0 else 1, 0)

/-- Narrow one value to the format of a code: its encoding and the sticky flags it raises (R109 to R118). -/
def narrow (code : Nat) (r : Rnd) (v : FpVal) : Nat × BitVec 16 :=
  match fpFmtOf code with
  | some f => narrowFloat f r v
  | none =>
    match code with
    | 9 => narrowInt 8 (-128) 127 r v
    | 10 => narrowInt 4 (-8) 7 r v
    | 11 => narrowInt 2 (-1) 1 r v
    | 12 => narrowBin r v
    | 13 => narrowLp r v
    | _ => narrowPq r v

/-- Whether CVTN accepts a target code (R109). -/
def narrowTarget (code : Nat) : Bool := (1 ≤ code && code ≤ 7) || (9 ≤ code && code ≤ 14)

/-- Widen one element to FP32, exactly; no flag (R119). -/
def widen (code x : Nat) : BitVec 32 :=
  BitVec.ofNat 32 (FpFmt.fp32.encode (formatVal code x)).1

/-- Whether CVTW accepts a source code and a group (R120). -/
def widenSource (code g : Nat) : Bool :=
  code != 0 && code != 15 && (fmtWidth code != 16 || g ≤ 1)

/-! Block scale (R94). -/

/-- emax of R94 for an element format code. -/
def blockEmax (code : Nat) : Int :=
  match code with
  | 3 => 8 | 4 => 15 | 5 => 4 | _ => 2

/-- floor_log2 of the largest magnitude of a list of finite values; none when all are zero. -/
def maxLog2 : List FpVal → Option Int
  | [] => none
  | v :: vs =>
    match v, maxLog2 vs with
    | .fin _ m e, r =>
      if m == 0 then r
      else match r with
        | none => some ((m.log2 : Int) + e)
        | some k => some (max k ((m.log2 : Int) + e))
    | _, r => r

/-- VSCALE of 32 FP32 values (R94): the E8M0 byte and the flags. -/
def vscale (code : Nat) (vs : List FpVal) : Nat × BitVec 16 :=
  let infs := vs.any (fun v => match v with | .inf _ => true | _ => false)
  let nans := vs.any (fun v => v == .nan)
  if infs || nans then (0xFF, if infs then flagInvalid else 0)
  else
    match maxLog2 vs with
    | none => (0x7F, 0)
    | some k => ((max (-127) (min 127 (k - blockEmax code)) + 127).toNat, 0)

/-! LP16 arithmetic. -/

/-- LPMUL of two encodings (R99). -/
def lpMul (a b : Nat) : Nat × BitVec 16 :=
  if a == lpZero || b == lpZero then (lpZero, 0)
  else
    let s := lpInt a + lpInt b
    if s < -32767 then (lpZero, flagSaturate) else (ofSigned 16 s, 0)

/-- 2^(−d/1024) in Q256. -/
def lpPow (d : Nat) : Nat :=
  let k := (d + 1023) / 1024
  Real256.exp2 ((1024 * k - d) * Real256.one / 1024) / 2 ^ k

/-- Entry G[d] of R100: 1,024 × log2(1 + 2^(−d/1024)) rounded to the nearest integer. -/
def lpG (d : Nat) : Nat :=
  (Real256.roundScaled 1024 ((Real256.ln (Real256.one + lpPow d) * Real256.one / Real256.ln2 : Nat) : Int)).toNat

/-- LPADD of two encodings (R100). -/
def lpAdd (a b : Nat) : Nat × BitVec 16 :=
  if a == lpZero then (if b == lpZero then (lpZero, 0) else (ofSigned 16 (lpInt b), 0))
  else if b == lpZero then (ofSigned 16 (lpInt a), 0)
  else
    let m := max (lpInt a) (lpInt b)
    let d := (m - min (lpInt a) (lpInt b)).toNat
    let r := m + (if d < 12288 then (lpG d : Int) else 0)
    if 0 < r then (0, flagSaturate) else (ofSigned 16 r, 0)

end Sys2Proof
end

