-- ==== Sys2Proof/Machine/Chunk.lean ====
section
/-! DEFINITION. The matrix unit: chunk sums, residue check, carry stack and collapse (R121 to R142). -/
namespace Sys2Proof

/-- Chunk length K of an operand format (R121). -/
def chunkLen (fmt : Nat) : Nat :=
  match fmt with
  | 7 => 32 | 10 => 32 | 11 => 32 | 12 => 256 | _ => 16

/-- Whether MMA accepts the format code (R67). -/
def mmaFormat (fmt : Nat) : Bool := (1 ≤ fmt && fmt ≤ 7) || (9 ≤ fmt && fmt ≤ 12)

/-- Whether PART is permitted for the format (R121). -/
def mmaPart (fmt part : Nat) : Bool :=
  part ≤ 2 || !(fmt == 1 || fmt == 2 || fmt == 12)

/-- Whether the format carries block scales (R121). -/
def mmaScaled (fmt : Nat) : Bool := 3 ≤ fmt && fmt ≤ 7

/-- Whether the format is FP16 or BF16, with a 4-cc interval and 9-cc retirement (R68). -/
def mmaSlow (fmt : Nat) : Bool := fmt == 1 || fmt == 2

/-- Exponent of the window unit (R127). -/
def windowExp (fmt : Nat) : Int :=
  match fmt with
  | 7 => -2 | 5 => -8 | 6 => -6 | 3 => -18 | 4 => -32 | 1 => -48 | _ => 0

/-- Row element k: the w-bit field of VA from quarter PART on (R122). -/
def rowElem (fmt part : Nat) (va : Lanes) (k : Nat) : FpVal :=
  formatVal fmt ((va.toNat >>> (128 * part + fmtWidth fmt * k)) % 2 ^ fmtWidth fmt)

/-- Column element k of output j in the 4,096-bit group string (R123). -/
def colElem (fmt : Nat) (g : Nat) (j k : Nat) : FpVal :=
  formatVal fmt ((g >>> (fmtWidth fmt * (j * chunkLen fmt + k))) % 2 ^ fmtWidth fmt)

/-- The pairs of elements of output j, k from 0. -/
def chunkPairs (fmt part : Nat) (va : Lanes) (g j : Nat) : List (FpVal × FpVal) :=
  (List.range (chunkLen fmt)).map (fun k => (rowElem fmt part va k, colElem fmt g j k))

/-- The signed magnitude ±m of a finite product, with an error added to the magnitude's value (a physical event at the
multiplier; 0 in ordinary running). -/
def signedProd (err : Int) (a b : FpVal) : Int × Int :=
  match a, b with
  | .fin n1 m1 e1, .fin n2 m2 e2 =>
    let p : Int := (m1 * m2 : Nat)
    ((if n1 != n2 then -(p + err) else p + err), e1 + e2)
  | _, _ => (0, 0)

/-- Sum of p·2^e over a list, as an integer multiple of 2^u for u at or below every e. -/
def sumAt (u : Int) : List (Int × Int) → Int
  | [] => 0
  | (p, e) :: t => p * (2 ^ (e - u).toNat : Nat) + sumAt u t

/-- The residue ρ[k] of one finite product, with q in window units (R136). -/
def rho (u : Int) (a b : FpVal) : Nat :=
  match a, b with
  | .fin n1 m1 e1, .fin n2 m2 e2 =>
    let r := ((m1 % 7) * (m2 % 7) * 2 ^ (((e1 + e2 - u) % 3).toNat)) % 7
    if n1 != n2 then (7 - r) % 7 else r
  | _, _ => 0

/-- Sum of the residues of a chunk, modulo 7. -/
def rhoSum (u : Int) : List (FpVal × FpVal) → Nat
  | [] => 0
  | (a, b) :: t => (rho u a b + rhoSum u t) % 7

/-- Smallest exponent of the products of a chunk. -/
def minExp : List (Int × Int) → Int
  | [] => 0
  | [(_, e)] => e
  | (_, e) :: t => min e (minExp t)

/-- What one output of an MMA forms: the value entering the carry stack, the flags, and whether the residue check
passed. -/
structure ChunkOut where
  value : BitVec 40
  flags : BitVec 16
  ok : Bool
  deriving DecidableEq, Repr

/-- Scale of an E8M0 byte as an exponent; none for NaN (R93). -/
def scaleExp (b : Nat) : Option Int := if b == 255 then none else some ((b : Int) - 127)

/-- A product is infinite with the given sign. -/
def prodInf (neg : Bool) (p : FpVal × FpVal) : Bool := (p.1.mul p.2).1 == .inf neg

/-- The errors of the BF16 products of output j (16 per output) or, for another format, of its window sum. -/
def errAt (err : List Int) (i : Nat) : Int := err.getD i 0

/-- Signed products with the physical error of each product (BF16), k from k0 on. -/
def errProds (err : List Int) (k0 : Nat) : List (FpVal × FpVal) → List (Int × Int)
  | [] => []
  | (a, b) :: t => signedProd (errAt err k0) a b :: errProds err (k0 + 1) t

/-- The BF16 check: every significand product has the residue of its operands (R136). -/
def bf16Ok (err : List Int) (k0 : Nat) : List (FpVal × FpVal) → Bool
  | [] => true
  | (a, b) :: t =>
    (match a, b with
      | .fin _ m1 _, .fin _ m2 _ =>
        decide ((((m1 * m2 : Nat) : Int) + errAt err k0) % 7 = (((m1 % 7) * (m2 % 7) % 7 : Nat) : Int))
      | _, _ => true)
    && bf16Ok err (k0 + 1) t

/-- Output j of an MMA (R125 to R127, R136): fmt, the pairs of its chunk, row and column scale bytes, and the
physical errors of the unit. DESIGN CHOICE (assumption 11): an output that a 0xFF block scale makes NaN is not residue-checked,
though its products may be finite: R136 exempts outputs with a NaN or infinite product. -/
def chunkOut (fmt j : Nat) (ps : List (FpVal × FpVal)) (sr sc : Nat) (err : List Int) : ChunkOut :=
  let sNan := mmaScaled fmt && (sr == 255 || sc == 255)
  let sExp : Int := if mmaScaled fmt then (sr : Int) - 127 + ((sc : Int) - 127) else 0
  let anyNan := ps.any (fun p => p.1 == .nan || p.2 == .nan)
  let pInf := ps.any (prodInf false)
  let nInf := ps.any (prodInf true)
  let zInf := ps.any (fun p => (p.1.mul p.2).2 != 0)
  if anyNan || sNan then ⟨acc40Nan, 0, true⟩
  else if zInf then ⟨acc40Nan, flagInvalid, true⟩
  else if pInf && nInf then ⟨acc40Nan, flagInvalid, true⟩
  else if pInf then ⟨toAcc40 (.inf false), 0, true⟩
  else if nInf then ⟨toAcc40 (.inf true), 0, true⟩
  else if fmt == 2 then
    let prods := errProds err (16 * j) ps
    let u := minExp prods
    let w := sumAt u prods
    ⟨toAcc40 (intVal w u), 0, bf16Ok err (16 * j) ps⟩
  else
    let u := windowExp fmt
    let w := sumAt u (ps.map (fun p => signedProd 0 p.1 p.2)) + errAt err j
    ⟨toAcc40 (intVal w (u + sExp)), 0, decide ((w % 7).toNat = rhoSum u ps)⟩

/-! Carry stacks. -/

/-- One tile entry (R130): value 0 is TOP, values 1 to 8 are L1 to L8 (levels lists L1 first). A level whose OCC bit
is 0 is kept as +0 (R75). -/
structure TileEntry where
  top : BitVec 40
  levels : List (BitVec 40)
  occ : BitVec 8
  topSet : Bool
  deriving DecidableEq, Repr

/-- The state ACC=SET and a launch leave (R53, R132). -/
def TileEntry.empty : TileEntry := ⟨0, List.replicate 8 0, 0, false⟩

/-- The chain of R131 from level k on: the levels and occupancy after, the value carried, and whether it left level 8. -/
def insertLoop : List (BitVec 40) → List Bool → BitVec 40 → BitVec 16 →
    List (BitVec 40) × List Bool × BitVec 40 × BitVec 16 × Bool
  | l :: ls, true :: os, v, fl =>
    let s := add40 l v
    let r := insertLoop ls os s.1 (fl ||| s.2)
    (0 :: r.1, false :: r.2.1, r.2.2)
  | _ :: ls, false :: os, v, fl => (v :: ls, true :: os, v, fl, false)
  | ls, os, v, fl => (ls, os, v, fl, true)

/-- OCC as a list of bits, level 1 first. -/
def occBits (o : BitVec 8) : List Bool := (List.range 8).map (fun k => o.getLsbD k)

/-- A list of bits as OCC. -/
def occOf (l : List Bool) : BitVec 8 :=
  BitVec.ofNat 8 (packFrom 1 (fun k => if l.getD k false then 1 else 0) 8)

/-- insert of R131, with the flags it raises (DEEP, INVALID). -/
def TileEntry.insert (t : TileEntry) (v : BitVec 40) : TileEntry × BitVec 16 :=
  let deep := if t.topSet then flagDeep else 0
  let r := insertLoop t.levels (occBits t.occ) v 0
  if r.2.2.2.2 then
    let s := add40 t.top r.2.2.1
    (⟨s.1, r.1, occOf r.2.1, true⟩, deep ||| r.2.2.2.1 ||| s.2)
  else ({ t with levels := r.1, occ := occOf r.2.1 }, deep ||| r.2.2.2.1)

/-- The loop of collapse over the levels (R134). -/
def collapseLoop : List (BitVec 40) → List Bool → Option (BitVec 40) → BitVec 16 → Option (BitVec 40) × BitVec 16
  | l :: ls, o :: os, acc, fl =>
    if o then
      match acc with
      | none => collapseLoop ls os (some l) fl
      | some a =>
        let s := add40 l a
        collapseLoop ls os (some s.1) (fl ||| s.2)
    else collapseLoop ls os acc fl
  | _, _, acc, fl => (acc, fl)

/-- The value of an entry (R134) and the flags its additions raise. -/
def TileEntry.collapse (t : TileEntry) : BitVec 40 × BitVec 16 :=
  match collapseLoop t.levels (occBits t.occ) none 0 with
  | (none, fl) => (t.top, fl)
  | (some a, fl) =>
    let s := add40 t.top a
    (s.1, fl ||| s.2)

/-- The nine values of R75: the entry, then L1 to L8, an unoccupied level as +0. -/
def TileEntry.values (t : TileEntry) : List (BitVec 40) :=
  t.top :: (List.range 8).map (fun k => if t.occ.getLsbD k then t.levels.getD k 0 else 0)

/-- The 46 bytes of an entry in ACC_TILE (R85). -/
def TileEntry.bytes (t : TileEntry) : List Byte :=
  t.values.flatMap (fun v => leBytes 5 v.toNat) ++ [t.occ]

end Sys2Proof
end

