-- ==== Sys2Proof/Machine/StateGrid.lean ====
section
/-! DEFINITION. The state of a core and of a router (R46 to R83, R130, R205 to R220). Cycles are lap cycles. -/
namespace Sys2Proof.Machine

/-- The slots of a bundle, in the order in which a later one wins a register write of the same issue cycle
(R57: CT, NX, SX, VX, MV). MX writes no register and ranks first. -/
inductive OpSlot where
  | mx | ct | nx | sx | vx | mv
  deriving DecidableEq, Repr

/-- Rank of a slot under R57. -/
def OpSlot.rank : OpSlot → Nat
  | .mx => 0 | .ct => 1 | .nx => 2 | .sx => 3 | .vx => 4 | .mv => 5

/-- A memory-slot request: an MRD or MWR with its values read at issue (R78, R251). -/
structure MemReq where
  write : Bool
  line : BitVec 32
  addr : Nat
  issue : Nat
  deriving DecidableEq, Repr

/-- What a core does at a later cycle for an operation or a memory slot. -/
inductive CoreAct where
  /-- bits of V r selected by mask become val -/
  | wV (r : Nat) (mask val : Lanes)
  | wS (r : Nat) (val : BitVec 32)
  | wA (r : Nat) (val : BitVec 24)
  | ctLoop (c count : Nat)
  | ctEndl (c : Nat)
  | ctWait (n : Nat)
  | ctEnd (next : Nat)
  /-- write bytes of the aligned 64 bytes at addr, byte k where mask bit k is set -/
  | store (addr : Nat) (mask : BitVec 64) (data : Lanes)
  /-- one read access of a data-SRAM bank (R50) -/
  | readBank (bank : Nat)
  /-- lane k of the gather issued at this micro's issue cycle reads 4 bytes at addr into V d -/
  | gather (d k addr : Nat)
  /-- four bundles deposited at instruction-SRAM offset off (R79) -/
  | deposit (off : Nat) (data : Lanes)
  /-- flit k of an injection, available to the router in the due cycle; mem marks a memory-slot flit -/
  | inject (k : Nat) (f : Flit) (mem : Bool)
  | flags (f : BitVec 16)
  | request (slot : Nat) (r : MemReq)
  /-- collapse and narrowing of TOUT: rnd as a code, the four random registers, the base address -/
  | drain (tile fmt rnd base : Nat) (vr : List Lanes)
  /-- a stored word read in this cycle cannot be corrected (R51) -/
  | upset
  deriving DecidableEq, Repr

/-- One thing due: issued at cycle issue by slot rank, due in cycle due; op marks an operation of the bundle issued at
issue, which a trap in that cycle cancels (R87). -/
structure Micro where
  issue : Nat
  due : Nat
  rank : Nat
  op : Bool
  act : CoreAct
  deriving DecidableEq, Repr

/-- An MMA in flight: its operands as read at issue, its effective row and its retirement cycle (R67, R68). -/
structure MmaOp where
  issue : Nat
  retire : Nat
  fmt : Nat
  tile : Nat
  row : Nat
  set : Bool
  part : Nat
  va : Lanes
  group : BitVec 4096
  deriving DecidableEq, Repr

/-- A tile held by a TOUT or a TPEEK through cycle last (R76). -/
structure TileHold where
  tile : Nat
  issue : Nat
  last : Nat
  deriving DecidableEq, Repr

/-- A read deposit on its way: return cycle ret, destination address, and the flits R0 and R1 once taken (R252). -/
structure MemReturn where
  slot : Nat
  ret : Nat
  sent : Nat
  addr : Nat
  r01 : Option (Flit × Flit)
  deriving DecidableEq, Repr

/-- A loop counter and its start (R61). -/
structure LoopReg where
  count : Nat
  start : Nat
  deriving DecidableEq, Repr

/-- What a core does in the lap (R83). BOUNDARY, RUNNING, ENDED and TRAPPED; FENCED comes from the site's latch, IDLE
from belonging to no course. -/
inductive CorePhase where
  | boundary | running | ended | trapped
  deriving DecidableEq, Repr

/-- A logical core of a resident course. -/
structure Core where
  slot : Nat
  /-- physical site number s of R238 -/
  site : Nat
  /-- CORE record fields of R277 -/
  idleRec : Bool
  routeOnly : Bool
  dtop : Nat
  itop : Nat
  golden : Nat
  gateCount : Nat
  phase : CorePhase
  v : Table Lanes
  s : Table (BitVec 32)
  a : Table (BitVec 24)
  loops : Table LoopReg
  /-- bundle most recently issued -/
  pc : Nat
  /-- bundle that issues next, and the lap cycle in which it issues -/
  next : Nat
  issueAt : Nat
  /-- entry latched for the lap, and the entry the last END named (R64) -/
  entry : Nat
  entryNext : Nat
  data : Memory
  instr : Memory
  /-- working-region bundles written in this lap (R79) -/
  written : List Nat
  /-- key tile·256 + row·16 + column -/
  tiles : Table TileEntry
  flags : BitVec 16
  /-- FLAGS of CORE_STATUS: the flags at the end of the last lap (R81) -/
  flagsLast : BitVec 16
  trapCode : Nat
  trapPc : Nat
  trapCc : Nat
  inflight : List Micro
  mmas : List MmaOp
  held : List TileHold
  mxFree : Nat
  sxFree : Nat
  mvFree : Nat
  /-- slots whose operation of the bundle issuing now has been given -/
  issued : List OpSlot
  /-- code of the trap raised in the current cycle -/
  trapNow : Option Nat
  windows : Table (BitVec 64)
  reqs : Table MemReq
  returns : List MemReturn
  /-- fingerprint F (R317) -/
  fp : BitVec 64
  deriving DecidableEq, Repr

/-- A core as a load leaves it before any lap: registers zero, tiles empty (R53, R85). -/
def Core.fresh : Core where
  slot := 0
  site := 0
  idleRec := false
  routeOnly := false
  dtop := 0
  itop := 0
  golden := 0
  gateCount := 0
  phase := .boundary
  v := []
  s := []
  a := []
  loops := []
  pc := 0
  next := 0
  issueAt := 0
  entry := 0
  entryNext := 0
  data := []
  instr := []
  written := []
  tiles := []
  flags := 0
  flagsLast := 0
  trapCode := 0
  trapPc := 0
  trapCc := 0
  inflight := []
  mmas := []
  held := []
  mxFree := 0
  sxFree := 0
  mvFree := 0
  issued := []
  trapNow := none
  windows := []
  reqs := []
  returns := []
  fp := 0

/-- Which loop a router's last jump reopened (R212). -/
inductive GateBack where
  | none | a | b
  deriving DecidableEq, Repr

/-- Whether a router applies its table (R212, R213, R222). -/
inductive GatePhase where
  | idle | running | stopped | faulted
  deriving DecidableEq, Repr

/-- The sequencing state of a gate table (R212): runEnd is the last lap cycle of the entry's run. -/
structure GateSeq where
  phase : GatePhase
  e : Nat
  la : Nat
  lb : Nat
  startA : Nat
  startB : Nat
  back : GateBack
  runEnd : Nat
  /-- the entry in force, as its read gave it -/
  word : BitVec 128
  deriving DecidableEq, Repr

/-- A flit on a link: the cc count at which it is available at input port 2·dir + transfer (R207). -/
structure Arrival where
  due : Nat
  port : Nat
  flit : Flit
  deriving DecidableEq, Repr

/-- A router of a resident course. -/
structure Router where
  slot : Nat
  /-- gate table: each entry with its four check bytes in bits [159:128] (R210) -/
  table : Table (BitVec 160)
  gateCount : Nat
  seq : GateSeq
  /-- the sequencing state from the next cycle on, once the entry's end has been taken -/
  seqNext : Option GateSeq
  /-- entry latched for the lap, and the entry the last STOP named -/
  entry : Nat
  entryNext : Nat
  h0 : Flit
  h1 : Flit
  h2 : Flit
  alu0 : Flit
  alu1 : Flit
  /-- results that reach the ALU registers at the end of this cycle -/
  aluNext : Option (Flit × Flit)
  /-- first halves captured by TOP8_FIRST in the previous cycle: A0, A1, B0, B1 -/
  top8 : Option (List Flit)
  /-- capture made in this cycle -/
  top8Next : Option (List Flit)
  /-- second half of a merged list, due one cycle after the first (R220) -/
  top8Late : Option (Flit × Flit)
  top8LateNext : Option (Flit × Flit)
  /-- input port → flit received in this cycle -/
  inputs : Table Flit
  arriving : List Arrival
  deriving DecidableEq, Repr

/-- A gate sequence at rest. -/
def GateSeq.rest : GateSeq := ⟨.idle, 0, 0, 0, 0, 0, .none, 0, 0⟩

/-- A router as a load leaves it. -/
def Router.fresh : Router where
  slot := 0
  table := []
  gateCount := 0
  seq := GateSeq.rest
  seqNext := none
  entry := 0
  entryNext := 0
  h0 := 0
  h1 := 0
  h2 := 0
  alu0 := 0
  alu1 := 0
  aluNext := none
  top8 := none
  top8Next := none
  top8Late := none
  top8LateNext := none
  inputs := []
  arriving := []

end Sys2Proof.Machine
end

