-- ==== Sys2Proof/Machine/StateMem.lean ====
section
/-! DEFINITION. The state of the memory slices, stacks and rings (R240 to R273). Times are cc counts of State.now. -/
namespace Sys2Proof.Machine

/-- An extent of a course's memory map (R261). -/
structure Extent where
  cls : Nat
  policy : Nat
  first : Nat
  mla : Nat
  count : Nat
  deriving DecidableEq, Repr

/-- The edge table of one stack for a course (R255, R256): entry of page q, cycle c, link l, transfer t, direction d
(0 inbound, 1 outbound) at key q·16384 + c·64 + l·4 + t·2 + d. -/
structure EdgeTable where
  stack : Nat
  pages : Nat
  entries : Table (BitVec 16)
  deriving DecidableEq, Repr

/-- A flit taken for a coming period that starts at now = start: its role as in R256, inbound, and its arrival. -/
structure InFlit where
  at_ : Nat
  start : Nat
  period : Nat
  role : Nat
  flit : Flit
  deriving DecidableEq, Repr

/-- A request accepted for a period that starts at now = start. -/
structure SliceReq where
  start : Nat
  period : Nat
  write : Bool
  block : Nat
  deriving DecidableEq, Repr

/-- Read data of a period on its way out (R257). -/
structure ReadOut where
  ready : Nat
  period : Nat
  la : Nat
  data : Lanes
  bad : Bool
  deriving DecidableEq, Repr

/-- The held copy of a block read at now = at_ (R259). -/
structure HeldBlock where
  bankset : Nat
  block : Nat
  data : Lanes
  at_ : Nat
  deriving DecidableEq, Repr

/-- One slice's controller: logical slice j has number j, the standby pseudo-channel c number 512 + c. -/
structure SliceCtl where
  inbound : List InFlit
  reqs : List SliceReq
  reads : List ReadOut
  held : List HeldBlock
  /-- next block to scrub: bankset · 349,525 + block -/
  scrubNext : Nat
  /-- block a corrected scrub read will write back in the next frame, and the data read -/
  scrubWb : Option (Nat × Lanes)
  /-- frame of the rotation in which the slice scrubbed last (R260) -/
  scrubFrame : Option Nat
  /-- now of the start of the last period that served a service access (R248) -/
  servedAt : Option Nat
  /-- passes completed -/
  scrubPass : Nat
  /-- distinct blocks repaired since reset (R269) -/
  repaired : List Nat
  /-- fingerprint G (R318) -/
  fp : BitVec 64
  deriving DecidableEq, Repr

def SliceCtl.fresh : SliceCtl := ⟨[], [], [], [], 0, none, none, none, 0, [], 0⟩

/-- State of a logical slice in SLICE_MAP (R273). -/
structure SliceEnt where
  st : Nat
  phys : Nat
  deriving DecidableEq, Repr

/-- State of a stack (R240, R271, R273): standby pseudo-channels in ascending order, failed ones as a mask. -/
structure StackEnt where
  lost : Bool
  standby : List Nat
  failed : BitVec 32
  trained : Bool
  filled : Bool
  deriving DecidableEq, Repr

def StackEnt.fresh : StackEnt := ⟨false, [], 0, false, false⟩

/-- A flit on an edge link towards a stack's ring (R255). -/
structure EdgeFlit where
  stack : Nat
  link : Nat
  transfer : Nat
  due : Nat
  flit : Flit
  deriving DecidableEq, Repr

/-- Who asks for a service access, in the order of R265. -/
inductive ServiceKind where
  | rebuild | porter | host
  deriving DecidableEq, Repr

/-- A waiting service access since now = since: a read or a write of one line for job number job (0: none). -/
structure ServiceReq where
  kind : ServiceKind
  la : Nat
  write : Bool
  data : Lanes
  wsrc : Nat
  poison : Bool
  job : Nat
  since : Nat
  deriving DecidableEq, Repr

/-- A rebuild in progress for a slice since now = since (R270): the blocks it writes, and the course that waits. -/
structure Rebuild where
  slice : Nat
  slot : Option Nat
  since : Nat
  blocks : Nat
  deriving DecidableEq, Repr

/-- Memory of the device. -/
structure MemState where
  /-- line bytes by place: byte i of block b in bank set t of physical pseudo-channel c lies at 64·(2^24·c + 2^19·t + b) + i
  (R240 to R242) -/
  hbm : Memory
  /-- META by place 2^24·c + 2^19·t + b; a place not listed has META as the start-up zero fill wrote it -/
  meta_ : Table (BitVec 32)
  sliceMap : Table SliceEnt
  stackTab : Table StackEnt
  ctl : Table SliceCtl
  edgeIn : List EdgeFlit
  service : List ServiceReq
  rebuilds : List Rebuild
  /-- runs of lines, first line and count, that the scrub writes are to clear (R291) -/
  clearing : List (Nat × Nat)
  /-- slices that have failed and stacks that are lost, until the map changes at a boundary (R269, R271, R273) -/
  failing : List Nat
  losing : List Nat
  corrected : Nat
  uncorrectable : Nat
  merged : Nat
  scrubPasses : Nat
  blockRepairs : Nat
  substitutions : Nat
  eccReports : Nat
  scrubDropped : Nat
  deriving DecidableEq, Repr

def MemState.reset : MemState :=
  ⟨[], [], [], [], [], [], [], [], [], [], [], 0, 0, 0, 0, 0, 0, 0, 0⟩

end Sys2Proof.Machine
end

