-- ==== Sys2Proof/Machine/StateCourse.lean ====
section
/-! DEFINITION. The state of a course slot (R158, R274 to R301, R313 to R333, R510 to R529). RINK counts are named as
such; now counts are cc counts of State.now. -/
namespace Sys2Proof.Machine

/-- Slot states of R284. -/
inductive SlotState where
  | empty | loading | paused | running | replaying | sealing | unsealing | halted
  deriving DecidableEq, Repr

/-- Code of a slot state. -/
def SlotState.code : SlotState → Nat
  | .empty => 0 | .loading => 1 | .paused => 2 | .running => 3
  | .replaying => 4 | .sealing => 5 | .unsealing => 6 | .halted => 7

/-- Halt reasons of R285. -/
inductive HaltReason where
  | none | programFault | memoryLost | diverged | standDown | unsealFailed | deviceLost
  deriving DecidableEq, Repr

def HaltReason.code : HaltReason → Nat
  | .none => 0 | .programFault => 1 | .memoryLost => 2 | .diverged => 3
  | .standDown => 4 | .unsealFailed => 5 | .deviceLost => 6

/-- What the loader keeps of an image (R275, R276, R282, R283). -/
structure CourseInfo where
  courseId : Nat
  pairs : Bool
  signed : Bool
  rows : Nat
  stripeFirst : Nat
  stripeWidth : Nat
  priority : Nat
  lapFrames : Nat
  devRows : Nat
  devCols : Nat
  originRow : Nat
  originCol : Nat
  deviceIndex : Nat
  energyBound : Nat
  imageDigest : List Byte
  immDigest : List Byte
  streamBase : Nat
  streamCount : Nat
  extents : List Extent
  edges : List EdgeTable
  /-- payload of the LECEL section that applies to this device (R411) -/
  lecel : List Byte
  deriving DecidableEq, Repr

def CourseInfo.none : CourseInfo :=
  ⟨0, false, false, 0, 0, 0, 0, 0, 0, 0, 0, 0, 0, 0, [], [], 0, 0, [], [], []⟩

/-- Where a lap of the slot stands. -/
inductive LapStage where
  /-- no lap admitted -/
  | idle
  /-- the Porter waits for the Louvre (R288) -/
  | waiting
  /-- launch count committed (RINK) -/
  | committed (at_ : Nat)
  /-- LAUNCH driven; it arrives at RINK count at_ -/
  | driven (at_ : Nat)
  /-- lap cycle 0 was at now = start -/
  | running (start : Nat)
  /-- stopped by an ABORT that arrived at now = at_; lap cycle 0 was at now = start -/
  | aborted (start at_ : Nat)
  deriving DecidableEq, Repr

/-- What kind of attempt is running. -/
inductive AttemptKind where
  | first | replay | probe
  deriving DecidableEq, Repr

/-- One entry of a faulted attempt, as FIRST_TRAP names it (R84, R588). -/
structure FaultRec where
  core : Nat
  code : Nat
  cc : Nat
  pc : Nat
  deriving DecidableEq, Repr

/-- The pending command whose response waits for the run or the halt: port, TAG. -/
structure Ticket where
  port : Nat
  tag : Nat
  quiet : Bool
  deriving DecidableEq, Repr

/-- A seal in progress (R294 to R297): records still to write, next SEQ, SHA input so far. -/
structure SealJob where
  full : Bool
  split : Bool
  owner : Nat
  ticket : Ticket
  sealId : Nat
  seq : Nat
  /-- remaining records: TYPE, payload, and for BLOCKS the first line and the line count, read when it is written -/
  todo : List (Nat × List Byte × List Nat)
  written : List Byte
  bytes : Nat
  /-- status of an ABORT that ends the seal, and a port that has been lost meanwhile -/
  abort : Option Nat
  dead : Option Nat
  deriving DecidableEq, Repr

/-- An unseal in progress (R299, R300): bytes received and not yet consumed, next SEQ. -/
structure UnsealJob where
  buf : List Byte
  nextOffset : Nat
  seq : Nat
  sealId : Option Nat
  hashed : List Byte
  head : List Byte
  seeds : List Byte
  entries : List Byte
  trailer : Bool
  deriving DecidableEq, Repr

/-- An image load in progress (R281, R385): bytes received. -/
structure LoadJob where
  port : Nat
  bytes : List Byte
  nextOffset : Nat
  originRow : Nat
  originCol : Nat
  deriving DecidableEq, Repr

/-- What the last VERIFY_LEFT setting was for (R325, R327). -/
inductive VerifyCause where
  | none | load | recovery | unseal
  deriving DecidableEq, Repr

/-- What a provisional completion may give back. -/
structure Provisional where
  lap : Nat
  done : Nat
  log : Table (Nat × List Byte)
  digest : Nat × List Byte
  deriving DecidableEq, Repr

/-- A digest being computed: ready at now = due; the bytes hashed (R319, R320). -/
structure DigestJob where
  due : Nat
  lap : Nat
  input : List Byte
  deriving DecidableEq, Repr

/-- One course slot. -/
structure Slot where
  st : SlotState
  reason : HaltReason
  info : CourseInfo
  lapNext : Nat
  lapsLeft : Nat
  /-- the run counts its laps (LAUNCH count not zero) -/
  counted : Bool
  lapsDone : Nat
  replays : Nat
  lastLaunch : Nat
  sealProgress : Nat
  stage : LapStage
  attempt : AttemptKind
  /-- laps launched or probed since the load (R170: before the first launch the image's seeds are used) -/
  launched : Bool
  /-- the cycle before the Louvre's first decision about the next lap, 0 before one is sought (R473, R502), and the starvation
  block (R475) -/
  waitSince : Nat
  starved : Bool
  /-- LAUNCH command of the run; each HALT_AT_BOUNDARY that waits for a boundary, with its RELEASE flag -/
  launchTicket : Option Ticket
  halt : List (Ticket × Bool)
  sealJob : Option SealJob
  unsealJob : Option UnsealJob
  loadJob : Option LoadJob
  /-- seed slots as written, as latched, and SEEDS_PENDING (R158) -/
  seeds : Table (BitVec 112)
  latched : Table (BitVec 112)
  seedsPending : BitVec 16
  /-- the seed slots before the writes of cycle seedsAt, in which the slots of seedsNew were written (R289) -/
  seedsAt : Option Nat
  seedsBefore : Table (BitVec 112)
  seedsNew : BitVec 16
  /-- entries of the current attempt, whether its FAULT state was seen, the now count of the ABORT's arrival -/
  faults : List FaultRec
  faultDrive : Option Nat
  abortAt : Option Nat
  /-- a halt that aborts the lap (R285): reason to enter at once -/
  evidence : Bool
  firstTrap : BitVec 64
  /-- first entries of the last faulted attempts of the lap, newest first (R513) -/
  run : List FaultRec
  /-- cores still to be reloaded, and the now count at which the COMMIT that moved them arrived (R510, R511) -/
  reloads : List Nat
  reloadFrom : Option Nat
  /-- READY has been answered for a replay whose recovery is not complete yet (R512) -/
  pledged : Bool
  /-- earliest fault of the interruption being measured (now), for RECOVERY_LAST (R524) -/
  faultSince : Option Nat
  recoveryLast : Nat
  recoveryMax : Nat
  /-- line addresses whose scheduled read failed in the last attempt (R268) -/
  failedBlocks : List Nat
  /-- slices being rebuilt that hold this course's replay (R270) -/
  rebuilding : List Nat
  /-- values before the last provisional completion: LAP_NEXT, LAPS_DONE, DIGEST_LOG, LAP_DIGEST (R509) -/
  provisional : Option Provisional
  /-- LAP_DIGEST: lap and digest; DIGEST_LOG by position; digests due: now count, lap, the bytes hashed -/
  lapDigest : Nat × List Byte
  digestLog : Table (Nat × List Byte)
  digestDue : List DigestJob
  seedLog : Table (Nat × List (BitVec 112))
  seedLogCount : Nat
  verifyLeft : Nat
  verifyCause : VerifyCause
  attPending : Bool
  attSeq : Nat
  /-- records of INPUT_DIGEST and SEED_DIGEST since the slot's last trailer, and STRICT held at every launch since -/
  inputRecs : List Byte
  seedRecs : List Byte
  strictHeld : Bool
  pairState : Nat
  pairMismatches : Nat
  /-- partner's PAIR_DIGEST for the lap: lap, digest, EVIDENCE; whether ours was sent; deadline; mismatches of this lap -/
  pairIn : Option (Nat × List Byte × Bool)
  pairSent : Option (Nat × Nat × List Byte × Bool)
  pairMiss : Nat
  pairEvidence : Bool × Bool
  confirmed : Bool
  /-- ownership: 2 bits of OWNER (R395) -/
  owner : Nat
  /-- waiting takeover: ticket and now count of its start -/
  takeover : Option (Ticket × Nat)
  /-- launch agreement (R432 to R434): lap and count proposed last, committed action -/
  proposed : Option (Nat × Nat)
  faultBoundaryAt : Option Nat
  /-- attempts launched so far, and the attempt FIRST_TRAP speaks of (R84) -/
  attemptNo : Nat
  firstFrom : Nat
  /-- now of the last boundary, clean or faulted (R288) -/
  boundaryAt : Nat
  /-- the Louvre holds an admission for the next lap (R474) -/
  admitted : Bool
  /-- line addresses whose scheduled read failed in this attempt (R268) -/
  blocksBad : List Nat
  /-- ports with LECEL_UNCORRECTABLE or LECEL_DOWN in the last counted faulted attempt (R513) -/
  portsBad : List Nat
  /-- as coordinator (R432 to R434, R517): RINK count from which a fresh PROPOSE may be sent, addresses missed in the
  last round, addresses declared lost, and whether this device has taken the role over -/
  reproposeAt : Option Nat
  missedLast : List Nat
  lostAddrs : List Nat
  acting : Bool
  /-- a LAUNCH has been accepted and its first lap has not been driven (R522) -/
  freshRun : Bool
  deriving DecidableEq, Repr

/-- An EMPTY slot: every object at its default (R301). -/
def Slot.fresh : Slot where
  st := .empty
  reason := .none
  info := CourseInfo.none
  lapNext := 0
  lapsLeft := 0
  counted := false
  lapsDone := 0
  replays := 0
  lastLaunch := 0
  sealProgress := 0
  stage := .idle
  attempt := .first
  launched := false
  waitSince := 0
  starved := false
  launchTicket := none
  halt := []
  sealJob := none
  unsealJob := none
  loadJob := none
  seeds := []
  latched := []
  seedsPending := 0
  seedsAt := none
  seedsBefore := []
  seedsNew := 0
  faults := []
  faultDrive := none
  abortAt := none
  evidence := false
  firstTrap := 0
  run := []
  reloads := []
  reloadFrom := none
  pledged := false
  faultSince := none
  recoveryLast := 0
  recoveryMax := 0
  failedBlocks := []
  rebuilding := []
  provisional := none
  lapDigest := (0, [])
  digestLog := []
  digestDue := []
  seedLog := []
  seedLogCount := 0
  verifyLeft := 0
  verifyCause := .none
  attPending := false
  attSeq := 0
  inputRecs := []
  seedRecs := []
  strictHeld := true
  pairState := 0
  pairMismatches := 0
  pairIn := none
  pairSent := none
  pairMiss := 0
  pairEvidence := (false, false)
  confirmed := false
  owner := 0
  takeover := none
  proposed := none
  faultBoundaryAt := none
  attemptNo := 0
  firstFrom := 0
  boundaryAt := 0
  admitted := false
  blocksBad := []
  portsBad := []
  reproposeAt := none
  missedLast := []
  lostAddrs := []
  acting := false
  freshRun := false

end Sys2Proof.Machine
end

