-- ==== Sys2Proof/Machine/StateHost.lean ====
section
/-! DEFINITION. The state of the Mogul annealer, the entropy source and the host ports (R334 to R400). -/
namespace Sys2Proof.Machine

/-! Mogul. -/

/-- A breakpoint of the temperature curve (R342). -/
structure Breakpoint where
  sweep : Nat
  temp : Nat
  deriving DecidableEq, Repr

/-- An entry of the sample (R347): energy, sweep, signature, and the state's words of both lattices. -/
structure SampleEntry where
  energy : Int
  sweep : Nat
  sig : BitVec 64
  w : BitVec 65536
  e : BitVec 65536
  deriving DecidableEq, Repr

/-- A sweep-end state whose energy is not judged yet (R345): ready at now = ready. -/
structure SweepEnd where
  sweep : Nat
  ready : Nat
  w : BitVec 65536
  e : BitVec 65536
  deriving DecidableEq, Repr

/-- Noise of one cell in this run: last Z, equal values in a row, and whether it is counted in NOISE_STUCK (R341). -/
structure NoiseCell where
  z : Nat
  run : Nat
  stuck : Bool
  deriving DecidableEq, Repr

/-- A Mogul run in progress (R348 to R350). -/
structure MogulRun where
  geom : Nat
  mode : Nat
  keep : Nat
  sweepsM1 : Nat
  curve : List Breakpoint
  ticket : Ticket
  /-- whether a response is posted when the run ends (an FLR of the port removes it) -/
  respond : Bool
  /-- sweeps completed -/
  done : Nat
  /-- now count of the last cycle of the last completed sweep, or of acceptance -/
  lastEnd : Nat
  /-- status that ends the run early -/
  stopping : Option Nat
  /-- every sweep of the run is over; what is left is judging and draining -/
  ended : Bool
  spinsW : BitVec 65536
  spinsE : BitVec 65536
  eInitial : Int
  eFinal : Int
  pending : List SweepEnd
  /-- last cycle (now) of the drain that keeps the capture register busy -/
  drainUntil : Option Nat
  sample : List SampleEntry
  captured : Nat
  missed : Nat
  /-- what R341 watches of each cell of lattice W, then of E, in order of v·256 + u; none before the first sweep -/
  noise : List NoiseCell
  deriving DecidableEq, Repr

/-- A result set (R352, R354). -/
structure ResultSet where
  geom : Nat
  mode : Nat
  sweepsDone : Nat
  eInitial : Int
  eFinal : Int
  captured : Nat
  missed : Nat
  stuck : Nat
  entries : List SampleEntry
  finalW : BitVec 65536
  finalE : BitVec 65536
  deriving DecidableEq, Repr

/-- The annealer. The state of a lattice: 0 IDLE, 1 RUNNING, 2 DRAINING (R355). -/
structure Mogul where
  latW : Nat
  latE : Nat
  progressW : Nat
  progressE : Nat
  runs : Nat
  refused : Nat
  /-- spin record of cell (L, u, v) at key L·65,536 + v·256 + u -/
  cells : Table (BitVec 32)
  /-- the run using lattice W (or both), and the run using lattice E alone -/
  runW : Option MogulRun
  runE : Option MogulRun
  set0 : Option ResultSet
  set1 : Option ResultSet
  /-- INIT PREVIOUS is possible for geometry W, E, JOINED (R349 order 6) -/
  prevW : Option (BitVec 65536)
  prevE : Option (BitVec 65536)
  prevJ : Option (BitVec 65536 × BitVec 65536)
  deriving DecidableEq, Repr

def Mogul.reset : Mogul := ⟨0, 0, 0, 0, 0, 0, [], none, none, none, none, none, none, none⟩

/-! Entropy source. -/

/-- States of a cell (R364). -/
inductive CellState where
  | settling | warming | ready | retired
  deriving DecidableEq, Repr

def CellState.code : CellState → Nat
  | .settling => 0 | .warming => 1 | .ready => 2 | .retired => 3

/-- One entropy cell: since is the now count from which its next event is timed (a start, or the first raw bit of the
block being made); run and last are the repetition count of R360. -/
structure Cell where
  st : CellState
  on : Bool
  warm : Nat
  failRun : Nat
  fails : Nat
  since : Nat
  run : Nat
  last : Bool
  deriving DecidableEq, Repr

def Cell.fresh : Cell := ⟨.settling, false, 0, 0, 0, 0, 0, false⟩

/-- States of the source (R365). -/
inductive SourceState where
  | starting | ready | fatal
  deriving DecidableEq, Repr

def SourceState.code : SourceState → Nat
  | .starting => 0 | .ready => 1 | .fatal => 2

/-- A waiting DRBG request (R370): 0 a nonce, 1 a key generation, each for a response of an SPDM endpoint: the bytes
before and after it, and whether the response is to be signed. -/
structure DrbgReq where
  kind : Nat
  ep : Nat
  head : List Byte
  tail : List Byte
  signed : Bool
  deriving DecidableEq, Repr

/-- The entropy source, its pool and the DRBG. -/
structure Entropy where
  st : SourceState
  cells : Table Cell
  passed : Nat
  failed : Nat
  rctFails : Nat
  aptFails : Nat
  spilled : Nat
  /-- the pool, oldest byte first; 1 byte is 8 conditioned bits -/
  pool : List Byte
  keyWaits : Bool
  cipherWaits : Bool
  drbgLive : Bool
  /-- the DRBG's working state -/
  drbg : Drbg
  drbgCount : Nat
  reseedWaits : Bool
  drbgSeeds : Nat
  drbgQueue : List DrbgReq
  /-- generate requests served -/
  drbgServed : Nat
  /-- the cipher block's reserve, oldest byte first (R547) -/
  reserve : List Byte
  deriving DecidableEq, Repr

def Entropy.reset : Entropy :=
  ⟨.starting, [], 0, 0, 0, 0, 0, [], true, true, false, Drbg.zero, 0, false, 0, [], 0, []⟩

/-! Host ports. -/

/-- A packet window: header and payload bytes as written (R378). -/
structure Window where
  header : List Byte
  payload : List Byte
  deriving DecidableEq, Repr

/-- Where a response's trailer stands (R326, R329). -/
inductive TrailerState where
  | none
  /-- waiting for the key block -/
  | signing
  | ready (bytes : List Byte)
  deriving DecidableEq, Repr

/-- A response not yet posted (R391). -/
structure Response where
  opcode : Nat
  slot : Nat
  tag : Nat
  status : Nat
  value0 : Nat
  value1 : Nat
  payload : List Byte
  quiet : Bool
  sync : Bool
  trailer : TrailerState
  deriving DecidableEq, Repr

/-- A memory write the device has sent to a host: address, bytes, and the Relaxed Ordering and ID-Based Ordering attributes
(R376). -/
structure HostWrite where
  addr : Nat
  bytes : List Byte
  relaxed : Bool
  idOrdered : Bool
  deriving DecidableEq, Repr

/-- How a memory write of the host arrives: outside an IDE stream, over the link stream, or over selective stream 1 to 4,
which may cover the write's address (R375, R398). -/
inductive WriteVia where
  | plain
  | link
  | selective (stream : Nat) (covers : Bool)
  deriving DecidableEq, Repr

/-- A DATA_READ or DATA_WRITE waiting for service periods (R386). -/
structure DataJob where
  id : Nat
  tag : Nat
  quiet : Bool
  write : Bool
  la : Nat
  count : Nat
  slot : Option Nat
  data : List Byte
  left : Nat
  status : Nat
  /-- the response is discarded: the port has been reset since (R397) -/
  discard : Bool
  deriving DecidableEq, Repr

/-- A remote dictionary request waiting for its answer (R388, R446): where it goes, the value to write or what has been
read of one, and the bytes of a write that have been answered. -/
structure RemoteReq where
  opcode : Nat
  tag : Nat
  quiet : Bool
  since : Nat
  xid : Nat
  addr : Nat
  index : Nat
  sub : Nat
  data : List Byte
  done : Nat
  /-- the response is discarded: the port has been reset since (R397) -/
  discard : Bool
  deriving DecidableEq, Repr

/-- An MSI-X table entry. -/
structure MsixEntry where
  addr : Nat
  data : Nat
  masked : Bool
  deriving DecidableEq, Repr

/-- One host port. -/
structure Port where
  windows : Table Window
  bufFree : BitVec 32
  /-- committed packets in POST order: window, POST value -/
  posted : List (Nat × Nat)
  returnBase : Nat
  returnSize : Nat
  returnHead : Nat
  returnTail : Nat
  rseqLast : Nat
  sealHead : Nat
  sealTail : Nat
  returnWait : Bool
  drops : Nat
  /-- asynchronous commands whose response is outstanding -/
  async : List Ticket
  /-- responses waiting to be posted, first first -/
  responses : List Response
  job : Option DataJob
  remote : Option RemoteReq
  /-- the TAKEOVER write whose response waits -/
  sent : List HostWrite
  /-- MSI-X vectors sent, newest first, with the pending-bit array and the enable and function mask bits -/
  msixSent : List Nat
  msix : Table MsixEntry
  pba : BitVec 64
  msixEnable : Bool
  msixMaskAll : Bool
  linkUp : Bool
  linkWidth : Nat
  configLoaded : Bool
  d3hot : Bool
  perst : Bool
  ideRequired : Bool
  /-- the link stream is Secure -/
  ideSecure : Bool
  /-- selective streams that are Secure, 1 to 4 -/
  selSecure : List Nat
  /-- streams (0: link) that have failed and have no new key yet -/
  ideBroken : List Nat
  /-- Max_Payload_Size in bytes (R375) -/
  maxPayload : Nat
  packets : Nat
  ideFails : Nat
  flrs : Nat
  deriving DecidableEq, Repr

def Port.fresh : Port where
  windows := []
  bufFree := 0xFFFFFFFF
  posted := []
  returnBase := 0
  returnSize := 0
  returnHead := 0
  returnTail := 0
  rseqLast := 0
  sealHead := 0
  sealTail := 0
  returnWait := false
  drops := 0
  async := []
  responses := []
  job := none
  remote := none
  sent := []
  msixSent := []
  msix := []
  pba := 0
  msixEnable := false
  msixMaskAll := false
  linkUp := false
  linkWidth := 0
  configLoaded := false
  d3hot := false
  perst := false
  ideRequired := false
  ideSecure := false
  selSecure := []
  ideBroken := []
  maxPayload := 128
  packets := 0
  ideFails := 0
  flrs := 0

end Sys2Proof.Machine
end

