-- ==== Sys2Proof/Machine/StateLink.lean ====
section
/-! DEFINITION. The state of the Lecel ports, of binding, of broadcasts and of launch agreement (R401 to R436, R507 to
R522, R542 to R546). Times are cc counts of State.now. -/
namespace Sys2Proof.Machine

/-- The route flit of a message on Lecel (R416). -/
structure Route where
  drow : BitVec 7
  dcol : BitVec 7
  srow : BitVec 7
  scol : BitVec 7
  sgen : BitVec 16
  bcast : Bool
  bseq : BitVec 16
  rowz : BitVec 7
  colz : BitVec 7
  rm1 : BitVec 7
  cm1 : BitVec 7
  resend : Bool
  deriving DecidableEq, Repr

/-- Body of a PROPOSE (R417): action 0 LAUNCH, 1 PAUSE, 2 PROBE. -/
structure Proposal where
  ctag : BitVec 16
  lap : BitVec 48
  action : BitVec 8
  count : BitVec 64
  probeCycle : BitVec 32
  deriving DecidableEq, Repr

/-- Body of a TALLY (R417, R431). DEVICE_LOST of R517 is carried beside HALT and OVERFLOW. -/
structure TallyBody where
  bseq : BitVec 16
  devices : Nat
  halt : Bool
  overflow : Bool
  /-- addresses of devices that treat themselves as lost -/
  lost : List Nat
  earliest : Nat
  missed : List Nat
  deriving DecidableEq, Repr

/-- Segment of a dictionary exchange (R445). -/
structure DictSeg where
  op : BitVec 8
  index : BitVec 16
  sub : BitVec 8
  xid : BitVec 16
  offset : BitVec 32
  total : BitVec 32
  data : List Byte
  deriving DecidableEq, Repr

/-- Answer segment of a dictionary exchange (R445). -/
structure DictAns where
  status : Nat
  type : Nat
  xid : Nat
  offset : Nat
  total : Nat
  data : List Byte
  deriving DecidableEq, Repr

/-- A message the device sends (R225, R417, R517). -/
inductive Msg where
  | pairDigest (ctag : BitVec 16) (lap : Nat) (evidence : Bool) (digest : List Byte)
  | propose (p : Proposal)
  | tally (t : TallyBody)
  | commit (p : Proposal)
  | bind (kind value gen addr size : Nat)
  | standDown (addr stale current : Nat)
  | rinkSync (phase : Nat) (ta tb tc : BitVec 64)
  | genUpdate (addr gen : Nat)
  | lost (ctag : BitVec 16) (lap addr gen : Nat)
  | dictReq (s : DictSeg)
  | dictResp (a : DictAns)
  deriving DecidableEq, Repr

/-- A message handed to a Lecel port, with its route (R416): the input it came in by, 0 the Porter, 1 + p port p (R227),
whether its first flit has left, and the flits that have not. -/
structure OutMsg where
  port : Nat
  route : Route
  body : Msg
  input : Nat
  started : Bool
  flits : List (BitVec 120)
  deriving DecidableEq, Repr

/-- A message that has arrived whole on a Lecel port and waits to be taken: the count at the start of the Lecel frame that
brought its route flit (R426), in units of 0.3125 ns, and its flits with link control. -/
structure LecelRx where
  start : BitVec 64
  flits : List Flit
  deriving DecidableEq, Repr

/-- An MCTP packet of the management bus: the start and end of its message, packet sequence number and payload (R447,
DSP0236). -/
structure McPacket where
  som : Bool
  eom : Bool
  seq : BitVec 2
  payload : List Byte
  deriving DecidableEq, Repr

/-- Where a dictionary message comes from: over Lecel, its port, route and payload, or in MCTP packets of the management
bus from an endpoint (R445, R447). -/
inductive DictFrom where
  | link (p : Nat) (r : Route) (payload : List Byte)
  | bus (eid : Nat) (packets : List McPacket)
  deriving DecidableEq, Repr

/-- A flit to be delivered at an edge router's ring input in cycle due (R408). -/
structure LecelDue where
  due : Nat
  row : Nat
  transfer : Nat
  flit : Flit
  deriving DecidableEq, Repr

/-- The last Lecel frame a port has formed: LFN, RINK div 256 at its start, capture cycle (now), header, scheduled slots and
transom transfer, and its 5,140 message bits as they are sent (R406 to R408, R542). -/
structure LecelTx where
  lfn : Nat
  frame : Nat
  capture : Nat
  header : BitVec 128
  slots : Table Flit
  transom : BitVec 128
  wire : BitVec 5140
  deriving DecidableEq, Repr

/-- A flit waiting to be forwarded over the shared port of a pair: slot index, original capture (now) (R413, R521). -/
structure LecelFwd where
  slot : Nat
  capture : Nat
  flit : Flit
  deriving DecidableEq, Repr

/-- A Lecel port: st 0 ABSENT, 1 TRAINING, 2 UP, 3 DOWN, 4 GATED, 5 SKEWED (R436). -/
structure LecelPort where
  st : Nat
  peer : Nat
  flight : Nat
  ebuf : Nat
  /-- EBUF_DEPTH has been fixed since the port last trained (R408); FLIGHT was found above 160 cc (R404) -/
  ebufFixed : Bool
  tooLong : Bool
  cwCorrected : Nat
  cwUncorrectable : Nat
  transomLost : Nat
  skewFaults : Nat
  usedBy : Nat
  pmd : Nat
  /-- PMD, key and encryption as taken at the last training -/
  pmdLive : Nat
  crypt : Nat
  cryptLive : Nat
  key : List Byte
  authFails : Nat
  authRun : Nat
  /-- pads released at now (R562), training since -/
  released : Option Nat
  /-- now of the last decoded frame; frames in sequence so far, and the last LFN -/
  lastFrame : Nat
  inOrder : Nat
  lastLfn : Nat
  /-- FREE_U and FREE_N of the latest header (R415) -/
  freeU : Nat
  freeN : Nat
  /-- flits of the URGENT, and of the NORMAL, transom message received in part (R415) -/
  rxUrgent : List Flit
  rxNormal : List Flit
  /-- count at the start of the frame that brought the first of them, URGENT and NORMAL (R426) -/
  rxStartU : BitVec 64
  rxStartN : BitVec 64
  /-- messages received whole that have not been taken yet, oldest first -/
  rxHeld : List LecelRx
  /-- when (now) flits of each class were sent of late (R415), and the input served last in each class (R227) -/
  sentU : List Nat
  sentN : List Nat
  servedU : Nat
  servedN : Nat
  tx : Option LecelTx
  due : List LecelDue
  fwd : List LecelFwd
  /-- SSTATE of the latest header (R407) -/
  peerState : Nat
  /-- trained next to a BOUND peer while this device was not bound; waiting since now for a JOIN offer (R420) -/
  late : Bool
  joinWait : Option Nat
  /-- RINK_SYNC: TA of the probe outstanding, now of the last exchange -/
  probeTa : Option (BitVec 64)
  syncAt : Nat
  /-- the link is lost under R513 -/
  linkLost : Bool
  deriving DecidableEq, Repr

def LecelPort.fresh : LecelPort where
  st := 0
  peer := 0
  flight := 0
  ebuf := 0
  ebufFixed := false
  tooLong := false
  cwCorrected := 0
  cwUncorrectable := 0
  transomLost := 0
  skewFaults := 0
  usedBy := 0xFF
  pmd := 0
  pmdLive := 0
  crypt := 0
  cryptLive := 0
  key := []
  authFails := 0
  authRun := 0
  released := none
  lastFrame := 0
  inOrder := 0
  lastLfn := 0
  freeU := 0
  freeN := 0
  rxUrgent := []
  rxNormal := []
  rxStartU := 0
  rxStartN := 0
  rxHeld := []
  sentU := []
  sentN := []
  servedU := 4
  servedN := 4
  tx := none
  due := []
  fwd := []
  peerState := 0
  late := false
  joinWait := none
  probeTa := none
  syncAt := 0
  linkLost := false

/-- Transom messages received in part. -/
def LecelPort.inPart (x : LecelPort) : Nat := (if x.rxUrgent.isEmpty then 0 else 1) + (if x.rxNormal.isEmpty then 0 else 1)

/-- An entry of GEN_TABLE (R423, R424). -/
structure GenEnt where
  gen : Nat
  sdSent : Bool
  deriving DecidableEq, Repr

/-- A broadcast received and not yet tallied: parent port, children's ports that have not answered with their
addresses, its deadline and the tally so far (R431). -/
structure Bcast where
  origin : Nat
  bseq : Nat
  parent : Nat
  waiting : List (Nat × Nat)
  deadline : Nat
  own : Bool
  tally : TallyBody
  body : Msg
  deriving DecidableEq, Repr

/-- The device's own broadcast in progress (R431, R434). -/
structure OwnBcast where
  bseq : Nat
  slot : Option Nat
  scope : Nat × Nat × Nat × Nat
  waiting : List (Nat × Nat)
  deadline : Nat
  tally : TallyBody
  body : Msg
  deriving DecidableEq, Repr

/-- Binding and the Lecel side of the device: st 0 UNBOUND, 1 BINDING, 2 BOUND, 3 QUARANTINE (R435). -/
structure LinkState where
  st : Nat
  row : Nat
  col : Nat
  gen : Nat
  /-- torus size, rows and columns; 0 before an axis has closed -/
  rows : Nat
  cols : Nat
  closedEW : Bool
  closedNS : Bool
  /-- provisional coordinates (R419) -/
  provCol : Option Nat
  provRow : Option Nat
  /-- now of the head's last COUNT on each axis (R562) -/
  countEW : Option Nat
  countNS : Option Nat
  /-- aligned under R426; the offer taken (R421): ADDR, SIZE, GEN and its port -/
  aligned : Bool
  offer : Option (Nat × Nat × Nat × Nat)
  /-- PARTITION as written; none: the whole torus, PID 0 (R428) -/
  partition : Option (BitVec 64)
  genTable : Table GenEnt
  staleDiscards : Nat
  standDowns : Nat
  genJumps : Nat
  bindSkews : Nat
  bcastMissed : Nat
  bcastResends : Nat
  agreeRounds : Nat
  rinkDrifts : Nat
  ports : Table LecelPort
  outbox : List OutMsg
  /-- SEQ of the next message (R225), and the messages in the Porter's delivery buffer, at most 16, oldest first (R430) -/
  seqNext : Nat
  delivery : List Msg
  bseqNext : Nat
  own : Option OwnBcast
  /-- broadcasts that wait for the one outstanding: slot, scope (ROWZ, COLZ, RM1, CM1), body (R431) -/
  queue : List (Option Nat × (Nat × Nat × Nat × Nat) × Msg)
  heard : List Bcast
  lastBseq : Table Nat
  deriving DecidableEq, Repr

def LinkState.reset : LinkState where
  st := 0
  row := 0
  col := 0
  gen := 0
  rows := 0
  cols := 0
  closedEW := false
  closedNS := false
  provCol := none
  provRow := none
  countEW := none
  countNS := none
  aligned := false
  offer := none
  partition := none
  genTable := []
  staleDiscards := 0
  standDowns := 0
  genJumps := 0
  bindSkews := 0
  bcastMissed := 0
  bcastResends := 0
  agreeRounds := 0
  rinkDrifts := 0
  ports := []
  outbox := []
  seqNext := 0
  delivery := []
  bseqNext := 1
  own := none
  queue := []
  heard := []
  lastBseq := []

end Sys2Proof.Machine
end

