-- ==== Sys2Proof/Machine/Rs.lean ====
section
/-! DEFINITION. The Reed–Solomon code of R200, which guards flits, gate-table entries and HBM blocks (R51, R199, R201, R210,
R245): its check bytes, its syndromes, and what its decoder makes of an error pattern. DESIGN CHOICE (assumption 12): the
data byte with the lowest number is the coefficient of the highest power, and the check bytes follow the data bytes. -/
namespace Sys2Proof.Machine

/-- Times α in GF(2^8) (R200). -/
def gfDouble (a : Nat) : Nat := if a < 128 then 2 * a else (2 * a - 256) ^^^ 0x1D

/-- Product in GF(2^8), over n bits of b. -/
def gfMulBits : Nat → Nat → Nat → Nat
  | 0, _, _ => 0
  | n + 1, a, b => (if b % 2 == 1 then a else 0) ^^^ gfMulBits n (gfDouble a) (b / 2)

/-- Product in GF(2^8). -/
def gfMul (a b : Nat) : Nat := gfMulBits 8 a b

/-- α^i. -/
def gfPow : Nat → Nat
  | 0 => 1
  | n + 1 => gfDouble (gfPow n)

/-- Square. -/
def gfSquare (a : Nat) : Nat := gfMul a a

/-- Inverse of a non-zero element: its 254th power. -/
def gfInv (a : Nat) : Nat :=
  let a2 := gfSquare a
  let a4 := gfSquare a2
  let a8 := gfSquare a4
  let a16 := gfSquare a8
  let a32 := gfSquare a16
  let a64 := gfSquare a32
  gfMul (gfSquare a64) (gfMul a64 (gfMul a32 (gfMul a16 (gfMul a8 (gfMul a4 a2)))))

/-- The coefficients g3 to g0 of the generator (x - α^0)(x - α^1)(x - α^2)(x - α^3), below its leading 1 (R200). -/
def rsGen : List Nat := [0x0F, 0x36, 0x78, 0x40]

/-- One step of the division by the generator: the remainder r3 to r0 with the next data byte. -/
def rsStep (r : List Nat) (d : Nat) : List Nat :=
  let f := d ^^^ r.headD 0
  (r.drop 1 ++ [0]).zipWith (fun a g => a ^^^ gfMul f g) rsGen

/-- The four check bytes of a list of data bytes. -/
def rsCheck (l : List Nat) : List Nat := l.foldl rsStep [0, 0, 0, 0]

/-- Syndrome at α^i of a word, data bytes first (Horner). -/
def rsSyndrome (l : List Nat) (i : Nat) : Nat := l.foldl (fun a b => gfMul a (gfPow i) ^^^ b) 0

/-- What a decoder makes of an error pattern: no error seen, a correction that leaves the residual pattern, or a word that
cannot be corrected. A residual other than zero is a pattern that lies near another codeword: the word delivered is
wrong, and neither the receiver nor the program can tell. -/
inductive Decoded where
  | clean (residual : List Nat)
  | corrected (residual : List Nat)
  | failed
  deriving DecidableEq, Repr

/-- A word with the symbol at position p (0: the first) changed by y. -/
def flipAt (l : List Nat) (p y : Nat) : List Nat := l.modify p (fun b => b ^^^ y)

/-- The position of locator α^(n - 1 - p) in a word of n symbols, when there is one. -/
def locate (n x : Nat) : Option Nat := (List.range n).find? (fun p => gfPow (n - 1 - p) == x)

/-- The decoder on an error pattern e, whose word is its codeword changed by e: the code is linear, so the outcome is that
of e on the zero word. One or two symbols are corrected; where no pattern of at most two symbols has the syndromes, the
word cannot be corrected (R51, R200, R201). -/
def rsDecode (e : List Nat) : Decoded :=
  if e.all (fun b => b == 0) then .clean e
  else
  let n := e.length
  let s0 := rsSyndrome e 0
  let s1 := rsSyndrome e 1
  let s2 := rsSyndrome e 2
  let s3 := rsSyndrome e 3
  if s0 == 0 && s1 == 0 && s2 == 0 && s3 == 0 then .clean e
  else
    let det := gfMul s0 s2 ^^^ gfSquare s1
    if det == 0 then
      if s0 == 0 then .failed
      else
        let x := gfMul s1 (gfInv s0)
        if gfMul s1 x != s2 || gfMul s2 x != s3 then .failed
        else match locate n x with
          | some p => .corrected (flipAt e p s0)
          | none => .failed
    else
      let a := gfMul (gfMul s0 s3 ^^^ gfMul s1 s2) (gfInv det)
      let b := gfMul (gfMul s1 s3 ^^^ gfSquare s2) (gfInv det)
      let roots := (List.range n).filter (fun p =>
        let x := gfPow (n - 1 - p)
        (gfSquare x ^^^ gfMul a x ^^^ b) == 0)
      match roots with
      | [p, q] =>
        let x1 := gfPow (n - 1 - p)
        let x2 := gfPow (n - 1 - q)
        let y1 := gfMul (s1 ^^^ gfMul x2 s0) (gfInv (x1 ^^^ x2))
        .corrected (flipAt (flipAt e p y1) q (s0 ^^^ y1))
      | _ => .failed

/-- Byte k of a word of symbols. -/
def symbolsOf (n : Nat) (v : Nat) : List Nat := (List.range n).map (fun k => v / 2 ^ (8 * k) % 256)

/-- Symbols as a number, the first lowest. -/
def ofSymbols : List Nat → Nat
  | [] => 0
  | b :: t => b + 256 * ofSymbols t

/-- A flit or gate entry with its four check bytes above it (R199, R200, R210). -/
def rsWord (f : BitVec 128) : BitVec 160 :=
  BitVec.ofNat 160 (f.toNat + 2 ^ 128 * ofSymbols (rsCheck (symbolsOf 16 f.toNat)))

/-- The 20 symbols of a transfer's error pattern (R199). -/
def errSymbols (e : BitVec 160) : List Nat := symbolsOf 20 e.toNat

/-- The data bits that a residual pattern changes. -/
def residualFlit (l : List Nat) : BitVec 128 := BitVec.ofNat 128 (ofSymbols l)

end Sys2Proof.Machine
end

