-- ==== Sys2Proof/Machine/Transom.lean ====
section
/-! DEFINITION. The transom channel on the die: link control, header flits, the routers' buffers and credits, and how a
message finds its way (R203, R224 to R228). A node is a router by its core number, or the end of a row's link in an I/O
ring: 0x4000 + y in the west ring, 0x4080 + y in the east ring, which are column −1 and column 128 of row y (R227). -/
namespace Sys2Proof.Machine

/-- A flit of a message: CLASS (urgent), FIRST, LAST and bits [119:0] (R224). msg is the model's own number of the
message, by which a whole message is discarded. -/
structure TFlit where
  msg : Nat
  urgent : Bool
  first : Bool
  last : Bool
  data : BitVec 120
  deriving DecidableEq, Repr

/-- A node of the channel. Inputs are numbered 0 local, 1 N, 2 E, 3 S, 4 W, outputs 0 N, 1 E, 2 S, 3 W, 4 local; class 1 is
URGENT, class 0 NORMAL. -/
structure TransomNode where
  /-- two-flit buffer of input i and class c at key 2·i + c, oldest first -/
  bufs : Table (List TFlit)
  /-- spaces taken in the buffer that output o feeds, at key 2·o + c -/
  used : Table Nat
  /-- credits still to be returned on direction d, at key 2·d + c -/
  owed : Table Nat
  /-- the NORMAL message that holds output o: its input plus 1, and its number; 0 when none does -/
  holder : Table (Nat × Nat)
  /-- the input that output o served last, at key 2·o + c -/
  served : Table Nat
  /-- flits of the node's own messages that wait for its local buffers -/
  waiting : List TFlit
  /-- flits of a message taken in part at the local output, of class c at key c -/
  part : Table (List TFlit)
  /-- messages that have arrived and that the node has not taken yet -/
  inbox : List (List (BitVec 120))
  deriving DecidableEq, Repr

/-- A node with nothing in it. -/
def TransomNode.fresh : TransomNode := ⟨[], [], [], [], [], [], [], []⟩

/-- A transom transfer on a link: the cc count at which node to_ has it on its input from direction dir, its 128 bits, and
the number of the message that its flit belongs to. -/
structure TransomHop where
  due : Nat
  to_ : Nat
  dir : Nat
  word : BitVec 128
  msg : Nat
  deriving DecidableEq, Repr

/-- The channel as a whole. porterIn holds the messages that have reached the Porter. -/
structure Transom where
  nodes : Table TransomNode
  flying : List TransomHop
  next : Nat
  porterIn : List (List (BitVec 120))
  deriving DecidableEq, Repr

/-- The channel after a reset: empty. -/
def Transom.reset : Transom := ⟨[], [], 0, []⟩

/-! Link control (R224). -/

/-- The 128 bits of a transom transfer. -/
def transomWord (f : Option TFlit) (cru crn : Bool) : BitVec 128 :=
  let bit (b : Bool) (i : Nat) : Nat := if b then 2 ^ i else 0
  match f with
  | some f => BitVec.ofNat 128 (2 ^ 127 + bit f.urgent 126 + bit f.first 125 + bit f.last 124 + bit cru 123 + bit crn 122
      + f.data.toNat)
  | none => BitVec.ofNat 128 (bit cru 123 + bit crn 122)

/-- The flit that a transfer carries, of message m. -/
def transomFlit (w : BitVec 128) (m : Nat) : Option TFlit :=
  if w.getLsbD 127 then some ⟨m, w.getLsbD 126, w.getLsbD 125, w.getLsbD 124, w.extractLsb' 0 120⟩ else none

/-! Headers (R225, R226, R234). -/

/-- The codes of DEST and SRC that are no core number. -/
def destPorter : Nat := 0xFFF0

/-- TYPE codes (R225). -/
def tyTRAP_REPORT : Nat := 1
def tyTRAP_ACK : Nat := 2
def tySTAGE : Nat := 3
def tySTAGE_ACK : Nat := 4
def tyGATE_LOAD : Nat := 10

/-- A header flit; the payload is 72 bits. -/
def headerFlit (dest src type flits seq payload : Nat) : BitVec 120 :=
  BitVec.ofNat 120 (dest % 2 ^ 16 * 2 ^ 104 + src % 2 ^ 16 * 2 ^ 88 + type % 16 * 2 ^ 84 + (flits - 1) % 8 * 2 ^ 81
    + seq % 256 * 2 ^ 72 + payload % 2 ^ 72)

/-- Fields of a header flit. -/
def hdrDest (h : BitVec 120) : Nat := bitsOf h.toNat 119 104
def hdrSrc (h : BitVec 120) : Nat := bitsOf h.toNat 103 88
def hdrType (h : BitVec 120) : Nat := bitsOf h.toNat 87 84
def hdrFlits (h : BitVec 120) : Nat := bitsOf h.toNat 83 81 + 1
def hdrSeq (h : BitVec 120) : Nat := bitsOf h.toNat 79 72
def hdrPayload (h : BitVec 120) : Nat := bitsOf h.toNat 71 0

/-- The payload of a TRAP_REPORT (R226). -/
def trapPayload (code slot cc pc : Nat) : Nat :=
  code % 256 * 2 ^ 64 + slot % 16 * 2 ^ 60 + cc % 2 ^ 18 * 2 ^ 42 + pc % 2 ^ 11 * 2 ^ 31

/-- The payload of a STAGE (R234); offsets are two's complement. -/
def stagePayload (fence bypass : Bool) (n m : Int) : Nat :=
  (if fence then 2 ^ 71 else 0) + (if bypass then 2 ^ 70 else 0) + (n % 8).toNat * 2 ^ 67 + (m % 8).toNat * 2 ^ 64

/-- The flits of a message: its header, then its further flits. URGENT types are one flit long (R225). -/
def messageFlits (m : Nat) (header : BitVec 120) (rest : List (BitVec 120)) : List TFlit :=
  let urgent := hdrType header ≤ 4
  let n := rest.length
  ⟨m, urgent, true, n == 0, header⟩ :: rest.zipIdx.map (fun x => ⟨m, urgent, false, x.2 + 1 == n, x.1⟩)

/-! Places (R207, R227). -/

/-- Column of a node. -/
def nodeCol (n : Nat) : Int := if n < 0x4000 then ((n % 128 : Nat) : Int) else if n < 0x4080 then -1 else 128

/-- Row of a node. -/
def nodeRow (n : Nat) : Nat := if n < 0x4000 then n / 128 else n % 128

/-- Column of a destination; PCIe A, Lecel N, Lecel W and the Porter lie in the west ring, the others in the east (R28). -/
def destCol (d : Nat) : Int :=
  if d < 0x2800 then ((d % 128 : Nat) : Int) else if d == 0xFFF2 || d == 0xFFF5 || d == 0xFFF6 then 128 else -1

/-- The output that a message with header h takes at node n: along the row to the destination column, then along the
column (R227). -/
def transomWay (n : Nat) (h : BitVec 120) : Nat :=
  let d := hdrDest h
  if nodeCol n < destCol d then 1
  else if destCol d < nodeCol n then 3
  else if 0x2800 ≤ d || d / 128 == nodeRow n then 4
  else if d / 128 < nodeRow n then 0 else 2

namespace TransomNode

/-- Buffer of input i, class c. -/
def buf (x : TransomNode) (i c : Nat) : List TFlit := Table.get [] (2 * i + c) x.bufs

/-- The inputs in the order in which output o takes them, from the one after the last it served on (R227). -/
def order (x : TransomNode) (o c : Nat) : List Nat :=
  let k := Table.get 4 (2 * o + c) x.served
  (List.range 5).map (fun i => (k + 1 + i) % 5)

/-- Whether input i of class c has a message's first flit that goes to output o. -/
def asks (x : TransomNode) (n o c i : Nat) : Bool :=
  match x.buf i c with
  | f :: _ => f.first && transomWay n f.data == o
  | [] => false

/-- The input that output o of node n serves in class c: a NORMAL message keeps its output until its LAST flit. -/
def chosen (x : TransomNode) (n o c : Nat) : Option Nat :=
  let h := Table.get (0, 0) o x.holder
  if c == 0 && h.1 != 0 then (if (x.buf (h.1 - 1) 0).isEmpty then none else some (h.1 - 1))
  else (x.order o c).find? (x.asks n o c)

/-- The downstream buffer that output o feeds has space for class c; the local output always has. -/
def space (x : TransomNode) (o c : Nat) : Bool := o == 4 || decide (Table.get 0 (2 * o + c) x.used < 2)

/-- The class and input that output o serves now: URGENT before NORMAL. -/
def pick (x : TransomNode) (n o : Nat) : Option (Nat × Nat) :=
  let at_ (c : Nat) : Option (Nat × Nat) := if x.space o c then (x.chosen n o c).map (fun i => (c, i)) else none
  match at_ 1 with
  | some p => some p
  | none => at_ 0

/-- Take the head flit of input i, class c, for output o. -/
def take (x : TransomNode) (o c i : Nat) (f : TFlit) : TransomNode :=
  { x with
    bufs := Table.put (2 * i + c) ((x.buf i c).drop 1) x.bufs
    owed := if i == 0 then x.owed else Table.modify 0 (2 * (i - 1) + c) (fun n => n + 1) x.owed
    used := if o == 4 then x.used else Table.modify 0 (2 * o + c) (fun n => n + 1) x.used
    served := Table.put (2 * o + c) i x.served
    holder := if c == 1 then x.holder else Table.put o (if f.last then (0, 0) else (i + 1, f.msg)) x.holder }

/-- A flit leaves at the local output: the last one completes its message. -/
def land (x : TransomNode) (c : Nat) (f : TFlit) : TransomNode :=
  let l := Table.get [] c x.part ++ [f]
  if f.last then { x with part := Table.put c [] x.part, inbox := x.inbox ++ [l.map (fun g => g.data)] }
  else { x with part := Table.put c l x.part }

/-- Return one credit of class c on direction d, when one is owed. -/
def credit (x : TransomNode) (d c : Nat) : Bool × TransomNode :=
  match Table.get 0 (2 * d + c) x.owed with
  | 0 => (false, x)
  | m + 1 => (true, { x with owed := Table.put (2 * d + c) m x.owed })

/-- What node n drives on output direction o of a transom transfer: the word, its message, and the node after it. -/
def drive (x : TransomNode) (n o : Nat) : BitVec 128 × Nat × TransomNode :=
  let u := x.credit o 1
  let v := u.2.credit o 0
  match x.pick n o with
  | some (c, i) => match x.buf i c with
    | f :: _ => (transomWord (some f) u.1 v.1, f.msg, v.2.take o c i f)
    | [] => (transomWord none u.1 v.1, 0, v.2)
  | none => (transomWord none u.1 v.1, 0, v.2)

/-- The local output of node n takes one flit. -/
def eject (x : TransomNode) (n : Nat) : TransomNode :=
  match x.pick n 4 with
  | some (c, i) => match x.buf i c with
    | f :: _ => (x.take 4 c i f).land c f
    | [] => x
  | none => x

/-- Waiting flits of class c enter the local buffer while it has space. -/
def fill (x : TransomNode) (c : Nat) : TransomNode :=
  match x.waiting.find? (fun f => f.urgent == (c == 1)) with
  | some f =>
    if (x.buf 0 c).length < 2 then
      { x with bufs := Table.put c (x.buf 0 c ++ [f]) x.bufs, waiting := x.waiting.erase f }
    else x
  | none => x

/-- Both local buffers are filled, two places each. -/
def fillAll (x : TransomNode) : TransomNode := (((x.fill 1).fill 1).fill 0).fill 0

/-- A transfer arrives from direction d: its credits are taken, and its flit enters the buffer of its class. -/
def receive (x : TransomNode) (d : Nat) (w : BitVec 128) (m : Nat) : TransomNode :=
  let back (b : Bool) (c : Nat) (t : Table Nat) : Table Nat := if b then Table.modify 0 (2 * d + c) (fun n => n - 1) t else t
  let x := { x with used := back (w.getLsbD 122) 0 (back (w.getLsbD 123) 1 x.used) }
  match transomFlit w m with
  | some f =>
    let key := 2 * (d + 1) + (if f.urgent then 1 else 0)
    let b := Table.get [] key x.bufs
    if b.length < 2 then { x with bufs := Table.put key (b ++ [f]) x.bufs } else x
  | none => x

/-- Message m is gone from a node: its flits leave every buffer, whose space is returned, and the output it held is
free. -/
def forget (m : Nat) (x : TransomNode) : TransomNode :=
  let gone (l : List TFlit) : Nat := (l.filter (fun f => f.msg == m)).length
  { x with
    bufs := Table.mapVals (fun _ l => l.filter (fun f => f.msg != m)) x.bufs
    owed := x.bufs.foldl (fun o b => if b.1 < 2 || gone b.2 == 0 then o else Table.modify 0 (b.1 - 2) (fun n => n + gone b.2) o)
      x.owed
    holder := Table.mapVals (fun _ h => if h.1 != 0 && h.2 == m then (0, 0) else h) x.holder
    waiting := x.waiting.filter (fun f => f.msg != m)
    part := Table.mapVals (fun _ l => l.filter (fun f => f.msg != m)) x.part }

end TransomNode

namespace Transom

/-- Node n. -/
def node (t : Transom) (n : Nat) : TransomNode := Table.get TransomNode.fresh n t.nodes

/-- Replace node n. -/
def setNode (t : Transom) (n : Nat) (x : TransomNode) : Transom := { t with nodes := Table.put n x t.nodes }

/-- A message enters the channel at node n. -/
def inject (t : Transom) (n : Nat) (header : BitVec 120) (rest : List (BitVec 120)) : Transom :=
  let x := t.node n
  { t.setNode n ({ x with waiting := x.waiting ++ messageFlits t.next header rest }).fillAll with next := t.next + 1 }

/-- Where a flit that node n drives on direction d arrives, and after how many cc, given how routers neighbour each other
(R36, R207). -/
def hop (near : Nat → Nat → Option (Nat × Nat)) (n d : Nat) : Option (Nat × Nat) :=
  if n < 0x4000 then
    if n % 128 == 0 && d == 3 then some (0x4000 + n / 128, 2)
    else if n % 128 == 127 && d == 1 then some (0x4080 + n / 128, 2)
    else near n d
  else if n < 0x4080 then (if d == 1 then some (128 * (n - 0x4000), 2) else none)
  else if d == 3 then some (128 * (n - 0x4080) + 127, 2) else none

/-- Node n drives its four links in a reserved cycle at cc count now, and its local output takes a flit. -/
def driveNode (near : Nat → Nat → Option (Nat × Nat)) (now n : Nat) (t : Transom) : Transom :=
  let one (t : Transom) (d : Nat) : Transom :=
    match hop near n d with
    | none => t
    | some (m, lat) =>
      let r := (t.node n).drive n d
      if r.1 == 0 then t
      else { t.setNode n r.2.2 with flying := t.flying ++ [⟨now + lat, m, (d + 2) % 4, r.1, r.2.1⟩] }
  let t := [0, 1, 2, 3].foldl one t
  let x := ((t.node n).eject n).fillAll
  if 0x4000 ≤ n then { t.setNode n { x with inbox := [] } with porterIn := t.porterIn ++ x.inbox }
  else t.setNode n x

/-- A reserved cycle: every node that holds something, and whose clock runs, drives. -/
def reservedCycle (near : Nat → Nat → Option (Nat × Nat)) (live : Nat → Bool) (now : Nat) (t : Transom) : Transom :=
  (t.nodes.filter (fun x => live x.1)).foldl (fun t x => driveNode near now x.1 t) t

/-- The transfer that node n has from direction d at cc count now. -/
def arriving (t : Transom) (now n d : Nat) : Option TransomHop :=
  t.flying.find? (fun h => h.due == now && h.to_ == n && h.dir == d)

/-- The same channel without that transfer. -/
def landed (t : Transom) (now n d : Nat) : Transom :=
  { t with flying := t.flying.filter (fun h => !(h.due == now && h.to_ == n && h.dir == d)) }

/-- A transfer is received with the residual error pattern e of its decoder, none of which the receiver sees. -/
def receive (t : Transom) (now n d : Nat) (e : BitVec 128) : Transom :=
  match t.arriving now n d with
  | none => t
  | some h => let t := t.landed now n d
    t.setNode n ((t.node n).receive d (h.word ^^^ e) h.msg)

/-- A transfer that cannot be corrected: its whole message is gone (R224). Its credits still count, and the space of its
flits is returned: DESIGN CHOICE (assumption 34), for the manual gives no recovery of a credit. -/
def drop (t : Transom) (now n d : Nat) : Transom :=
  match t.arriving now n d with
  | none => t
  | some h =>
    let t := t.landed now n d
    let t := t.setNode n ((t.node n).receive d (h.word &&& BitVec.ofNat 128 (3 * 2 ^ 122)) h.msg)
    if !h.word.getLsbD 127 then t
    else
      let c := if h.word.getLsbD 126 then 1 else 0
      let x := t.node n
      let t := t.setNode n { x with owed := Table.modify 0 (2 * d + c) (fun k => k + 1) x.owed }
      let dead := t.flying.filter (fun g => g.word.getLsbD 127 && g.msg == h.msg)
      let t := dead.foldl (fun t g =>
        let y := t.node g.to_
        t.setNode g.to_ { y with owed := Table.modify 0 (2 * g.dir + (if g.word.getLsbD 126 then 1 else 0)) (fun k => k + 1) y.owed }) t
      { t with
        nodes := Table.mapVals (fun _ y => y.forget h.msg) t.nodes
        flying := t.flying.map (fun g => if g.word.getLsbD 127 && g.msg == h.msg
          then { g with word := g.word &&& BitVec.ofNat 128 (3 * 2 ^ 122) } else g) }

/-- Node n takes the first message of its inbox that satisfies p. -/
def takeAt (t : Transom) (n : Nat) (p : List (BitVec 120) → Bool) : Option (List (BitVec 120) × Transom) :=
  let x := t.node n
  (x.inbox.find? p).map (fun m => (m, t.setNode n { x with inbox := x.inbox.erase m }))

/-- The Porter takes the first message for it that satisfies p. -/
def takePorter (t : Transom) (p : List (BitVec 120) → Bool) : Option (List (BitVec 120) × Transom) :=
  (t.porterIn.find? p).map (fun m => (m, { t with porterIn := t.porterIn.erase m }))

end Transom
end Sys2Proof.Machine
end

