-- ==== Sys2Proof/Machine/StateDev.lean ====
section
/-! DEFINITION. The state of the rest of the device: power, heat, interrupts, the Logbook, the dictionary, security,
start-up, sites and pins (R29 to R45, R437 to R505, R529 to R587). Times are cc counts of State.now. -/
namespace Sys2Proof.Machine

/-! Power (R457 to R469). -/

/-- States of a domain: 0 ON, 1 RET, 2 OFF, 3 ENTERING, 4 WAKING (R481). -/
structure Domain where
  st : Nat
  req : Nat
  /-- RET (1) or OFF (2): the state being entered, or left by the wake in progress -/
  target : Nat
  /-- cycle 0 of the entry sequence, or the accepted wake event -/
  since : Nat
  /-- wake logic armed after the last entry (R462 cycle 13) -/
  armed : Bool
  /-- a wake event latched in the commit cycle (R464) -/
  latched : Bool
  padsHeld : Bool
  /-- the entry in progress began in RET, or the wake in progress left RET -/
  fromRet : Bool
  /-- energy drawn since power-on, in units of 2^-16 µJ -/
  energy : Nat
  deriving DecidableEq, Repr

/-- A domain at power-on: OFF, its wake not begun. -/
def Domain.off : Domain := ⟨2, 0, 2, 0, true, false, false, false, 0⟩

/-- A wake comparator: CMP_CONFIG and CMP_WAKE_MASK (R467 to R469). -/
structure Comparator where
  config : BitVec 32
  mask : BitVec 64
  deriving DecidableEq, Repr

/-- The domains, comparators and meters. -/
structure Power where
  domains : Table Domain
  wakesLost : Nat
  entriesCancelled : Nat
  supplyAlarms : Nat
  aonEnergy : Nat
  comparators : Table Comparator
  railMv : Table Nat
  deriving DecidableEq, Repr

def Power.reset : Power := ⟨[], 0, 0, 0, 0, [(5, ⟨0x20000000, 0⟩)], []⟩

/-- The part of a lap that counts for the allowance (R471): its slot, bound, length, first cycle, and the first cycle
after its last, as now counts. -/
structure Span where
  slot : Nat
  bound : Nat
  len : Nat
  first : Nat
  stop : Nat
  deriving DecidableEq, Repr

/-- The Louvre (R471 to R477): account and forecast; the account is in units of 2^-16 µJ. -/
structure Louvre where
  powerLimit : Nat
  account : Int
  cap : Nat
  heatRise : Nat
  starveLimit : Nat
  forecast : Int
  admitted : Nat
  deferred : Nat
  hold : Bool
  holdFrom : Option Nat
  lastSample : Nat
  spans : List Span
  deriving DecidableEq, Repr

def Louvre.reset : Louvre := ⟨2400, 0, 786432, 20000, 1000, 0, 0, 0, true, none, 0, []⟩

/-- Die temperatures (R478, R479), in 1/16 °C; state 0 NORMAL, 1 EMERGENCY, 2 TRIPPED. -/
structure Thermal where
  tjLimit : Nat
  tjNow : Int
  state : Nat
  events : Nat
  die : Table Int
  deriving DecidableEq, Repr

def Thermal.reset : Thermal := ⟨95, 0, 0, 0, []⟩

/-! Interrupts and the Logbook (R482 to R505). -/

/-- A source. -/
structure Source where
  enable : Bool
  alert : Bool
  target : Nat
  prio : Nat
  pending : Bool
  active : Bool
  stamp : Nat
  fires : Nat
  /-- not offered before this now count: the cycle after an EOI (R485) -/
  offerFrom : Nat
  deriving DecidableEq, Repr

def Source.fresh : Source := ⟨false, false, 0, 0, false, false, 0, 0, 0⟩

/-- A target: its running priority (none: NONE) and its stack, top first, of saved priorities and sources. -/
structure Target where
  run : Option Nat
  stack : List (Option Nat × Nat)
  deriving DecidableEq, Repr

/-- The interrupt controller and ALERT; ibi: the bytes of each in-band interrupt sent, newest first (R493). -/
structure Irq where
  sources : Table Source
  targets : Table Target
  alert : Bool
  ibiEnable : Bool
  ibi : List (List Byte)
  deriving DecidableEq, Repr

def Irq.reset : Irq := ⟨[(0, ⟨false, false, 0, 15, false, false, 0, 0, 0⟩)], [], false, true, []⟩

/-- One metric of an interval (R500, R501). -/
structure Metric where
  bins : Table Nat
  count : Nat
  sum : Int
  mn : Int
  mx : Int
  deriving DecidableEq, Repr

def Metric.zero : Metric := ⟨[], 0, 0, 0, 0⟩

/-- A record being written: its position, bytes with SEQ, and the now count of its interval's end (R503). -/
structure LogWrite where
  record : Nat
  seq : Nat
  bytes : List Byte
  ended : Nat
  deriving DecidableEq, Repr

/-- The Logbook. -/
structure Logbook where
  enable : Bool
  interval : Nat
  full : Bool
  count : Nat
  seqLast : Nat
  seqFirst : Nat
  lost : Nat
  seqNext : Nat
  /-- the interval in progress: START (RINK), its length in ms, recorded so far; none before the first -/
  current : Option (Nat × Nat × Bool)
  metrics : Table Metric
  /-- RINK count of the last millisecond tick, and the per-ms counters then, by metric -/
  lastMs : Nat
  snap : Table Nat
  /-- events counted for metrics that have no object of their own: 5, 6, 7, 26, 27 -/
  tallies : Table Nat
  writing : List LogWrite
  records : Table (List Byte)
  deriving DecidableEq, Repr

def Logbook.reset : Logbook :=
  ⟨true, 1000, false, 0, 0, 0, 0, 1, none, [], 0, [], [], [], []⟩

/-! The dictionary (R437 to R456). -/

/-- An access path (R443). porter: the Porter's own firmware, which claims and ends the sources of its target and reaches
no other object this way (R490). -/
inductive Path where
  | portA | portB | transom | mgmt | porter
  deriving DecidableEq, Repr

/-- A segmented exchange (R446): who asks, XID, a read's snapshot or a write's bytes. -/
structure Exchange where
  path : Path
  who : Nat
  xid : Nat
  read : Bool
  index : Nat
  sub : Nat
  total : Nat
  data : List Byte
  last : Nat
  deriving DecidableEq, Repr

/-- What the device answers to an access that arrives by a path: status, value (R450, R451). -/
structure Answer where
  status : Nat
  value : List Byte
  deriving DecidableEq, Repr

/-- Oracle settings of one access path (R167, R168). -/
structure Oracle where
  mode : Nat
  key : List Byte
  ctr : List Byte
  u : Nat
  req : List Byte
  deriving DecidableEq, Repr

def Oracle.fresh : Oracle :=
  ⟨0, List.replicate 16 0, List.replicate 16 0, 0, List.replicate 24 0⟩

/-- The dictionary's own state. -/
structure Dict where
  lastReset : Nat
  resets : Nat
  i3cAddress : Nat
  endpointId : Nat
  exchanges : List Exchange
  debugEnable : Bool
  debugLock : Bool
  debugReads : Nat
  oracles : Table Oracle
  /-- the answer to the access made last over a path other than a command packet -/
  answer : Option Answer
  /-- the answer of the last management or SPDM exchange, as bytes -/
  reply : List Byte
  /-- the packets of the dictionary answer given last on the management bus (R447) -/
  busOut : List McPacket
  xidNext : Nat
  deriving DecidableEq, Repr

def Dict.reset : Dict := ⟨0, 0, 0, 0, [], false, false, 0, [], none, [], [], 0⟩

/-! Determinism settings and probes (R311, R325, R330 to R333). -/

/-- Probes: PROBE_SLOT and PROBE_CYCLE as written, those of the probe made last, and its results; state 0 IDLE,
1 RUNNING, 2 DONE, 3 FAULTED (R333). -/
structure Probe where
  slotSet : Nat
  cycleSet : Nat
  slot : Nat
  cycle : Nat
  state : Nat
  lap : Nat
  endAt : Nat
  cores : Table (BitVec 64)
  slices : Table (BitVec 64)
  deriving DecidableEq, Repr

structure Det where
  strict : Bool
  strictLock : Bool
  strictRefusals : Nat
  verifyLaps : Nat
  verifyMode : Nat
  probe : Probe
  streams : Table (BitVec 128)
  deriving DecidableEq, Repr

def Det.reset : Det := ⟨false, false, 0, 16, 0, ⟨0, 0, 0, 0, 0, 0, 0, [], []⟩, []⟩

/-! Package flash and security (R530 to R549, R553). -/

/-- Package flash and fuses, with the values a device leaves the factory with. -/
structure Flash where
  /-- sites that failed at manufacturing test, by site number (R238) -/
  siteFailed : List Nat
  /-- PC_FAILED word of each stack -/
  pcFailed : Table (BitVec 32)
  signedRequired : Bool
  securityLock : Bool
  imageKeys : Table (List Byte)
  fwSvn : Nat
  fwSvnMin : Nat
  /-- the staged bank verified under FW_COMMIT, to boot at the next reset (R538), with its SVN -/
  fwNext : Option Nat
  /-- the helper data can correct the PUF read (R532) -/
  pufGood : Bool
  /-- the configuration record is as R553 has it, and a firmware bank is accepted under R537 -/
  recordGood : Bool
  bankGood : Bool
  deriving DecidableEq, Repr

/-- A signature the key block has to make (R534): for the trailer of a port's response, or for SPDM. -/
inductive SigJob where
  | trailer (port : Nat) (message : List Byte)
  | spdm (message : List Byte)
  deriving DecidableEq, Repr

/-- One SPDM responder endpoint, by transport (R539): steps of the connection and the secured session. -/
structure Spdm where
  version : Nat
  capsDone : Bool
  algsDone : Bool
  session : Bool
  handshake : Bool
  deriving DecidableEq, Repr

def Spdm.fresh : Spdm := ⟨0, false, false, false, false⟩

/-- IDE keys of a port: slots programmed and active, stream secure (R541). -/
structure IdeKeys where
  programmed : List Nat
  active : List Nat
  deriving DecidableEq, Repr

structure Security where
  identity : Nat
  pubkey : List Byte
  fwStage : List Byte
  linkSecret : List Byte
  signatures : Nat
  sigQueue : List SigJob
  /-- the signature in progress and the now count of its start -/
  signing : Option (SigJob × Nat)
  turn : Nat
  spdm : Table Spdm
  ide : Table IdeKeys
  /-- key installs waiting in the cipher block: 0 and 1 the key of the IDE link stream of ports A and B, 2 + p the Lecel key of
  port p, 7 + 4·p + n the key of selective stream n, 1 to 4, of host port p -/
  installs : List Nat
  /-- keys installed so far, by the same numbers -/
  installed : List Nat
  /-- the 8 bytes that mask each installed key, by the same numbers (R547) -/
  masks : Table (List Byte)
  deriving DecidableEq, Repr

def Security.reset : Security :=
  ⟨0, List.replicate 97 0, [], List.replicate 32 0, 0, [], none, 0, [], [], [], [], []⟩

/-! Start-up, clocks and pins (R39 to R45, R550 to R587). -/

structure StartUp where
  /-- 0 BOOT, 1 POWERING, 2 READY, 3 FAILED -/
  st : Nat
  fault : Nat
  us : Nat
  /-- now of time 0 of R554 -/
  time0 : Option Nat
  pwrOk : Bool
  resetN : Bool
  refclk : Bool
  refclkOk : Bool
  straps : Nat
  strapPins : Nat
  addrPins : Nat
  pllLock : Nat
  pllLost : Nat
  pllSince : Option Nat
  reservedDone : Bool
  /-- a device reset in progress since now; a DEVICE_RESET write waiting: the now count of its arrival, and the port
  whose response it waits for -/
  resetHeld : Option Nat
  resetAsked : Option (Nat × Nat)
  /-- domains still to be woken by start-up, in order -/
  toWake : List Nat
  deriving DecidableEq, Repr

/-- The output pins and the boundary-scan port (R570, R575, R576, R584): jtag 0 BYPASS, 1 SAMPLE/PRELOAD, 2 EXTEST. -/
structure Pins where
  syncStamp : Nat
  syncCount : Nat
  syncShift : Nat
  syncShiftNext : Option Nat
  syncOutUntil : Option Nat
  thermN : Bool
  alertN : Bool
  jtag : Nat
  boundary : BitVec 64
  pinDrive : Option (BitVec 64)
  deriving DecidableEq, Repr

/-! Sites, rows and what the mesh reports (R31 to R45, R82 to R84, R225 to R239, R514, R529). -/

/-- SITE_STATUS of a site and its steering (R234, R239): state 0 USED, 1 SPARE, 2 IDLE_ROW, 3 SKIPPED_ROW,
4 FAILED_TEST, 5 FAILED_SERVICE. -/
structure Site where
  state : Nat
  fence : Bool
  bypass : Bool
  lx : Nat
  ly : Nat
  nsteer : Int
  ssteer : Int
  /-- FENCE, BYPASS, NSTEER, SSTEER staged (R234) -/
  staged : Option (Bool × Bool × Int × Int)
  deriving DecidableEq, Repr

/-- A trap report not yet acknowledged (R226): router marks a router's report, site its site; slot 15 marks that of a
router of no course. -/
structure TrapReport where
  src : Nat
  router : Bool
  site : Nat
  slot : Nat
  seq : Nat
  code : Nat
  cc : Nat
  pc : Nat
  sent : Nat
  received : Bool
  attempt : Nat
  deriving DecidableEq, Repr

/-- A STAGE message sent to a site's router and not yet acknowledged (R234). -/
structure StageMsg where
  site : Nat
  fence : Bool
  bypass : Bool
  nsteer : Int
  ssteer : Int
  seq : Nat
  applied : Bool
  deriving DecidableEq, Repr

/-- Changes of site status decided together (R38, R39, R231, R234): the failed site that they remedy, the status that each
site not yet committed is to have and the slot that owns it, the mapping that they bring, and what they count as. -/
structure SitePlan where
  failed : Option Nat
  sites : Table Site
  owners : Table Nat
  rowMap : Table Nat
  shifts : Nat
  remaps : Nat
  deriving DecidableEq, Repr

/-- The grid as a whole. -/
structure Grid where
  activeRows : Nat
  /-- ROW_MAP: physical row of logical row y of die d at key 80·d + y; 0xFF where none -/
  rowMap : Table Nat
  cores : Table Core
  routers : Table Router
  /-- sites whose status differs from what the site map gives -/
  sites : Table Site
  reports : List TrapReport
  seqs : Table Nat
  stages : List StageMsg
  /-- the now count at which a COMMIT is driven, and its slot mask -/
  commit : Option (Nat × Nat)
  /-- the changes in hand: what no COMMIT has made yet -/
  plan : Option SitePlan
  /-- a load or a release has changed what the sites' statuses are to be -/
  unsettled : Bool
  /-- the Porter's transom sequence number -/
  porterSeq : Nat
  transom : Transom
  /-- now counts at which DEVICE of the schuss return line was driven, until the Porter has seen them (R223) -/
  deviceDrives : List Nat
  trapReports : Nat
  linkCorrected : Nat
  linkUncorrectable : Nat
  fenceDrops : Nat
  rowShifts : Nat
  rowRemaps : Nat
  transomDrops : Nat
  schussErrors : Nat
  /-- RINK[15:0] as the routers keep it and count it on (R222) -/
  routerRink : Nat
  /-- faults of routers in no stripe: site and now count (R514) -/
  idleFaults : List (Nat × Nat)
  /-- sites decided as failed whose remedy waits for a boundary (R514) -/
  failing : List Nat
  failedService : List Nat
  lapFaults : Nat
  siteFailures : Nat
  deviceLost : Nat
  lossesDeclared : Nat
  coverPorts : Nat
  reloads : Nat
  deriving DecidableEq, Repr

def Grid.reset : Grid :=
  ⟨0, [], [], [], [], [], [], [], none, none, false, 0, Transom.reset, [], 0, 0, 0, 0, 0, 0, 0, 0, 0, [], [], [], 0, 0, 0, 0, 0, 0⟩

end Sys2Proof.Machine
end

