-- ==== Sys2Proof/Syntax.lean ====
section
/-! DEFINITION. The commands the device takes: one constructor for each row of the table of operations and events. -/
namespace Sys2Proof

/-- What a read of the block of line la meets (R245, R247): the physical error pattern of its 72 bytes as the block code sees
it, and whether the on-die ECC of the stack reports a correction of its own. A block not named meets no error. -/
structure BlockErr where
  la : Nat
  err : BitVec 576
  ecc : Bool
  deriving DecidableEq, Repr

/-- One die-sense reading of a rail in a domain, in mV (R579). -/
structure RailReading where
  domain : Nat
  rail : Nat
  mv : Nat
  deriving DecidableEq, Repr

/-- What the FEC made of a received Lecel frame (R405, R409). -/
inductive FrameFate where
  | clean | corrected | failed
  deriving DecidableEq, Repr

open Sys2Proof.Machine in
/-- The commands. Operands by name:
n: a core (its logical number), an entropy cell, or a comparator; uv: a comparator's input in microvolts; arg, f: raw fields of the bundle slot; upset: a stored
word or table entry read cannot be corrected, which is a physical event; err, errs: a physical error pattern, of a transfer, of the
read of a gate-table entry (errs: by core number) or of the sums of an MMA; errs of
a command that reads HBM blocks: what those reads meet; holds: hold registers read in this cycle that
cannot be corrected; word: a word received on the schuss lines; k: a course slot; j: a logical slice (512 + c: the standby
pseudo-channel c), or a Lecel frame number; p, w: a port and a packet window;
via: the access path of a dictionary access; value, bytes: what is written; d: a power domain; lat: a lattice, 0 W or 1 E;
r: the route flit of a message; taken: how many messages the Porter has taken from its delivery buffer since the last entered it (R430); ep: an SPDM endpoint, 0 and 1 the DOE
mailboxes of ports A and B, 2 MCTP. -/
inductive Instr where
  /-- LOOP (R61): CT operation that loads loop counter Lc with an immediate count and marks the next bundle as the loop start. -/
  | loop (n : Nat) (arg : BitVec 12) (upset : Bool)
  /-- ENDL (R61): CT operation that decrements Lc and branches back to the loop start while the counter is not zero. -/
  | endl (n : Nat) (arg : BitVec 12) (upset : Bool)
  /-- WAIT (R61): CT operation that makes the next bundle issue n cycles later, with nothing issued in between. -/
  | wait (n : Nat) (arg : BitVec 12) (upset : Bool)
  /-- END (R61): CT operation that stops issue for the rest of the lap and names the entry bundle for the next lap. -/
  | endLap (n : Nat) (arg : BitVec 12) (upset : Bool)
  /-- RDFLAG (R61): CT operation that reads the sticky flags into an S register. -/
  | rdflag (n : Nat) (arg : BitVec 12) (upset : Bool)
  /-- RDCC (R61): CT operation that reads the lap cycle of its bundle into an S register. -/
  | rdcc (n : Nat) (arg : BitVec 12) (upset : Bool)
  /-- RDLAP (R61): CT operation that reads one half of the lap number into an S register. -/
  | rdlap (n : Nat) (arg : BitVec 12) (upset : Bool)
  /-- MMA (R67): MX operation that forms 16 chunk sums for one named tile row. -/
  | mma (n : Nat) (f : MxFields) (upset : Bool)
  /-- MMAL (R67): MX operation like MMA whose row is offset by L0[3:0]. -/
  | mmal (n : Nat) (f : MxFields) (upset : Bool)
  /-- MMA_RETIRE (R131): Retirement of an MMA, which inserts its chunk sums into the carry stacks after an ACC=SET clear where it applies. -/
  | mmaRetire (n : Nat) (err : List Int) (upset : Bool)
  /-- FADD (R104): VX FP32 addition per lane, rounded to nearest even. -/
  | fadd (n : Nat) (f : VxFields) (upset : Bool)
  /-- FSUB (R104): VX FP32 subtraction per lane. -/
  | fsub (n : Nat) (f : VxFields) (upset : Bool)
  /-- FMUL (R104): VX FP32 multiplication per lane. -/
  | fmul (n : Nat) (f : VxFields) (upset : Bool)
  /-- FMA (R104): VX fused multiply-add per lane with one rounding. -/
  | fma (n : Nat) (f : VxFields) (upset : Bool)
  /-- FMIN (R105): VX per-lane FP32 minimum. -/
  | fmin (n : Nat) (f : VxFields) (upset : Bool)
  /-- FMAX (R105): VX per-lane FP32 maximum. -/
  | fmax (n : Nat) (f : VxFields) (upset : Bool)
  /-- FCMPLT (R69): VX less-than compare that writes a 16-bit lane mask to an S register. -/
  | fcmplt (n : Nat) (f : VxFields) (upset : Bool)
  /-- FCMPEQ (R69): VX equality compare that writes a lane mask to an S register. -/
  | fcmpeq (n : Nat) (f : VxFields) (upset : Bool)
  /-- SEL (R69): VX per-lane select between two registers under an S-register mask. -/
  | sel (n : Nat) (f : VxFields) (upset : Bool)
  /-- IADD (R69): VX 32-bit integer addition per lane. -/
  | iadd (n : Nat) (f : VxFields) (upset : Bool)
  /-- ISUB (R69): VX 32-bit integer subtraction per lane. -/
  | isub (n : Nat) (f : VxFields) (upset : Bool)
  /-- AND (R69): VX bitwise and per lane. -/
  | and (n : Nat) (f : VxFields) (upset : Bool)
  /-- OR (R69): VX bitwise or per lane. -/
  | or (n : Nat) (f : VxFields) (upset : Bool)
  /-- XOR (R69): VX bitwise xor per lane. -/
  | xor (n : Nat) (f : VxFields) (upset : Bool)
  /-- SHL (R69): VX left shift per lane. -/
  | shl (n : Nat) (f : VxFields) (upset : Bool)
  /-- SHR (R69): VX logical right shift per lane. -/
  | shr (n : Nat) (f : VxFields) (upset : Bool)
  /-- IMAX (R69): VX signed integer maximum per lane. -/
  | imax (n : Nat) (f : VxFields) (upset : Bool)
  /-- ICMPLT (R69): VX signed integer compare that writes a lane mask. -/
  | icmplt (n : Nat) (f : VxFields) (upset : Bool)
  /-- EXP2 (R107): VX correctly rounded base-2 exponential per lane. -/
  | exp2 (n : Nat) (f : VxFields) (upset : Bool)
  /-- LOG2 (R107): VX correctly rounded base-2 logarithm per lane. -/
  | log2 (n : Nat) (f : VxFields) (upset : Bool)
  /-- RSQRT (R107): VX correctly rounded reciprocal square root per lane. -/
  | rsqrt (n : Nat) (f : VxFields) (upset : Bool)
  /-- RCP (R107): VX correctly rounded reciprocal per lane. -/
  | rcp (n : Nat) (f : VxFields) (upset : Bool)
  /-- CVTN_RNE (R111): VX narrowing of 16 FP32 lanes to a packed format, rounded to nearest even. -/
  | cvtnRne (n : Nat) (f : VxFields) (upset : Bool)
  /-- CVTN_RTZ (R111): VX narrowing of 16 FP32 lanes, rounded toward zero. -/
  | cvtnRtz (n : Nat) (f : VxFields) (upset : Bool)
  /-- CVTN_SR (R116): VX narrowing of 16 FP32 lanes with stochastic rounding from VB bits. -/
  | cvtnSr (n : Nat) (f : VxFields) (upset : Bool)
  /-- CVTW (R119): VX exact widening of 16 packed elements to FP32. -/
  | cvtw (n : Nat) (f : VxFields) (upset : Bool)
  /-- VSCALE (R94): VX computation of the E8M0 block scale of 32 FP32 values. -/
  | vscale (n : Nat) (f : VxFields) (upset : Bool)
  /-- SHUF (R69): VX lane permutation indexed by VB. -/
  | shuf (n : Nat) (f : VxFields) (upset : Bool)
  /-- BCAST (R69): VX broadcast of an S register into every lane. -/
  | bcast (n : Nat) (f : VxFields) (upset : Bool)
  /-- VMAXI (R70): VX tree reduction to the largest lane and its paired VB value. -/
  | vmaxi (n : Nat) (f : VxFields) (upset : Bool)
  /-- VMINI (R70): VX tree reduction to the smallest lane and its paired VB value. -/
  | vmini (n : Nat) (f : VxFields) (upset : Bool)
  /-- VSUM (R70): VX balanced-tree FP32 sum of 16 lanes into lane 0. -/
  | vsum (n : Nat) (f : VxFields) (upset : Bool)
  /-- LPADD (R100): VX table-based LP16 log-sum per lane. -/
  | lpadd (n : Nat) (f : VxFields) (upset : Bool)
  /-- LPMUL (R99): VX saturating LP16 sum per lane. -/
  | lpmul (n : Nat) (f : VxFields) (upset : Bool)
  /-- RAW (R148): SX draw of 16 CARVE-128 blocks keyed by stream, seed, lap, element and draw index. -/
  | raw (n : Nat) (f : SxFields) (upset : Bool)
  /-- NORM32 (R162): SX Box–Muller transform of 16 uniforms into FP32 normals. -/
  | norm32 (n : Nat) (f : SxFields) (upset : Bool)
  /-- NORM16 (R164): SX Box–Muller transform of 16 uniforms into packed BF16 normals. -/
  | norm16 (n : Nat) (f : SxFields) (upset : Bool)
  /-- GUMB (R177): SX transform of 16 uniforms into FP32 Gumbel keys. -/
  | gumb (n : Nat) (f : SxFields) (upset : Bool)
  /-- BERNP (R172): SX comparison of 64 uniforms with PQ16 probabilities into a 64-bit draw mask. -/
  | bernp (n : Nat) (f : SxFields) (upset : Bool)
  /-- BERNL (R173): SX comparison of 64 uniforms with BF16-logit thresholds into a 64-bit draw mask. -/
  | bernl (n : Nat) (f : SxFields) (upset : Bool)
  /-- LDV (R73): MV load of 64 bytes of data SRAM into a V register. -/
  | ldv (n : Nat) (f : MvM) (upset : Bool)
  /-- STV (R73): MV store of a V register as 64 bytes of data SRAM. -/
  | stv (n : Nat) (f : MvM) (upset : Bool)
  /-- LDS (R73): MV load of 4 bytes into an S register. -/
  | lds (n : Nat) (f : MvM) (upset : Bool)
  /-- STS (R73): MV store of an S register as 4 bytes. -/
  | sts (n : Nat) (f : MvM) (upset : Bool)
  /-- LDVX (R73): MV indexed 64-byte load with an S-register offset. -/
  | ldvx (n : Nat) (f : MvX) (upset : Bool)
  /-- STVX (R73): MV indexed 64-byte store with an S-register offset. -/
  | stvx (n : Nat) (f : MvX) (upset : Bool)
  /-- GATH (R73): MV 16-lane gather over 16 cycles. -/
  | gath (n : Nat) (f : MvG) (upset : Bool) (lanes : BitVec 16)
  /-- SCAT (R73): MV 16-lane scatter over 16 cycles. -/
  | scat (n : Nat) (f : MvG) (upset : Bool)
  /-- TOUT (R74): MV drain of a tile: collapse of the carry stacks, then narrowing and writing of 16 rows. -/
  | tout (n : Nat) (f : MvT) (upset : Bool)
  /-- TPEEK (R75): MV debug read of one tile entry and its carry stack. -/
  | tpeek (n : Nat) (f : MvP) (upset : Bool)
  /-- SADD (R73): MV scalar addition. -/
  | sadd (n : Nat) (f : MvA) (upset : Bool)
  /-- SSUB (R73): MV scalar subtraction. -/
  | ssub (n : Nat) (f : MvA) (upset : Bool)
  /-- SAND (R73): MV scalar and. -/
  | sand (n : Nat) (f : MvA) (upset : Bool)
  /-- SOR (R73): MV scalar or. -/
  | sor (n : Nat) (f : MvA) (upset : Bool)
  /-- SXOR (R73): MV scalar xor. -/
  | sxor (n : Nat) (f : MvA) (upset : Bool)
  /-- SSHL (R73): MV scalar left shift. -/
  | sshl (n : Nat) (f : MvA) (upset : Bool)
  /-- SSHR (R73): MV scalar logical right shift. -/
  | sshr (n : Nat) (f : MvA) (upset : Bool)
  /-- SADDI (R73): MV scalar addition of a sign-extended immediate. -/
  | saddi (n : Nat) (f : MvA) (upset : Bool)
  /-- AADDI (R73): MV address-register addition of 64 times an immediate. -/
  | aaddi (n : Nat) (f : MvA) (upset : Bool)
  /-- AFROMS (R73): MV move of an S register into an A register. -/
  | afroms (n : Nat) (f : MvA) (upset : Bool)
  /-- SFROMA (R73): MV move of an A register into an S register. -/
  | sfroma (n : Nat) (f : MvA) (upset : Bool)
  /-- MOVVS (R73): MV move of one vector lane into an S register. -/
  | movvs (n : Nat) (f : MvA) (upset : Bool)
  /-- MOVSV (R73): MV move of an S register into one vector lane. -/
  | movsv (n : Nat) (f : MvA) (upset : Bool)
  /-- SEND (R77): NX injection of half a V register as two flits. -/
  | send (n : Nat) (f : NxReg) (upset : Bool)
  /-- RECV (R77): NX read of the two ejected flits into half a V register. -/
  | recv (n : Nat) (f : NxReg) (upset : Bool)
  /-- SENDM (R77): NX injection of 32 SRAM bytes as two flits. -/
  | sendm (n : Nat) (f : NxMem) (upset : Bool)
  /-- RECVM (R77): NX write of the two ejected flits into SRAM. -/
  | recvm (n : Nat) (f : NxMem) (upset : Bool)
  /-- MRD (R78): NX memory-slot read request for one line of the core's window. -/
  | mrd (n : Nat) (f : NxSlot) (upset : Bool)
  /-- MWR (R78): NX memory-slot write request for one line of the core's window. -/
  | mwr (n : Nat) (f : NxSlot) (upset : Bool)
  /-- MEMORY_SLOT_SEND (R252): Send cycle of a line slot, at which the latest request leaves as a request flit and data flits. -/
  | memorySlotSend (n : Nat) (slot : Nat) (upset : Bool)
  /-- MEMORY_SLOT_RETURN (R252): Return cycle of a read, at which the ejected flits are deposited into SRAM or as bundles. -/
  | memorySlotReturn (n : Nat) (slot : Nat)
  /-- LAP_END (R65): Last cycle of a lap reached, checked for cores and routers that have not ended. -/
  | lapEnd (k : Nat)
  /-- GATE_NEXT (R212): End of a gate entry's run with CTL NEXT, which advances to the next entry. -/
  | gateNext (n : Nat) (err : BitVec 160) (holds : BitVec 3)
  /-- GATE_ENDA (R212): End of a gate entry's run with CTL ENDA, which decrements loop A and jumps back or advances. -/
  | gateEnda (n : Nat) (err : BitVec 160) (holds : BitVec 3)
  /-- GATE_ENDB (R212): End of a gate entry's run with CTL ENDB, which decrements loop B and jumps back or advances. -/
  | gateEndb (n : Nat) (err : BitVec 160) (holds : BitVec 3)
  /-- GATE_STOP (R212): End of a gate entry's run with CTL STOP, which latches the next lap's entry and idles the router. -/
  | gateStop (n : Nat) (err : BitVec 160) (holds : BitVec 3)
  /-- ADD (R218): Reduction ALU operation forming three add40 sums per flit. -/
  | add (n : Nat) (mismatch : Bool) (holds : BitVec 3)
  /-- MAX_IDX (R219): Reduction ALU operation keeping the higher-ranking (score, index) pair at each position. -/
  | maxIdx (n : Nat) (mismatch : Bool) (holds : BitVec 3)
  /-- MIN_IDX (R219): Reduction ALU operation keeping the lower-ranking pair at each position. -/
  | minIdx (n : Nat) (mismatch : Bool) (holds : BitVec 3)
  /-- TOP8_FIRST (R220): Reduction ALU operation capturing the first halves of two top-8 lists. -/
  | top8First (n : Nat) (mismatch : Bool) (holds : BitVec 3)
  /-- TOP8_SECOND (R220): Reduction ALU operation merging two top-8 lists. -/
  | top8Second (n : Nat) (mismatch : Bool) (holds : BitVec 3)
  /-- LINK_TRANSFER (R201): Receipt and decode of one link transfer at a router input. -/
  | linkTransfer (n : Nat) (dir : Nat) (t : Nat) (err : BitVec 160) (holds : BitVec 3)
  /-- LAUNCH_DRIVE (R289): At the committed launch count minus 24, the Porter drives LAUNCH, latches seeds and clears SEEDS_PENDING. -/
  | launchDrive (k : Nat)
  /-- SCHUSS_LAUNCH (R222): Arrival of LAUNCH on the schuss lines, which makes that cycle lap cycle 0 and latches entries. -/
  | schussLaunch (k : Nat) (word : BitVec 16) (errs : List (Nat × BitVec 160))
  /-- SCHUSS_ABORT (R222): Arrival of ABORT, which stops every core and router of the slot. -/
  | schussAbort (k : Nat) (word : BitVec 16)
  /-- SCHUSS_COMMIT (R234): Arrival of COMMIT, which applies staged fence, bypass and steering changes. -/
  | schussCommit (word : BitVec 16)
  /-- TICK (R222): Arrival of TICK at each RINK multiple of 256, checked by every router. -/
  | tick (word : BitVec 16)
  /-- FAULT_LINE (R223): The Porter sees FAULT for a slot on the return line and drives ABORT. -/
  | faultLine (k : Nat)
  /-- LAP_BOUNDARY (R287): Boundary of a lap, clean or faulted, with the actions of R292 in their order. -/
  | lapBoundary (k : Nat) (errs : List BlockErr)
  /-- LAP_DIGEST_READY (R320): LAP_DIGEST becomes ready 6,144 cc after a completed lap's boundary and is stored and, in pairs mode, sent. -/
  | lapDigestReady (k : Nat)
  /-- TRAP_REPORT (R226): Transom message carrying a core's or router's trap to the Porter, entered once into FIRST_TRAP. -/
  | trapReport (src : Nat) (router : Bool) (seq : Nat)
  /-- TRAP_REPORT_RESEND (R226): Resend of an unacknowledged trap report every 1,024 cc. -/
  | trapReportResend (src : Nat) (router : Bool) (seq : Nat)
  /-- TRAP_ACK (R226): Transom acknowledgement that ends the resending of a trap report. -/
  | trapAck (src : Nat) (router : Bool) (seq : Nat)
  /-- STAGE (R234): Transom message staging a fence, bypass or steering change in a router. -/
  | stage (site : Nat) (fence : Bool) (bypass : Bool) (nsteer : BitVec 3) (ssteer : BitVec 3)
  /-- STAGE_ACK (R234): Router acknowledgement of a staged change. -/
  | stageAck (site : Nat)
  /-- GATE_LOAD (R225): Transom message carrying gate-table contents to a router. -/
  | gateLoad (n : Nat) (header : BitVec 120) (first : Nat) (entries : List (BitVec 128))
  /-- RELOAD_COMPLETE (R511): Completion of the golden-record reload of moved or faulted cores. -/
  | reloadComplete (k : Nat)
  /-- SITE_DEAD (R515): Site monitor trips on loss of supply or clock and raises a lap fault. -/
  | siteDead (site : Nat)
  /-- MEMORY_REQUEST (R254): A request flit arrives at a slice controller and is checked against its slice and period. -/
  | memoryRequest (j : Nat) (period : Nat)
  /-- EDGE_TRANSFER (R256): An edge transfer assigned by the edge table reaches a slice controller. -/
  | edgeTransfer (stack : Nat) (link : Nat) (t : Nat) (err : BitVec 160)
  /-- SLICE_PERIOD (R257): Start of a slice period that serves a read, a write, a merged read, a service access or nothing. -/
  | slicePeriod (j : Nat) (errs : List BlockErr)
  /-- READ_DATA_READY (R257): Read data of a period is ready and leaves on its assigned transfers. -/
  | readDataReady (j : Nat)
  /-- SCRUB (R260): Per-frame scrub read of one block of every slice, or the write-back of a corrected block. -/
  | scrub (j : Nat) (errs : List BlockErr)
  /-- SERVICE_ACCESS (R265): A waiting service access is served in a period no running lap has booked. -/
  | serviceAccess (j : Nat) (errs : List BlockErr)
  /-- SLICE_PHY_FAULT (R269): A slice PHY loses training or reports a command or address parity error. -/
  | slicePhyFault (j : Nat)
  /-- REBUILD_COMPLETE (R270): Rebuild of a substituted slice ends, the slice becomes ACTIVE and the course replays. -/
  | rebuildComplete (j : Nat) (errs : List BlockErr)
  /-- STACK_INTERFACE_FAILURE (R271): A stack's interface fails as a whole and the stack is lost. -/
  | stackInterfaceFailure (stack : Nat)
  /-- APERTURE_WRITE (R378): A host write of header or payload bytes into a packet window, dropped if the window is busy. -/
  | apertureWrite (p : Nat) (off : Nat) (bytes : List Byte) (via : WriteVia)
  /-- POST (R378): Write of the POST register that commits a packet buffer. -/
  | post (p : Nat) (w : Nat) (value : BitVec 64) (via : WriteVia)
  /-- RETURN_AREA_WRITE (R380): Write to RETURN_BASE or RETURN_SIZE, applied only while the port is quiescent. -/
  | returnAreaWrite (p : Nat) (size : Bool) (value : BitVec 64)
  /-- RETURN_HEAD (R390): Host write of consumed bytes, which may release a held response. -/
  | returnHead (p : Nat) (value : BitVec 64)
  /-- SEAL_HEAD (R387): Host write of consumed seal-area bytes, which may let a seal continue. -/
  | sealHead (p : Nat) (value : BitVec 64)
  /-- RESPONSE_POST (R390): Writing of a response record into the return area once room exists, with PAD and MSI-X. -/
  | responsePost (p : Nat)
  /-- NOP (R384): Host command that shows every earlier packet of its port has completed. -/
  | nop (p : Nat)
  /-- DICT_READ (R444): Host command reading one dictionary object, locally or remotely. -/
  | dictRead (p : Nat)
  /-- DICT_WRITE (R444): Host command writing one dictionary object that has no behaviour of its own. -/
  | dictWrite (p : Nat)
  /-- IMAGE_LOAD (R385): Host command delivering one chunk of a course image to the loader. -/
  | imageLoad (p : Nat)
  /-- IMAGE_LOAD_FINAL (R281): IMAGE_LOAD chunk with FINAL that completes the load and returns its final status. -/
  | imageLoadFinal (p : Nat)
  /-- IMAGE_LOAD_ABANDON (R385): IMAGE_LOAD with ABANDON that returns a LOADING slot to EMPTY. -/
  | imageLoadAbandon (p : Nat)
  /-- DATA_WRITE (R386): Host command writing lines into HBM. -/
  | dataWrite (p : Nat)
  /-- DATA_READ (R386): Host command reading lines from HBM, with an attestation trailer where due. -/
  | dataRead (p : Nat)
  /-- LAUNCH (R290): Host command starting a run of laps on a PAUSED slot. -/
  | launch (p : Nat)
  /-- HALT_AT_BOUNDARY (R291): Host command pausing a course at its next uncommitted boundary. -/
  | haltAtBoundary (p : Nat)
  /-- HALT_AT_BOUNDARY_RELEASE (R291): HALT_AT_BOUNDARY with RELEASE, which also empties the slot. -/
  | haltAtBoundaryRelease (p : Nat)
  /-- SEAL (R294): Host command starting a seal of a PAUSED course to host memory. -/
  | seal (p : Nat)
  /-- SEAL_RECORD_WRITE (R296): Writing of the next seal record into a port's seal area when room exists. -/
  | sealRecordWrite (k : Nat) (errs : List BlockErr)
  /-- UNSEAL (R299): Host command delivering seal-stream bytes to restore a course. -/
  | unseal (p : Nat)
  /-- UNSEAL_LAST (R300): UNSEAL packet with LAST that ends the stream and completes or refuses the unseal. -/
  | unsealLast (p : Nat)
  /-- UNSEAL_ABANDON (R387): UNSEAL with ABANDON that ends an unseal and leaves the slot HALTED. -/
  | unsealAbandon (p : Nat)
  /-- MOGUL_RUN (R350): Host command starting an annealing run. -/
  | mogulRun (p : Nat)
  /-- LOGBOOK_READ (R383): Host command returning Logbook records. -/
  | logbookRead (p : Nat)
  /-- ATTEST (R389): Host command issuing a signed attestation trailer over 48 host bytes. -/
  | attest (p : Nat)
  /-- FLR (R397): Function-level reset of one PCIe port. -/
  | flr (p : Nat)
  /-- PCIE_LINK_LOSS (R397): Loss of a PCIe port's link, handled like an FLR. -/
  | pcieLinkLoss (p : Nat)
  /-- PERST_N (R565): Low level on a port's PERST_N pin, a link loss of that port. -/
  | perstN (p : Nat)
  /-- PCIE_LINK_UP (R560): A PCIe link reaches L0 and answers with retry status until configuration is loaded. -/
  | pcieLinkUp (p : Nat) (width : Nat)
  /-- CONFIG_SPACE_LOADED (R560): The Porter finishes loading configuration space, ending retry status. -/
  | configSpaceLoaded (p : Nat) (payload : BitVec 2)
  /-- IDE_INTEGRITY_FAILURE (R398): An IDE integrity failure takes the stream Insecure and stops execution. -/
  | ideIntegrityFailure (p : Nat) (stream : Nat)
  /-- HANDOVER (R395): Owner's write that moves a slot's ownership to the other port. -/
  | handover (via : Path) (value : BitVec 8)
  /-- TAKEOVER (R395): Standby port's request to take ownership of a slot. -/
  | takeover (via : Path) (value : BitVec 8)
  /-- TAKEOVER_DENY (R395): Owner's write refusing a waiting takeover. -/
  | takeoverDeny (via : Path) (value : BitVec 8)
  /-- TAKEOVER_GRACE_EXPIRY (R395): Expiry of the takeover grace, which moves ownership. -/
  | takeoverGraceExpiry (k : Nat)
  /-- SEED (R158): Write of a seed slot, effective at the next non-replay launch. -/
  | seed (via : Path) (k : Nat) (i : Nat) (bytes : List Byte)
  /-- SEED_FROM_NOISE (R197): Write that fills a seed slot with 112 entropy bits from the pool. -/
  | seedFromNoise (via : Path) (value : BitVec 8)
  /-- STRICT (R311): Write setting or clearing STRICT mode. -/
  | strict (via : Path) (value : BitVec 8)
  /-- STRICT_LOCK (R311): Write of 1 that holds STRICT until a reset. -/
  | strictLock (via : Path) (value : BitVec 8)
  /-- ORACLE_OUT (R168): Read that makes the CARVE oracle compute its result for the path's settings. -/
  | oracleOut (via : Path)
  /-- ENTROPY_PORT (R369): Read that takes the oldest 512 bits from the software pool. -/
  | entropyPort (via : Path)
  /-- PROBE_GO (R331): Write that starts a probe re-run of a slot's next lap. -/
  | probeGo (via : Path) (value : BitVec 8)
  /-- ROOT_PLL_LOCK_LOST (R44): Write of 1 clearing a sticky PLL-loss bit. -/
  | rootPllLockLost (via : Path) (value : BitVec 8)
  /-- DEVICE_RESET (R454): Write of 0xA5 that starts a device reset. -/
  | deviceReset (via : Path) (value : BitVec 8)
  /-- DOMAIN_REQ (R461): Write requesting a power domain to reach ON, RET or OFF. -/
  | domainReq (via : Path) (d : Nat) (value : BitVec 8)
  /-- DOMAIN_ENTRY_COMMIT (R462): Commit of a domain's entry to RET or OFF at AON cycle 4. -/
  | domainEntryCommit (d : Nat)
  /-- WAKE_ARM (R464): Arming of wake logic at AON cycle 13, which acts on asserted level events and latched wakes. -/
  | wakeArm (d : Nat)
  /-- DOMAIN_WAKE_COMPLETE (R466): A waking domain reaches ON. -/
  | domainWakeComplete (d : Nat)
  /-- PAD_RELEASE (R465): Write releasing a domain's sash lock, starting self-refresh exit or link training. -/
  | padRelease (via : Path) (value : BitVec 64)
  /-- COMPARATOR_EVENT (R467): A comparator's input crosses its threshold and raises a wake event. -/
  | comparatorEvent (n : Nat) (uv : Nat)
  /-- METER_SAMPLE (R471): The 1 µs meter sample that updates the Louvre account and makes waiting decisions. -/
  | meterSample (energy : List Nat) (rails : List RailReading)
  /-- THERMAL_SAMPLE (R478): The 1 µs die-sensor sample that updates TJ_NOW and THERM_STATE. -/
  | thermalSample (temps : List Int)
  /-- STARVE_LIMIT_EXPIRY (R475): A waiting slot passes STARVE_LIMIT and blocks lower priorities. -/
  | starveLimitExpiry (k : Nat)
  /-- STARTUP_HOLD_END (R477): End of the 100 ms start-up hold on the forecast. -/
  | startupHoldEnd
  /-- SETTLING_END (R363): An entropy cell finishes settling and latches its first raw bit. -/
  | settlingEnd (n : Nat)
  /-- BLOCK_PASS (R362): An entropy block passes its health tests and is delivered or discarded. -/
  | blockPass (n : Nat) (raw : BitVec 2048)
  /-- BLOCK_FAIL (R362): An entropy block fails a health test and the cell restarts. -/
  | blockFail (n : Nat) (raw : BitVec 2048)
  /-- DRBG_GENERATE (R370): A DRBG generate request, reseeding first when due. -/
  | drbgGenerate
  /-- DRBG_RESEED (R370): Write requesting a DRBG reseed. -/
  | drbgReseed (via : Path) (value : BitVec 8)
  /-- KEY_INSTALL (R547): Installation of an IDE or Lecel key in the cipher block, masked with fresh bits. -/
  | keyInstall
  /-- SIGNATURE_COMPLETE (R534): The key block completes an ECDSA signature. -/
  | signatureComplete
  /-- MOGUL_STOP (R350): Write stopping the run that uses a named lattice. -/
  | mogulStop (via : Path) (value : BitVec 8)
  /-- PROBLEM_ROW (R354): Write of one lattice row of spin records. -/
  | problemRow (via : Path) (lat : Nat) (row : Nat) (bytes : List Byte)
  /-- ENERGY_READY (R347): The energy of a sweep-end state is ready and the state is captured or missed. -/
  | energyReady (lat : Nat)
  /-- DRAIN_END (R347): A captured state finishes draining and the capture register frees. -/
  | drainEnd (lat : Nat)
  /-- MOGUL_RUN_END (R350): A Mogul run ends and posts its response. -/
  | mogulRunEnd (lat : Nat)
  /-- CLAIM (R487): Read that claims the first deliverable interrupt source for a target. -/
  | claim (via : Path) (t : Nat)
  /-- EOI (R488): Write ending the source on top of a target's stack. -/
  | eoi (via : Path) (t : Nat) (value : BitVec 16)
  /-- SIGNAL (R496): Write that fires a SIGNAL source. -/
  | signal (via : Path) (value : BitVec 16)
  /-- SRC_STATE (R484): Write of 1 that clears a source's PENDING bit. -/
  | srcState (via : Path) (src : Nat) (value : BitVec 32)
  /-- LOG_CLEAR (R498): Write of 0xC1 starting a new Logbook series. -/
  | logClear (via : Path) (value : BitVec 8)
  /-- LOG_INTERVAL (R497): Write of a new interval length, effective at the end of the current interval. -/
  | logInterval (via : Path) (value : BitVec 32)
  /-- LOG_INTERVAL_END (R498): End of a Logbook interval, recorded or counted in LOG_LOST. -/
  | logIntervalEnd
  /-- LOG_MS_TICK (R502): Per-millisecond observation of the Logbook's event metrics. -/
  | logMsTick
  /-- LOG_RECORD_WRITE (R503): Completion of writing a Logbook record, with SEQ written last. -/
  | logRecordWrite
  /-- FW_STAGE (R538): Write of a 4,096-byte firmware chunk into the idle bank. -/
  | fwStage (via : Path) (bytes : List Byte)
  /-- FW_COMMIT (R538): Write of 0xC1 verifying the staged bank for the next reset. -/
  | fwCommit (via : Path)
  /-- FW_SVN_RAISE (R538): Write of 0x5A raising the fused FW_SVN_MIN. -/
  | fwSvnRaise (via : Path)
  /-- IMAGE_KEY (R536): Write of an image-signing key slot through to package flash. -/
  | imageKey (via : Path) (i : Nat) (bytes : List Byte)
  /-- SIGNED_REQUIRED (R536): Write of the signed-image requirement through to package flash. -/
  | signedRequired (via : Path) (value : BitVec 8)
  /-- SECURITY_LOCK (R536): Write of 1 locking the image keys and signing requirement. -/
  | securityLock (via : Path) (value : BitVec 8)
  /-- LINK_SECRET (R545): Write of the Lecel link secret, effective at each port's next training. -/
  | linkSecret (via : Path) (bytes : List Byte)
  /-- LECEL_CRYPT (R545): Write enabling or disabling Lecel encryption for a port. -/
  | lecelCrypt (via : Path) (i : Nat) (value : BitVec 8)
  /-- SYNC_SHIFT (R575): Write of the SYNC_OUT period, effective at the next multiple of the old period. -/
  | syncShift (via : Path) (value : BitVec 8)
  /-- DICT_REQ_READ (R446): Transom or management-bus READ segment, taking a snapshot at offset 0. -/
  | dictReqRead (m : DictFrom)
  /-- DICT_REQ_WRITE (R446): Segment adding write data to a dictionary exchange. -/
  | dictReqWrite (m : DictFrom)
  /-- DICT_REQ_WRITE_LAST (R446): Last write segment that applies the whole value at once. -/
  | dictReqWriteLast (m : DictFrom)
  /-- DICT_RESP (R446): Dictionary response segment returned to a requester. -/
  | dictResp (p : Nat) (r : Route) (payload : List Byte)
  /-- DICT_EXCHANGE_TIMEOUT (R446): A segmented exchange ends 10 ms after its last segment. -/
  | dictExchangeTimeout (via : Path) (who : Nat) (xid : Nat)
  /-- REMOTE_TIMEOUT (R388): A remote dictionary request receives no complete answer within 10 ms. -/
  | remoteTimeout (p : Nat)
  /-- LECEL_CAPTURE (R408): Capture of scheduled flits for a Lecel frame at its capture cycle. -/
  | lecelCapture (p : Nat) (j : Nat) (bad : BitVec 38)
  /-- LECEL_FRAME (R406): Receipt and decode of one Lecel frame with header checks. -/
  | lecelFrame (p : Nat) (fate : FrameFate) (frame : BitVec 5140) (origin : Nat)
  /-- LECEL_DELIVERY (R408): Delivery of a received scheduled flit at capture plus 512. -/
  | lecelDelivery (p : Nat)
  /-- LECEL_PORT_UP (R401): A Lecel port completes training and gains codeword lock. -/
  | lecelPortUp (p : Nat) (peerState : BitVec 2)
  /-- LECEL_DOWN (R507): A port decodes no frame for 176 cc and leaves UP. -/
  | lecelDown (p : Nat)
  /-- LECEL_ABSENT (R562): A port not UP within 2 s of pad release reads ABSENT. -/
  | lecelAbsent (p : Nat)
  /-- PAIR_DIGEST (R322): A partner's lap digest arrives and is compared. -/
  | pairDigest (p : Nat) (r : Route) (ctag : BitVec 16) (lap : BitVec 48) (evidence : Bool) (digest : List Byte)
  /-- PAIR_DIGEST_RESEND (R417): Resend of PAIR_DIGEST every 1,024 cc until the partner's arrives. -/
  | pairDigestResend (k : Nat)
  /-- PAIR_DIGEST_TIMEOUT (R324): No partner digest within 10,240 cc, so the member confirms alone in SOLO. -/
  | pairDigestTimeout (k : Nat)
  /-- PROPOSE (R433): Broadcast proposal of the next lap's action and launch count. -/
  | propose (p : Nat) (r : Route) (q : Proposal) (taken : Nat)
  /-- TALLY (R431): Tally of a broadcast merged from a device's children. -/
  | tally (p : Nat) (r : Route) (t : TallyBody)
  /-- TALLY_TIMEOUT (R431): A device sends its tally after its wait expires, listing silent children as missed. -/
  | tallyTimeout (origin : Nat)
  /-- COMMIT (R434): Lecel message committing a launch count or pause. -/
  | commit (p : Nat) (r : Route) (q : Proposal) (taken : Nat)
  /-- REPROPOSE (R434): The coordinator sends a fresh proposal ahead of the foreseen EARLIEST. -/
  | repropose (k : Nat)
  /-- COORDINATOR_TAKEOVER (R517): The next layout index takes the coordinator role after holding no PROPOSE in time. -/
  | coordinatorTakeover (k : Nat)
  /-- LOST (R518): Broadcast declaring a layout device lost. -/
  | lost (p : Nat) (r : Route) (ctag : BitVec 16) (lap : BitVec 48) (addr : BitVec 16) (gen : BitVec 16) (taken : Nat)
  /-- COUNT_EW (R419): BIND message counting devices round an E/W ring. -/
  | countEw (p : Nat) (r : Route) (value : BitVec 8) (mine : Bool)
  /-- COUNT_NS (R419): BIND message counting devices round an N/S ring. -/
  | countNs (p : Nat) (r : Route) (value : BitVec 8) (mine : Bool)
  /-- CLOSE_EW (R419): BIND message confirming E/W columns round the ring. -/
  | closeEw (p : Nat) (r : Route) (value : BitVec 8)
  /-- CLOSE_NS (R419): BIND message confirming N/S rows round the ring. -/
  | closeNs (p : Nat) (r : Route) (value : BitVec 8)
  /-- JOIN (R421): BIND offer of an address and generation to a joining device. -/
  | join (p : Nat) (r : Route) (addr : BitVec 16) (gen : BitVec 16) (size : BitVec 16)
  /-- JOIN_WAIT_EXPIRY (R420): A device next to a bound peer waits 1 ms for a JOIN offer. -/
  | joinWaitExpiry (p : Nat)
  /-- COUNT_RESEND (R562): A ring head resends COUNT when it has not returned within 100 ms. -/
  | countResend (ns : Bool)
  /-- STAND_DOWN (R424): Message that puts a stale device into QUARANTINE. -/
  | standDown (p : Nat) (r : Route) (addr : BitVec 16) (stale : BitVec 16) (current : BitVec 16)
  /-- GEN_UPDATE (R417): Broadcast of a new binding generation for an address. -/
  | genUpdate (p : Nat) (r : Route) (addr : BitVec 16) (gen : BitVec 16) (taken : Nat)
  /-- RINK_SYNC_PROBE (R426): A child's RINK alignment probe, answered with an ECHO. -/
  | rinkSyncProbe (p : Nat) (r : Route) (ta : BitVec 64)
  /-- RINK_SYNC_ECHO (R426): A parent's echo, from which the child corrects its count and sets FLIGHT. -/
  | rinkSyncEcho (p : Nat) (r : Route) (ta : BitVec 64) (tb : BitVec 64) (tc : BitVec 64)
  /-- RINK_SYNC_PERIOD (R427): Periodic realignment exchange every 2^20 cc. -/
  | rinkSyncPeriod
  /-- GET_VERSION (R539): SPDM request for supported versions. -/
  | getVersion (ep : Nat)
  /-- GET_CAPABILITIES (R539): SPDM capabilities request. -/
  | getCapabilities (ep : Nat)
  /-- NEGOTIATE_ALGORITHMS (R539): SPDM algorithm negotiation. -/
  | negotiateAlgorithms (ep : Nat)
  /-- GET_DIGESTS (R539): SPDM certificate digests request. -/
  | getDigests (ep : Nat)
  /-- GET_CERTIFICATE (R539): SPDM request for the slot-0 certificate chain. -/
  | getCertificate (ep : Nat) (slot : Nat) (off : Nat) (len : Nat)
  /-- CHALLENGE (R539): SPDM challenge answered with a signature. -/
  | challenge (ep : Nat) (slot : Nat) (nonce : List Byte)
  /-- GET_MEASUREMENTS (R540): SPDM request returning the measurement blocks. -/
  | getMeasurements (ep : Nat) (index : Nat) (signed : Bool) (nonce : List Byte)
  /-- KEY_EXCHANGE (R539): SPDM session key exchange. -/
  | keyExchange (ep : Nat) (slot : Nat) (bytes : List Byte)
  /-- FINISH (R539): SPDM session finish. -/
  | finish (ep : Nat)
  /-- HEARTBEAT (R539): SPDM session heartbeat. -/
  | heartbeat (ep : Nat)
  /-- KEY_UPDATE (R539): SPDM session key update. -/
  | keyUpdate (ep : Nat)
  /-- END_SESSION (R539): SPDM session end. -/
  | endSession (ep : Nat)
  /-- VENDOR_DEFINED_REQUEST (R539): SPDM vendor-defined request carrying IDE_KM. -/
  | vendorDefinedRequest (ep : Nat) (bytes : List Byte)
  /-- KEY_PROG (R541): IDE_KM message programming an IDE key. -/
  | keyProg (ep : Nat) (slot : Nat)
  /-- K_SET_GO (R541): IDE_KM message activating an IDE key. -/
  | kSetGo (ep : Nat) (slot : Nat)
  /-- DOE_DISCOVERY (R399): DOE Discovery request on the mailbox. -/
  | doeDiscovery (p : Nat) (object : BitVec 32) (index : Nat)
  /-- SET_ENDPOINT_ID (R447): MCTP control message setting the endpoint ID. -/
  | setEndpointId (eid : BitVec 8)
  /-- GET_ENDPOINT_ID (R447): MCTP control message reading the endpoint ID. -/
  | getEndpointId
  /-- GET_MCTP_VERSION_SUPPORT (R447): MCTP control message reporting supported versions. -/
  | getMctpVersionSupport
  /-- GET_MESSAGE_TYPE_SUPPORT (R447): MCTP control message reporting supported message types. -/
  | getMessageTypeSupport
  /-- GET_VENDOR_DEFINED_MESSAGE_SUPPORT (R447): MCTP control message reporting vendor-defined support. -/
  | getVendorDefinedMessageSupport
  /-- ENTDAA (R448): I3C dynamic address assignment. -/
  | entdaa (addr : BitVec 7)
  /-- SETDASA (R448): I3C assignment of a dynamic address from the static address. -/
  | setdasa (fixed : BitVec 7) (addr : BitVec 7)
  /-- EXTEST (R584): IEEE 1149.1 instruction driving pins while RESET_N is low. -/
  | extest (drive : BitVec 64)
  /-- SAMPLE_PRELOAD (R584): IEEE 1149.1 sample and preload instruction. -/
  | samplePreload (shifted : BitVec 64)
  /-- BYPASS (R584): IEEE 1149.1 bypass instruction. -/
  | bypass
  /-- PWR_OK_RISE (R551): Rise of PWR_OK, a power-on reset that starts start-up. -/
  | pwrOkRise (straps : BitVec 2) (addr : BitVec 3)
  /-- PWR_OK_FALL (R551): Fall of PWR_OK, which holds the whole device in reset. -/
  | pwrOkFall
  /-- RESET_N_FALL (R551): RESET_N low that starts a pin reset and takes domains OFF. -/
  | resetNFall
  /-- RESET_N_RISE (R550): Rise of RESET_N that resumes start-up at root PLL lock. -/
  | resetNRise (straps : BitVec 2) (addr : BitVec 3)
  /-- DEVICE_RESET_RELEASE (R551): A device reset releases itself after 10 µs. -/
  | deviceResetRelease
  /-- REFCLK_START (R554): REFCLK runs with PWR_OK and RESET_N high, starting time 0 of start-up. -/
  | refclkStart
  /-- REFCLK_LOSS (R574): REFCLK is lost and REFCLK_OK falls. -/
  | refclkLoss
  /-- ROOT_PLL_LOCK (R554): Both root PLLs lock and PORTER and SECURE start to wake. -/
  | rootPllLock
  /-- PLL_LOCK_TIMEOUT (R554): Root PLLs not locked within 1 ms, so start-up fails with PLL. -/
  | pllLockTimeout
  /-- ROOT_PLL_LOCK_LOSS (R43): A root PLL loses lock and the device treats itself as lost. -/
  | rootPllLockLoss (die : Nat)
  /-- HBM_TRAINING_COMPLETE (R556): A stack finishes training and its slices are assigned. -/
  | hbmTrainingComplete (stack : Nat) (failed : BitVec 32)
  /-- ZERO_FILL_COMPLETE (R556): A stack finishes its zero fill and scrub starts. -/
  | zeroFillComplete (stack : Nat)
  /-- RESERVED_WRITE_COMPLETE (R558): RESERVED firmware copies are written and START_STATE becomes READY. -/
  | reservedWriteComplete
  /-- SYNC_IN (R576): Rising edge on SYNC_IN captured into SYNC_STAMP. -/
  | syncIn
  /-- SYNC_OUT (R575): SYNC_OUT driven high at each multiple of 2^SYNC_SHIFT. -/
  | syncOut
  /-- SWEEP (R343): Each sweep of a running lattice, timed by MOGUL_CLK, updates its spins under the flip rule and counts stuck noise. -/
  | sweep (lat : Nat)
  /-- START_UP_FAILURE (R554): The boot ROM rejects the configuration record or both firmware banks, so START_STATE becomes FAILED with cause CONFIG or FIRMWARE. -/
  | startUpFailure (firmware : Bool)
  /-- IDENTITY_DERIVATION (R530): The key block finishes reading and correcting the PUF array and sets IDENTITY_STATE to READY or FAILED. -/
  | identityDerivation
  /-- PORTER_MISMATCH (R527): The lock-stepped Porter cores find a difference in their outputs and stop, and the device treats itself as lost. -/
  | porterMismatch
  /-- PERST_N_RELEASE (R565): A port's PERST_N pin returns high, so that the port may train again. -/
  | perstNRelease (p : Nat)
  /-- COMPARATOR_DEASSERT (R467): A comparator's input returns across its threshold less its hysteresis, and ASSERTED falls to 0, which ends level-mode wake events. -/
  | comparatorDeassert (n : Nat) (uv : Nat)
  /-- SCHUSS_PARITY_ERROR (R223): A schuss word that carries no command arrives with a parity error and is reported as SCHUSS_ERROR on every running slot. -/
  | schussParityError
  /-- D3HOT_TRANSITION (R375): The host moves a port's function between D0 and D3hot, which makes the aperture drop writes and lets a TAKEOVER proceed at once. -/
  | d3hotTransition (p : Nat) (enter : Bool)
  /-- REPLAY_READY_DEADLINE (R523): When a pairs-mode member has not answered READY for a replay within 300 µs of its faulted boundary, the coordinator declares it lost. -/
  | replayReadyDeadline (k : Nat) (addr : Nat)
  deriving DecidableEq, Repr

end Sys2Proof
end

