-- ==== Sys2Proof/Decode.lean ====
section
/-! DEFINITION. Words of commands. The table gives its rows no bits: the device takes operations, bus transactions and events,
which no word spells. -/
namespace Sys2Proof

/-- The command that a word of nbits bits spells: none, since no row of the table has bits. -/
def decodeTableWord (_nbits _w : Nat) : Option Instr := none

end Sys2Proof
end

