-- ==== Sys2Proof/Machine/Ecdsa.lean ====
section
/-! DEFINITION. ECDSA over P-384 with SHA-384 and the deterministic nonce of FIPS 186-5, and the key derivation of
SP 800-108 (R530 to R533). -/
namespace Sys2Proof

/-- The field prime of P-384. -/
def p384 : Nat := 2 ^ 384 - 2 ^ 128 - 2 ^ 96 + 2 ^ 32 - 1

/-- The order of P-384's base point. -/
def n384 : Nat :=
  0xFFFFFFFFFFFFFFFFFFFFFFFFFFFFFFFFFFFFFFFFFFFFFFFFC7634D81F4372DDF581A0DB248B0A77AECEC196ACCC52973

/-- The coefficient b of P-384; its a is −3. -/
def b384 : Nat :=
  0xB3312FA7E23EE7E4988E056BE3F82D19181D9C6EFE8141120314088F5013875AC656398D8A2ED19D2A85C8EDD3EC2AEF

/-- Coordinates of the base point. -/
def gx384 : Nat :=
  0xAA87CA22BE8B05378EB1C71EF320AD746E1D3B628BA79B9859F741E082542A385502F25DBF55296C3A545E3872760AB7
def gy384 : Nat :=
  0x3617DE4A96262C6F5D9E98BF9292DC29F8F41DBD289A147CE9DA3113B5F0B8C00A60B1CE1D7E819D7A431D7C90EA0E5F

/-- x^e mod m, for e below 2^bits. -/
def powMod (m x : Nat) : Nat → Nat → Nat
  | 0, _ => 1 % m
  | bits + 1, e =>
    let h := powMod m (x * x % m) bits (e / 2)
    if e % 2 == 1 then h * x % m else h

/-- The inverse modulo a prime below 2^384. -/
def invMod (m x : Nat) : Nat := powMod m (x % m) 384 (m - 2)

/-- A point in Jacobian coordinates; z = 0 is the point at infinity. -/
structure Jac where
  x : Nat
  y : Nat
  z : Nat
  deriving DecidableEq, Repr

/-- Difference modulo p. -/
def subP (a b : Nat) : Nat := (a % p384 + p384 - b % p384) % p384

/-- Twice a point. -/
def Jac.double (q : Jac) : Jac :=
  if q.z == 0 || q.y == 0 then ⟨1, 1, 0⟩
  else
    let yy := q.y * q.y % p384
    let s := 4 * q.x * yy % p384
    let zz := q.z * q.z % p384
    let m := 3 * (subP q.x zz * (q.x + zz)) % p384
    let x := subP (m * m) (2 * s)
    ⟨x, subP (m * subP s x) (8 * yy * yy), 2 * q.y * q.z % p384⟩

/-- The sum of two points. -/
def Jac.add (q r : Jac) : Jac :=
  if q.z == 0 then r
  else if r.z == 0 then q
  else
    let z1 := q.z * q.z % p384
    let z2 := r.z * r.z % p384
    let u1 := q.x * z2 % p384
    let u2 := r.x * z1 % p384
    let s1 := q.y * z2 * r.z % p384
    let s2 := r.y * z1 * q.z % p384
    if u1 == u2 then (if s1 == s2 then q.double else ⟨1, 1, 0⟩)
    else
      let h := subP u2 u1
      let hh := h * h % p384
      let hhh := h * hh % p384
      let v := u1 * hh % p384
      let w := subP s2 s1
      let x := subP (w * w) (hhh + 2 * v)
      ⟨x, subP (w * subP v x) (s1 * hhh), q.z * r.z * h % p384⟩

/-- k times a point, for k below 2^bits. -/
def Jac.mul (q : Jac) : Nat → Nat → Jac
  | 0, _ => ⟨1, 1, 0⟩
  | bits + 1, k =>
    let h := (Jac.mul q bits (k / 2)).double
    if k % 2 == 1 then h.add q else h

/-- The affine coordinates of a point other than infinity. -/
def Jac.affine (q : Jac) : Nat × Nat :=
  let i := invMod p384 q.z
  let ii := i * i % p384
  (q.x * ii % p384, q.y * ii * i % p384)

/-- The base point. -/
def Jac.base : Jac := ⟨gx384, gy384, 1⟩

/-- A public key as 97 bytes (R531). -/
def encodePoint (q : Jac) : List Byte := let a := q.affine; 0x04 :: (beBytes 48 a.1 ++ beBytes 48 a.2)

/-- The point of 97 bytes; none unless they name a point of the curve. -/
def decodePoint (bs : List Byte) : Option Jac :=
  let x := ofBE (sliceBytes bs 1 48)
  let y := ofBE (sliceBytes bs 49 48)
  if bs.length == 97 && bs.head? == some 0x04 && x < p384 && y < p384
      && y * y % p384 == (x * x * x + subP b384 (3 * x)) % p384 then some ⟨x, y, 1⟩ else none

/-- State of the nonce generator of RFC 6979: K and V. -/
def nonceStart (d h : Nat) : List Byte × List Byte :=
  let m := beBytes 48 d ++ beBytes 48 (h % n384)
  let k0 := List.replicate 48 (0x00 : Byte)
  let v0 := List.replicate 48 (0x01 : Byte)
  let k1 := hmac384 k0 (v0 ++ [0x00] ++ m)
  let v1 := hmac384 k1 v0
  let k2 := hmac384 k1 (v1 ++ [0x01] ++ m)
  (k2, hmac384 k2 v1)

/-- Signature of hash h under key d from the first usable candidate nonce; the chance that none of the candidates
tried is usable is below 2^-1000. -/
def signFrom (d h : Nat) : Nat → List Byte × List Byte → Nat × Nat
  | 0, _ => (0, 0)
  | f + 1, (k, v) =>
    let v := hmac384 k v
    let nonce := ofBE v
    let next := let k' := hmac384 k (v ++ [0x00]); signFrom d h f (k', hmac384 k' v)
    if nonce == 0 || n384 ≤ nonce then next
    else
      let r := (Jac.base.mul 384 nonce).affine.1 % n384
      let s := invMod n384 nonce * (h + r * d) % n384
      if r == 0 || s == 0 then next else (r, s)

/-- The ECDSA signature of a message (R533). -/
def ecdsaSign (d : Nat) (msg : List Byte) : Nat × Nat :=
  let h := ofBE (sha384 msg)
  signFrom d h 16 (nonceStart d h)

/-- Whether (r, s) is a signature of a message whose SHA-384 is given, under a public key of 97 bytes. -/
def ecdsaVerifyHash (key hash : List Byte) (r s : Nat) : Bool :=
  match decodePoint key with
  | none => false
  | some q =>
    if r == 0 || s == 0 || n384 ≤ r || n384 ≤ s then false
    else
      let w := invMod n384 s
      let x := (Jac.base.mul 384 (ofBE hash * w % n384)).add (q.mul 384 (r * w % n384))
      x.z != 0 && x.affine.1 % n384 == r

/-- The counter-mode KDF of SP 800-108 with HMAC-SHA-384: counter and length as 4 bytes, most significant byte first;
n blocks. -/
def kdf108 (key label : List Byte) (bits : Nat) : List Byte :=
  let block (i : Nat) := hmac384 key (beBytes 4 i ++ label ++ [0x00] ++ beBytes 4 bits)
  ((List.range (bits / 384 + 1)).flatMap (fun i => block (i + 1))).take (bits / 8)

/-- The identity private key of a secret P (R530). -/
def identityKey (p : List Byte) : Nat := ofBE (kdf108 p (asciiBytes "FS16-IDENTITY") 448) % (n384 - 1) + 1

end Sys2Proof
end

