-- ==== Sys2Proof/Machine/Gcm.lean ====
section
/-! DEFINITION. AES-256-GCM of NIST SP 800-38D with a 96-bit nonce, and the Lecel frames it protects (R542, R543). -/
namespace Sys2Proof

/-- Multiplication in the field of GHASH, whose bit 0 is the most significant: n more bits of x, from the highest down, over
the product so far and the present multiple of the second factor. -/
def ghashMulFrom (x : BitVec 128) : Nat → BitVec 128 → BitVec 128 → BitVec 128
  | 0, z, _ => z
  | n + 1, z, v =>
    ghashMulFrom x n (if x.getLsbD n then z ^^^ v else z)
      ((v >>> 1) ^^^ (if v.getLsbD 0 then BitVec.ofNat 128 (0xE1 * 2 ^ 120) else 0))

/-- The product of two blocks. -/
def ghashMul (x y : BitVec 128) : BitVec 128 := ghashMulFrom x 128 0 y

/-- A block of 16 bytes, the first the most significant. -/
def blockOf (b : List Byte) : BitVec 128 := BitVec.ofNat 128 (ofBE (sliceBytes b 0 16))

/-- GHASH of whole blocks. -/
def ghash (h : BitVec 128) (l : List (BitVec 128)) : BitVec 128 := l.foldl (fun y b => ghashMul (y ^^^ b) h) 0

/-- The blocks of a string, the last padded with zeros. -/
def gcmBlocks (b : List Byte) : List (BitVec 128) := (chunksOf 16 (b.length + 1) b).map blockOf

/-- AES-256 of a block under expanded keys. -/
def aesBlock (keys : List (List Byte)) (b : BitVec 128) : BitVec 128 :=
  match keys with
  | [] => b
  | k :: ks => blockOf (aesRounds ks (xorBytes (beBytes 16 b.toNat) k))

/-- The counter block of a nonce. -/
def gcmCounter (nonce : BitVec 96) (n : Nat) : BitVec 128 := nonce.zeroExtend 128 <<< 32 ||| BitVec.ofNat 128 (n % 2 ^ 32)

/-- Blocks encrypted or decrypted: counters run from 2. -/
def gcmStream (keys : List (List Byte)) (nonce : BitVec 96) (l : List (BitVec 128)) : List (BitVec 128) :=
  l.zipIdx.map (fun x => x.1 ^^^ aesBlock keys (gcmCounter nonce (x.2 + 2)))

/-- The tag over associated data and whole ciphertext blocks. -/
def gcmTag (keys : List (List Byte)) (nonce : BitVec 96) (aad : List Byte) (c : List (BitVec 128)) : BitVec 128 :=
  let len := BitVec.ofNat 128 (8 * aad.length * 2 ^ 64 + 128 * c.length)
  ghash (aesBlock keys 0) (gcmBlocks aad ++ c ++ [len]) ^^^ aesBlock keys (gcmCounter nonce 1)

/-! Lecel frames (R406, R542, R543). -/

/-- The nonce of a frame from its header, the number of its RINK frame and its LFN. -/
def lecelNonce (header : BitVec 128) (frame lfn : Nat) : BitVec 96 :=
  BitVec.ofNat 96 ((header.extractLsb' 98 16).toNat * 2 ^ 80 + (header.extractLsb' 121 7).toNat * 2 ^ 73
    + (header.extractLsb' 114 7).toNat * 2 ^ 66 + (header.extractLsb' 96 2).toNat * 2 ^ 64
    + frame % 2 ^ 56 * 2 ^ 8 + lfn % 64 * 4)

/-- What is authenticated only: LFN, FRC and slot 0, padded to 160 bits. -/
def lecelAad (f : BitVec 5140) : List Byte := beBytes 20 ((f.extractLsb' 4992 148).toNat * 2 ^ 12)

/-- Slots 1 to 37 and slot 39, the order in which they are encrypted: each is one block (DEDUCED, assumption 30). -/
def cryptSlots (f : BitVec 5140) : List (BitVec 128) :=
  ((List.range 37).map (fun k => f.extractLsb' (4992 - 128 * (k + 1)) 128)) ++ [f.extractLsb' 0 128]

/-- A frame with other contents of those slots and a tag in slot 38. -/
def withSlots (f : BitVec 5140) (l : List (BitVec 128)) (tag : BitVec 128) : BitVec 5140 :=
  let put (n : Nat) (x : BitVec 128 × Nat) : Nat := n + x.1.toNat * 2 ^ (if x.2 == 37 then 0 else 4864 - 128 * x.2)
  BitVec.ofNat 5140 ((f.extractLsb' 4992 148).toNat * 2 ^ 4992 + l.zipIdx.foldl put 0 + tag.toNat * 2 ^ 128)

/-- A frame as it goes out under a key. -/
def sealFrame (key : List Byte) (frame lfn : Nat) (f : BitVec 5140) : BitVec 5140 :=
  let keys := aesRoundKeys key
  let nonce := lecelNonce (f.extractLsb' 4992 128) frame lfn
  let c := gcmStream keys nonce (cryptSlots f)
  withSlots f c (gcmTag keys nonce (lecelAad f) c)

/-- A frame received under a key: none when its tag does not fit. -/
def openFrame (key : List Byte) (frame lfn : Nat) (f : BitVec 5140) : Option (BitVec 5140) :=
  let keys := aesRoundKeys key
  let nonce := lecelNonce (f.extractLsb' 4992 128) frame lfn
  let c := cryptSlots f
  if gcmTag keys nonce (lecelAad f) c == f.extractLsb' 128 128 then some (withSlots f (gcmStream keys nonce c) 0) else none

end Sys2Proof
end

