-- ==== Sys2Proof/Machine/LinkMsg.lean ====
section
/-! DEFINITION. Messages on Lecel and on the management bus as bits: route flits, payloads, the prefix of dictionary
messages, whole Lecel frames, MCTP packets (R406, R415 to R417, R445, R447). -/
namespace Sys2Proof.Machine

/-! Flits (R416, R417). -/

/-- Bits [119:0] of the route flit. -/
def Route.flit (r : Route) : BitVec 120 :=
  let bit (b : Bool) (i : Nat) : Nat := if b then 2 ^ i else 0
  BitVec.ofNat 120 (r.drow.toNat * 2 ^ 113 + r.dcol.toNat * 2 ^ 106 + r.srow.toNat * 2 ^ 99 + r.scol.toNat * 2 ^ 92
    + r.sgen.toNat * 2 ^ 76 + bit r.bcast 75 + r.bseq.toNat * 2 ^ 59 + r.rowz.toNat * 2 ^ 52 + r.colz.toNat * 2 ^ 45
    + r.rm1.toNat * 2 ^ 38 + r.cm1.toNat * 2 ^ 31 + bit r.resend 30)

/-- Bytes of a string from its most significant bits down, padded with zeros to n bytes. -/
def packBytes (n : Nat) (l : List Byte) : Nat := ofBE (sliceBytes l 0 n)

/-- The 16-byte prefix of a DICT_REQ and its data (R445). -/
def DictSeg.bytes (g : DictSeg) : List Byte :=
  leBytes 1 g.op.toNat ++ leBytes 1 g.data.length ++ leBytes 2 g.index.toNat ++ leBytes 1 g.sub.toNat ++ [0]
  ++ leBytes 2 g.xid.toNat ++ leBytes 4 g.offset.toNat ++ leBytes 4 g.total.toNat ++ g.data

/-- The 16-byte prefix of a DICT_RESP and its data (R445). -/
def DictAns.bytes (a : DictAns) : List Byte :=
  leBytes 2 a.status ++ leBytes 1 a.data.length ++ [0, 0] ++ leBytes 1 a.type ++ leBytes 2 a.xid ++ leBytes 4 a.offset
  ++ leBytes 4 a.total ++ a.data

/-- A DICT_REQ from its payload. -/
def dictSegOf (b : List Byte) : DictSeg :=
  ⟨BitVec.ofNat 8 (fieldLE b 0 1), BitVec.ofNat 16 (fieldLE b 2 2), BitVec.ofNat 8 (fieldLE b 4 1),
    BitVec.ofNat 16 (fieldLE b 6 2), BitVec.ofNat 32 (fieldLE b 8 4), BitVec.ofNat 32 (fieldLE b 12 4),
    (b.drop 16).take (fieldLE b 1 1)⟩

/-- A DICT_RESP from its payload. -/
def dictAnsOf (b : List Byte) : DictAns :=
  ⟨fieldLE b 0 2, fieldLE b 5 1, fieldLE b 6 2, fieldLE b 8 4, fieldLE b 12 4, (b.drop 16).take (fieldLE b 2 1)⟩

/-- DLEN of a DICT_REQ is at most 96, and the payload holds that many data bytes. -/
def dictFormed (b : List Byte) : Bool := decide (fieldLE b 1 1 ≤ 96) && decide (16 + fieldLE b 1 1 ≤ b.length)

namespace Msg

/-- TYPE of a message (R225, R417, R517). -/
def code : Msg → Nat
  | .lost .. => 0
  | .pairDigest .. => 5
  | .propose _ => 6
  | .tally _ => 7
  | .dictReq _ => 8
  | .dictResp _ => 9
  | .commit _ => 11
  | .bind .. => 12
  | .standDown .. => 13
  | .rinkSync .. => 14
  | .genUpdate .. => 15

/-- The class of a message (R225, R417, R517). -/
def urgent (m : Msg) : Bool := !(m.code == 8 || m.code == 9 || m.code == 12 || m.code == 15)

/-- The payload of a message. A TALLY says that a device treats itself as lost in FLAGS bit 2, and names it in the two
bytes after the missed addresses: DESIGN CHOICE (assumption 33), for the manual gives the report no place. -/
def payload : Msg → List Byte
  | .lost ctag lap addr gen => leBytes 2 ctag.toNat ++ leBytes 6 lap ++ leBytes 2 addr ++ leBytes 2 gen ++ List.replicate 12 0
  | .pairDigest ctag lap ev d => leBytes 2 ctag.toNat ++ leBytes 6 lap ++ leBytes 1 (if ev then 1 else 0) ++ sliceBytes d 0 48
  | .propose q => leBytes 2 q.ctag.toNat ++ leBytes 6 q.lap.toNat ++ leBytes 1 q.action.toNat ++ leBytes 8 q.count.toNat
      ++ leBytes 4 q.probeCycle.toNat ++ List.replicate 3 0
  | .tally t => leBytes 2 t.bseq.toNat ++ leBytes 2 t.devices
      ++ leBytes 1 ((if t.halt then 1 else 0) + (if t.overflow then 2 else 0) + (if t.lost.isEmpty then 0 else 4))
      ++ leBytes 8 t.earliest ++ leBytes 1 t.missed.length
      ++ sliceBytes (t.missed.flatMap (leBytes 2)) 0 8 ++ leBytes 2 (t.lost.headD 0)
  | .dictReq g => g.bytes
  | .dictResp a => a.bytes
  | .commit q => leBytes 2 q.ctag.toNat ++ leBytes 6 q.lap.toNat ++ leBytes 1 q.action.toNat ++ leBytes 8 q.count.toNat
      ++ List.replicate 7 0
  | .bind kind v gen addr size => leBytes 1 kind ++ leBytes 1 v ++ leBytes 2 gen ++ leBytes 2 addr ++ leBytes 2 size ++ [0]
  | .standDown addr stale current => leBytes 2 addr ++ leBytes 2 stale ++ leBytes 2 current ++ [0, 0, 0]
  | .rinkSync phase ta tb tc => leBytes 1 phase ++ leBytes 8 ta.toNat ++ leBytes 8 tb.toNat ++ leBytes 8 tc.toNat
      ++ List.replicate 14 0
  | .genUpdate addr gen => leBytes 2 addr ++ leBytes 2 gen ++ List.replicate 5 0

/-- The flits of a message after its route flit: the header, which carries payload bytes 0 to 8, and 15 bytes in each
later flit (R225, R417, R445). Only the Porter originates Lecel messages (R416). -/
def flits (m : Msg) (seq : Nat) : List (BitVec 120) :=
  let b := m.payload
  let rest := chunksOf 15 7 (b.drop 9)
  headerFlit destPorter destPorter m.code (rest.length + 1) seq (packBytes 9 b)
    :: rest.map (fun c => BitVec.ofNat 120 (packBytes 15 c))

end Msg

/-- All flits of a message on Lecel: its route flit first (R416). -/
def lecelFlits (r : Route) (m : Msg) (seq : Nat) : List (BitVec 120) := r.flit :: m.flits seq

/-- The transom transfer of a message's next flit; CRU and CRN are 0 (R415). -/
def lecelWord (urgent first last : Bool) (f : BitVec 120) : BitVec 128 := transomWord (some ⟨0, urgent, first, last, f⟩) false false

/-- A message received has this route flit and this TYPE. -/
def LecelRx.isOf (x : LecelRx) (r : Route) (m : Msg) : Bool :=
  match x.flits with
  | f :: h :: _ => f.extractLsb' 0 120 == r.flit && hdrType (h.extractLsb' 0 120) == m.code
  | _ => false

/-! Frames (R406). -/

/-- The 5,140 message bits of a Lecel frame: FRC is the low bits of its frame number. -/
def lecelBits (lfn frame : Nat) (header : BitVec 128) (slots : Table Flit) (transom : BitVec 128) : BitVec 5140 :=
  BitVec.ofNat 5140 ((lfn % 64) * 2 ^ 5134 + (frame % 2 ^ 14) * 2 ^ 5120 + header.toNat * 2 ^ 4992
    + slots.foldl (fun n e => n + (if 1 ≤ e.1 && e.1 ≤ 38 then e.2.toNat * 2 ^ (4992 - 128 * e.1) else 0)) 0
    + transom.toNat)

/-! MCTP (R447, DSP0236). -/

/-- The message that packets form: the first starts it, the last alone ends it, sequence numbers follow, every packet but
the last fills the 64-byte transmission unit, and the whole is at most 128 bytes; packets that form none are discarded. -/
def mcMessage (l : List McPacket) : Option (List Byte) :=
  let b := l.flatMap (fun k => k.payload)
  let n := l.length
  let fits := l.zipIdx.all (fun x => x.1.som == (x.2 == 0) && x.1.eom == (x.2 + 1 == n)
    && x.1.seq == (l.head?.elim 0 (fun k => k.seq)) + BitVec.ofNat 2 x.2
    && decide (x.1.payload.length ≤ 64) && (x.2 + 1 == n || x.1.payload.length == 64))
  if 0 < n && fits && b.length ≤ 128 then some b else none

/-- The packets of a message. -/
def mcPackets (b : List Byte) : List McPacket :=
  let l := chunksOf 64 (b.length + 1) b
  l.zipIdx.map (fun x => ⟨x.2 == 0, x.2 + 1 == l.length, BitVec.ofNat 2 x.2, x.1⟩)

/-- Message type and vendor of a dictionary message on the bus. -/
def mcVendor (vendor : Nat) : List Byte := [0x7E] ++ beBytes 2 vendor

end Sys2Proof.Machine
end

