-- ==== Sys2Proof/Config.lean ====
section
/-! DEFINITION. What the manual leaves open: free values, which nothing in Lean can evaluate. -/
namespace Sys2Proof

/-- A free value of w bits, one for each value of the counter State.fresh: data that could not be corrected, Mogul noise,
DRBG output, and every other value the manual leaves undefined (assumption 2). -/
opaque Config.freeBits (n w : Nat) : BitVec w

/-- Contents of package flash and fuses that no rule gives a value: serial number, running firmware version, digest of the
running firmware bank (assumption 3). -/
opaque Config.serial : BitVec 64
opaque Config.firmwareVersion : BitVec 32
opaque Config.firmwareDigest : BitVec 384
/-- The device's PCI vendor ID (assumption 3). -/
opaque Config.pciVendorId : BitVec 16
/-- The device certificate chain as held in package flash: 8,192 bytes, and the bytes in use. -/
opaque Config.certChain : BitVec 65536
opaque Config.certChainLen : BitVec 14
/-- The corrected PUF secret P of R530. -/
opaque Config.pufSecret : BitVec 384
/-- What the check of R537 finds in a staged firmware bank: the SVN of a bank whose key and signature hold, none for
any other; the manual gives neither the layout of a bank nor FW_KEY_HASH (assumption 3). -/
opaque Config.bankSvn (bytes : List (BitVec 8)) : Option (BitVec 16)

end Sys2Proof
end

