-- ==== Sys2Proof/Machine/Transform.lean ====
section
/-! DEFINITION. The transforms of the SX slot: Box–Muller normals (R162 to R164), Gumbel keys (R176, R177) and the
Bernoulli comparators (R172, R173). -/
namespace Sys2Proof

/-- num/den rounded to the nearest integer, ties away from zero. -/
def roundRat (num den : Nat) : Nat := (2 * num + den) / (2 * den)

/-- T0[i] of R163: 2^30 × log2(1 + i/256). -/
def tabT0 (i : Nat) : Nat := (Real256.roundScaled (2 ^ 30) (Real256.log2 (256 + i) (-8))).toNat
/-- T1[i] of R163: 2^30 / ((1 + i/256) × ln 2). -/
def tabT1 (i : Nat) : Nat := roundRat (2 ^ 38 * Real256.one) ((256 + i) * Real256.ln2)
/-- T2[i] of R163: 2^29 / ((1 + i/256)² × ln 2). -/
def tabT2 (i : Nat) : Nat := roundRat (2 ^ 45 * Real256.one) ((256 + i) * (256 + i) * Real256.ln2)
/-- S[i] of R163: 2^30 × sin(π × i / 512). -/
def tabS (i : Nat) : Nat := (Real256.roundScaled (2 ^ 30) (Real256.sin (Real256.pi * i / 512))).toNat
/-- C[i] of R163: 2^30 × cos(π × i / 512). -/
def tabC (i : Nat) : Nat := (Real256.roundScaled (2 ^ 30) (Real256.cos (Real256.pi * i / 512))).toNat

/-- The 5,120 bytes of CARVE_TABLES (R167). -/
def carveTables : List Byte :=
  let one (f : Nat → Nat) : List Byte := (List.range 256).flatMap (fun i => leBytes 4 (f i))
  one tabT0 ++ one tabT1 ++ one tabT2 ++ one tabS ++ one tabC

/-- The quadratic T0 + δ(T1 − δ·T2) at the fraction y of 32 bits (R162, R176). -/
def lgFrac (y : Nat) : Int :=
  let i := y / 2 ^ 24
  let d := y % 2 ^ 24
  let q := (tabT2 i * d) >>> 32
  (tabT0 i : Int) + (((tabT1 i : Int) - (q : Int)) * (d : Int)) / 2 ^ 32

/-- The intermediates of R162 for one lane pair. -/
structure NormalParts where
  e : Nat
  y : Nat
  lg : Int
  l30 : Nat
  s : Nat
  r : Nat
  sinp : Nat
  cosp : Nat
  /-- z0 and z1, each times 2^58 -/
  z0 : Int
  z1 : Int
  deriving DecidableEq, Repr

/-- clamp(x, 0, 2^30) as a natural number. -/
def clampQ30 (x : Int) : Nat := min (2 ^ 30) x.toNat

/-- The Box–Muller pair of words a and b (R162). -/
def normalParts (a b : Nat) : NormalParts :=
  let v := a + 1
  let e := v.log2
  let y := (v <<< (32 - e)) % 2 ^ 32
  let lg := lgFrac y
  let l30 : Int := max 0 ((((32 - e) <<< 30 : Nat) : Int) - lg)
  let s := ((l30.toNat * 0xB17217F8) >>> 35) % 2 ^ 32
  let r := Real256.isqrt (s <<< 30)
  let quad := bitsOf b 31 30
  let i2 := bitsOf b 29 22
  let d2 := bitsOf b 21 8
  let eps := (0x6487ED51 * d2) >>> 22
  let eps2 := (eps * eps) >>> 31
  let eps3 := (eps2 * eps) >>> 30
  let sn : Int := (eps : Int) - (((eps3 * 0x55555555) >>> 32 : Nat) : Int)
  let cs : Int := (2 ^ 30 : Int) - (eps2 : Int)
  let sI : Int := (tabS i2 : Nat)
  let cI : Int := (tabC i2 : Nat)
  let sinp := clampQ30 ((sI * cs + cI * sn) / 2 ^ 30)
  let cosp := clampQ30 ((cI * cs - sI * sn) / 2 ^ 30)
  let cx : Int := match quad with | 0 => (cosp : Int) | 1 => -(sinp : Int) | 2 => -(cosp : Int) | _ => (sinp : Int)
  let sx : Int := match quad with | 0 => (sinp : Int) | 1 => (cosp : Int) | 2 => -(sinp : Int) | _ => -(cosp : Int)
  ⟨e, y, lg, l30.toNat, s, r, sinp, cosp, (r : Int) * cx, (r : Int) * sx⟩

/-- A normal rounded once to a format; a zero magnitude gives +0 (R164). -/
def normalTo (f : FpFmt) (z : Int) : Nat :=
  if z == 0 then 0 else (f.encode (intVal z (-58))).1

/-- lg2q of R176: Q30 log2(v) for v ≥ 1. -/
def lg2q (v : Nat) : Int :=
  let e := v.log2
  let y := if e ≤ 32 then (v <<< (32 - e)) % 2 ^ 32 else (v >>> (e - 32)) % 2 ^ 32
  ((e <<< 30 : Nat) : Int) + lgFrac y

/-- LOG2LN2 of R176. -/
def log2ln2 : Int := -567758570

/-- M of R177, Q30 log2 E. -/
def gumbelM (a : Nat) : Int :=
  if 2 ^ 32 - 2 ^ 24 ≤ a then
    let c := 2 * (2 ^ 32 - 1 - a) + 1
    let eh := (c <<< 25) + ((c * c) >>> 9) + ((c * c * c * 0x55555555) >>> 73)
    lg2q eh - ((58 <<< 30 : Nat) : Int)
  else
    let v := 2 * a + 1
    let l30 : Int := ((33 <<< 30 : Nat) : Int) - lg2q v
    lg2q l30.toNat - ((30 <<< 30 : Nat) : Int) + log2ln2

/-- The Gumbel key of a uniform word (R177), as FP32. -/
def gumbelKey (a : Nat) : BitVec 32 :=
  let k := -(gumbelM a) * 0xB17217F8
  if k == 0 then 0 else BitVec.ofNat 32 (FpFmt.fp32.encode (intVal k (-62))).1

/-- e^k·e^f in Q256, for k small. -/
def expWhole : Nat → Nat → Nat
  | 0, x => x
  | k + 1, x => expWhole k (x * Real256.exp Real256.one / Real256.one)

/-- e^y for y = m·2^e below 12, in Q256. -/
def expOf (m : Nat) (e : Int) : Nat :=
  let y := if 0 ≤ e then m * 2 ^ e.toNat * Real256.one else m * Real256.one / 2 ^ (-e).toNat
  expWhole (y / Real256.one) (Real256.exp (y % Real256.one))

/-- The threshold of a BF16 logit (R173), and INVALID for a NaN. -/
def bernlThreshold (x : Nat) : Nat × BitVec 16 :=
  match FpFmt.bf16.decode x with
  | .nan => (0, flagInvalid)
  | .inf neg => (if neg then 0 else 65536, 0)
  | .fin neg m e =>
    if m == 0 then (32768, 0)
    else if (12 : Int) ≤ (if 0 ≤ e then ((m * 2 ^ e.toNat : Nat) : Int) else ((m / 2 ^ (-e).toNat : Nat) : Int)) then
      (if neg then 0 else 65535, 0)
    else
      let ey := expOf m e
      -- x > 0: 65536·e^y/(e^y + 1); x < 0: 65536/(e^y + 1)
      ((if neg then 65536 * Real256.one else 65536 * ey) / (ey + Real256.one), 0)

end Sys2Proof
end

