-- ==== Sys2Proof/Machine/CoreOps.lean ====
section
/-! DEFINITION. Operations every slot of a core shares: reading registers, issue and traps, delayed register writes,
SRAM addresses and accesses (R48 to R59, R65, R66, R76, R86). -/
namespace Sys2Proof.Machine

/-- What a core's operation knows of the lap: its cycle, the lap's length and number, DEBUG_ENABLE, the fence latch of
its site, and whether a lap of its slot is running. -/
structure LapCtx where
  c : Nat
  len : Nat
  lap : Nat
  debug : Bool
  fenced : Bool
  live : Bool
  deriving DecidableEq, Repr

/-! Trap codes of R86. -/
def tILLEGAL : Nat := 0x01
def tTILE : Nat := 0x02
def tBUSY : Nat := 0x03
def tCLASH : Nat := 0x04
def tRANGE : Nat := 0x05
def tGOLDEN : Nat := 0x06
def tLOOP : Nat := 0x07
def tISTREAM : Nat := 0x08
def tDEBUG : Nat := 0x09
def tOVERRUN : Nat := 0x0A
def tWORD : Nat := 0x20
def tRESIDUE : Nat := 0x21

/-- Lap faults of R86, R229, R267, R410, R515 and R588; every other code is a program fault. -/
def isLapFault (code : Nat) : Bool :=
  code == 0x20 || code == 0x21 || (0x30 ≤ code && code ≤ 0x33) || code == 0x3A || code == 0x40 || code == 0x41 || 0x50 ≤ code

namespace Core

/-- V r. -/
def rv (k : Core) (r : Nat) : Lanes := Table.get 0 r k.v
/-- S r. -/
def rs (k : Core) (r : Nat) : BitVec 32 := Table.get 0 r k.s
/-- A r. -/
def ra (k : Core) (r : Nat) : BitVec 24 := Table.get 0 r k.a
/-- Loop counter r. -/
def rl (k : Core) (r : Nat) : LoopReg := Table.get ⟨0, 0⟩ r k.loops
/-- Tile entry. -/
def entryAt (k : Core) (tile row col : Nat) : TileEntry :=
  Table.get TileEntry.empty (256 * tile + 16 * row + col) k.tiles

/-- Raise a trap in this cycle; the first one given in a cycle is the one kept. -/
def trap (k : Core) (code : Nat) : Core :=
  match k.trapNow with
  | some _ => k
  | none => { k with trapNow := some code }

/-- Whether the bundle issuing in this cycle can still take an operation in this slot. -/
def canIssue (k : Core) (x : LapCtx) (sl : OpSlot) : Bool :=
  x.live && !x.fenced && !k.idleRec && k.phase == .running && k.issueAt == x.c && k.trapNow == none
    && !(k.issued.contains sl)

/-- Issue an operation in a slot: nothing happens when the core issues no bundle now, or the slot already has its
operation of this bundle. -/
def issue (k : Core) (x : LapCtx) (sl : OpSlot) (f : Core → Core) : Core :=
  if k.canIssue x sl then f { k with issued := sl :: k.issued } else k

/-- Add something due d cycles after now for an operation of slot sl. -/
def push (k : Core) (x : LapCtx) (sl : OpSlot) (d : Nat) (act : CoreAct) : Core :=
  { k with inflight := k.inflight ++ [⟨x.c, x.c + d, sl.rank, true, act⟩] }

/-- Add something due d cycles after now for a memory slot, which no bundle's trap cancels. -/
def pushMem (k : Core) (x : LapCtx) (d : Nat) (act : CoreAct) : Core :=
  { k with inflight := k.inflight ++ [⟨x.c, x.c + d, 0, false, act⟩] }

/-- Whether a last access in cycle c + d would fall at or after the lap's length (R65). -/
def overruns (x : LapCtx) (d : Nat) : Bool := x.len ≤ x.c + d

/-- Sticky flags due with a result d cycles after now. -/
def pushFlags (k : Core) (x : LapCtx) (sl : OpSlot) (d : Nat) (f : BitVec 16) : Core :=
  if f == 0 then k else k.push x sl d (.flags f)

/-- Write the masked bits of V r with latency lat, raising flags with it (R56, R65, R80). -/
def writeV (k : Core) (x : LapCtx) (sl : OpSlot) (lat r : Nat) (mask val : Lanes) (f : BitVec 16) : Core :=
  if overruns x (lat - 1) then k.trap tOVERRUN
  else (k.push x sl (lat - 1) (.wV r mask val)).pushFlags x sl (lat - 1) f

/-- Write S r with latency lat. -/
def writeS (k : Core) (x : LapCtx) (sl : OpSlot) (lat r : Nat) (val : BitVec 32) (f : BitVec 16) : Core :=
  if overruns x (lat - 1) then k.trap tOVERRUN
  else (k.push x sl (lat - 1) (.wS r val)).pushFlags x sl (lat - 1) f

/-- Write A r with latency lat. -/
def writeA (k : Core) (x : LapCtx) (sl : OpSlot) (lat r : Nat) (val : BitVec 24) : Core :=
  if overruns x (lat - 1) then k.trap tOVERRUN
  else k.push x sl (lat - 1) (.wA r val)

/-- Whether predication enables lane i (R66). -/
def enabled (k : Core) (pm : BitVec 2) (i : Nat) : Bool :=
  if pm == 0 then true else (k.rs (12 + pm.toNat)).getLsbD i

/-! SRAM addresses (R48, R49). -/

/-- The last byte address of data SRAM plus one. -/
def dataTop : Nat := 0x30000

/-- An address modulo 2^24, truncated to a multiple of the access size. -/
def addrOf (base : BitVec 24) (off : Int) (size : Nat) : Nat :=
  (((base.toNat : Int) + off) % 2 ^ 24).toNat / size * size

/-- Whether an address lies in data SRAM. -/
def inData (a : Nat) : Bool := a < dataTop

/-- Whether an address lies in instruction SRAM. -/
def inInstr (a : Nat) : Bool := 0x80000 ≤ a && a < 0x88000

/-- The bank of a data-SRAM address (R48). -/
def bankOf (a : Nat) : Nat := a / 0x4000

/-- Whether an address of data SRAM lies in the golden region (R52). -/
def goldenData (k : Core) (a : Nat) : Bool := a < k.dtop

/-- n bytes of data SRAM as a number, least significant byte first. -/
def dataNum (k : Core) (a n : Nat) : Nat := ofLE (k.data.readBytes a n)

/-- A store of n low bytes of val at address a, with byte mask m, as a write of the aligned 64 bytes. -/
def storeAct (a n : Nat) (m val : Nat) : CoreAct :=
  let o := a % 64
  .store (a / 64 * 64) (BitVec.ofNat 64 ((m % 2 ^ n) <<< o)) (BitVec.ofNat 512 ((val % 2 ^ (8 * n)) <<< (8 * o)))

/-- A byte mask of n lanes of 4 bytes from the enabled lanes. -/
def byteMask (en : Nat → Bool) : Nat → Nat
  | 0 => 0
  | n + 1 => byteMask en n + (if en n then 0xF * 2 ^ (4 * n) else 0)

/-! Tiles in flight (R76). -/

/-- A tile is held by a TOUT or TPEEK. -/
def heldByDrain (k : Core) (c tile : Nat) : Bool :=
  k.held.any (fun h => h.tile == tile && h.issue ≤ c && c ≤ h.last)

/-- A tile is held by an MMA in flight. -/
def heldByMma (k : Core) (c tile : Nat) : Bool :=
  k.mmas.any (fun m => m.tile == tile && m.issue ≤ c && c < m.retire)

/-! Memory windows (R250, R251). -/

/-- Field extraction from a window entry. -/
def winField (w : BitVec 64) (hi lo : Nat) : Nat := bitsOf w.toNat hi lo

/-- Position of the first LAST entry of a slot's ring plus 1, 16 when none is set. -/
def ringLenFrom (k : Core) (slot : Nat) : Nat → Nat → Nat
  | 0, i => i
  | f + 1, i =>
    if winField (Table.get 0 (16 * slot + i) k.windows) 63 63 == 1 then i + 1 else ringLenFrom k slot f (i + 1)

/-- Ring length n of a slot. -/
def ringLen (k : Core) (slot : Nat) : Nat := min 16 (ringLenFrom k slot 16 0)

/-- The window entry of a slot in frame f (R250). -/
def windowAt (k : Core) (slot f : Nat) : BitVec 64 :=
  Table.get 0 (16 * slot + f % k.ringLen slot) k.windows

/-- The send cycle of a slot in frame f. -/
def sendCycle (k : Core) (slot f : Nat) : Nat := 256 * f + winField (k.windowAt slot f) 17 10

/-- The frame in which a request issued at cycle c is served (R78). -/
def servingFrame (k : Core) (slot c : Nat) : Nat :=
  if c < k.sendCycle slot (c / 256) then c / 256 else c / 256 + 1

/-- The block a request reaches (R251). -/
def windowBlock (w : BitVec 64) (line : BitVec 32) (lap : Nat) : Nat :=
  let ws := winField w 41 37
  let i := line.toNat % 2 ^ ws
  let base := winField w 36 18
  if winField w 61 61 == 0 then base + i
  else base + i + 2 ^ ws * ((lap + winField w 60 60) % 2)

/-- The request flit of R254. -/
def requestFlit (write : Bool) (w : BitVec 64) (block core : Nat) : Flit :=
  let nowr := if write && winField w 62 62 == 0 then 1 else 0
  BitVec.ofNat 128 ((if write then 2 else 1) * 2 ^ 126 + winField w 56 48 * 2 ^ 117 + winField w 47 42 * 2 ^ 111
    + (block % 2 ^ 19) * 2 ^ 92 + (core % 2 ^ 14) * 2 ^ 78 + nowr * 2 ^ 77)

end Core

end Sys2Proof.Machine
end

