-- ==== Sys2Proof/Machine/CoreVec.lean ====
section
/-! DEFINITION. What the VX and SX slots of a core compute (R69 to R71, R102 to R120, R148, R162 to R178), as
operations on a core in its lap. -/
namespace Sys2Proof.Machine

/-- All 512 bits. -/
def allLanes : Lanes := BitVec.allOnes 512

/-- Union of the flags of the enabled lanes below n. -/
def laneFlags (en : Nat → Bool) (f : Nat → BitVec 32 × BitVec 16) : Nat → BitVec 16
  | 0 => 0
  | n + 1 => laneFlags en f n ||| (if en n then (f n).2 else 0)

/-- A mask of 16 bits from a predicate. -/
def laneBits (p : Nat → Bool) : BitVec 32 := BitVec.ofNat 32 (packFrom 1 (fun i => if p i then 1 else 0) 16)

/-- The order of VMAXI and VMINI (R105) as an integer key; NaN takes the key given. -/
def scoreKey (nanKey : Int) (x : BitVec 32) : Int :=
  if fp32IsNan x then nanKey
  else if x.getLsbD 31 then -((x.toNat % 2 ^ 31 : Nat) : Int) - 1
  else (x.toNat : Int)

/-- Key of a NaN above every number (VMAXI, MAX_IDX). -/
def nanHigh : Int := 2 ^ 40
/-- Key of a NaN below every number (VMINI, MIN_IDX). -/
def nanLow : Int := -(2 ^ 40)

/-- A score with its paired value. -/
abbrev Scored := BitVec 32 × BitVec 32

/-- The higher-ranking pair, equal scores to the lower second value (R70, R181). -/
def higher (p q : Scored) : Scored :=
  let a := scoreKey nanHigh p.1
  let b := scoreKey nanHigh q.1
  if a < b then q else if b < a then p else if p.2.toNat ≤ q.2.toNat then p else q

/-- The lower-ranking pair, equal scores to the lower second value. -/
def lower (p q : Scored) : Scored :=
  let a := scoreKey nanLow p.1
  let b := scoreKey nanLow q.1
  if b < a then q else if a < b then p else if p.2.toNat ≤ q.2.toNat then p else q

/-- One level of a balanced pairwise tree (R70). -/
def treeLevel {α : Type} (f : α → α → α) : List α → List α
  | a :: b :: t => f a b :: treeLevel f t
  | l => l

/-- Four levels over 16 lanes. -/
def tree16 {α : Type} (f : α → α → α) (l : List α) : List α :=
  treeLevel f (treeLevel f (treeLevel f (treeLevel f l)))

/-- 16 packed elements of w bits, the bits above them zero (R103). -/
def packedLanes (w : Nat) (g : Nat → Nat) : Lanes := BitVec.ofNat 512 (packFrom w g 16)

/-- What a narrowing writes: the elements of enabled lanes, and the bits above the elements (R103). -/
def packedMask (w : Nat) (en : Nat → Bool) : Lanes :=
  BitVec.ofNat 512 (packFrom w (fun i => if en i then 2 ^ w - 1 else 0) 16 + (2 ^ 512 - 2 ^ (16 * w)))

/-- A NaN score is written as the canonical NaN. -/
def canonScore (x : BitVec 32) : BitVec 32 := if fp32IsNan x then fp32Nan else x

/-- Lanes of a register as a list. -/
def laneList (v : Lanes) : List (BitVec 32) := (List.range 16).map (lane v)

/-- A register from a short list of lanes, the rest zero. -/
def lanesOf (l : List (BitVec 32)) : Lanes := mkLanes (fun i => l.getD i 0)

namespace Core

/-- A VX operation computing each lane (R66, R69). -/
def vxLanes (k : Core) (x : LapCtx) (f : VxFields) (lat : Nat) (g : Core → Nat → BitVec 32 × BitVec 16) : Core :=
  k.issue x .vx (fun k =>
    k.writeV x .vx lat f.vd.toNat (laneMask (k.enabled f.pm)) (mkLanes (fun i => (g k i).1))
      (laneFlags (k.enabled f.pm) (g k) 16))

/-- Two-operand lane operations. -/
def vx2 (k : Core) (x : LapCtx) (f : VxFields) (lat : Nat)
    (g : BitVec 32 → BitVec 32 → BitVec 32 × BitVec 16) : Core :=
  k.vxLanes x f lat (fun k i => g (lane (k.rv f.va.toNat) i) (lane (k.rv f.vb.toNat) i))

/-- One-operand lane operations. -/
def vx1 (k : Core) (x : LapCtx) (f : VxFields) (lat : Nat) (g : BitVec 32 → BitVec 32 × BitVec 16) : Core :=
  k.vxLanes x f lat (fun k i => g (lane (k.rv f.va.toNat) i))

/-- Compares: a 16-bit mask into S[VD[3:0]] (R69). -/
def vxCompare (k : Core) (x : LapCtx) (f : VxFields) (lat : Nat) (g : BitVec 32 → BitVec 32 → Bool) : Core :=
  k.issue x .vx (fun k =>
    if f.vd.getLsbD 4 || f.pm != 0 then k.trap tILLEGAL
    else k.writeS x .vx lat f.vd.toNat
      (laneBits (fun i => g (lane (k.rv f.va.toNat) i) (lane (k.rv f.vb.toNat) i))) 0)

/-- SEL (R69). -/
def vxSel (k : Core) (x : LapCtx) (f : VxFields) : Core :=
  k.issue x .vx (fun k =>
    if f.vc.getLsbD 4 || f.pm != 0 then k.trap tILLEGAL
    else
      let m := k.rs f.vc.toNat
      k.writeV x .vx 1 f.vd.toNat allLanes
        (mkLanes (fun i => if m.getLsbD i then lane (k.rv f.va.toNat) i else lane (k.rv f.vb.toNat) i)) 0)

/-- CVTN_RNE, CVTN_RTZ and CVTN_SR (R102, R103, R109 to R118): rnd gives lane i's rounding. -/
def vxNarrow (k : Core) (x : LapCtx) (f : VxFields) (rnd : Core → Nat → Rnd) : Core :=
  k.issue x .vx (fun k =>
    let code := f.vc.toNat % 16
    if f.vc.getLsbD 4 || !narrowTarget code then k.trap tILLEGAL
    else
      let w := fmtWidth code
      let r (i : Nat) : Nat × BitVec 16 := narrow code (rnd k i) (fp32 (lane (k.rv f.va.toNat) i))
      let en := k.enabled f.pm
      k.writeV x .vx 3 f.vd.toNat (packedMask w en) (packedLanes w (fun i => (r i).1))
        (laneFlags en (fun i => (0, (r i).2)) 16))

/-- CVTW (R119, R120). -/
def vxWiden (k : Core) (x : LapCtx) (f : VxFields) : Core :=
  k.issue x .vx (fun k =>
    let code := f.vc.toNat % 16
    let g := f.vb.toNat % 4
    if f.vc.getLsbD 4 || f.vb.toNat / 4 != 0 || !widenSource code g then k.trap tILLEGAL
    else k.writeV x .vx 3 f.vd.toNat (laneMask (k.enabled f.pm))
      (mkLanes (fun i => widen code (packed (fmtWidth code) (16 * g + i) (k.rv f.va.toNat)))) 0)

/-- VSCALE (R94). -/
def vxScale (k : Core) (x : LapCtx) (f : VxFields) : Core :=
  k.issue x .vx (fun k =>
    let code := f.vc.toNat % 16
    if f.vc.getLsbD 4 || f.vb != 0 || !(3 ≤ code && code ≤ 7) || f.va.getLsbD 0 then k.trap tILLEGAL
    else
      let r := vscale code ((laneList (k.rv f.va.toNat) ++ laneList (k.rv (f.va.toNat + 1))).map fp32)
      k.writeV x .vx 4 f.vd.toNat (laneMask (k.enabled f.pm)) (lanesOf [BitVec.ofNat 32 r.1])
        (if k.enabled f.pm 0 then r.2 else 0))

/-- SHUF (R69). -/
def vxShuf (k : Core) (x : LapCtx) (f : VxFields) : Core :=
  k.vxLanes x f 2 (fun k i => (lane (k.rv f.va.toNat) ((lane (k.rv f.vb.toNat) i).toNat % 16), 0))

/-- BCAST (R69). -/
def vxBcast (k : Core) (x : LapCtx) (f : VxFields) : Core :=
  k.issue x .vx (fun k =>
    if f.va.getLsbD 4 then k.trap tILLEGAL
    else k.writeV x .vx 1 f.vd.toNat (laneMask (k.enabled f.pm)) (mkLanes (fun _ => k.rs f.va.toNat)) 0)

/-- VMAXI and VMINI (R70, R105): pick keeps one of two scored lanes. -/
def vxPick (k : Core) (x : LapCtx) (f : VxFields) (pick : Scored → Scored → Scored) : Core :=
  k.issue x .vx (fun k =>
    let l := (laneList (k.rv f.va.toNat)).zip (laneList (k.rv f.vb.toNat))
    let b := (tree16 pick l).headD (0, 0)
    k.writeV x .vx 5 f.vd.toNat (laneMask (k.enabled f.pm)) (lanesOf [canonScore b.1, b.2]) 0)

/-- VSUM (R70, R104): rounded at every level; its flags only when lane 0 is enabled (R66). -/
def vxSum (k : Core) (x : LapCtx) (f : VxFields) : Core :=
  k.issue x .vx (fun k =>
    let l := (laneList (k.rv f.va.toNat)).map (fun a => (a, (0 : BitVec 16)))
    let b := (tree16 (fun p q => let r := fpAdd p.1 q.1; (r.1, p.2 ||| q.2 ||| r.2)) l).headD (0, 0)
    k.writeV x .vx 6 f.vd.toNat (laneMask (k.enabled f.pm)) (lanesOf [b.1])
      (if k.enabled f.pm 0 then b.2 else 0))

/-- LPADD and LPMUL on the 32 packed LP16 elements; mask bit i governs the two elements of lane i. -/
def vxLp (k : Core) (x : LapCtx) (f : VxFields) (lat : Nat) (g : Nat → Nat → Nat × BitVec 16) : Core :=
  k.vxLanes x f lat (fun k i =>
    let e (j : Nat) := g (packed 16 j (k.rv f.va.toNat)) (packed 16 j (k.rv f.vb.toNat))
    (BitVec.ofNat 32 ((e (2 * i)).1 + 2 ^ 16 * (e (2 * i + 1)).1), (e (2 * i)).2 ||| (e (2 * i + 1)).2))

/-! SX. -/

/-- Issue in the SX slot with its interval (R58, R71). -/
def sxIssue (k : Core) (x : LapCtx) (interval : Nat) (bad : Bool) (f : Core → Core) : Core :=
  k.issue x .sx (fun k =>
    if bad then k.trap tILLEGAL
    else if x.c < k.sxFree then k.trap tBUSY
    else f { k with sxFree := x.c + interval })

/-- What RAW takes from the stream table and the latched seeds: local stream ↦ key and lap field (R148, R150, R154). -/
abbrev StreamKey := Nat → BitVec 128 × BitVec 48

/-- The counter of lane i of a RAW (R148). -/
def rawCtr (k : Core) (f : SxFields) (lapField : BitVec 48) (i : Nat) : BitVec 128 :=
  carveCtr lapField (k.ra (2 * f.ap.toNat) ++ lane (k.rv f.ve.toNat) i) (k.ra (2 * f.ap.toNat + 1))

/-- RAW (R71, R148, R149). -/
def sxRaw (k : Core) (x : LapCtx) (f : SxFields) (key : StreamKey) : Core :=
  k.sxIssue x 8 (f.vd.toNat % 4 != 0) (fun k =>
    let kl := key ((k.rs f.ss.toNat).toNat % 2 ^ 16)
    let blk (i : Nat) : Quad := carveBlock kl.1 (k.rawCtr f kl.2 i)
    let w (j : Nat) : Lanes := mkLanes (fun i => (blk i).get j)
    if overruns x 23 then k.trap tOVERRUN
    else ((((k.push x .sx 23 (.wV f.vd.toNat allLanes (w 0))).push x .sx 23 (.wV (f.vd.toNat + 1) allLanes (w 1))).push
      x .sx 23 (.wV (f.vd.toNat + 2) allLanes (w 2))).push x .sx 23 (.wV (f.vd.toNat + 3) allLanes (w 3))))

/-- Normal pair of lane pair j of VE. -/
def normalPair (k : Core) (f : SxFields) (j : Nat) : NormalParts :=
  normalParts (lane (k.rv f.ve.toNat) (2 * j)).toNat (lane (k.rv f.ve.toNat) (2 * j + 1)).toNat

/-- Normal of lane i in a format. -/
def normalLane (k : Core) (f : SxFields) (fmt : FpFmt) (i : Nat) : Nat :=
  let p := k.normalPair f (i / 2)
  normalTo fmt (if i % 2 == 0 then p.z0 else p.z1)

/-- NORM32 (R162, R164). -/
def sxNorm32 (k : Core) (x : LapCtx) (f : SxFields) : Core :=
  k.sxIssue x 4 (f.ss != 0 || f.ap != 0) (fun k =>
    k.writeV x .sx 12 f.vd.toNat allLanes (mkLanes (fun i => BitVec.ofNat 32 (k.normalLane f .fp32 i))) 0)

/-- NORM16 (R164). -/
def sxNorm16 (k : Core) (x : LapCtx) (f : SxFields) : Core :=
  k.sxIssue x 4 (f.ss != 0 || f.ap != 0) (fun k =>
    k.writeV x .sx 12 f.vd.toNat allLanes (BitVec.ofNat 512 (packFrom 16 (k.normalLane f .bf16) 16)) 0)

/-- GUMB (R177). -/
def sxGumb (k : Core) (x : LapCtx) (f : SxFields) : Core :=
  k.sxIssue x 1 (f.ss != 0 || f.ap != 0) (fun k =>
    k.writeV x .sx 10 f.vd.toNat allLanes (mkLanes (fun i => gumbelKey (lane (k.rv f.ve.toNat) i).toNat)) 0)

/-- Packed 16-bit element j of the register pair r, r + 1 (R171). -/
def pair16 (k : Core) (r j : Nat) : Nat := packed 16 (j % 32) (k.rv (r + j / 32))

/-- Register u of the VU field (R71). -/
def vuReg (f : SxFields) : Nat := 2 * f.ss.toNat + f.ap.toNat / 2

/-- Whether BERNP or BERNL breaks R71: VU[0] RSVD, an odd u or an odd VE. -/
def bernBad (f : SxFields) : Bool := f.ap != 0 || f.ve.getLsbD 0

/-- Union of the flags of the thresholds below n. -/
def bernFlags (t : Nat → Nat × BitVec 16) : Nat → BitVec 16
  | 0 => 0
  | n + 1 => bernFlags t n ||| (t n).2

/-- BERNP and BERNL (R172, R173): t gives the threshold of element j's bits. -/
def sxBern (k : Core) (x : LapCtx) (f : SxFields) (lat : Nat) (t : Nat → Nat × BitVec 16) : Core :=
  k.sxIssue x 1 (bernBad f) (fun k =>
    let th (j : Nat) := t (k.pair16 f.ve.toNat j)
    let bits := packFrom 1 (fun j => if k.pair16 (vuReg f) j < (th j).1 then 1 else 0) 64
    k.writeV x .sx lat f.vd.toNat allLanes (BitVec.ofNat 512 bits) (bernFlags th 64))

end Core

end Sys2Proof.Machine
end

