-- ==== Sys2Proof/Machine/CoreUnits.lean ====
section
/-! DEFINITION. What the CT, MX, MV and NX slots and the memory slots of a core do (R61 to R68, R72 to R79, R131, R252),
as operations on a core in its lap. -/
namespace Sys2Proof.Machine
namespace Core

/-! CT. -/

/-- A CT operation. -/
def ctOp (k : Core) (x : LapCtx) (bad : Bool) (f : Core → Core) : Core :=
  k.issue x .ct (fun k => if bad then k.trap tILLEGAL else f k)

/-- LOOP (R61, R62). -/
def ctLoopOp (k : Core) (x : LapCtx) (arg : BitVec 12) : Core :=
  k.ctOp x false (fun k =>
    let c := bitsOf arg.toNat 11 10
    if (k.rl c).count != 0 then k.trap tLOOP
    else k.push x .ct 0 (.ctLoop c (arg.toNat % 1024 + 1)))

/-- ENDL (R61, R62). -/
def ctEndlOp (k : Core) (x : LapCtx) (arg : BitVec 12) : Core :=
  k.ctOp x (arg.toNat % 1024 != 0) (fun k =>
    let c := bitsOf arg.toNat 11 10
    if (k.rl c).count == 0 then k.trap tLOOP
    else k.push x .ct 0 (.ctEndl c))

/-- WAIT (R61). -/
def ctWaitOp (k : Core) (x : LapCtx) (arg : BitVec 12) : Core :=
  k.ctOp x (arg.toNat / 1024 != 0) (fun k => k.push x .ct 0 (.ctWait (arg.toNat % 1024 + 1)))

/-- END (R61, R64). -/
def ctEndOp (k : Core) (x : LapCtx) (arg : BitVec 12) : Core :=
  k.ctOp x (arg.toNat / 2048 != 0) (fun k => k.push x .ct 0 (.ctEnd (arg.toNat % 2048)))

/-- RDFLAG, RDCC and RDLAP: a value into S with latency 1 (R61). -/
def ctRead (k : Core) (x : LapCtx) (bad : Bool) (r : Nat) (val : Core → BitVec 32) : Core :=
  k.ctOp x bad (fun k => k.writeS x .ct 1 r (val k) 0)

/-! MX. -/

/-- The 4,096-bit string of a column group (R123). -/
def columnGroup (k : Core) (bg : Nat) : BitVec 4096 :=
  BitVec.ofNat 4096 (packFrom 512 (fun i => (k.rv (8 * bg + i)).toNat) 8)

/-- MMA and MMAL with effective row row (R67, R68, R76, R121). -/
def mxOp (k : Core) (x : LapCtx) (f : MxFields) (row : Core → Nat) : Core :=
  k.issue x .mx (fun k =>
    let fmt := f.fmt.toNat
    let lat := if mmaSlow fmt then 9 else 6
    if !mmaFormat fmt || !mmaPart fmt f.part.toNat then k.trap tILLEGAL
    else if x.c < k.mxFree then k.trap tBUSY
    else if k.heldByDrain x.c f.tile.toNat then k.trap tTILE
    else if overruns x lat then k.trap tOVERRUN
    else { k with
      mxFree := x.c + (if mmaSlow fmt then 4 else 1)
      mmas := k.mmas ++ [⟨x.c, x.c + lat, fmt, f.tile.toNat, row k, f.acc == 1, f.part.toNat,
        k.rv f.va.toNat, k.columnGroup f.bg.toNat⟩] })

/-- The 16 outputs of an MMA (R125, R136) under the physical errors err. -/
def mmaOuts (m : MmaOp) (err : List Int) : List ChunkOut :=
  let scales := m.group.toNat >>> 3584
  let sr := (scales >>> (8 * (16 + m.row))) % 256
  (List.range 16).map (fun j =>
    chunkOut m.fmt j (chunkPairs m.fmt m.part m.va m.group.toNat j) sr ((scales >>> (8 * j)) % 256) err)

/-- Insert one output of an MMA into entry (row, j), after the clear of ACC=SET (R131, R132). -/
def insertOut (m : MmaOp) (k : Core) (j : Nat) (o : ChunkOut) : Core :=
  let t0 := if m.set then TileEntry.empty else k.entryAt m.tile m.row j
  let r := t0.insert o.value
  { k with
    tiles := Table.put (256 * m.tile + 16 * m.row + j) r.1 k.tiles
    inflight := if o.flags ||| r.2 == 0 then k.inflight
      else k.inflight ++ [⟨m.issue, m.retire, 0, false, .flags (o.flags ||| r.2)⟩] }

/-- Insert the outputs of an MMA, j from j0 on. -/
def insertOuts (m : MmaOp) : Core → Nat → List ChunkOut → Core
  | k, _, [] => k
  | k, j, o :: os => insertOuts m (insertOut m k j o) (j + 1) os

/-- Entry j of a row of 16 free entries. -/
def freeEntry (v : BitVec 5904) (j : Nat) : TileEntry :=
  let w := v.toNat >>> (369 * j)
  ⟨BitVec.ofNat 40 w, (List.range 8).map (fun i => BitVec.ofNat 40 (w >>> (40 * i + 40))), BitVec.ofNat 8 (w >>> 360),
    (w >>> 368) % 2 == 1⟩

/-- Row row of a tile with free entries. -/
def freeRow (k : Core) (v : BitVec 5904) (tile row : Nat) : Core :=
  { k with tiles := (List.range 16).foldl (fun t j => Table.put (256 * tile + 16 * row + j) (freeEntry v j) t) k.tiles }

/-- MMA_RETIRE: the oldest MMA, when its retirement cycle has come (R131, R133, R137). DESIGN CHOICE (assumption 11): a sum
that fails its residue check leaves the row as it was, the clear of ACC=SET included. A stored word of the row that
cannot be corrected raises WORD_UNCORRECTABLE (R51), and what the row then holds is the free value v. -/
def mmaRetire (k : Core) (x : LapCtx) (err : List Int) (upset : Bool) (v : BitVec 5904) : Core :=
  match k.mmas with
  | [] => k
  | m :: ms =>
    if x.live && m.retire == x.c then
      let outs := mmaOuts m err
      let k := { k with mmas := ms }
      if !outs.all (fun o => o.ok) then k.trap tRESIDUE
      else if upset then ((insertOuts m k 0 outs).trap tWORD).freeRow v m.tile m.row
      else insertOuts m k 0 outs
    else k

/-! MV. -/

/-- Issue in the MV slot with its interval (R58, R73). -/
def mvIssue (k : Core) (x : LapCtx) (interval : Nat) (bad : Bool) (f : Core → Core) : Core :=
  k.issue x .mv (fun k =>
    if bad then k.trap tILLEGAL
    else if x.c < k.mvFree then k.trap tBUSY
    else f { k with mvFree := x.c + interval })

/-- A load of n bytes at address a into a register, latency 3 (R73): wr makes the register write. -/
def loadAt (k : Core) (x : LapCtx) (a n : Nat) (wr : Core → Nat → Core) : Core :=
  if !inData a then k.trap tRANGE
  else if overruns x 2 then k.trap tOVERRUN
  else wr (k.push x .mv 0 (.readBank (bankOf a))) (k.dataNum a n)

/-- A store of n bytes at address a, written at t + 1 (R52, R73). -/
def storeAt (k : Core) (x : LapCtx) (sl : OpSlot) (a n mask val : Nat) : Core :=
  if !inData a then k.trap tRANGE
  else if k.goldenData a then k.trap tGOLDEN
  else if overruns x 1 then k.trap tOVERRUN
  else k.push x sl 1 (storeAct a n mask val)

/-- LDV (R73). -/
def mvLdv (k : Core) (x : LapCtx) (f : MvM) : Core :=
  k.mvIssue x 1 false (fun k =>
    k.loadAt x (addrOf (k.ra f.ab.toNat) (64 * f.off.toInt) 64) 64 (fun k' v =>
      k'.push x .mv 2 (.wV f.d.toNat (laneMask (k.enabled f.pm)) (BitVec.ofNat 512 v))))

/-- STV (R73). -/
def mvStv (k : Core) (x : LapCtx) (f : MvM) : Core :=
  k.mvIssue x 1 false (fun k =>
    k.storeAt x .mv (addrOf (k.ra f.ab.toNat) (64 * f.off.toInt) 64) 64 (byteMask (k.enabled f.pm) 16)
      (k.rv f.d.toNat).toNat)

/-- LDS (R66, R73). -/
def mvLds (k : Core) (x : LapCtx) (f : MvM) : Core :=
  k.mvIssue x 1 (f.d.getLsbD 4) (fun k =>
    k.loadAt x (addrOf (k.ra f.ab.toNat) (4 * f.off.toInt) 4) 4 (fun k' v =>
      if k.enabled f.pm 0 then k'.push x .mv 2 (.wS f.d.toNat (BitVec.ofNat 32 v)) else k'))

/-- STS (R66, R73). -/
def mvSts (k : Core) (x : LapCtx) (f : MvM) : Core :=
  k.mvIssue x 1 (f.d.getLsbD 4) (fun k =>
    k.storeAt x .mv (addrOf (k.ra f.ab.toNat) (4 * f.off.toInt) 4) 4 (if k.enabled f.pm 0 then 0xF else 0)
      (k.rs f.d.toNat).toNat)

/-- Address of LDVX and STVX. -/
def indexedAddr (k : Core) (f : MvX) : Nat :=
  addrOf (k.ra f.ab.toNat) ((k.rs f.si.toNat).toNat : Int) 64

/-- LDVX (R73). -/
def mvLdvx (k : Core) (x : LapCtx) (f : MvX) : Core :=
  k.mvIssue x 1 (f.rsvd != 0) (fun k =>
    k.loadAt x (k.indexedAddr f) 64 (fun k' v =>
      k'.push x .mv 2 (.wV f.d.toNat (laneMask (k.enabled f.pm)) (BitVec.ofNat 512 v))))

/-- STVX (R73). -/
def mvStvx (k : Core) (x : LapCtx) (f : MvX) : Core :=
  k.mvIssue x 1 (f.rsvd != 0) (fun k =>
    k.storeAt x .mv (k.indexedAddr f) 64 (byteMask (k.enabled f.pm) 16) (k.rv f.d.toNat).toNat)

/-- Address of lane i of a gather or scatter (R73). -/
def gatherAddr (k : Core) (f : MvG) (i : Nat) : Nat :=
  addrOf (k.ra f.ab.toNat) (((lane (k.rv f.vi.toNat) i).toNat <<< (2 + 2 * f.sh.toNat) : Nat) : Int) 4

/-- The lanes of a gather from lane i on: one read each, and the word that cannot be corrected. -/
def gatherReads (x : LapCtx) (f : MvG) (upset : BitVec 16) (adr : Nat → Nat) : Nat → Nat → Core → Core
  | 0, _, k => k
  | n + 1, i, k =>
    let k := (k.push x .mv i (.readBank (bankOf (adr i)))).push x .mv i (.gather f.d.toNat i (adr i))
    gatherReads x f upset adr n (i + 1) (if upset.getLsbD i then k.push x .mv i .upset else k)

/-- GATH (R66, R73): lane i read at t + i, the register written with latency 18. -/
def mvGath (k : Core) (x : LapCtx) (f : MvG) (upset : BitVec 16) : Core :=
  k.mvIssue x 16 (f.rsvd != 0) (fun k =>
    if (List.range 16).any (fun i => !inData (k.gatherAddr f i)) then k.trap tRANGE
    else if overruns x 17 then k.trap tOVERRUN
    else gatherReads x f upset (k.gatherAddr f) 16 0
      (k.push x .mv 17 (.wV f.d.toNat (laneMask (k.enabled f.pm)) 0)))

/-- The lanes of a scatter from lane i on. -/
def scatWrites (x : LapCtx) (f : MvG) (k0 : Core) : Nat → Nat → Core → Core
  | 0, _, k => k
  | n + 1, i, k =>
    scatWrites x f k0 n (i + 1) (k.push x .mv (1 + i)
      (storeAct (k0.gatherAddr f i) 4 (if k0.enabled f.pm i then 0xF else 0) (lane (k0.rv f.d.toNat) i).toNat))

/-- SCAT (R66, R73): lane i written at t + 1 + i. -/
def mvScat (k : Core) (x : LapCtx) (f : MvG) : Core :=
  k.mvIssue x 16 (f.rsvd != 0) (fun k =>
    if (List.range 16).any (fun i => !inData (k.gatherAddr f i)) then k.trap tRANGE
    else if (List.range 16).any (fun i => k.goldenData (k.gatherAddr f i)) then k.trap tGOLDEN
    else if overruns x 16 then k.trap tOVERRUN
    else scatWrites x f k 16 0 k)

/-- Row size of a TOUT format (R74). -/
def toutRowSize (fmt : Nat) : Nat := if fmt == 0 then 64 else if fmt ≤ 2 then 32 else 16

/-- Address of row r of a TOUT. -/
def toutAddr (base : BitVec 24) (fmt r : Nat) : Nat := addrOf base ((r * toutRowSize fmt : Nat) : Int) (toutRowSize fmt)

/-- TOUT (R74, R76). DESIGN CHOICE (assumption 11): of several trap rules of R59 that one operation breaks, the code given is
that of the first it breaks in the order ILLEGAL_BUNDLE, SLOT_BUSY, ADDRESS_RANGE, GOLDEN_WRITE, TILE_COLLISION, LAP_OVERRUN,
WORD_UNCORRECTABLE; BANK_CLASH, found when the cycle ends, comes last. R59 gives no order. -/
def mvTout (k : Core) (x : LapCtx) (f : MvT) : Core :=
  k.mvIssue x 16 (f.rsvd != 0 || 5 ≤ f.fmt.toNat || f.rnd == 3 || f.vr.toNat % 4 != 0) (fun k =>
    let base := k.ra f.ab.toNat
    let t := f.tile.toNat
    if (List.range 16).any (fun r => !inData (toutAddr base f.fmt.toNat r)) then k.trap tRANGE
    else if (List.range 16).any (fun r => k.goldenData (toutAddr base f.fmt.toNat r)) then k.trap tGOLDEN
    else if k.heldByMma x.c t || k.heldByDrain x.c t then k.trap tTILE
    else if overruns x 21 then k.trap tOVERRUN
      else
      ({ k with held := k.held ++ [⟨t, x.c, x.c + 20⟩] } : Core).push x .mv 1
        (.drain t f.fmt.toNat f.rnd.toNat base.toNat
          ((List.range 4).map (fun i => k.rv (f.vr.toNat + i)))))

/-- TPEEK (R75, R76). -/
def mvTpeek (k : Core) (x : LapCtx) (f : MvP) : Core :=
  k.mvIssue x 1 (f.rsvd != 0 || f.rsvd0 != 0 || f.vd.getLsbD 0) (fun k =>
    let t := f.tile.toNat
    if !x.debug then k.trap tDEBUG
    else if k.heldByMma x.c t || k.heldByDrain x.c t then k.trap tTILE
    else if overruns x 2 then k.trap tOVERRUN
    else
      let e := k.entryAt t f.row.toNat f.col.toNat
      let lo := e.values.map (fun v => v.extractLsb' 0 32) ++ [e.occ.zeroExtend 32]
      let hi := e.values.map (fun v => (v.extractLsb' 32 8).zeroExtend 32)
      (({ k with held := k.held ++ [⟨t, x.c, x.c + 2⟩] } : Core).push x .mv 2
        (.wV f.vd.toNat allLanes (lanesOf lo))).push x .mv 2 (.wV (f.vd.toNat + 1) allLanes (lanesOf hi)))

/-- Scalar operations on two S registers (R73). -/
def mvScalar (k : Core) (x : LapCtx) (f : MvA) (g : BitVec 32 → BitVec 32 → BitVec 32) : Core :=
  k.mvIssue x 1 (f.rsvd != 0 || f.d.getLsbD 4 || f.x.getLsbD 4 || f.y.toNat / 16 != 0) (fun k =>
    k.writeS x .mv 1 f.d.toNat (g (k.rs f.x.toNat) (k.rs f.y.toNat)) 0)

/-- SADDI (R73). -/
def mvSaddi (k : Core) (x : LapCtx) (f : MvA) : Core :=
  k.mvIssue x 1 (f.rsvd != 0 || f.d.getLsbD 4 || f.x.getLsbD 4) (fun k =>
    k.writeS x .mv 1 f.d.toNat (k.rs f.x.toNat + f.y.signExtend 32) 0)

/-- AADDI (R73). -/
def mvAaddi (k : Core) (x : LapCtx) (f : MvA) : Core :=
  k.mvIssue x 1 (f.rsvd != 0 || f.d.toNat / 8 != 0 || f.x.toNat / 8 != 0) (fun k =>
    k.writeA x .mv 1 f.d.toNat (k.ra f.x.toNat + 64 * f.y.signExtend 24))

/-- AFROMS (R73). -/
def mvAfroms (k : Core) (x : LapCtx) (f : MvA) : Core :=
  k.mvIssue x 1 (f.rsvd != 0 || f.d.toNat / 8 != 0 || f.x.getLsbD 4 || f.y != 0) (fun k =>
    k.writeA x .mv 1 f.d.toNat ((k.rs f.x.toNat).extractLsb' 0 24))

/-- SFROMA (R73). -/
def mvSfroma (k : Core) (x : LapCtx) (f : MvA) : Core :=
  k.mvIssue x 1 (f.rsvd != 0 || f.d.getLsbD 4 || f.x.toNat / 8 != 0 || f.y != 0) (fun k =>
    k.writeS x .mv 1 f.d.toNat ((k.ra f.x.toNat).zeroExtend 32) 0)

/-- MOVVS (R73). -/
def mvMovvs (k : Core) (x : LapCtx) (f : MvA) : Core :=
  k.mvIssue x 1 (f.rsvd != 0 || f.d.getLsbD 4 || f.y.toNat / 16 != 0) (fun k =>
    k.writeS x .mv 2 f.d.toNat (lane (k.rv f.x.toNat) f.y.toNat) 0)

/-- MOVSV (R73). -/
def mvMovsv (k : Core) (x : LapCtx) (f : MvA) : Core :=
  k.mvIssue x 1 (f.rsvd != 0 || f.x.getLsbD 4 || f.y.toNat / 16 != 0) (fun k =>
    k.writeV x .mv 1 f.d.toNat (laneMask (fun i => i == f.y.toNat)) (mkLanes (fun _ => k.rs f.x.toNat)) 0)

/-! NX. -/

/-- An NX operation. -/
def nxOp (k : Core) (x : LapCtx) (bad : Bool) (f : Core → Core) : Core :=
  k.issue x .nx (fun k => if bad then k.trap tILLEGAL else f k)

/-- A memory flit enters the inject port in cycle c (R253). -/
def memInjectAt (k : Core) (c : Nat) : Bool :=
  k.inflight.any (fun m => m.due == c && (match m.act with | .inject _ _ true => true | _ => false))

/-- A read deposit takes the eject port in cycle c (R253), be its deposit still to come or already given in this cycle. -/
def memEjectAt (k : Core) (c : Nat) : Bool :=
  k.returns.any (fun r => r.ret == c || r.ret == c + 2)
  || k.inflight.any (fun m => m.due == c && !m.op && (match m.act with | .store _ _ _ => true | .deposit _ _ => true | _ => false))

/-- The two flits of 32 bytes, at t + 1 (R77, R209). -/
def injectPair (k : Core) (x : LapCtx) (val : Nat) : Core :=
  (k.push x .nx 1 (.inject 0 (BitVec.ofNat 128 val) false)).push x .nx 1
    (.inject 1 (BitVec.ofNat 128 (val >>> 128)) false)

/-- SEND (R77, R209, R253). -/
def nxSend (k : Core) (x : LapCtx) (f : NxReg) : Core :=
  k.nxOp x (f.rsvd != 0) (fun k =>
    if k.memInjectAt (x.c + 1) then k.trap tBUSY
    else k.injectPair x ((k.rv f.v.toNat).toNat >>> (256 * f.h.toNat)))

/-- RECV of the flits x0 and x1 ejected in this cycle (R77, R209, R253). -/
def nxRecv (k : Core) (x : LapCtx) (f : NxReg) (x0 x1 : Flit) : Core :=
  k.nxOp x (f.rsvd != 0) (fun k =>
    if k.memEjectAt x.c then k.trap tBUSY
    else
      let v := (x0.toNat + x1.toNat * 2 ^ 128) <<< (256 * f.h.toNat)
      k.writeV x .nx 1 f.v.toNat (BitVec.ofNat 512 ((2 ^ 256 - 1) <<< (256 * f.h.toNat))) (BitVec.ofNat 512 v) 0)

/-- SENDM (R77, R253). -/
def nxSendm (k : Core) (x : LapCtx) (f : NxMem) : Core :=
  k.nxOp x (f.rsvd != 0) (fun k =>
    let a := addrOf (k.ra f.ab.toNat) (32 * f.off.toInt) 32
    if k.memInjectAt (x.c + 1) then k.trap tBUSY
    else if !inData a then k.trap tRANGE
      else (k.push x .nx 0 (.readBank (bankOf a))).injectPair x (k.dataNum a 32))

/-- RECVM (R77, R253). -/
def nxRecvm (k : Core) (x : LapCtx) (f : NxMem) (x0 x1 : Flit) : Core :=
  k.nxOp x (f.rsvd != 0) (fun k =>
    if k.memEjectAt x.c then k.trap tBUSY
    else k.storeAt x .nx (addrOf (k.ra f.ab.toNat) (32 * f.off.toInt) 32) 32 (2 ^ 32 - 1)
      (x0.toNat + x1.toNat * 2 ^ 128))

/-- The aligned line address an MRD or MWR names. -/
def lineAddr (k : Core) (f : NxSlot) : Nat := addrOf (k.ra f.ab.toNat) 0 64

/-- The cycle in which an MRD issued at c returns (R78, R252). -/
def returnCycle (k : Core) (slot c : Nat) : Nat :=
  let fr := k.servingFrame slot c
  k.sendCycle slot fr + winField (k.windowAt slot fr) 9 0

/-- Record a request, which the slot's next send cycle after this one takes (R78). -/
def pushRequest (k : Core) (x : LapCtx) (f : NxSlot) (write : Bool) : Core :=
  k.push x .nx 0 (.request f.slot.toNat ⟨write, k.rs f.ss.toNat, k.lineAddr f, x.c⟩)

/-- MRD (R52, R59, R78, R79, R253). -/
def nxMrd (k : Core) (x : LapCtx) (f : NxSlot) : Core :=
  k.nxOp x (f.rsvd != 0 || f.slot == 3) (fun k =>
    let a := k.lineAddr f
    if !inData a && !inInstr a then k.trap tRANGE
    else if k.goldenData a || (inInstr a && (a - 0x80000) / 16 < k.itop) then k.trap tGOLDEN
    else if x.len ≤ k.returnCycle f.slot.toNat x.c then k.trap tOVERRUN
    else k.pushRequest x f false)

/-- MWR (R59, R65, R78). -/
def nxMwr (k : Core) (x : LapCtx) (f : NxSlot) : Core :=
  k.nxOp x (f.rsvd != 0 || f.slot == 3) (fun k =>
    if !inData (k.lineAddr f) then k.trap tRANGE
    else if x.len ≤ k.sendCycle f.slot.toNat (k.servingFrame f.slot.toNat x.c) then k.trap tOVERRUN
    else k.pushRequest x f true)

/-! Memory slots (R252). -/

/-- Flit q of a 64-byte line. -/
def lineFlit (line q : Nat) : Flit := BitVec.ofNat 128 (line >>> (128 * q))

/-- Send cycle of a line slot: the latest request leaves (R78, R252). n is the core's number; free stands for the data
of a word that cannot be corrected. -/
def memSend (k : Core) (x : LapCtx) (n slot : Nat) (upset : Bool) (free : Lanes) : Core :=
  if !x.live || x.fenced || k.sendCycle slot (x.c / 256) != x.c then k
  else
    match Table.get none slot (k.reqs.map (fun r => (r.1, some r.2))) with
    | none => k
    | some r =>
      if x.c ≤ r.issue then k
      else
        let w := k.windowAt slot (x.c / 256)
        let flit := requestFlit r.write w (windowBlock w r.line x.lap) n
        let k := { k with reqs := Table.erase slot k.reqs }.pushMem x 1 (.inject 0 flit true)
        if r.write then
          let line := if upset then free.toNat else k.dataNum r.addr 64
          let k := if upset then k.trap tWORD else k
          ((((k.pushMem x 0 (.readBank (bankOf r.addr))).pushMem x 1 (.inject 1 (lineFlit line 0) true)).pushMem
            x 3 (.inject 0 (lineFlit line 1) true)).pushMem x 3 (.inject 1 (lineFlit line 2) true)).pushMem
            x 5 (.inject 0 (lineFlit line 3) true)
        else { k with returns := k.returns ++ [⟨slot, x.c + winField w 9 0, x.c, r.addr, none⟩] }

/-- Return cycle of a read: the flits taken are deposited (R79, R252). -/
def memReturn (k : Core) (x : LapCtx) (slot : Nat) (x0 x1 : Flit) : Core :=
  match k.returns.find? (fun r => r.slot == slot && r.ret == x.c) with
  | none => k
  | some r =>
    if !x.live then k
    else
      let r01 := r.r01.getD (0, 0)
      let line := r01.1.toNat + 2 ^ 128 * r01.2.toNat + 2 ^ 256 * x0.toNat + 2 ^ 384 * x1.toNat
      let k := { k with returns := k.returns.filter (fun r => !(r.slot == slot && r.ret == x.c)) }
      if inInstr r.addr then k.pushMem x 0 (.deposit (r.addr - 0x80000) (BitVec.ofNat 512 line))
      else k.pushMem x 0 (.store r.addr (BitVec.allOnes 64) (BitVec.ofNat 512 line))

end Core
end Sys2Proof.Machine
end

