-- ==== Sys2Proof/Machine/CoreCycle.lean ====
section
/-! DEFINITION. The end of a cycle in a core: late checks, the trap, writes due, the fingerprint and the next bundle
(R50, R53, R55 to R57, R59, R79, R80, R87, R316, R317). -/
namespace Sys2Proof.Machine

/-- fmix of R316. -/
def fmix (f w : BitVec 64) : BitVec 64 :=
  ((f <<< 17 ||| f >>> 47) ^^^ w) * 0x9E3779B97F4A7C15

/-- Fold a list of words. -/
def fmixAll (f : BitVec 64) : List (BitVec 64) → BitVec 64
  | [] => f
  | w :: ws => fmixAll (fmix f w) ws

/-- A flit with the whole of its fingerprint record (R317, order 3); the zero flit folds nothing. -/
def foldFlit (kind c : Nat) (f : BitVec 64) (fl : Flit) : BitVec 64 :=
  if fl == 0 then f
  else fmixAll f [BitVec.ofNat 64 (kind * 2 ^ 56 + c), fl.extractLsb' 0 64, fl.extractLsb' 64 64]

/-- The 64 bytes of a write with unwritten bytes zero. -/
def maskedData (m : BitVec 64) (d : Lanes) : Lanes :=
  d &&& BitVec.ofNat 512 (packFrom 8 (fun i => if m.getLsbD i then 255 else 0) 64)

/-- The record of an SRAM write or deposit (R317). -/
def writeRecord (kind addr c : Nat) (m : BitVec 64) (d : Lanes) : List (BitVec 64) :=
  BitVec.ofNat 64 (kind * 2 ^ 56 + (addr % 2 ^ 24) * 2 ^ 32 + c) :: m ::
    (List.range 8).map (fun i => (maskedData m d).extractLsb' (64 * i) 64)

/-- An operation code is reserved, or a NOP has a non-zero bit (R54, R59). -/
def slotIllegal (v width opBits : Nat) (ok : Nat → Bool) : Bool :=
  let op := v >>> (width - opBits)
  if op == 0 then v != 0 else !ok op

/-- A bundle that no core can issue: a reserved opcode in a slot, or a NOP slot that is not all zero (R54, R59). -/
def bundleIllegal (b : Nat) : Bool :=
  slotIllegal (bitsOf b 127 112) 16 4 (fun o => o ≤ 7)
  || slotIllegal (bitsOf b 111 90) 22 2 (fun o => o ≤ 2)
  || slotIllegal (bitsOf b 89 62) 28 6 (fun o => o ≤ 0x22)
  || slotIllegal (bitsOf b 61 42) 20 4 (fun o => o ≤ 6)
  || slotIllegal (bitsOf b 41 18) 24 6 (fun o => o ≤ 0xA || (0x10 ≤ o && o ≤ 0x1C))
  || slotIllegal (bitsOf b 17 0) 18 4 (fun o => o ≤ 6)

namespace Core

/-- Bundle b as a number (R54). -/
def bundleAt (k : Core) (b : Nat) : Nat := ofLE (k.instr.readBytes (16 * b) 16)

/-- Fetch of the bundle that issues next (R55, R59, R79): the traps the fetch raises in the cycle of issue. -/
def fetch (k : Core) : Core :=
  let k := { k with pc := k.next }
  if k.itop ≤ k.next && !(k.written.contains k.next) then k.trap tISTREAM
  else if bundleIllegal (k.bundleAt k.next) then k.trap tILLEGAL
  else k

/-- State at lap cycle 0 (R53, R55, R64, R130): the latched entry's bundle is the first to issue. A core behind a set fence
latch issues nothing (R230). -/
def launch (k : Core) (fenced : Bool) : Core :=
  let k' := { k with
    phase := if k.idleRec then .ended else .running
    v := [], s := [], a := [], loops := []
    next := k.entry, issueAt := 0
    data := k.data.clearRange k.dtop dataTop
    written := [], tiles := [], flags := 0
    inflight := [], mmas := [], held := []
    mxFree := 0, sxFree := 0, mvFree := 0
    issued := [], trapNow := none, reqs := [], returns := [], fp := 0 }
  if k.idleRec || fenced then k' else k'.fetch

/-- Stop under ABORT (R222): nothing more is written; a trapped core stays TRAPPED, and one that has ended reads ENDED until
the lap's boundary (R65); its flags are those at the end of the lap (R81). -/
def stop (k : Core) : Core :=
  { k with
    flagsLast := k.flags
    phase := if k.phase == .running then .boundary else k.phase
    inflight := [], mmas := [], held := [], returns := [], reqs := [], issued := [], trapNow := none }

/-- The lap's boundary: all that ABORT does, and a core that has ended reads BOUNDARY; TRAPPED stands (R65, R83). -/
def rest (k : Core) : Core :=
  { k.stop with phase := if k.phase == .trapped then .trapped else .boundary }

/-- Number of accesses of a bank in a list. -/
def countBank (b : Nat) (l : List Nat) : Nat := (l.filter (fun x => x == b)).length

/-- Two accesses of one bank. -/
def clashIn (l : List Nat) : Bool := l.any (fun b => 1 < countBank b l)

/-- Banks read by the accesses due. -/
def banksRead (l : List Micro) : List Nat :=
  l.filterMap (fun m => match m.act with | .readBank b => some b | _ => none)

/-- Banks written by the accesses due. -/
def banksWritten (l : List Micro) : List Nat :=
  l.filterMap (fun m => match m.act with | .store a _ _ => some (bankOf a) | _ => none)

/-- Traps found from the accesses of the cycle: SLOT_BUSY of R253, BANK_CLASH of R50, WORD_UNCORRECTABLE of R51. -/
def lateTraps (k : Core) (c : Nat) : Core :=
  let now := k.inflight.filter (fun m => m.due == c)
  let opInject := k.inflight.any (fun m => m.op && m.issue == c && m.due == c + 1 &&
    (match m.act with | .inject _ _ _ => true | _ => false))
  let k := if opInject && k.memInjectAt (c + 1) then k.trap tBUSY else k
  let k := if clashIn (banksRead now) || clashIn (banksWritten now) then k.trap tCLASH else k
  if now.any (fun m => m.act == .upset) then k.trap tWORD else k

/-- Take the trap of the cycle: no slot of the bundle issuing now takes effect (R87). -/
def takeTrap (k : Core) (c : Nat) : Core :=
  match k.trapNow with
  | none => k
  | some code =>
    if k.phase == .trapped then { k with trapNow := none }
    else { k with
      phase := .trapped
      trapCode := code, trapPc := k.pc, trapCc := c
      inflight := k.inflight.filter (fun m => !(m.op && m.issue == c))
      mmas := k.mmas.filter (fun m => m.issue != c)
      held := k.held.filter (fun h => h.issue != c) }

/-- Order of writes due in one cycle (R57): earlier issue first, then the slot's rank. -/
def microLe (a b : Micro) : Bool :=
  if a.issue == b.issue then a.rank ≤ b.rank else a.issue < b.issue

/-- Insert a micro into an ordered list. -/
def insertMicro (m : Micro) : List Micro → List Micro
  | [] => [m]
  | h :: t => if microLe h m then h :: insertMicro m t else m :: h :: t

/-- Micros in the order of R57. -/
def sortMicros : List Micro → List Micro
  | [] => []
  | m :: t => insertMicro m (sortMicros t)

/-- A lane read by a gather goes into its pending register write. -/
def gatherInto (issue d lane' : Nat) (val : BitVec 32) (m : Micro) : Micro :=
  match m.act with
  | .wV r mask v =>
    if m.issue == issue && m.rank == OpSlot.mv.rank && r == d then
      { m with act := .wV r mask (v ||| BitVec.ofNat 512 (val.toNat <<< (32 * lane'))) }
    else m
  | _ => m

/-- The gather reads due, against SRAM before this cycle's writes. -/
def doGathers : List Micro → Core → Core
  | [], k => k
  | m :: t, k =>
    match m.act with
    | .gather d i a =>
      doGathers t { k with inflight := k.inflight.map (gatherInto m.issue d i (BitVec.ofNat 32 (k.dataNum a 4))) }
    | _ => doGathers t k

/-- Fold the records of the SRAM writes due, bank by bank (R317 order 1). -/
def foldBanks (c : Nat) (l : List Micro) : Nat → Nat → BitVec 64 → BitVec 64
  | 0, _, f => f
  | n + 1, b, f =>
    let f' := l.foldl (fun f m => match m.act with
      | .store a msk d => if bankOf a == b then fmixAll f (writeRecord 1 a c msk d) else f
      | _ => f) f
    foldBanks c l n (b + 1) f'

/-- The flit of an injection due in cycle c (R205): zero when there is none. -/
def injFlit (k : Core) (c i : Nat) : Flit :=
  k.inflight.foldl (fun f m => match m.act with
    | .inject j g _ => if m.due == c && j == i then f ||| g else f
    | _ => f) 0

/-- The fingerprint after the cycle's events (R317). -/
def foldCycle (k : Core) (c : Nat) (now : List Micro) (x0 x1 : Flit) : BitVec 64 :=
  let f := foldBanks c now 12 0 k.fp
  let f := now.foldl (fun f m => match m.act with
    | .deposit o d => fmixAll f (writeRecord 2 (0x80000 + o) c (BitVec.allOnes 64) d)
    | _ => f) f
  foldFlit 0x13 c (foldFlit 0x12 c (foldFlit 0x11 c (foldFlit 0x10 c f (k.injFlit c 0)) (k.injFlit c 1)) x0) x1

/-- The rounding of entry (r, col) of a TOUT (R74, R117). -/
def toutRnd (rnd : Nat) (vr : List Lanes) (r col : Nat) : Rnd :=
  match rnd with
  | 0 => .rne
  | 1 => .rtz
  | _ => .sr 8 (bitsOf (lane (vr.getD (r / 4) 0) col).toNat (8 * (r % 4) + 7) (8 * (r % 4)))

/-- Row r of a drain: its packed elements and the flags of its collapses and narrowings (R134, R135). -/
def drainRow (k : Core) (tile fmt rnd : Nat) (vr : List Lanes) (r : Nat) : Nat × BitVec 16 :=
  let one (col : Nat) : Nat × BitVec 16 :=
    let s := (k.entryAt tile r col).collapse
    let n := narrow fmt (toutRnd rnd vr r col) (acc40 s.1)
    (n.1, s.2 ||| n.2)
  (packFrom (fmtWidth fmt) (fun col => (one col).1) 16, (List.range 16).foldl (fun f col => f ||| (one col).2) 0)

/-- The writes of a drain issued at cycle t: row r at t + 5 + r, flags at t + 21 (R74, R135). -/
def drainWrites (k : Core) (t tile fmt rnd base : Nat) (vr : List Lanes) : List Micro :=
  let rows := (List.range 16).map (fun r => (r, drainRow k tile fmt rnd vr r))
  let n := toutRowSize fmt
  rows.map (fun r => ⟨t, t + 5 + r.1, OpSlot.mv.rank, true,
    storeAct (toutAddr (BitVec.ofNat 24 base) fmt r.1) n (2 ^ n - 1) r.2.1⟩)
  ++ [⟨t, t + 21, OpSlot.mv.rank, true, .flags (rows.foldl (fun f r => f ||| r.2.2) 0)⟩]

/-- Bytes of a store with their mask. -/
def maskBytes (m : BitVec 64) (d : Lanes) : List (Bool × Byte) :=
  (List.range 64).map (fun i => (m.getLsbD i, d.extractLsb' (8 * i) 8))

/-- Make one write or control action due in cycle c. -/
def apply (c : Nat) (k : Core) (m : Micro) : Core :=
  match m.act with
  | .wV r mask v => { k with v := Table.put r ((k.rv r &&& ~~~mask) ||| (v &&& mask)) k.v }
  | .wS r v => { k with s := Table.put r v k.s }
  | .wA r v => { k with a := Table.put r v k.a }
  | .ctLoop r n => { k with loops := Table.put r ⟨n, (k.pc + 1) % 2048⟩ k.loops }
  | .ctEndl r =>
    let l := k.rl r
    { k with
      loops := Table.put r ⟨l.count - 1, l.start⟩ k.loops
      next := if l.count - 1 == 0 then k.next else l.start }
  | .ctWait n => { k with issueAt := c + n }
  | .ctEnd e => { k with phase := if k.phase == .running then .ended else k.phase, entryNext := e }
  | .store a msk d => { k with data := k.data.writeMasked a (maskBytes msk d) }
  | .deposit o d =>
    { k with instr := k.instr.patch o (lanesBytes d), written := (List.range 4).map (fun i => o / 16 + i) ++ k.written }
  | .flags f => { k with flags := k.flags ||| f }
  | .request sl r => { k with reqs := Table.put sl r k.reqs }
  | .drain t f rn b vr => { k with inflight := k.inflight ++ drainWrites k m.issue t f rn b vr }
  | .readBank _ => k
  | .gather _ _ _ => k
  | .inject _ _ _ => k
  | .upset => k

/-- Apply a list of micros in order. -/
def applyAll (c : Nat) : List Micro → Core → Core
  | [], k => k
  | m :: t, k => applyAll c t (apply c k m)

/-- Take the flits R0 and R1 of a read whose return is two cycles away (R252). -/
def takeR01 (c : Nat) (x0 x1 : Flit) (k : Core) : Core :=
  { k with returns := k.returns.map (fun r => if r.ret == c + 2 then { r with r01 := some (x0, x1) } else r) }

/-- The default successor of the bundle issued in cycle c (R55). -/
def sequence (c : Nat) (k : Core) : Core :=
  if k.phase == .running && k.issueAt == c then { k with next := (k.pc + 1) % 2048, issueAt := c + 1 } else k

/-- End of lap cycle x.c in a core, with the flits x0 and x1 its router ejected in it. -/
def endCycle (k : Core) (x : LapCtx) (x0 x1 : Flit) : Core :=
  let c := x.c
  let k := (k.lateTraps c).takeTrap c
  let due := k.inflight.filter (fun m => m.due == c)
  let fp := if x.fenced || k.idleRec then 0 else k.foldCycle c due x0 x1
  let k := { doGathers due k with fp := fp }
  let due := k.inflight.filter (fun m => m.due == c)
  let k := { k with inflight := k.inflight.filter (fun m => !(m.due == c)) }
  let k := applyAll c (sortMicros due) (k.sequence c)
  let k := { takeR01 c x0 x1 k with issued := [], trapNow := none, held := k.held.filter (fun h => c < h.last) }
  if k.phase == .running && k.issueAt == c + 1 && c + 1 < x.len && !x.fenced then k.fetch else k

end Core
end Sys2Proof.Machine
end

