-- ==== Sys2Proof/Machine/Bundle.lean ====
section
/-! DEFINITION. The bundle cut into its six slots, each slot into its opcode and operand fields, and the operation that the
bundle issuing now carries (R51, R54, R61, R67, R69, R71 to R73, R77). -/
namespace Sys2Proof.Machine

/-- The bits of a slot of bundle b (R54). -/
def slotBits (b : Nat) : OpSlot → Nat
  | .ct => bitsOf b 127 112
  | .mx => bitsOf b 111 90
  | .vx => bitsOf b 89 62
  | .sx => bitsOf b 61 42
  | .mv => bitsOf b 41 18
  | .nx => bitsOf b 17 0

/-- A field of a slot, by the slot's own bit numbers. -/
def cutField (v hi lo : Nat) {w : Nat} : BitVec w := BitVec.ofNat w (bitsOf v hi lo)

/-- CTOP and ARG (R61). -/
def cutCt (b : Nat) : Nat × BitVec 12 :=
  let v := slotBits b .ct
  (bitsOf v 15 12, cutField v 11 0)

/-- MOP of the MX slot and its fields (R67). -/
def cutMx (b : Nat) : Nat × MxFields :=
  let v := slotBits b .mx
  (bitsOf v 21 20, ⟨cutField v 19 16, cutField v 15 14, cutField v 13 10, cutField v 9 9, cutField v 8 4, cutField v 3 2,
    cutField v 1 0⟩)

/-- VOP and its fields (R69). -/
def cutVx (b : Nat) : Nat × VxFields :=
  let v := slotBits b .vx
  (bitsOf v 27 22, ⟨cutField v 21 20, cutField v 19 15, cutField v 14 10, cutField v 9 5, cutField v 4 0⟩)

/-- SOP and its fields (R71). -/
def cutSx (b : Nat) : Nat × SxFields :=
  let v := slotBits b .sx
  (bitsOf v 19 16, ⟨cutField v 15 11, cutField v 10 6, cutField v 5 2, cutField v 1 0⟩)

/-- MOP of the MV slot (R72). -/
def cutMv (b : Nat) : Nat := bitsOf (slotBits b .mv) 23 18

/-- The MV slot in layout M (R72). -/
def cutMvM (b : Nat) : MvM :=
  let v := slotBits b .mv
  ⟨cutField v 17 16, cutField v 15 11, cutField v 10 8, cutField v 7 0⟩

/-- The MV slot in layout X (R72). -/
def cutMvX (b : Nat) : MvX :=
  let v := slotBits b .mv
  ⟨cutField v 17 16, cutField v 15 11, cutField v 10 8, cutField v 7 4, cutField v 3 0⟩

/-- The MV slot in layout G (R72). -/
def cutMvG (b : Nat) : MvG :=
  let v := slotBits b .mv
  ⟨cutField v 17 16, cutField v 15 11, cutField v 10 8, cutField v 7 3, cutField v 2 1, cutField v 0 0⟩

/-- The MV slot in layout A (R72). -/
def cutMvA (b : Nat) : MvA :=
  let v := slotBits b .mv
  ⟨cutField v 17 16, cutField v 15 11, cutField v 10 6, cutField v 5 0⟩

/-- The MV slot in layout T (R72). -/
def cutMvT (b : Nat) : MvT :=
  let v := slotBits b .mv
  ⟨cutField v 17 16, cutField v 15 14, cutField v 13 10, cutField v 9 8, cutField v 7 5, cutField v 4 0⟩

/-- The MV slot in layout P (R72). -/
def cutMvP (b : Nat) : MvP :=
  let v := slotBits b .mv
  ⟨cutField v 17 16, cutField v 15 14, cutField v 13 10, cutField v 9 6, cutField v 5 1, cutField v 0 0⟩

/-- NOP of the NX slot (R77). -/
def cutNx (b : Nat) : Nat := bitsOf (slotBits b .nx) 17 14

/-- The fields of SEND and RECV (R77). -/
def cutNxReg (b : Nat) : NxReg :=
  let v := slotBits b .nx
  ⟨cutField v 13 9, cutField v 8 8, cutField v 7 0⟩

/-- The fields of SENDM and RECVM (R77). -/
def cutNxMem (b : Nat) : NxMem :=
  let v := slotBits b .nx
  ⟨cutField v 13 11, cutField v 10 3, cutField v 2 0⟩

/-- The fields of MRD and MWR (R77). -/
def cutNxSlot (b : Nat) : NxSlot :=
  let v := slotBits b .nx
  ⟨cutField v 13 12, cutField v 11 9, cutField v 8 5, cutField v 4 0⟩

namespace Core

/-- The bundle issuing now. -/
def bundle (k : Core) : Nat := k.bundleAt k.pc

/-- An operation of the bundle issuing now: nothing happens unless the core issues a bundle in this cycle, has raised no
trap in it, the slot's operation is still to come, and the bundle carries it (carries). upset: a word that it reads, its
bundle among them, cannot be corrected, which raises WORD_UNCORRECTABLE (R51), the last of its own trap rules (assumption
11). -/
def given (k : Core) (x : LapCtx) (sl : OpSlot) (carries upset : Bool) (f : Core → Core) : Core :=
  if k.canIssue x sl && carries then (if upset then (f k).trap tWORD else f k) else k

end Core
end Sys2Proof.Machine
end

