-- ==== Sys2Proof/Machine/RouterOps.lean ====
section
/-! DEFINITION. What a router does in a cycle: sources, outputs, the gate sequence and the reduction ALU
(R205 to R220). -/
namespace Sys2Proof.Machine

/-! Gate entries (R211). -/

/-- A field of a gate table entry. -/
def gateField (w : BitVec 128) (hi lo : Nat) : Nat := bitsOf w.toNat hi lo

/-- CTL of an entry: 0 NEXT, 1 ENDA, 2 ENDB, 3 STOP. -/
def gateCtl (w : BitVec 128) : Nat := gateField w 127 126

/-- AOP of an entry (R217). -/
def gateAop (w : BitVec 128) : Nat := gateField w 31 29

/-- One condition of R214 on a single entry, link outputs of a stripe boundary apart. -/
def gateEntryBad (w : BitVec 128) : Bool :=
  let oa := gateField w 125 125 == 1
  let ob := gateField w 124 124 == 1
  let stop := gateCtl w == 3
  (oa && ob) || (stop && (oa || ob)) || (stop && gateField w 123 121 != 0)
  || (!stop && !oa && !ob && gateField w 123 112 != 0)
  || 6 ≤ gateAop w || gateField w 22 0 != 0

namespace Router

/-- The entry that applies in this cycle. -/
def current (r : Router) : BitVec 128 := r.seq.word

/-- A fault of R213 has been raised in this cycle. -/
def faulting (r : Router) : Bool :=
  match r.seqNext with
  | some q => q.phase == .faulted
  | none => false

/-- A router applies its table in this cycle: not from the cycle on in which it raises a fault of R213. -/
def running (r : Router) : Bool := r.seq.phase == .running && !r.faulting

/-- The flit of source code code (R205); i0 and i1 are the core's injected flits, zero behind a set fence. -/
def source (r : Router) (i0 i1 : Flit) (code : Nat) : Flit :=
  match code with
  | 0 => 0
  | 1 => i0
  | 2 => i1
  | 11 => r.alu0
  | 12 => r.alu1
  | 13 => r.h0
  | 14 => r.h1
  | 15 => r.h2
  | n => Table.get 0 (n - 3) r.inputs

/-- The source selected by a 4-bit field of the current entry; IDLE when the router does not run. -/
def select (r : Router) (i0 i1 : Flit) (hi lo : Nat) : Flit :=
  if r.running then r.source i0 i1 (gateField r.current hi lo) else 0

/-! ACC40 and FP32 triples (R218). -/

/-- Value q of an ACC40 triple. -/
def accOf (f : Flit) (q : Nat) : BitVec 40 := f.extractLsb' (40 * q) 40

/-- Value q of an FP32 triple widened to ACC40. -/
def widenTriple (f : Flit) (q : Nat) : BitVec 40 := toAcc40 (fp32 (f.extractLsb' (32 * q) 32))

/-- An ACC40 triple as a flit. -/
def accTriple (g : Nat → BitVec 40) : Flit := BitVec.ofNat 128 (packFrom 40 (fun q => (g q).toNat) 3)

/-- Operand value q under its WID bit. -/
def operand (wid : Bool) (f : Flit) (q : Nat) : BitVec 40 := if wid then widenTriple f q else accOf f q

/-- Rounding on eject: an ACC40 triple as an FP32 triple (R218). -/
def roundTriple (f : Flit) : Flit :=
  BitVec.ofNat 128 (packFrom 32 (fun q => (FpFmt.fp32.encode (acc40 (accOf f q))).1) 3)

/-- The flit on eject transfer k in this cycle (R206, R218). -/
def eject (r : Router) (i0 i1 : Flit) (k : Nat) : Flit :=
  let f := if k == 0 then r.select i0 i1 67 64 else r.select i0 i1 63 60
  let rnd := gateField r.current (24 - k) (24 - k)
  if r.running && rnd == 1 then roundTriple f else f

/-- ADD of two flits (R218). -/
def aluAdd (wa wb : Bool) (a b : Flit) : Flit :=
  accTriple (fun q => (add40 (operand wa a q) (operand wb b q)).1)

/-- Pair q of a flit (R219). -/
def pairOf (f : Flit) (q : Nat) : Scored := (f.extractLsb' (64 * q) 32, f.extractLsb' (64 * q + 32) 32)

/-- A pair with a kept NaN score canonical. -/
def canonPair (p : Scored) : Scored := (canonScore p.1, p.2)

/-- Two pairs as a flit. -/
def pairFlit (p q : Scored) : Flit := q.2 ++ q.1 ++ p.2 ++ p.1

/-- MAX_IDX or MIN_IDX of two flits (R219). -/
def aluPick (pick : Scored → Scored → Scored) (a b : Flit) : Flit :=
  pairFlit (canonPair (pick (pairOf a 0) (pairOf b 0))) (canonPair (pick (pairOf a 1) (pairOf b 1)))

/-- a ranks at or above b under R181. -/
def atOrAbove (a b : Scored) : Bool :=
  let x := scoreKey nanHigh a.1
  let y := scoreKey nanHigh b.1
  decide (y < x) || (x == y && decide (a.2.toNat ≤ b.2.toNat))

/-- The merge of R220: n pairs from two lists. -/
def mergeTop : Nat → List Scored → List Scored → List Scored
  | 0, _, _ => []
  | n + 1, a :: as, b :: bs => if atOrAbove a b then a :: mergeTop n as (b :: bs) else b :: mergeTop n (a :: as) bs
  | n + 1, a :: as, [] => a :: mergeTop n as []
  | n + 1, [], b :: bs => b :: mergeTop n [] bs
  | n + 1, [], [] => (0, 0) :: mergeTop n [] []

/-- The pairs of a list of flits. -/
def pairsOf (fs : List Flit) : List Scored := fs.flatMap (fun f => [pairOf f 0, pairOf f 1])

/-- The four operands A0, A1, B0, B1 of this cycle (R206). -/
def operands (r : Router) (i0 i1 : Flit) : List Flit :=
  [r.select i0 i1 47 44, r.select i0 i1 43 40, r.select i0 i1 39 36, r.select i0 i1 35 32]

/-- Whether the current entry's AOP acts in this cycle: a router ignores it while the second half of a merged list is
due (R220). -/
def aopNow (r : Router) : Nat := if r.running && r.top8Late == none then gateAop r.current else 0

/-- ADD, MAX_IDX or MIN_IDX of the operands of this cycle, due in the ALU registers in the next (R215). -/
def aluOp (r : Router) (i0 i1 : Flit) : Router :=
  let o := r.operands i0 i1
  let a0 := o.getD 0 0
  let a1 := o.getD 1 0
  let b0 := o.getD 2 0
  let b1 := o.getD 3 0
  let w (k : Nat) : Bool := gateField r.current k k == 1
  match r.aopNow with
  | 1 => { r with aluNext := some (aluAdd (w 28) (w 26) a0 b0, aluAdd (w 27) (w 25) a1 b1) }
  | 2 => { r with aluNext := some (aluPick higher a0 b0, aluPick higher a1 b1) }
  | 3 => { r with aluNext := some (aluPick lower a0 b0, aluPick lower a1 b1) }
  | _ => r

/-- TOP8_FIRST: capture the first halves (R220). -/
def top8First (r : Router) (i0 i1 : Flit) : Router := { r with top8Next := some (r.operands i0 i1) }

/-- TOP8_SECOND: merge with the halves captured in the previous cycle, zero flits when there are none (R220). -/
def top8Second (r : Router) (i0 i1 : Flit) : Router :=
  let f := r.top8.getD [0, 0, 0, 0]
  let o := r.operands i0 i1
  let m := mergeTop 8 (pairsOf [f.getD 0 0, f.getD 1 0, o.getD 0 0, o.getD 1 0])
    (pairsOf [f.getD 2 0, f.getD 3 0, o.getD 2 0, o.getD 3 0])
  let p (q : Nat) : Flit := pairFlit (m.getD (2 * q) (0, 0)) (m.getD (2 * q + 1) (0, 0))
  { r with aluNext := some (p 0, p 1), top8LateNext := some (p 2, p 3) }

/-! The gate sequence (R212, R213). -/

/-- Entry e as stored, its check bytes apart (R210). -/
def stored (tbl : Table (BitVec 160)) (e : Nat) : BitVec 128 := (Table.get 0 e tbl).extractLsb' 0 128

/-- Enter entry e, its run beginning in cycle c. Its read leaves the residual error pattern x of the decoder. -/
def enter (tbl : Table (BitVec 160)) (q : GateSeq) (e c : Nat) (back : GateBack) (x : BitVec 128) : GateSeq :=
  if 511 < e then { q with phase := .faulted, e := e, back := .none }
  else
    let w := stored tbl e ^^^ x
    let n := gateField w 123 112 + 1
    let oa := gateField w 125 125 == 1 && back != .a
    let ob := gateField w 124 124 == 1 && back != .b
    { phase := .running, e := e
      la := if oa then n else q.la, startA := if oa then e else q.startA
      lb := if ob then n else q.lb, startB := if ob then e else q.startB
      back := back, runEnd := c + gateField w 111 100, word := w }

/-- The state from cycle c + 1 on after the run that ends in cycle c; none when a counter was 0 (GATE_LOOP). -/
def advance (r : Router) (c : Nat) (x : BitVec 128) : Option GateSeq :=
  let q := r.seq
  match gateCtl r.current with
  | 0 => some (enter r.table q (q.e + 1) (c + 1) .none x)
  | 1 =>
    if q.la == 0 then none
    else
      let q' := { q with la := q.la - 1 }
      if q'.la != 0 then some (enter r.table q' q.startA (c + 1) .a x)
      else some (enter r.table q' (q.e + 1) (c + 1) .none x)
  | 2 =>
    if q.lb == 0 then none
    else
      let q' := { q with lb := q.lb - 1 }
      if q'.lb != 0 then some (enter r.table q' q.startB (c + 1) .b x)
      else some (enter r.table q' (q.e + 1) (c + 1) .none x)
  | _ => some { q with phase := .stopped }

/-- Faults a router raises (R229). -/
def fGATEUNC : Nat := 0x31
def fFLIT : Nat := 0x30
def fREDUCE : Nat := 0x32
def fSCHUSS : Nat := 0x33
def fOVERRUN : Nat := 0x38
def fLOOP : Nat := 0x39

/-- What a read of a gate-table entry under the physical error pattern err gives: the residual pattern, or none when it
cannot be corrected (R210, R229). -/
def entryRead (err : BitVec 160) : Option (BitVec 128) :=
  match rsDecode (errSymbols err) with
  | .clean l => some (residualFlit l)
  | .corrected l => some (residualFlit l)
  | .failed => none

/-- The end of the current entry's run: the router after it, and the fault it raises. err: the physical error pattern of
the next entry's read (R229). -/
def endRun (r : Router) (c : Nat) (err : BitVec 160) : Router × Option Nat :=
  if !(r.running && r.seq.runEnd == c && r.seqNext == none) then (r, none)
  else
    match r.advance c ((entryRead err).getD 0) with
    | none => ({ r with seqNext := some { r.seq with phase := .faulted } }, some fLOOP)
    | some q =>
      if q.phase == .faulted then ({ r with seqNext := some q }, some fOVERRUN)
      else if q.phase == .stopped then
        ({ r with seqNext := some q, entryNext := gateField r.current 120 112 }, none)
      else if (entryRead err).isNone then ({ r with seqNext := some { q with phase := .stopped } }, some fGATEUNC)
      else ({ r with seqNext := some q }, none)

/-- State at a launch (R206, R212, R215): the latched entry applies from lap cycle 0. err: the physical error pattern of
its read; an entry that cannot be corrected is not applied. -/
def launch (r : Router) (err : BitVec 160) : Router :=
  let q := enter r.table GateSeq.rest r.entry 0 .none ((entryRead err).getD 0)
  { r with
    seq := if (entryRead err).isNone then { q with phase := .stopped } else q
    seqNext := none, h0 := 0, h1 := 0, h2 := 0, alu0 := 0, alu1 := 0, aluNext := none
    top8 := none, top8Next := none, top8Late := none, top8LateNext := none, inputs := [], arriving := [] }

/-- Stop under ABORT: IDLE on every output; flits on links are discarded on arrival (R222). -/
def stop (r : Router) : Router :=
  { r with seq := GateSeq.rest, seqNext := none, aluNext := none, top8 := none, top8Next := none, top8Late := none,
           top8LateNext := none, inputs := [], arriving := [] }

/-- The new value of a hold register (R206): field 0 keeps it. -/
def holdNext (r : Router) (i0 i1 : Flit) (hi lo : Nat) (old : Flit) : Flit :=
  if r.running && gateField r.current hi lo != 0 then r.select i0 i1 hi lo else old

/-- The results that reach the ALU registers at the end of this cycle: none in a cycle that raises a fault of R213. -/
def results (r : Router) : Option (Flit × Flit) :=
  if r.faulting then none else match r.aluNext with | some p => some p | none => r.top8Late

/-- End of a cycle in a router: holds written, results latched, the next entry applied, this cycle's inputs gone. -/
def endCycle (r : Router) (i0 i1 : Flit) : Router :=
  let res := r.results
  { r with
    h0 := r.holdNext i0 i1 59 56 r.h0
    h1 := r.holdNext i0 i1 55 52 r.h1
    h2 := r.holdNext i0 i1 51 48 r.h2
    alu0 := (match res with | some p => p.1 | none => r.alu0)
    alu1 := (match res with | some p => p.2 | none => r.alu1)
    aluNext := none
    top8 := r.top8Next, top8Next := none
    top8Late := if r.faulting then none else r.top8LateNext, top8LateNext := none
    seq := r.seqNext.getD r.seq, seqNext := none
    inputs := [] }

/-- The flit driven on link direction d (0 N, 1 E, 2 S, 3 W), transfer t, in this cycle: nothing on transfer 1 of a
reserved cycle (R203, R208). -/
def drive (r : Router) (i0 i1 : Flit) (reserved : Bool) (d t : Nat) : Flit :=
  if t == 1 && reserved then 0
  else r.select i0 i1 (99 - 8 * d - 4 * t) (96 - 8 * d - 4 * t)

end Router

end Sys2Proof.Machine
end

