-- ==== Sys2Proof/Machine/State.lean ====
section
/-! DEFINITION. The state of the device, its reset value, and the reasons a step can stop. -/
namespace Sys2Proof.Machine

/-- Reasons of a fault. The device has none: every command of the table leaves a next state (assumption 1). -/
inductive Fault where
  deriving DecidableEq, Repr

/-- Reasons of a refusal. -/
inductive Refusal where
  /-- raised by exec for a command that has no meaning yet; safe, since nothing follows from it -/
  | notModelled (mnemonic : String)
  deriving DecidableEq, Repr

/-- Everything the manual gives the device, and the commands waiting. -/
structure State where
  /-- cc counts since power-on, the model's own measure of elapsed time -/
  now : Nat
  /-- RINK, whether it counts (R563), and the half cycle of R426 -/
  rink : Nat
  rinkRun : Bool
  rinkHalf : Bool
  /-- the model's own counter of free values taken -/
  fresh : Nat
  grid : Grid
  mem : MemState
  slots : Table Slot
  mogul : Mogul
  ent : Entropy
  ports : Table Port
  takeoverGrace : Nat
  /-- SEAL_AREA_A and SEAL_AREA_B (R301) -/
  sealAreas : Table (List Byte)
  link : LinkState
  power : Power
  louvre : Louvre
  thermal : Thermal
  irq : Irq
  log : Logbook
  dict : Dict
  det : Det
  flash : Flash
  sec : Security
  start : StartUp
  pins : Pins
  /-- commands waiting, first first -/
  pending : List Instr
  deriving DecidableEq, Repr

/-- Package flash and fuses as the model takes them: no failed site or pseudo-channel, which makes the grade G80, no image
key (assumption 3: DESIGN CHOICE). -/
def Flash.factory : Flash := ⟨[], [], false, false, [], 0, 0, none, true, true, true⟩

/-- Start-up as a power-on reset leaves it: PWR_OK and RESET_N high, REFCLK not yet running (R551, R554). -/
def StartUp.powerOn : StartUp where
  st := 0
  fault := 0
  us := 0
  time0 := none
  pwrOk := true
  resetN := true
  refclk := false
  refclkOk := false
  straps := 0
  strapPins := 0
  addrPins := 0
  pllLock := 0
  pllLost := 0
  pllSince := none
  reservedDone := false
  resetHeld := none
  resetAsked := none
  toWake := []

/-- Pins at reset (R571, R575, R584, R587). -/
def Pins.reset : Pins := ⟨0, 0, 24, none, none, true, true, 0, 0, none⟩

/-- The device after a power-on reset, before REFCLK runs: every object at its default, every domain but AON OFF
(R456, R550, R551, R554). -/
def State.reset : State where
  now := 0
  rink := 0
  rinkRun := false
  rinkHalf := false
  fresh := 0
  grid := Grid.reset
  mem := MemState.reset
  slots := []
  mogul := Mogul.reset
  ent := Entropy.reset
  ports := []
  takeoverGrace := 100
  sealAreas := []
  link := LinkState.reset
  power := Power.reset
  louvre := Louvre.reset
  thermal := Thermal.reset
  irq := Irq.reset
  log := Logbook.reset
  dict := Dict.reset
  det := Det.reset
  flash := Flash.factory
  sec := Security.reset
  start := StartUp.powerOn
  pins := Pins.reset
  pending := []

end Sys2Proof.Machine
end

