-- ==== Sys2Proof/Machine/Ops.lean ====
section
/-! DEFINITION. Named operations over the whole state: its parts, free values, interrupt sources, ALERT and the Logbook's
observations (R482 to R502). -/
namespace Sys2Proof.Machine
namespace State

/-! Parts. -/

/-- Core n. -/
def core (s : State) (n : Nat) : Core := Table.get Core.fresh n s.grid.cores
/-- Replace core n. -/
def setCore (s : State) (n : Nat) (k : Core) : State :=
  { s with grid := { s.grid with cores := Table.put n k s.grid.cores } }
/-- Router n. -/
def router (s : State) (n : Nat) : Router := Table.get Router.fresh n s.grid.routers
/-- Replace router n. -/
def setRouter (s : State) (n : Nat) (r : Router) : State :=
  { s with grid := { s.grid with routers := Table.put n r s.grid.routers } }
/-- Course slot k. -/
def slot (s : State) (k : Nat) : Slot := Table.get Slot.fresh k s.slots
/-- Replace slot k. -/
def setSlot (s : State) (k : Nat) (x : Slot) : State := { s with slots := Table.put k x s.slots }
/-- Change slot k. -/
def onSlot (s : State) (k : Nat) (f : Slot → Slot) : State := s.setSlot k (f (s.slot k))
/-- Host port p: 0 A, 1 B. -/
def port (s : State) (p : Nat) : Port := Table.get Port.fresh p s.ports
/-- Replace host port p. -/
def setPort (s : State) (p : Nat) (x : Port) : State := { s with ports := Table.put p x s.ports }
/-- Change host port p. -/
def onPort (s : State) (p : Nat) (f : Port → Port) : State := s.setPort p (f (s.port p))
/-- Lecel port p: 0 N, 1 E, 2 S, 3 W. -/
def lport (s : State) (p : Nat) : LecelPort := Table.get LecelPort.fresh p s.link.ports
/-- Replace Lecel port p. -/
def setLport (s : State) (p : Nat) (x : LecelPort) : State :=
  { s with link := { s.link with ports := Table.put p x s.link.ports } }
/-- Change Lecel port p. -/
def onLport (s : State) (p : Nat) (f : LecelPort → LecelPort) : State := s.setLport p (f (s.lport p))
/-- What a domain is before its first wake: MOGUL domains stay OFF after start-up (R481). -/
def domainDefault (d : Nat) : Domain := if 34 ≤ d then { Domain.off with req := 2 } else Domain.off
/-- Power domain d. -/
def domain (s : State) (d : Nat) : Domain := Table.get (domainDefault d) d s.power.domains
/-- Replace power domain d. -/
def setDomain (s : State) (d : Nat) (x : Domain) : State :=
  { s with power := { s.power with domains := Table.put d x s.power.domains } }
/-- Domain d is ON. -/
def isOn (s : State) (d : Nat) : Bool := (s.domain d).st == 0
/-- Controller of logical slice j. -/
def ctl (s : State) (j : Nat) : SliceCtl := Table.get SliceCtl.fresh j s.mem.ctl
/-- Replace the controller of slice j. -/
def setCtl (s : State) (j : Nat) (c : SliceCtl) : State :=
  { s with mem := { s.mem with ctl := Table.put j c s.mem.ctl } }
/-- Stack number st. -/
def stack (s : State) (st : Nat) : StackEnt := Table.get StackEnt.fresh st s.mem.stackTab
/-- Replace stack st. -/
def setStack (s : State) (st : Nat) (x : StackEnt) : State :=
  { s with mem := { s.mem with stackTab := Table.put st x s.mem.stackTab } }
/-- SLICE_MAP entry of slice j. -/
def sliceEnt (s : State) (j : Nat) : SliceEnt := Table.get ⟨0, 32 * (j / 30) + j % 30⟩ j s.mem.sliceMap
/-- Replace a SLICE_MAP entry. -/
def setSliceEnt (s : State) (j : Nat) (x : SliceEnt) : State :=
  { s with mem := { s.mem with sliceMap := Table.put j x s.mem.sliceMap } }
/-- The root PLL of a die (0 W, 1 E) is locked and REFCLK runs: LINK_CLK, CORE_CLK and SVC_CLK of the die run; the W die's
also drives RINK, the Porter and Mogul (R40, R43). -/
def clockOn (s : State) (die : Nat) : Bool := s.start.refclk && bitOf s.start.pllLock die == 1
/-- The PORTER domain is ON, and its clock runs. -/
def porterOn (s : State) : Bool := s.isOn 0 && s.clockOn 0

/-- A free value of w bits: the value, and the state that has taken it (assumption 2). -/
def free (s : State) (w : Nat) : BitVec w × State :=
  (Config.freeBits s.fresh w, { s with fresh := s.fresh + 1 })

/-! The Logbook's observations (R500 to R502). -/

/-- floor_log2 of a positive number. -/
def floorLog2 (v : Nat) : Nat := Nat.log2 v

/-- The bin of R501. -/
def logBin (v : Int) : Nat := if v ≤ 0 then 0 else min 15 (floorLog2 v.toNat + 1)

/-- Clamp to a signed 64-bit value. -/
def clampI64 (v : Int) : Int := max (-(2 ^ 63)) (min (2 ^ 63 - 1) v)

/-- One more observation of a metric. -/
def metricAdd (m : Metric) (v : Int) : Metric :=
  { bins := Table.modify 0 (logBin v) (fun n => satAdd 32 n 1) m.bins
    count := satAdd 64 m.count 1
    sum := clampI64 (m.sum + v)
    mn := if m.count == 0 then v else min m.mn v
    mx := if m.count == 0 then v else max m.mx v }

/-- Observe value v of metric m in the interval in progress. -/
def observe (s : State) (m : Nat) (v : Int) : State :=
  match s.log.current with
  | none => s
  | some _ =>
    { s with log := { s.log with
      metrics := Table.put m (metricAdd (Table.get Metric.zero m s.log.metrics) v) s.log.metrics } }

/-- Count an event of a per-ms metric that has no counter object. -/
def tallyEvent (s : State) (m d : Nat) : State :=
  { s with log := { s.log with tallies := Table.modify 0 m (fun n => n + d) s.log.tallies } }

/-! Interrupts (R482 to R493). -/

/-- Source n. -/
def source (s : State) (n : Nat) : Source := Table.get Source.fresh n s.irq.sources
/-- Target t. -/
def target (s : State) (t : Nat) : Target := Table.get ⟨none, []⟩ t s.irq.targets

/-- The target a source delivers to: a TAKEOVER_REQ goes to the owner's port (R484). -/
def targetOf (s : State) (n : Nat) : Nat :=
  if 0x30 ≤ n && n ≤ 0x37 then (if (s.slot (n - 0x30)).owner == 2 then 1 else 0)
  else (s.source n).target

/-- Whether source n, in state x, may be offered to target t (R485, R486). -/
def offered (s : State) (t : Nat) (n : Nat) (x : Source) : Bool :=
  x.pending && x.enable && s.targetOf n == t && x.offerFrom ≤ s.now &&
    (match (s.target t).run with | none => true | some r => r < x.prio)

/-- Whether source a with number n comes before source b with number m (R486). -/
def before (n : Nat) (a : Source) (m : Nat) (b : Source) : Bool :=
  if a.prio != b.prio then b.prio < a.prio
  else if a.stamp != b.stamp then a.stamp < b.stamp
  else n < m

/-- The first of the sources that satisfy p (R486). -/
def firstOf (p : Nat → Source → Bool) : List (Nat × Source) → Option (Nat × Source)
  | [] => none
  | (n, x) :: t =>
    match firstOf p t with
    | none => if p n x then some (n, x) else none
    | some (m, y) => if p n x && before n x m y then some (n, x) else some (m, y)

/-- The first deliverable source of target t. -/
def firstDeliverable (s : State) (t : Nat) : Option (Nat × Source) := firstOf (s.offered t) s.irq.sources

/-- The port may write to its host: its link is up, and its link stream Secure when IDE is required (R398). -/
def portSends (s : State) (p : Nat) : Bool :=
  let q := s.port p
  q.linkUp && (!q.ideRequired || q.ideSecure)

/-- Port q sends bytes to address a as posted memory writes of at most Max_Payload_Size bytes, lowest address first, with
both ordering attributes 0 (R375, R376). Cut at multiples of that size (DESIGN CHOICE, assumption 7). -/
def hostWrites (q : Port) : Nat → Nat → List Byte → List HostWrite
  | 0, _, _ => []
  | _ + 1, _, [] => []
  | f + 1, a, b :: l =>
    let n := q.maxPayload - a % max 1 q.maxPayload
    ⟨a, (b :: l).take n, false, false⟩ :: hostWrites q f (a + n) ((b :: l).drop n)

/-- Port q after it has sent bytes to address a. -/
def sendHost (q : Port) (a : Nat) (bytes : List Byte) : Port :=
  { q with sent := q.sent ++ hostWrites q (bytes.length + 1) a bytes }

/-- Send an MSI-X vector on port p, unless MSI-X is off; a masked vector sets its pending bit (R392, R491), and so does one
that comes while the port may not write (R398; DESIGN CHOICE, assumption 7). -/
def msix (s : State) (p v : Nat) : State :=
  let q := s.port p
  let e := Table.get ⟨0, 0, true⟩ v q.msix
  if !q.msixEnable then s
  else if q.msixMaskAll || e.masked || !s.portSends p then s.setPort p { q with pba := q.pba ||| (1 <<< v) }
  else s.setPort p (sendHost { q with msixSent := v :: q.msixSent } e.addr (leBytes 4 e.data))

/-- Whether a source counts for ALERT: while PORTER is off only the comparators' do (R493). -/
def alertCounts (s : State) (n : Nat) (x : Source) : Bool :=
  x.alert && (x.pending || x.active) && (s.isOn 0 || (0x10 ≤ n && n ≤ 0x15))

/-- ALERT_FIRST and ALERT_COUNT (R496). -/
def alertFirst (s : State) : Nat :=
  match firstOf s.alertCounts s.irq.sources with | some (n, _) => n | none => 0xFFFF
def alertCount (s : State) : Nat := (s.irq.sources.filter (fun x => s.alertCounts x.1 x.2)).length

/-- Bring ALERT, ALERT_N and the in-band interrupt up to date (R493). -/
def alertUpdate (s : State) : State :=
  let on := s.irq.sources.any (fun x => s.alertCounts x.1 x.2)
  let ibi := if on && !s.irq.alert && s.irq.ibiEnable && 0x80 ≤ s.dict.i3cAddress
    then (0 :: leBytes 2 s.alertFirst) :: s.irq.ibi else s.irq.ibi
  { s with irq := { s.irq with alert := on, ibi := ibi }, pins := { s.pins with alertN := !on } }

/-- Priority of the first deliverable source of target t. -/
def bestPrio (s : State) (t : Nat) : Option Nat := (s.firstDeliverable t).map (fun x => x.2.prio)

/-- Whether a priority ranks above another, NONE lowest. -/
def ranksAbove : Option Nat → Option Nat → Bool
  | some a, some b => b < a
  | some _, none => true
  | none, _ => false

/-- Signal the hosts whose first deliverable priority has risen from old to s, and update ALERT (R491, R493). -/
def irqUpdate (old s : State) : State :=
  let one (t : Nat) (r : State) : State :=
    match s.bestPrio t with
    | some p => if ranksAbove (some p) (old.bestPrio t) then r.msix t (3 + p) else r
    | none => r
  (one 1 (one 0 s)).alertUpdate

/-- Change the sources, then signal. -/
def onSource (s : State) (n : Nat) (f : Source → Source) : State :=
  let s' := { s with irq := { s.irq with sources := Table.put n (f (s.source n)) s.irq.sources } }
  irqUpdate s s'

/-- Numbers of sources that exist as other than reserved (R482, R483). -/
def sourceUsed (n : Nat) : Bool :=
  n ≤ 8 || (0x10 ≤ n && n ≤ 0x15) || (0x20 ≤ n && n ≤ 0x23) || n == 0x28 || n == 0x29 || (0x30 ≤ n && n ≤ 0x37)
  || (0x40 ≤ n && n ≤ 0x4F) || (0x80 ≤ n && n ≤ 0xFF && n % 16 ≤ 6) || (0x100 ≤ n && n ≤ 0x3FF)

/-- Source n fires (R485): its stamp is the RINK count, 0 while it is held (R563). With PORTER off only comparator
sources are kept (R493). -/
def fire (s : State) (n : Nat) : State :=
  if !s.porterOn && !(0x10 ≤ n && n ≤ 0x15) then s
  else
    (s.onSource n (fun x =>
      { x with pending := true, stamp := if x.pending then x.stamp else s.rink, fires := satAdd 32 x.fires 1 })).tallyEvent 26 1

/-- Event e of slot k (R483). -/
def fireSlot (s : State) (k e : Nat) : State := s.fire (0x80 + 16 * k + e)

end State
end Sys2Proof.Machine
end

