-- ==== Sys2Proof/Machine/LapOps.lean ====
section
/-! DEFINITION. Where a lap stands, how cores and routers meet their neighbours, raising faults, and the passing of one
cc (R36 to R42, R84, R87, R203 to R209, R222 to R239, R255). -/
namespace Sys2Proof.Machine

/-! Geometry (R27, R28, R30, R37, R207, R238). -/

/-- Logical coordinates of a core number. -/
def coreX (n : Nat) : Nat := n % 128
def coreY (n : Nat) : Nat := n / 128

/-- The stack at the north (south: false) edge of column x (R28). -/
def edgeStack (x : Nat) (north : Bool) : Nat := 8 * (x / 64) + (x % 64) / 16 + (if north then 0 else 4)

/-- Columns 16·c on that a stack serves (R28). -/
def stackColumn (st : Nat) : Nat := 64 * (st / 8) + 16 * (st % 4)

/-- Whether a stripe reaches a stack (R244). -/
def stripeReaches (first width st : Nat) : Bool := first ≤ stackColumn st && stackColumn st < first + width

/-- Whether the vertical link between rows y and y + 1 of N crosses a region boundary (R30). -/
def crossesRegion (rows y : Nat) : Bool := 0 < rows / 4 && (y + 1) % (rows / 4) == 0

/-- The neighbour of core n in direction d (0 N, 1 E, 2 S, 3 W) on a grid of rows rows, and the link's latency (R207);
none at an edge of the grid. -/
def neighbour (rows n d : Nat) : Option (Nat × Nat) :=
  let x := coreX n
  let y := coreY n
  match d with
  | 0 => if y == 0 then none else some (n - 128, if crossesRegion rows (y - 1) then 4 else 2)
  | 1 => if x == 127 then none else some (n + 1, if x == 63 then 8 else 2)
  | 2 => if rows ≤ y + 1 then none else some (n + 128, if crossesRegion rows y then 4 else 2)
  | _ => if x == 0 then none else some (n - 1, if x == 64 then 8 else 2)

/-- The direction a link arrives from. -/
def opposite (d : Nat) : Nat := (d + 2) % 4

/-- Die, row and column of a physical site (R238). -/
def siteDie (n : Nat) : Nat := n / 5280
def siteRow (n : Nat) : Nat := n % 5280 / 66
def siteCol (n : Nat) : Nat := n % 66

/-- The site of die d, row q, column p. -/
def siteAt (d q p : Nat) : Nat := 5280 * d + 66 * q + p

/-- The power domain of a site (R27, R457). -/
def siteDomain (n : Nat) : Nat := 2 + 4 * siteDie n + siteRow n / 20

/-- Number of sites of the device (R238). -/
def siteCount : Nat := 10560

/-- Failed sites of row q of die d in a list of site numbers. -/
def rowFailures (l : List Nat) (d q : Nat) : Nat := (l.filter (fun n => siteDie n == d && siteRow n == q)).length

/-- Usable rows of region g of die d, in ascending order, when the sites of the list have failed (R29). -/
def goodRows (failed : List Nat) (d g : Nat) : List Nat :=
  ((List.range 20).map (fun i => 20 * g + i)).filter (fun q => rowFailures failed d q ≤ 2)

/-- The grade that a site map gives: four times the least number of usable rows, at most 20, of the eight regions (R31). -/
def Flash.gradeRows (f : Flash) : Nat :=
  4 * ([0, 1].flatMap (fun d => [0, 1, 2, 3].map (fun g => (goodRows f.siteFailed d g).length))).foldl min 20

/-- SITE_MAP of the configuration record (R553): bit s for site s, bit 0 of a byte first. -/
def Flash.siteMap (f : Flash) : List Byte := leBytes 1320 (f.siteFailed.foldl (fun m n => m ||| 1 <<< n) 0)

/-- Bytes 0 to 1,407 of the configuration record (R553). -/
def Flash.recordBytes (f : Flash) : List Byte :=
  [0x46, 0x4C, 0x49, 0x4F, 0x53, 0x43, 0x46, 0x47] ++ leBytes 2 1 ++ leBytes 1 f.gradeRows ++ [0]
  ++ leBytes 8 Config.serial.toNat ++ leBytes 4 1456 ++ f.siteMap
  ++ (List.range 16).flatMap (fun k => leBytes 4 (Table.get 0 k f.pcFailed).toNat)

/-- DIGEST of the configuration record (R553), which is SPDM measurement 3 and CONFIG_DIGEST. -/
def Flash.recordDigest (f : Flash) : List Byte := sha384 f.recordBytes

namespace State

/-- What the site map alone gives a site (R559). -/
def siteDefault (s : State) (n : Nat) : Site :=
  let failed := s.flash.siteFailed.contains n
  { state := if failed then 4 else if 3 ≤ rowFailures s.flash.siteFailed (siteDie n) (siteRow n) then 3 else 2
    fence := false, bypass := failed, lx := 0xFF, ly := 0xFF, nsteer := 0, ssteer := 0, staged := none }

/-- Site n. -/
def site (s : State) (n : Nat) : Site := Table.get (s.siteDefault n) n s.grid.sites

/-- Replace site n. -/
def setSite (s : State) (n : Nat) (x : Site) : State :=
  { s with grid := { s.grid with sites := Table.put n x s.grid.sites } }

/-! The mapping (R33, R35). -/

/-- Sites that count as failed: those of the site map and those failed in service (R39). -/
def failedSites (s : State) : List Nat := s.flash.siteFailed ++ s.grid.failedService

/-- Good sites of a row in ascending p (R35). -/
def goodColumns (s : State) (d q : Nat) : List Nat :=
  (List.range 66).filter (fun p => !(s.failedSites.contains (siteAt d q p)))

/-- Physical row of logical row y on die d, as mapped. -/
def mappedRow (s : State) (d y : Nat) : Nat := Table.get 0xFF (80 * d + y) s.grid.rowMap

/-- Physical column of logical core (x, y), as mapped. -/
def columnOf (s : State) (x y : Nat) : Nat :=
  let d := x / 64
  (s.goodColumns d (s.mappedRow d y)).getD (x % 64) 0

/-- The physical site of a logical core under the mapping as it stands. -/
def siteFor (s : State) (n : Nat) : Nat :=
  siteAt (coreX n / 64) (s.mappedRow (coreX n / 64) (coreY n)) (s.columnOf (coreX n) (coreY n))

/-- The fence latch of core n's site (R230). -/
def fenced (s : State) (n : Nat) : Bool := (s.site (s.core n).site).fence

/-! Laps. -/

/-- Length of a lap of slot k (R275). -/
def lapLen (s : State) (k : Nat) : Nat := 256 * (s.slot k).info.lapFrames

/-- Lap cycle 0 of the lap slot k runs, as a now count. -/
def lapStart (s : State) (k : Nat) : Option Nat :=
  match (s.slot k).stage with
  | .running a => some a
  | .aborted a _ => some a
  | _ => none

/-- The lap cycle of slot k, while its lap runs. -/
def lapCycle (s : State) (k : Nat) : Option Nat :=
  match (s.slot k).stage with
  | .running a => if s.now < a + s.lapLen k then some (s.now - a) else none
  | _ => none

/-- What core n knows of the lap. -/
def ctxOf (s : State) (n : Nat) : LapCtx :=
  let k := (s.core n).slot
  { c := (s.lapCycle k).getD 0, len := s.lapLen k, lap := (s.slot k).lapNext, debug := s.dict.debugEnable
    fenced := s.fenced n, live := (s.lapCycle k).isSome && Table.has n s.grid.cores && s.clockOn (coreX n / 64) }

/-- Flits core n's router sees as INJ0 and INJ1: zero behind a set fence (R205, R230). -/
def injected (s : State) (n i : Nat) : Flit :=
  if s.fenced n then 0
  else match s.lapCycle (s.core n).slot with
    | some c => (s.core n).injFlit c i
    | none => 0

/-- The flit router n drives on X0 or X1 in this cycle. -/
def ejected (s : State) (n i : Nat) : Flit :=
  (s.router n).eject (s.injected n 0) (s.injected n 1) i

/-- Whether this cycle is a reserved one, by the routers' RINK count (R203, R222). -/
def reservedNow (s : State) : Bool := s.rinkRun && s.grid.routerRink % 8 == 7

/-- Router n runs: a lap of its course does, and so does its die's clock. -/
def routerLive (s : State) (n : Nat) : Bool := (s.lapCycle (s.router n).slot).isSome && s.clockOn (coreX n / 64)

/-- The slot whose stripe holds column x (R235). -/
def stripeOf (s : State) (x : Nat) : Option Nat :=
  (List.range 8).find? (fun k =>
    let i := (s.slot k).info
    i.rows != 0 && i.stripeFirst ≤ x && x < i.stripeFirst + i.stripeWidth)

/-- Whether a link of router n in direction d crosses a stripe boundary, at either side of it (R236). -/
def leavesStripe (s : State) (n d : Nat) : Bool :=
  let x := coreX n
  (d == 1 && x != 127 && s.stripeOf x != s.stripeOf (x + 1)) || (d == 3 && x != 0 && s.stripeOf (x - 1) != s.stripeOf x)

/-- The flit router n drives on link output d, transfer t, in this cycle (R203, R208, R236). -/
def driven (s : State) (n d t : Nat) : Flit :=
  if s.leavesStripe n d || !s.routerLive n then 0
  else (s.router n).drive (s.injected n 0) (s.injected n 1) s.reservedNow d t

/-! Schuss words (R222). -/

/-- The bits of a word, added. -/
def bitSum (w : BitVec 16) : Nat := ((List.range 16).filter w.getLsbD).length

/-- A word has even parity. -/
def evenParity (w : BitVec 16) : Bool := bitSum w % 2 == 0

/-- The word that the Porter drives for a command: CMD, SLOT, ARG and the parity bit. -/
def schussWord (cmd slot arg : Nat) : BitVec 16 :=
  let w := BitVec.ofNat 16 (cmd % 16 * 2 ^ 12 + slot % 8 * 2 ^ 9 + arg % 256 * 2)
  if evenParity w then w else w + 1

/-- CMD codes. -/
def cmdLAUNCH : Nat := 1
def cmdABORT : Nat := 2
def cmdCOMMIT : Nat := 3
def cmdTICK : Nat := 4

/-! Faults (R84, R86 to R88, R223, R226, R588). -/

/-- An entry coded as FIRST_TRAP lays it out (R84). -/
def trapWord (k : Nat) (r : FaultRec) : BitVec 64 :=
  BitVec.ofNat 64 (r.core % 65536 * 2 ^ 48 + r.code % 256 * 2 ^ 40 + k % 16 * 2 ^ 36 + r.cc % 2 ^ 18 * 2 ^ 18
    + r.pc % 2048 * 2 ^ 7)

/-- Whether an entry precedes another: a lap fault before the program faults that it discards (R88), then lower TRAP_CC,
then lower CORE (R84). -/
def FaultLe (a b : FaultRec) : Bool :=
  if isLapFault a.code != isLapFault b.code then isLapFault a.code
  else a.cc < b.cc || (a.cc == b.cc && a.core ≤ b.core)

/-- The entry that FIRST_TRAP holds. -/
def trapOf (w : BitVec 64) : FaultRec :=
  ⟨bitsOf w.toNat 63 48, bitsOf w.toNat 47 40, bitsOf w.toNat 35 18, bitsOf w.toNat 17 7⟩

/-- Enter a fault of an attempt into FIRST_TRAP (R84, R88). DESIGN CHOICE (assumption 13): of two entries with equal TRAP_CC
and CORE, a core's and its router's, the one entered later stands; the manual orders them no further. -/
def enterFirst (s : State) (k attempt : Nat) (r : FaultRec) : State :=
  s.onSlot k (fun x =>
    if x.firstTrap == 0 || x.firstFrom < attempt then { x with firstTrap := trapWord k r, firstFrom := attempt }
    else if x.firstFrom == attempt && FaultLe r (trapOf x.firstTrap) then { x with firstTrap := trapWord k r }
    else x)

/-- The attempt of slot k has begun and not come to its boundary (R287). -/
def attemptOpen (s : State) (k : Nat) : Bool := (s.lapStart k).isSome

/-- A core, router, slice or port can still raise a fault for the attempt of slot k: its last cycle has not passed (R287). -/
def lapGoing (s : State) (k : Nat) : Bool :=
  match s.lapStart k with | some a => s.now < a + s.lapLen k | none => false

/-- The Porter can still raise a cause itself for the attempt of slot k: its lap runs, or the fault state of its last cycle
reaches the Porter in this cycle or later (R287, R588). -/
def porterMay (s : State) (k : Nat) : Bool :=
  match (s.slot k).stage with | .running a => s.now ≤ a + s.lapLen k + 23 | _ => false

/-- The lap cycle in which a fault raised now falls: at most the lap's last cycle (R588). -/
def faultCycle (s : State) (k : Nat) : Nat :=
  match s.lapStart k with
  | some a => min (s.now - a) (s.lapLen k - 1)
  | none => 0

/-- A fault of the attempt of slot k is kept with those raised before, from when its interruption counts (R524). -/
def keepFault (s : State) (k : Nat) (r : FaultRec) : State :=
  s.onSlot k (fun x => { x with faults := x.faults ++ [r], faultSince := some (x.faultSince.getD s.now) })

/-- Raise a fault of the attempt of slot k: it is kept, and FAULT is driven from now on (R223). -/
def raise (s : State) (k : Nat) (r : FaultRec) : State :=
  if s.lapGoing k then
    (s.keepFault k r).onSlot k (fun x => { x with faultDrive := some (x.faultDrive.getD s.now) })
  else s

/-- Raise a fault that the Porter enters into FIRST_TRAP at once: of a slice, a Lecel port or a site's monitor. -/
def raiseNow (s : State) (k core code : Nat) : State :=
  if s.lapGoing k then
    let r : FaultRec := ⟨core, code, s.faultCycle k, 0⟩
    (s.raise k r).enterFirst k (s.slot k).attemptNo r
  else s

/-- Fault codes of the Porter (R588), of slices (R267), ports (R410) and the site monitor (R515). -/
def pTHERM : Nat := 0x60
def pSUPPLY : Nat := 0x61
def pFENCE : Nat := 0x62
def pPEER : Nat := 0x63

/-- An ABORT of slot k arrives at now = t, or earlier when one is already on its way. -/
def abortBy (s : State) (k t : Nat) : State :=
  s.onSlot k (fun x => { x with abortAt := some (min t (x.abortAt.getD t)) })

/-- A cause of R588 is entered. -/
def porterCause (s : State) (k code : Nat) : State :=
  if s.porterMay k then
    let r : FaultRec := ⟨0xC000, code, s.faultCycle k, 0⟩
    (s.keepFault k r).enterFirst k (s.slot k).attemptNo r
  else s

/-- A cause of R588 for which the Porter drives ABORT itself in this cycle. -/
def porterFault (s : State) (k code : Nat) : State :=
  if s.porterMay k then (s.porterCause k code).abortBy k (s.now + 24) else s

/-- The flit of a trap report: its header, with all it says (R225, R226). -/
def reportFlit (r : TrapReport) : BitVec 120 :=
  headerFlit destPorter r.src tyTRAP_REPORT 1 r.seq (trapPayload r.code r.slot r.cc r.pc)

/-- Open a trap report of a core or router (R226). -/
def openReport (s : State) (src : Nat) (router : Bool) (k code cc pc : Nat) : State :=
  let seq := Table.get 0 src s.grid.seqs
  let site := if Table.has src s.grid.cores then (s.core src).site else s.siteFor src
  let r : TrapReport := ⟨src, router, site, k, seq, code, cc, pc, s.now, false, (s.slot k).attemptNo⟩
  { s with grid := { s.grid with
    seqs := Table.put src ((seq + 1) % 256) s.grid.seqs
    reports := s.grid.reports ++ [r]
    transom := s.grid.transom.inject src (reportFlit r) [] } }

/-- A fault of router n in its lap (R229): FAULT is driven and a report sent; TRAP_PC is 0. -/
def routerFault (s : State) (n code : Nat) : State :=
  let k := (s.router n).slot
  if s.lapGoing k then
    (s.raise k ⟨n, code, s.faultCycle k, 0⟩).openReport n true k code (s.faultCycle k) 0
  else s

/-- Evidence for every attempt in progress (R323). -/
def evidenceAll (s : State) : State :=
  { s with slots := Table.mapVals (fun k x => if s.attemptOpen k then { x with evidence := true } else x) s.slots }

/-- Count a corrected transfer (R201). -/
def countCorrected (s : State) : State :=
  { s with grid := { s.grid with linkCorrected := satAdd 64 s.grid.linkCorrected 1 } }

/-! Cores and routers as a whole. -/

/-- An operation of core n in its lap. -/
def onCore (s : State) (n : Nat) (f : Core → LapCtx → Core) : State :=
  if Table.has n s.grid.cores then s.setCore n (f (s.core n) (s.ctxOf n)) else s

/-- An operation of the bundle that core n issues now: opcode and fields as the bundle's slot carries them (R51, R54). -/
def onSlotOp (s : State) (n : Nat) (sl : OpSlot) (carries : Nat → Bool) (upset : Bool) (f : Core → LapCtx → Core) : State :=
  s.onCore n (fun k x => k.given x sl (carries k.bundle) upset (fun k => f k x))

/-- CT operation op with argument arg (R61). -/
def onCt (s : State) (n op : Nat) (arg : BitVec 12) (upset : Bool) (f : Core → LapCtx → Core) : State :=
  s.onSlotOp n .ct (fun b => cutCt b == (op, arg)) upset f

/-- MX operation op with fields g (R67). -/
def onMx (s : State) (n op : Nat) (g : MxFields) (upset : Bool) (f : Core → LapCtx → Core) : State :=
  s.onSlotOp n .mx (fun b => cutMx b == (op, g)) upset f

/-- VX operation op with fields g (R69). -/
def onVx (s : State) (n op : Nat) (g : VxFields) (upset : Bool) (f : Core → LapCtx → Core) : State :=
  s.onSlotOp n .vx (fun b => cutVx b == (op, g)) upset f

/-- SX operation op with fields g (R71). -/
def onSx (s : State) (n op : Nat) (g : SxFields) (upset : Bool) (f : Core → LapCtx → Core) : State :=
  s.onSlotOp n .sx (fun b => cutSx b == (op, g)) upset f

/-- MV operation op in layout M (R72, R73). -/
def onMvM (s : State) (n op : Nat) (g : MvM) (upset : Bool) (f : Core → LapCtx → Core) : State :=
  s.onSlotOp n .mv (fun b => cutMv b == op && cutMvM b == g) upset f

/-- MV operation op in layout X. -/
def onMvX (s : State) (n op : Nat) (g : MvX) (upset : Bool) (f : Core → LapCtx → Core) : State :=
  s.onSlotOp n .mv (fun b => cutMv b == op && cutMvX b == g) upset f

/-- MV operation op in layout G. -/
def onMvG (s : State) (n op : Nat) (g : MvG) (upset : Bool) (f : Core → LapCtx → Core) : State :=
  s.onSlotOp n .mv (fun b => cutMv b == op && cutMvG b == g) upset f

/-- MV operation op in layout A. -/
def onMvA (s : State) (n op : Nat) (g : MvA) (upset : Bool) (f : Core → LapCtx → Core) : State :=
  s.onSlotOp n .mv (fun b => cutMv b == op && cutMvA b == g) upset f

/-- MV operation op in layout T. -/
def onMvT (s : State) (n op : Nat) (g : MvT) (upset : Bool) (f : Core → LapCtx → Core) : State :=
  s.onSlotOp n .mv (fun b => cutMv b == op && cutMvT b == g) upset f

/-- MV operation op in layout P. -/
def onMvP (s : State) (n op : Nat) (g : MvP) (upset : Bool) (f : Core → LapCtx → Core) : State :=
  s.onSlotOp n .mv (fun b => cutMv b == op && cutMvP b == g) upset f

/-- NX operation op on a register (R77). -/
def onNxReg (s : State) (n op : Nat) (g : NxReg) (upset : Bool) (f : Core → LapCtx → Core) : State :=
  s.onSlotOp n .nx (fun b => cutNx b == op && cutNxReg b == g) upset f

/-- NX operation op on SRAM (R77). -/
def onNxMem (s : State) (n op : Nat) (g : NxMem) (upset : Bool) (f : Core → LapCtx → Core) : State :=
  s.onSlotOp n .nx (fun b => cutNx b == op && cutNxMem b == g) upset f

/-- NX operation op on a memory slot (R77, R78). -/
def onNxSlot (s : State) (n op : Nat) (g : NxSlot) (upset : Bool) (f : Core → LapCtx → Core) : State :=
  s.onSlotOp n .nx (fun b => cutNx b == op && cutNxSlot b == g) upset f

/-- Core n after the end of this cycle, and its trap's consequences (R87, R223, R226). Behind a set fence an injection is
dropped and counted, and no trap leaves the core (R230). -/
def endCore (s : State) (n : Nat) : State :=
  let k := s.core n
  let x := s.ctxOf n
  if !x.live then s
  else
    let k' := k.endCycle x (if x.fenced then 0 else s.ejected n 0) (if x.fenced then 0 else s.ejected n 1)
    let s' := s.setCore n k'
    if x.fenced then
      if k.injFlit x.c 0 == 0 && k.injFlit x.c 1 == 0 then s'
      else { s' with grid := { s'.grid with fenceDrops := satAdd 64 s'.grid.fenceDrops 1 } }
    else if k'.phase == .trapped && k.phase != .trapped then
      (s'.raise k.slot ⟨n, k'.trapCode, k'.trapCc, k'.trapPc⟩).openReport n false k.slot k'.trapCode k'.trapCc k'.trapPc
    else s'

/-- Put a flit on the way to router n's input port. -/
def addArrival (s : State) (n : Nat) (a : Arrival) : State :=
  let r := s.router n
  s.setRouter n { r with arriving := r.arriving ++ [a] }

/-- Send what router n drives on one link transfer to where it goes (R207, R255). s0 is the state the selections are
made in. -/
def sendLink (s0 : State) (n d t : Nat) (s : State) : State :=
  let f := s0.driven n d t
  if f == 0 then s
  else match neighbour s.grid.activeRows n d with
    | some (m, lat) => if Table.has m s.grid.routers then s.addArrival m ⟨s.now + lat, 2 * opposite d + t, f⟩ else s
    | none =>
      if d == 0 || d == 2 then
        { s with mem := { s.mem with
          edgeIn := s.mem.edgeIn ++ [⟨edgeStack (coreX n) (d == 0), coreX n % 16, t, s.now + 6, f⟩] } }
      else s

/-- All eight link transfers of router n. -/
def sendLinks (s0 : State) (n : Nat) (s : State) : State :=
  [0, 1, 2, 3].foldl (fun s d => sendLink s0 n d 1 (sendLink s0 n d 0 s)) s

/-- Router r, number n, after the end of this cycle (R206, R212, R215). -/
def endRouter (s0 : State) (n : Nat) (r : Router) : Router :=
  if !s0.routerLive n then r
  else
    let inj (i : Nat) : Flit := if r.running then s0.injected n i else 0
    let q := r.endCycle (inj 0) (inj 1)
    { q with arriving := q.arriving.filter (fun a => s0.now < a.due) }

/-- The end of a cycle on the whole grid: links, then cores, then routers, each from the state of the cycle. A router
that does not run drives nothing, and a core of an IDLE record does nothing. -/
def endGrid (s : State) : State :=
  let s1 := (s.grid.routers.filter (fun x => x.2.running && s.routerLive x.1)).foldl (fun a x => sendLinks s x.1 a) s
  let s2 := (s.grid.cores.filter (fun x => !x.2.idleRec)).foldl (fun a x => a.endCore x.1) s1
  { s2 with grid := { s2.grid with routers := Table.mapVals (endRouter s) s2.grid.routers } }

/-- A node of the transom channel has its clock (R40). -/
def nodeLive (s : State) (n : Nat) : Bool := s.clockOn (if nodeCol n < 64 then 0 else 1)

/-- The transom channel after this cycle (R203, R227). -/
def transomNext (s : State) : Transom :=
  if s.reservedNow then s.grid.transom.reservedCycle (neighbour s.grid.activeRows) s.nodeLive s.now else s.grid.transom

/-- RINK and the routers' count of it advance while the W die's clock runs and RINK is not held (R40, R222, R563). -/
def rinkNext (s : State) : State :=
  if s.rinkRun && s.clockOn 0 then
    { s with rink := (s.rink + 1) % 2 ^ 64, grid := { s.grid with routerRink := (s.grid.routerRink + 1) % 2 ^ 16 } }
  else s

/-- The Porter sees what was driven on DEVICE 24 cc ago: a fault of a router of no course counts as evidence (R223, R323). -/
def seeDevice (s : State) : State :=
  if s.grid.deviceDrives.contains (s.now - 24) && 24 ≤ s.now then
    { s with grid := { s.grid with deviceDrives := s.grid.deviceDrives.filter (fun t => s.now < t + 24) } }.evidenceAll
  else s

/-- One cc passes (assumption 9): what falls due in this cycle and is no command of its own takes place, then now, and
RINK while it counts, advance. -/
def tick (s : State) : State :=
  let s' := s.endGrid
  let s' := { s' with grid := { s'.grid with transom := s'.transomNext } }.rinkNext
  let s' := { s' with
    now := s'.now + 1
    mem := { s'.mem with edgeIn := s'.mem.edgeIn.filter (fun e => s.now < e.due) }
    pins := { s'.pins with syncOutUntil := match s'.pins.syncOutUntil with
      | some u => if u ≤ s'.now + 1 then none else some u
      | none => none } }.seeDevice
  if s.irq.sources.any (fun x => x.2.offerFrom == s'.now) then irqUpdate s s' else s'

end State
end Sys2Proof.Machine
end

