-- ==== Sys2Proof/Machine/Sites.lean ====
section
/-! DEFINITION. Which sites carry which cores: usable rows, the mapping, the remedies for failed sites, and the status that
each site is to have (R29 to R39, R230 to R234, R239). -/
namespace Sys2Proof.Machine
namespace State

/-! Rows (R29, R32, R33). -/

/-- Usable rows of region g of die d, in ascending order (R29). -/
def usableRows (s : State) (d g : Nat) : List Nat := goodRows s.failedSites d g

/-- No link passes over more than two rows that are not used, the edges included (R32). -/
def rowsLinked : Nat → List Nat → Bool
  | prev, [] => 80 - prev ≤ 3
  | prev, q :: t => q - prev ≤ 3 && rowsLinked q t

/-- The rows of die d under R33 for N rows: none when a region lacks rows or R32 fails. -/
def dieRows (s : State) (n d : Nat) : Option (List Nat) :=
  let l := (List.range 4).map (fun g => (s.usableRows d g).take (n / 4))
  if l.all (fun r => r.length == n / 4) then
    let q := l.flatMap id
    if (q.headD 0) ≤ 2 && rowsLinked (q.headD 0) q then some q else none
  else none

/-- Every row a die uses, in order of logical row, satisfies R32. -/
def dieLinked (s : State) (d : Nat) : Bool :=
  let q := (List.range s.grid.activeRows).map (s.mappedRow d)
  q.headD 0 ≤ 2 && rowsLinked (q.headD 0) q

/-- The logical row that physical row q of die d carries. -/
def logicalRow (s : State) (d q : Nat) : Option Nat :=
  (List.range s.grid.activeRows).find? (fun y => s.mappedRow d y == q)

/-- The core that site n carries under the mapping as it stands (R35). -/
def coreAt (s : State) (n : Nat) : Option Nat :=
  let d := siteDie n
  match s.logicalRow d (siteRow n) with
  | none => none
  | some y =>
    let good := s.goodColumns d (siteRow n)
    let i := good.idxOf (siteCol n)
    if good.contains (siteCol n) && i < 64 then some (128 * y + 64 * d + i) else none

/-- The slot that owns site n: the course whose core it carries. -/
def ownerOf (s : State) (n : Nat) : Option Nat :=
  match s.coreAt n with
  | some c => if Table.has c s.grid.routers then some (s.router c).slot else none
  | none => none

/-! What each site is to be (R230 to R233, R239). -/

/-- The steering offset from physical column p to column q, as far as R233 allows. -/
def steer (p q : Nat) : Int := max (-2) (min 2 ((q : Int) - p))

/-- Steering of the site that carries (x, y) towards its mapped neighbours (R233). -/
def steering (s : State) (x y : Nat) : Int × Int :=
  let p := s.columnOf x y
  (if y == 0 then 0 else steer p (s.columnOf x (y - 1)),
   if s.grid.activeRows ≤ y + 1 then 0 else steer p (s.columnOf x (y + 1)))

/-- STATE of a site that carries no core (R239): a row with three or more failed sites is skipped, whenever they failed
(R29, R39; DEDUCED, assumption 38). -/
def unusedState (s : State) (n : Nat) : Nat :=
  if s.flash.siteFailed.contains n then 4
  else if s.grid.failedService.contains n then 5
  else if (s.logicalRow (siteDie n) (siteRow n)).isSome then 1
  else if 3 ≤ rowFailures s.failedSites (siteDie n) (siteRow n) then 3
  else 2

/-- The status that site n is to have under the mapping as it stands. While there is a mapping, every site of a row that it
does not use is bypassed, as R232 needs (DEDUCED, assumption 38); without one only failed sites are (R559). A site that
failed in service stays fenced, and so does one that carries a route-only core (R231). -/
def siteUnder (s : State) (n : Nat) : Site :=
  match s.coreAt n with
  | some c =>
    let st := s.steering (coreX c) (coreY c)
    { state := 0, fence := Table.has c s.grid.cores && (s.core c).routeOnly, bypass := false
      lx := coreX c, ly := coreY c, nsteer := st.1, ssteer := st.2, staged := none }
  | none =>
    { state := s.unusedState n, fence := s.grid.failedService.contains n
      bypass := s.failedSites.contains n || (s.grid.activeRows != 0 && (s.logicalRow (siteDie n) (siteRow n)).isNone)
      lx := 0xFF, ly := 0xFF, nsteer := 0, ssteer := 0, staged := none }

/-- The status of site n as committed. -/
def siteNow (s : State) (n : Nat) : Site := { s.site n with staged := none }

/-- The sites whose committed status in s is not what they are to have in t. -/
def siteChanges (s t : State) : Table Site :=
  (List.range siteCount).filterMap (fun n =>
    let x := t.siteUnder n
    if x == s.siteNow n then none else some (n, x))

/-- The changes that bring the sites from their status in s to what they are to have in t. -/
def planFor (s t : State) (failed : Option Nat) (shifts remaps : Nat) : SitePlan :=
  let l := s.siteChanges t
  { failed := failed, sites := l
    owners := l.filterMap (fun x => match s.ownerOf x.1 with
      | some k => some (x.1, k)
      | none => (t.ownerOf x.1).map (fun k => (x.1, k)))
    rowMap := t.grid.rowMap, shifts := shifts, remaps := remaps }

/-! Failed sites (R38, R39, R514). -/

/-- Site n counts as failed in service. -/
def countFailed (s : State) (n : Nat) : State :=
  if s.failedSites.contains n then s
  else { s with grid := { s.grid with failedService := s.grid.failedService ++ [n] } }

/-- Count a failed site and report it (R514). -/
def reportSite (s : State) : State :=
  { s with grid := { s.grid with siteFailures := satAdd 32 s.grid.siteFailures 1 } }.fire 8

/-- Site n is decided as failed (R514). -/
def decideFailed (s : State) (n : Nat) : State :=
  if s.grid.failing.contains n || s.failedSites.contains n || siteCount ≤ n then s
  else { s with grid := { s.grid with failing := s.grid.failing ++ [n] } }

/-- Before a rebuild every site decided as failed counts as failed, and changes not yet committed are decided anew (R39). -/
def failAll (s : State) : State :=
  let l := s.grid.failing
  let s := { s with grid := { s.grid with failing := [], plan := none, stages := [], commit := none } }
  l.foldl (fun s n => (s.countFailed n).reportSite) s

/-- Build the mapping of R33 and R35 for N rows (R34, R39); none when it cannot be built. The sites' statuses follow with a
COMMIT. -/
def buildMapping (s : State) (n : Nat) : Option State :=
  let s := s.failAll
  match s.dieRows n 0, s.dieRows n 1 with
  | some w, some e =>
    some { s with grid := { s.grid with
      activeRows := n, unsettled := true
      rowMap := w.zipIdx.map (fun x => (x.2, x.1)) ++ e.zipIdx.map (fun x => (80 + x.2, x.1)) } }
  | _, _ => none

/-- What R38 finds for a failed site. -/
inductive Remedy where
  | shift (die row : Nat)
  /-- logical rows lo to hi of the die move one usable row south (true) or north -/
  | remap (die lo hi : Nat) (south : Bool)
  | none
  deriving DecidableEq, Repr

/-- Distance of two rows. -/
def rowGap (a b : Nat) : Nat := if a ≤ b then b - a else a - b

/-- The idle usable row of the region nearest to q, south on a tie (R38). -/
def nearestIdle (s : State) (d q : Nat) : Option Nat :=
  let idle := (s.usableRows d (q / 20)).filter (fun r => (s.logicalRow d r).isNone && r != q)
  idle.foldl (fun b r => match b with
    | .none => some r
    | some c => if rowGap r q < rowGap c q || (rowGap r q == rowGap c q && c < r) then some r else some c) .none

/-- The first possible remedy for failed site n (R38), the site itself already counted as failed. -/
def remedyFor (s : State) (n : Nat) : Remedy :=
  let d := siteDie n
  let q := siteRow n
  match s.logicalRow d q with
  | .none => .none
  | some y =>
    if 64 ≤ (s.goodColumns d q).length then .shift d y
    else match s.nearestIdle d q with
      | .none => .none
      | some r =>
        let moved := (List.range s.grid.activeRows).filter (fun z =>
          if q < r then q ≤ s.mappedRow d z && s.mappedRow d z < r else r < s.mappedRow d z && s.mappedRow d z ≤ q)
        .remap d (moved.headD y) (moved.getLastD y) (q < r)

/-- The row map after a remap: each moved row takes the next usable row in the direction of the idle row. -/
def remapRows (s : State) (d lo hi : Nat) (south : Bool) (failed : Nat) : State :=
  let us := (s.usableRows d (failed / 20)).filter (fun r => r != failed)
  let next (q : Nat) : Nat :=
    if south then (us.find? (fun r => q < r)).getD q else ((us.filter (fun r => r < q)).getLast?).getD q
  { s with grid := { s.grid with rowMap := Table.mapVals (fun key q =>
      if key / 80 == d && lo ≤ key % 80 && key % 80 ≤ hi then next q else q) s.grid.rowMap } }

/-- The changes that remedy failed site n (R38); none when no remedy is possible. A site that carries no core needs no other
site to change. -/
def remedyPlan (s : State) (n : Nat) : Option SitePlan :=
  let t := s.countFailed n
  if (s.coreAt n).isNone then some (s.planFor t (some n) 0 0)
  else match t.remedyFor n with
    | .none => none
    | .shift _ _ => some (s.planFor t (some n) 1 0)
    | .remap d lo hi south =>
      let t := t.remapRows d lo hi south (siteRow n)
      if t.dieLinked d then some (s.planFor t (some n) 0 1) else none

/-- Slots whose sites a plan changes. -/
def planSlots (p : SitePlan) : List Nat := (List.range 8).filter (fun k => p.owners.any (fun x => x.2 == k))

/-- Slot k is held at its boundary: a change of its sites waits or is in hand (R234). -/
def heldBySites (s : State) (k : Nat) : Bool :=
  (match s.grid.plan with | some p => (planSlots p).contains k | none => false)
  || (s.grid.unsettled && s.grid.cores.any (fun c => c.2.slot == k && s.siteUnder c.2.site != s.siteNow c.2.site))
  || s.grid.failing.any (fun n => match s.remedyPlan n with | some p => (planSlots p).contains k | none => false)

end State
end Sys2Proof.Machine
end

