-- ==== Sys2Proof/Machine/CourseOps.lean ====
section
/-! DEFINITION. What happens to a course at and between boundaries: responses, admission, pausing, halting, releasing
and the remedies for failed sites (R38, R284 to R292, R473 to R477, R510 to R516). -/
namespace Sys2Proof.Machine

/-! Statuses (R393, R450). -/
def stOK : Nat := 0
def stPAUSED : Nat := 1
def stBAD_OPCODE : Nat := 0x10
def stBAD_LENGTH : Nat := 0x11
def stBAD_HEADER : Nat := 0x12
def stNOT_OWNER : Nat := 0x13
def stNO_COURSE : Nat := 0x14
def stBAD_VALUE : Nat := 0x15
def stBAD_ADDRESS : Nat := 0x16
def stREGION_CLASS : Nat := 0x17
def stCOURSE_RUNNING : Nat := 0x18
def stREMOTE_TIMEOUT : Nat := 0x19
def stLOAD_SEQUENCE : Nat := 0x1A
def stTAKEOVER_DENIED : Nat := 0x1B
def stTAKEOVER_BUSY : Nat := 0x1C
def stNOT_BOUND : Nat := 0x1D
def stMEMORY_LOST : Nat := 0x10D
def stDRAW_RANGE : Nat := 0x117
def stNOT_PAUSED : Nat := 0x200
def stPROGRAM_FAULT : Nat := 0x201
def stDIVERGED : Nat := 0x202
def stSTAND_DOWN : Nat := 0x203
def stDEVICE_LOST : Nat := 0x204
def stLAP_EXHAUSTED : Nat := 0x205
def stSEAL_ACTIVE : Nat := 0x206
def stNO_SEAL_AREA : Nat := 0x207
def stPORT_LOST : Nat := 0x208
def stNOT_FRESH : Nat := 0x209
def stSEAL_MISMATCH : Nat := 0x20A
def stSEAL_FORMAT : Nat := 0x20B
def stSEAL_INCOMPLETE : Nat := 0x20C
def stSEAL_DIGEST : Nat := 0x20D
def stPROBE_BUSY : Nat := 0x20E
def stPROBE_STATE : Nat := 0x20F
def stUNSEAL_FAILED : Nat := 0x210
def stSTRICT_REFUSED : Nat := 0x300
def stMOGUL_FORMAT : Nat := 0x301
def stPROBLEM_FORMAT : Nat := 0x302
def stMOGUL_ACTIVE : Nat := 0x303
def stNO_PREVIOUS : Nat := 0x304
def stMOGUL_STOPPED : Nat := 0x305
def stMOGUL_THERMAL : Nat := 0x306
def stNO_RESULT : Nat := 0x307
def stNO_ENTROPY : Nat := 0x308
def stNOISE_FATAL : Nat := 0x309
def stSTRICT_LOCKED : Nat := 0x30A

/-- Status of a halted run (R290, R425). -/
def HaltReason.status : HaltReason → Nat
  | .none => stOK
  | .programFault => stPROGRAM_FAULT
  | .memoryLost => stMEMORY_LOST
  | .diverged => stDIVERGED
  | .standDown => stSTAND_DOWN
  | .unsealFailed => stUNSEAL_FAILED
  | .deviceLost => stDEVICE_LOST

/-- A slot that is idle under R441. -/
def SlotState.idle : SlotState → Bool
  | .empty => true
  | .paused => true
  | .halted => true
  | _ => false

namespace State

/-! Responses (R384, R391). -/

/-- Queue a response on port p; a response whose port has been reset meanwhile is discarded (R397). -/
def respond (s : State) (p : Nat) (r : Response) : State :=
  if 2 ≤ p then s else s.onPort p (fun q => { q with responses := q.responses ++ [r] })

/-- The response of an asynchronous command or of a command that waits (R384). -/
def answerTicket (s : State) (t : Ticket) (opcode slot status value0 value1 : Nat) (payload : List Byte) (async : Bool) : State :=
  let s := s.respond t.port ⟨opcode, slot, t.tag, status, value0, value1, payload, t.quiet, !async, .none⟩
  if async && t.port < 2 then s.onPort t.port (fun q => { q with async := q.async.erase t }) else s

/-! Which resources a course uses. -/

/-- The power domains a slot uses (R460): CORE domains of each die its stripe touches, HBM domains of its stacks, the
rings, and the LECEL domains of the ports of its LECEL section. -/
def slotDomains (s : State) (k : Nat) : List Nat :=
  let i := (s.slot k).info
  let w := decide (i.stripeFirst < 64)
  let e := decide (64 < i.stripeFirst + i.stripeWidth)
  (if w then [2, 3, 4, 5] else []) ++ (if e then [6, 7, 8, 9] else []) ++ [10, 11]
  ++ ((List.range 16).filter (stripeReaches i.stripeFirst i.stripeWidth)).map (fun st => 12 + st)
  ++ (((List.range 4).filter (fun p => (s.lport p).usedBy == k)).map (fun p => 30 + p))

/-- Every domain the slot uses is ON with its pads released (R473 condition 2). -/
def domainsReady (s : State) (k : Nat) : Bool :=
  (s.slotDomains k).all (fun d => s.isOn d && !(s.domain d).padsHeld)

/-- The course's layout holds more than one device that is not lost, so that launches are agreed (R283, R432, R434). -/
def multi (s : State) (k : Nat) : Bool :=
  let i := (s.slot k).info
  decide (1 + (s.slot k).lostAddrs.length < i.devRows * i.devCols * (if i.pairs then 2 else 1))

/-- The next launch of slot k is agreed among devices: a probe needs it only with more than one logical device (R330). -/
def agreesLaunch (s : State) (k : Nat) : Bool :=
  if (s.slot k).attempt == .probe then decide (1 < (s.slot k).info.devRows * (s.slot k).info.devCols) else s.multi k

/-- Slots that are not EMPTY. -/
def residents (s : State) : List Nat := (List.range 8).filter (fun k => (s.slot k).st != .empty)

/-- Slots that hold a course, or an image whose header, streams and memory map have been accepted: a slot whose load has
brought no more than bytes occupies no rows (R34, R39; DEDUCED, assumption 38). -/
def courses (s : State) : List Nat := s.residents.filter (fun k => (s.slot k).info.rows != 0)

/-- Every slot is idle under R441. -/
def allIdle (s : State) : Bool := (List.range 8).all (fun k => (s.slot k).st.idle)

/-! The Louvre (R471 to R477). -/

/-- An admitted lap whose last cycle has not passed (R473 condition 4). -/
def lapAhead (s : State) (k : Nat) : Bool :=
  match (s.slot k).stage with
  | .committed _ => true
  | .driven _ => true
  | .running a => s.now < a + s.lapLen k
  | _ => (s.slot k).admitted

/-- H of R473: the bounds of every other admitted lap. -/
def heatAhead (s : State) (k : Nat) : Nat :=
  ((List.range 8).map (fun j => if j != k && s.lapAhead j then (s.slot j).info.energyBound else 0)).sum

/-- TJ_EFF, in 1/16 °C (R477). -/
def tjEff (s : State) : Int :=
  if s.louvre.hold then max s.thermal.tjNow (16 * ((s.thermal.tjLimit : Int) - 10)) else s.thermal.tjNow

/-- FORECAST of a lap of slot k, in units of 1/16 · 10^-9 °C. -/
def forecastOf (s : State) (k : Nat) : Int :=
  s.tjEff * 10 ^ 9 + 16 * (s.louvre.heatRise : Int) * ((s.slot k).info.energyBound + s.heatAhead k : Nat)

/-- Conditions 1, 2 and 4 of R473. -/
def coolEnough (s : State) (k : Nat) : Bool :=
  s.thermal.state == 0 && s.domainsReady k && decide (s.forecastOf k < 16 * (s.thermal.tjLimit : Int) * 10 ^ 9)

/-- R473 for a lap of slot k; a replay is excused condition 3 (R512). -/
def admissible (s : State) (k : Nat) : Bool :=
  s.coolEnough k && ((s.slot k).attempt == .replay
    || decide (((s.slot k).info.energyBound * 2 ^ 16 : Nat) ≤ s.louvre.account))

/-- Commit launch count L of slot k (R288); the last completion is provisional no longer (R509), unless the launch is a
probe's, which changes nothing of the course (R330). -/
def commitCount (s : State) (k l : Nat) : State :=
  s.onSlot k (fun x => { x with stage := .committed l, provisional := if x.attempt == .probe then x.provisional else none })

/-- The smallest launch count at least 48 cc after now (R473). -/
def nextCount (s : State) : Nat := roundUpTo 256 (s.rink + 48)

/-- One decision about slot k (R473): FORECAST is reported, and the lap is admitted or its refusal counted. On a single
device an admitted lap gets its count at once. No lap launches while RINK is held (R563). -/
def decideLap (s : State) (k : Nat) : State × Bool :=
  let s := { s with louvre := { s.louvre with forecast := s.forecastOf k / 10 ^ 9 } }
  if s.admissible k && s.rinkRun then
    let s := { s with louvre := { s.louvre with
      account := s.louvre.account - ((s.slot k).info.energyBound * 2 ^ 16 : Nat)
      admitted := satAdd 64 s.louvre.admitted 1 } }
    let s := s.observe 4 (((s.now - 1 - (s.slot k).waitSince) / 256 : Nat) : Int)
    let s := s.onSlot k (fun x => { x with admitted := true, starved := false, waitSince := 0 })
    (if s.agreesLaunch k then s else s.commitCount k s.nextCount, true)
  else ({ s with louvre := { s.louvre with deferred := satAdd 64 s.louvre.deferred 1 } }, false)

/-- Whether slot a is taken before slot b in a decision: replays first, then descending PRIORITY, then number (R475,
R512). -/
def takenBefore (s : State) (a b : Nat) : Bool :=
  let ra := (s.slot a).attempt == .replay
  let rb := (s.slot b).attempt == .replay
  if ra != rb then ra
  else if (s.slot a).info.priority != (s.slot b).info.priority then (s.slot b).info.priority < (s.slot a).info.priority
  else a < b

/-- Insert into the order of a decision. -/
def insertWaiting (s : State) (a : Nat) : List Nat → List Nat
  | [] => [a]
  | b :: t => if s.takenBefore a b then a :: b :: t else b :: insertWaiting s a t

/-- Slots whose lap waits for the Louvre and is not held for a change of sites (R234), in the order of R475. -/
def waitingSlots (s : State) : List Nat :=
  ((List.range 8).filter (fun k => (s.slot k).stage == .waiting && !(s.slot k).admitted && !s.heldBySites k)).foldl
    (fun l k => insertWaiting s k l) []

/-- Take the waiting slots in order; floor is the priority below which a starving slot blocks (R475). -/
def decideAll : List Nat → Nat → State → State
  | [], _, s => s
  | k :: t, floor, s =>
    if (s.slot k).info.priority < floor then
      decideAll t floor { s with louvre := { s.louvre with deferred := satAdd 64 s.louvre.deferred 1 } }
    else
      let r := s.decideLap k
      decideAll t (if !r.2 && (s.slot k).starved then max floor (s.slot k).info.priority else floor) r.1

/-- A decision over every waiting slot, while PORTER is ON. -/
def decide' (s : State) : State := if s.porterOn then decideAll s.waitingSlots 0 s else s

/-- Ask the Louvre to admit slot k's next lap (R292 step 5); it decides in the next cycle (DEDUCED, assumption 37: so the
worked example of R293's chapter counts, and a halt that arrives in the boundary's own cycle stops the course there). -/
def askAdmission (s : State) (k : Nat) : State :=
  s.onSlot k (fun x => { x with stage := .waiting, waitSince := s.now, starved := false })

/-- The decision that falls in this cycle: the Porter asked in the one before (R473). -/
def decideAsked (s : State) : State :=
  if (List.range 8).any (fun k => (s.slot k).stage == .waiting && (s.slot k).waitSince + 1 == s.now) then s.decide' else s

/-- Give back an admission that launches nothing (R474). -/
def refund (s : State) (k : Nat) : State :=
  if (s.slot k).admitted then
    let a := s.louvre.account + ((s.slot k).info.energyBound * 2 ^ 16 : Nat)
    { s with louvre := { s.louvre with account := min ((s.louvre.cap * 2 ^ 16 : Nat) : Int) a } }.onSlot k
      (fun x => { x with admitted := false })
  else s

/-! Pausing, halting, releasing (R284, R285, R290, R291). -/

/-- Post the LAUNCH response of slot k's run, if one waits (R290). -/
def endRunResponse (s : State) (k status : Nat) : State :=
  match (s.slot k).launchTicket with
  | none => s
  | some t =>
    (s.answerTicket t 0x30 k status (s.slot k).lapNext 0 [] true).onSlot k (fun x => { x with launchTicket := none })

/-- Entries of the stream table freed (R152). -/
def freeStreams (s : State) (base count : Nat) : State :=
  { s with det := { s.det with streams := s.det.streams.filter (fun e => e.1 < base || base + count ≤ e.1) } }

/-- The runs of lines of a course's IMMUTABLE blocks, both copies. -/
def immutableRuns (l : List Extent) : List (Nat × Nat) :=
  (l.filter (fun e => e.cls == 1)).flatMap (fun e => (e.first, e.count) :: (if e.policy == 1 then [(e.mla, e.count)] else []))

/-- The scrub is to clear the IMMUTABLE blocks of a course with its writes (R291). -/
def clearImmutable (s : State) (l : List Extent) : State :=
  { s with mem := { s.mem with clearing := s.mem.clearing ++ immutableRuns l } }

/-- Slot k becomes EMPTY (R291, R301): what it held is freed, its cores' tiles are cleared with them (R85), and with the last
course ACTIVE_ROWS becomes 0 (R44). The fences of its route-only cores go with a COMMIT (R231). -/
def emptySlot (s : State) (k : Nat) : State :=
  let x := s.slot k
  let s := match x.takeover with
    | some (t, _) =>
      if t.tag < 2 ^ 64 then s.respond t.port ⟨0x02, 0xFF, t.tag, stNO_COURSE, 0, 0, [], t.quiet, true, .none⟩
      else { s with dict := { s.dict with answer := some ⟨stNO_COURSE, []⟩ } }
    | none => s
  let s := ((s.refund k).freeStreams x.info.streamBase x.info.streamCount).clearImmutable x.info.extents
  let s := { s with
    grid := { s.grid with
      cores := s.grid.cores.filter (fun c => c.2.slot != k)
      routers := s.grid.routers.filter (fun r => r.2.slot != k)
      reports := s.grid.reports.filter (fun r => r.slot != k)
      unsettled := s.grid.unsettled || x.info.rows != 0 }
    slots := Table.erase k s.slots
    link := { s.link with ports := Table.mapVals (fun _ p => if p.usedBy == k then { p with usedBy := 0xFF } else p) s.link.ports } }
  if s.courses.isEmpty then { s with grid := { s.grid with activeRows := 0, rowMap := [] } } else s

/-- Answer every HALT_AT_BOUNDARY of slot k that waits. -/
def answerHalts (s : State) (k status : Nat) : State :=
  ((s.slot k).halt.foldl (fun s h => s.answerTicket h.1 0x31 k status (s.slot k).lapNext 0 [] false) s).onSlot k
    (fun x => { x with halt := [] })

/-- Release slot k when one of the halts asked for it. -/
def releaseFor (s : State) (k : Nat) (l : List (Ticket × Bool)) : State := if l.any (fun h => h.2) then s.emptySlot k else s

/-- The slot enters PAUSED at a boundary (R290, R291): the halts' responses first, then the run's. counted: the run's
count has reached 0, which gives the run OK. -/
def pauseSlot (s : State) (k : Nat) (counted : Bool) : State :=
  let l := (s.slot k).halt
  let s := ((s.refund k).onSlot k (fun x => { x with st := .paused, stage := .idle, attempt := .first, lapsLeft := 0, waitSince := 0 })).fireSlot k 1
  ((s.answerHalts k stPAUSED).endRunResponse k (if counted then stOK else stPAUSED)).releaseFor k l

/-- The slot enters HALTED (R285): a running lap is aborted, an aborted one comes to its boundary, an admission not launched
is refunded, a seal ends without a trailer, and what waits is answered. -/
def haltSlot (s : State) (k : Nat) (why : HaltReason) : State :=
  let x := s.slot k
  if x.st == .empty then s
  else
    let s := match x.stage with
      | .running _ => s.abortBy k (s.now + 24)
      | .aborted _ _ => s
      | .idle | .waiting | .committed _ | .driven _ => (s.refund k).onSlot k (fun x => { x with stage := .idle })
    let s := match x.sealJob with
      | some j => s.answerTicket j.ticket 0x32 k why.status j.seq j.bytes [] true
      | none => s
    let s := if x.sealJob.isSome || x.st == .unsealing then s.fireSlot k 4 else s
    let s := s.onSlot k (fun x => { x with
      st := .halted, reason := why, sealJob := none, unsealJob := none, loadJob := none
      provisional := none, reloads := [], reloadFrom := none, pledged := false, waitSince := 0 })
    let s := s.fireSlot k 0
    ((s.endRunResponse k why.status).answerHalts k stOK).releaseFor k x.halt

/-- The device treats itself as lost (R516): the cause is kept, and every non-EMPTY slot halts with DEVICE_LOST. -/
def loseDevice (s : State) (cause : Nat) : State :=
  if s.grid.deviceLost != 0 then s
  else
    let s := { s with grid := { s.grid with deviceLost := cause } }
    (List.range 8).foldl (fun s k => s.haltSlot k .deviceLost) s

/-- A course that would halt with MEMORY_LOST: in pairs mode the device treats itself as lost instead (R523). -/
def loseMemory (s : State) (k : Nat) : State :=
  if (s.slot k).info.pairs then s.loseDevice 7 else s.haltSlot k .memoryLost

/-- Open a VERIFY window (R325). -/
def openWindow (s : State) (k : Nat) (why : VerifyCause) : State :=
  s.onSlot k (fun x => { x with verifyLeft := max x.verifyLeft s.det.verifyLaps, verifyCause := why })

end State
end Sys2Proof.Machine
end

