-- ==== Sys2Proof/Machine/MemOps.lean ====
section
/-! DEFINITION. Lines, blocks and their META, extents, repairs, the loss of slices and stacks, edge tables and golden
records (R240 to R273, R278, R510, R511). -/
namespace Sys2Proof.Machine

/-! Line addresses (R242, R243). -/

def laSlice (la : Nat) : Nat := la / 2 ^ 24
def laSet (la : Nat) : Nat := la / 2 ^ 19 % 32
def laBlock (la : Nat) : Nat := la % 2 ^ 19

/-- The line address of a block. -/
def lineOf (slice set block : Nat) : Nat := slice * 2 ^ 24 + set % 32 * 2 ^ 19 + block % 2 ^ 19

/-- A line address is valid (R242). -/
def laValid (la : Nat) : Bool := laSlice la ≤ 479 && laBlock la ≤ 349524

/-- Blocks open to courses in a bank set; the 128 above them are RESERVED (R243). -/
def openBlocks : Nat := 349397

/-- RESERVED blocks (R243). -/
def laReserved (la : Nat) : Bool := openBlocks ≤ laBlock la

/-- The stack of a slice. -/
def sliceStack (j : Nat) : Nat := j / 30

/-- The stack of a slice controller's number (assumption 15). -/
def ctlStack (j : Nat) : Nat := if 512 ≤ j then (j - 512) / 32 else sliceStack j

/-- The partner stack's copy of a RESERVED line (R244): the same place in stack s xor 4. -/
def partnerLine (la : Nat) : Nat :=
  lineOf (30 * (sliceStack (laSlice la) ^^^ 4) + laSlice la % 30) (laSet la) (laBlock la)

namespace State

/-- The controllers of stack st run: SVC_CLK of their die, the ring domain and the stack's domain are on (R40, R457, R458). -/
def stackLive (s : State) (st : Nat) : Bool :=
  s.clockOn (if st < 8 then 0 else 1) && s.isOn (if st < 8 then 10 else 11) && s.isOn (12 + st)

/-! Places (R240, R241). -/

/-- Number of a logical slice, or of a standby pseudo-channel c: 512 + c. -/
def physOf (s : State) (j : Nat) : Nat := if 512 ≤ j then j - 512 else (s.sliceEnt j).phys

/-- The place of line la: in the pseudo-channel that serves its slice. -/
def placeOf (s : State) (la : Nat) : Nat := lineOf (s.physOf (laSlice la)) (laSet la) (laBlock la)

/-! META (R246). -/

/-- META of a write of line la. -/
def metaOf (s : State) (la wsrc : Nat) (poison : Bool) : BitVec 32 :=
  BitVec.ofNat 32 ((s.physOf (laSlice la) % 512 * 2 ^ 15 + laSet la * 2 ^ 10 + laBlock la % 2 ^ 10) * 2 ^ 8
    + (if poison then 128 else 0) + wsrc * 2 ^ 4)

/-- META of line la; a line never written since start-up has the META of the zero fill (R556). -/
def metaAt (s : State) (la : Nat) : BitVec 32 := Table.get (s.metaOf la 0 false) (s.placeOf la) s.mem.meta_

/-- A line is POISON. -/
def poisoned (s : State) (la : Nat) : Bool := (s.metaAt la).getLsbD 7

/-- n bytes from offset off of the lines from la on, which lie in one bank set. -/
def runBytes (s : State) (la off n : Nat) : List Byte := s.mem.hbm.readBytes (64 * s.placeOf la + off) n

/-- The 64 bytes of line la. -/
def lineBytes (s : State) (la : Nat) : List Byte := s.runBytes la 0 64

/-- Line la as 512 bits. -/
def lineAt (s : State) (la : Nat) : Lanes := lanesOfBytes (s.lineBytes la)

/-- Block number of line la within its slice, in scrub order (R260). -/
def scrubIndex (la : Nat) : Nat := 349525 * laSet la + laBlock la

/-! Reading a block (R245, R247). -/

/-- The 72 symbols of the block of line la as stored: data, META and the check bytes of the code (R245). -/
def blockSymbols (s : State) (la : Nat) : List Nat :=
  let l := symbolsOf 64 (s.lineAt la).toNat ++ symbolsOf 4 (s.metaAt la).toNat
  l ++ rsCheck l

/-- Data and META that the decoder gives for the block of line la, when its word differs from the stored one by the residual
pattern l; none when the ATAG is not that of the place read (R247). -/
def decodedBlock (s : State) (la : Nat) (l : List Nat) : Option (Lanes × BitVec 32) :=
  let r := ofSymbols l
  let m := s.metaAt la ^^^ BitVec.ofNat 32 (r / 2 ^ 512)
  if m.extractLsb' 8 24 == (s.metaOf la 0 false).extractLsb' 8 24 then some (s.lineAt la ^^^ BitVec.ofNat 512 r, m) else none

/-- What the errors named say of line la. -/
def errAt (errs : List BlockErr) (la : Nat) : BlockErr := (errs.find? (fun e => e.la == la)).getD ⟨la, 0, false⟩

/-- Read the block of line la (R247, R272): its data and META, or none when it is uncorrectable, and whether it was corrected;
with the counters of the read. -/
def readBlock (s : State) (errs : List BlockErr) (la : Nat) : Option (Lanes × BitVec 32) × Bool × State :=
  let e := errAt errs la
  let s := if e.ecc then { s with mem := { s.mem with eccReports := satAdd 64 s.mem.eccReports 1 } } else s
  let lost : Option (Lanes × BitVec 32) × Bool × State :=
    (none, false, { s with mem := { s.mem with uncorrectable := satAdd 64 s.mem.uncorrectable 1 } })
  match rsDecode (symbolsOf 72 e.err.toNat) with
  | .failed => lost
  | .clean l => match s.decodedBlock la l with
    | some d => (some d, false, s)
    | none => lost
  | .corrected l => match s.decodedBlock la l with
    | some d => (some d, true, { s with mem := { s.mem with corrected := satAdd 64 s.mem.corrected 1 } })
    | none => lost

/-- The line of slice j at a scrub index. -/
def scrubLine (j i : Nat) : Nat := lineOf j (i / 349525) (i % 349525)

/-- Line x is one of the n lines from la on. -/
def inRun (la n x : Nat) : Bool := decide (la ≤ x) && decide (x < la + n)

/-- The line that slice j's controller will write back after a corrected scrub read is one of the n lines from la on. -/
def scrubsRun (la n j : Nat) (c : SliceCtl) : Bool :=
  match c.scrubWb with | some (i, _) => inRun la n (scrubLine j i) | none => false

/-- The runs of a list without the n lines from la on. -/
def cutRuns (la n : Nat) (l : List (Nat × Nat)) : List (Nat × Nat) :=
  (l.flatMap (fun r => [(r.1, min (r.1 + r.2) la - r.1), (max r.1 (la + n), r.1 + r.2 - max r.1 (la + n))])).filter
    (fun r => r.2 != 0)

/-- Writes reach the n lines from la on: their held copies are dropped, and a scrub write-back of one is dropped and
counted (R259, R260). -/
def linesWritten (s : State) (la n : Nat) : State :=
  { s with mem := { s.mem with
    ctl := Table.mapVals (fun j c => { c with
      held := c.held.filter (fun h => !inRun la n (lineOf j h.bankset h.block))
      scrubWb := if scrubsRun la n j c then none else c.scrubWb }) s.mem.ctl
    clearing := cutRuns la n s.mem.clearing
    scrubDropped := satAdd 64 s.mem.scrubDropped (s.mem.ctl.filter (fun c => scrubsRun la n c.1 c.2)).length } }

/-- Write the n lines from la on, which lie in one bank set, with their META (R246): the bytes of m from address src on. -/
def writeLines (s : State) (la n : Nat) (m : Memory) (src wsrc : Nat) (poison : Bool) : State :=
  let s := s.linesWritten la n
  let p := s.placeOf la
  { s with mem := { s.mem with
    hbm := Table.overlay s.mem.hbm (64 * p) (64 * n) (m.shifted src (64 * p) (64 * n))
    meta_ := Table.overlay s.mem.meta_ p n ((List.range n).map (fun i => (p + i, s.metaOf (la + i) wsrc poison))) } }

/-- Write line la. -/
def writeLine (s : State) (la : Nat) (data : List Byte) (wsrc : Nat) (poison : Bool) : State :=
  s.writeLines la 1 (Memory.ofBytes 0 (sliceBytes data 0 64)) 0 wsrc poison

/-! The Logbook's records among the RESERVED lines (R244, R497). -/

/-- First line of Logbook record r, of 64 (DESIGN CHOICE, assumption 35: the manual places the records in RESERVED blocks and
says no more): the records go round the stacks whose partners hold the mirrors. -/
def logLine (r : Nat) : Nat :=
  let i := r / 8 * 64
  lineOf (30 * [0, 1, 2, 3, 8, 9, 10, 11].getD (r % 8) 0 + i / 4096) (i % 4096 / 128) (openBlocks + i % 128)

/-- First lines of the copies of record r that exist: the primary, then the mirror, of stacks that are not lost. -/
def logCopies (s : State) (r : Nat) : List Nat :=
  [logLine r, partnerLine (logLine r)].filter (fun la => !(s.stack (sliceStack (laSlice la))).lost)

/-- Write n lines of record r from its line i on, in every copy; DESIGN CHOICE (assumption 35): WSRC is 1. -/
def writeLog (s : State) (r i n : Nat) (data : List Byte) : State :=
  (s.logCopies r).foldl (fun s la => s.writeLines (la + i) n (Memory.ofBytes 0 (sliceBytes data 0 (64 * n))) 0 1 false) s

/-- Record r as LOGBOOK_READ reads it: the primary copy, or the mirror when the primary's stack is lost (R503). -/
def logbookRecord (s : State) (r : Nat) : List Byte :=
  match s.logCopies r with
  | la :: _ => s.runBytes la 0 4096
  | [] => List.replicate 4096 0

/-! Extents (R261 to R263). -/

/-- Line la lies in the primary copy of an extent. -/
def inPrimary (e : Extent) (la : Nat) : Bool := e.first ≤ la && la < e.first + e.count

/-- Line la lies in the mirror copy of an extent. -/
def inMirror (e : Extent) (la : Nat) : Bool := e.policy == 1 && e.mla ≤ la && la < e.mla + e.count

/-- The extent of a course that holds line la, in either copy. -/
def extentIn (i : CourseInfo) (la : Nat) : Option Extent := i.extents.find? (fun e => inPrimary e la || inMirror e la)

/-- The course whose extent holds line la. -/
def extentAt (s : State) (la : Nat) : Option (Nat × Extent) :=
  (List.range 8).findSome? (fun k => (extentIn (s.slot k).info la).map (fun e => (k, e)))

/-- The other copy of line la of a mirrored extent. -/
def otherCopy (e : Extent) (la : Nat) : Nat :=
  if inPrimary e la then e.mla + (la - e.first) else e.first + (la - e.mla)

/-- The slot whose stripe reaches stack st (R244). -/
def ownerOfStack (s : State) (st : Nat) : Option Nat :=
  s.residents.find? (fun k => stripeReaches (s.slot k).info.stripeFirst (s.slot k).info.stripeWidth st)

/-- Stacks a slot's stripe reaches. -/
def slotStacks (s : State) (k : Nat) : List Nat :=
  (List.range 16).filter (fun st => stripeReaches (s.slot k).info.stripeFirst (s.slot k).info.stripeWidth st)

/-- Logical slices of a slot's stripe, in ascending order. -/
def slotSlices (s : State) (k : Nat) : List Nat :=
  (s.slotStacks k).flatMap (fun st => (List.range 30).map (fun i => 30 * st + i))

/-! The loss of slices and stacks (R269 to R271). -/

/-- The lap of the course that reaches slice j stops, as a fault of the slice stops it (R267). -/
def sliceFault (s : State) (j code : Nat) : State :=
  match s.ownerOfStack (sliceStack j) with
  | some k => s.raiseNow k (0x8000 + j) code
  | none => s

/-- No lap of the course that reaches stack st is open, so that the maps may change (R273). -/
def stackAtBoundary (s : State) (st : Nat) : Bool :=
  match s.ownerOfStack st with
  | some k => !s.attemptOpen k
  | none => true

/-- The maps after the loss of a stack (R271), and the halt of its course. -/
def markStackLost (s : State) (st : Nat) : State :=
  let s := s.setStack st { s.stack st with lost := true }
  let s := (List.range 30).foldl (fun s i => s.setSliceEnt (30 * st + i) { s.sliceEnt (30 * st + i) with st := 2 }) s
  let s := (List.range 30).foldl (fun s i => s.fire (0x100 + 30 * st + i)) (s.fire (0x40 + st))
  { s with mem := { s.mem with losing := s.mem.losing.filter (fun x => x != st) } }

/-- Stack st is lost: its course halts with MEMORY_LOST, and the maps change at that course's boundary (R271, R273). -/
def loseStack (s : State) (st : Nat) : State :=
  if (s.stack st).lost || s.mem.losing.contains st then s
  else
    let owner := s.ownerOfStack st
    let s := { s with mem := { s.mem with losing := st :: s.mem.losing } }
    let s := match owner with | some k => s.loseMemory k | none => s
    if s.stackAtBoundary st then s.markStackLost st else s

/-- Pseudo-channel c of stack st is marked failed (R273). -/
def markFailed (s : State) (st c : Nat) : State :=
  let x := s.stack st
  s.setStack st { x with failed := x.failed ||| (1 <<< (c % 32)), standby := x.standby.filter (fun i => i != c) }

/-- The runs that a rebuild of slice j writes for a course's extents (R270): first line, count, and where it copies from;
none for a run that becomes zero, with POISON when the last member says so. -/
def rebuildRuns (j : Nat) (l : List Extent) : List (Nat × Nat × Option Nat × Bool) :=
  l.flatMap (fun e =>
    (if laSlice e.first == j then
      [(e.first, e.count, if e.policy == 1 then some e.mla else none, e.policy == 0)] else [])
    ++ (if e.policy == 1 && laSlice e.mla == j then [(e.mla, e.count, some e.first, false)] else []))

/-- The first RESERVED line of each bank set of slice j; each has 128 (R243). -/
def reservedRuns (j : Nat) : List Nat := (List.range 32).map (fun t => lineOf j t openBlocks)

/-- Blocks that the rebuild of slice j writes (R270). -/
def rebuildCount (j : Nat) (l : List Extent) : Nat := 4096 + ((rebuildRuns j l).map (fun r => r.2.1)).sum

/-- The extents of a slot, or none. -/
def ownedExtents (s : State) : Option Nat → List Extent
  | some k => (s.slot k).info.extents
  | none => []

/-- Point slice j at the first standby pseudo-channel of its stack, whose controller it takes over with its scrub, and start
its rebuild; without one the stack is lost (R270, R271). A course with NONE blocks there halts with MEMORY_LOST. -/
def substitute (s : State) (j : Nat) : State :=
  let st := sliceStack j
  let old := (s.sliceEnt j).phys
  let s := { s with mem := { s.mem with failing := s.mem.failing.filter (fun i => i != j) } }
  match (s.stack st).standby with
  | [] => (s.markFailed st old).loseStack st
  | c :: _ =>
    let owner := s.ownerOfStack st
    let ext := s.ownedExtents owner
    let x := (s.markFailed st old).stack st
    let s := (s.markFailed st old).setStack st { x with standby := x.standby.drop 1 }
    let s := (s.setSliceEnt j ⟨1, c⟩).setCtl j (s.ctl (512 + c))
    let s := { s with mem := { s.mem with
      substitutions := satAdd 32 s.mem.substitutions 1
      ctl := Table.erase (512 + c) s.mem.ctl
      clearing := s.mem.clearing.filter (fun r => laSlice r.1 != j)
      rebuilds := s.mem.rebuilds.filter (fun (r : Rebuild) => r.slice != j) ++ [(⟨j, owner, s.now, rebuildCount j ext⟩ : Rebuild)] } }
    let s := (s.fire (0x40 + st)).fire (0x100 + j)
    match owner with
    | none => s
    | some k =>
      if ext.any (fun e => e.policy == 0 && laSlice e.first == j) then s.loseMemory k
      else (s.openWindow k .recovery).onSlot k (fun x => { x with rebuilding := j :: x.rebuilding })

/-- A standby pseudo-channel c has failed: it is no standby any more (R269, R273). -/
def failStandby (s : State) (c : Nat) : State :=
  if (s.stack (c / 32)).standby.contains c then
    { s.markFailed (c / 32) c with mem := { (s.markFailed (c / 32) c).mem with ctl := Table.erase (512 + c) s.mem.ctl } }
  else s

/-- Slice j has failed (R269): its course's lap stops, and it is substituted at that course's boundary. 512 + c names the
standby pseudo-channel c. DESIGN CHOICE (assumption 15): a failure that no scheduled read shows stops the lap with the entry
of R267's MEM_UNCORRECTABLE; the manual names no other code of a slice. -/
def failSlice (s : State) (j : Nat) : State :=
  if 512 ≤ j then s.failStandby (j - 512)
  else if 480 ≤ j || (s.sliceEnt j).st == 2 || s.mem.failing.contains j then s
  else
    let s := (s.sliceFault j 0x40)
    let s := { s with mem := { s.mem with failing := s.mem.failing ++ [j] } }
    if s.stackAtBoundary (sliceStack j) then s.substitute j else s

/-- Changes of the maps that waited for a boundary. -/
def settleMemory (s : State) : State :=
  let s := (s.mem.failing.filter (fun j => s.stackAtBoundary (sliceStack j))).foldl substitute s
  (s.mem.losing.filter (fun st => s.stackAtBoundary st)).foldl markStackLost s

/-! Repairs (R268). -/

/-- The data that a copy at line la gives a repair, a rebuild or a seal: none when it is POISON or uncorrectable. -/
def copyData (s : State) (errs : List BlockErr) (la : Nat) : Option Lanes × State :=
  if s.poisoned la then (none, s)
  else
    let r := s.readBlock errs la
    (r.1.map (fun d => d.1), r.2.2)

/-- One more repaired block of its slice; the 64th distinct one fails the slice (R269). -/
def countRepair (s : State) (la : Nat) : State :=
  let j := laSlice la
  let c := s.ctl j
  let r := if c.repaired.contains la then c.repaired else la :: c.repaired
  let s := { s.setCtl j { c with repaired := r } with mem := { (s.setCtl j { c with repaired := r }).mem with
    blockRepairs := satAdd 32 s.mem.blockRepairs 1 } }
  if 64 ≤ r.length then s.failSlice j else s

/-- Line la gets the data of its other copy, at line other; when that copy is lost too it is POISON, and slot k loses its
memory (R268). The answer is the data that came back. -/
def mendFrom (s : State) (errs : List BlockErr) (la other k : Nat) : Option Lanes × State :=
  let r := s.copyData errs other
  match r.1 with
  | some d => (some d, (r.2.writeLine la (lanesBytes d) 3 false).countRepair la)
  | none => (none, (r.2.writeLine la [] 3 true).loseMemory k)

/-- Repair block la, found uncorrectable, at once (R268): the answer is the data when a mirror brought them back. A block
that fails after a repair fails its slice instead. RESERVED blocks come from the partner stack (R244); what the partner has
lost too stays zero. -/
def repairBlock (s : State) (errs : List BlockErr) (la : Nat) : Option Lanes × State :=
  if (s.ctl (laSlice la)).repaired.contains la then (none, s.failSlice (laSlice la))
  else if 480 ≤ laSlice la then (none, (s.writeLine la [] 3 false).countRepair la)
  else if laReserved la then
    let r := s.copyData errs (partnerLine la)
    (r.1, (r.2.writeLine la (lanesBytes (r.1.getD 0)) 3 false).countRepair la)
  else match s.extentAt la with
  | none => (none, (s.writeLine la [] 3 false).countRepair la)
  | some (k, e) =>
    match e.policy with
    | 1 => s.mendFrom errs la (otherCopy e la) k
    | 2 => (none, (s.writeLine la [] 3 false).countRepair la)
    | _ => (none, (s.writeLine la [] 3 true).loseMemory k)

/-- Blocks whose scheduled read failed, at the boundary of their attempt (R268): a block that failed in the previous attempt
too is repaired, and one that fails after a repair fails its slice. -/
def repairFailed (s : State) (k : Nat) (errs : List BlockErr) : State :=
  let x := s.slot k
  let s := x.blocksBad.foldl (fun s la =>
    if (s.ctl (laSlice la)).repaired.contains la || x.failedBlocks.contains la then (s.repairBlock errs la).2 else s) s
  s.onSlot k (fun y => { y with failedBlocks := x.blocksBad, blocksBad := [] })

/-! Rebuilds (R270). -/

/-- Copy n lines from line src on to line la on, data and all; a source line that is POISON or cannot be read leaves POISON,
and its course loses its memory. -/
def copyRun (errs : List BlockErr) (la n src : Nat) (owner : Option Nat) (s : State) : State :=
  let s := s.writeLines la n s.mem.hbm (64 * s.placeOf src) 3 false
  let hurt := (List.range n).filter (fun i => s.poisoned (src + i) || errs.any (fun e => e.la == src + i))
  hurt.foldl (fun s i =>
    let r := s.copyData errs (src + i)
    match r.1 with
    | some d => r.2.writeLine (la + i) (lanesBytes d) 3 false
    | none =>
      let s := r.2.writeLine (la + i) [] 3 true
      match owner with | some k => s.loseMemory k | none => s) s

/-- The blocks of slice j as its rebuild leaves them (R270): RESERVED blocks first, from the partner stack unless it is lost,
then the extents of its course in rising line address. -/
def rebuildBlocks (s : State) (errs : List BlockErr) (j : Nat) (owner : Option Nat) : State :=
  let s := if (s.stack (sliceStack j ^^^ 4)).lost then s
    else (reservedRuns j).foldl (fun s la => copyRun errs la 128 (partnerLine la) none s) s
  let runs := rebuildRuns j (s.ownedExtents owner)
  runs.foldl (fun s r => match r.2.2.1 with
    | some src => copyRun errs r.1 r.2.1 src owner s
    | none => s.writeLines r.1 r.2.1 [] 0 3 r.2.2.2) s

/-! Edge tables (R255, R256). -/

/-- The edge table of stack st for slot k. -/
def edgeTable (s : State) (k st : Nat) : Option EdgeTable := (s.slot k).info.edges.find? (fun t => t.stack == st)

/-- The edge entry of lap cycle c, link l, transfer t, direction d (0 inbound, 1 outbound). -/
def edgeEntry (tb : EdgeTable) (c l t d : Nat) : BitVec 16 :=
  Table.get 0 (16384 * (c / 256 % max 1 tb.pages) + 64 * (c % 256) + 4 * l + 2 * t + d) tb.entries

def edgeValid (e : BitVec 16) : Bool := e.getLsbD 15
def edgeRole (e : BitVec 16) : Nat := bitsOf e.toNat 14 12
def edgePeriod (e : BitVec 16) : Nat := bitsOf e.toNat 11 6
def edgeSlice (e : BitVec 16) : Nat := bitsOf e.toNat 4 0

/-- The first cycle at or after c + 2 in which period p begins (R257). -/
def periodStart (c p : Nat) : Nat :=
  let f := (c + 2) / 256
  if c + 2 ≤ 256 * f + 4 * p then 256 * f + 4 * p else 256 * (f + 1) + 4 * p

/-! Golden records and reloads (R278, R510, R511). -/

/-- Sparse table of the w-byte little-endian words of a byte string. -/
def wordTable (n w : Nat) (bs : List Byte) : Table (BitVec n) :=
  (chunksOf w (bs.length / w + 1) bs).zipIdx.map (fun x => (x.2, BitVec.ofNat n (ofLE x.1)))

/-- Bytes of a golden record before its windows, and before its gate entries. -/
def goldenWindows (dtop itop : Nat) : Nat := dtop + 16 * itop
def goldenGates (dtop itop : Nat) : Nat := goldenWindows dtop itop + 384

/-- Load core n and its router from the core's golden record. -/
def reloadCore (s : State) (n : Nat) : State :=
  let k := s.core n
  let r := s.router n
  let k' := { k with
    data := Memory.ofBytes 0 (s.runBytes k.golden 0 k.dtop)
    instr := Memory.ofBytes 0 (s.runBytes k.golden k.dtop (16 * k.itop))
    windows := wordTable 64 8 (s.runBytes k.golden (goldenWindows k.dtop k.itop) 384) }
  let r' := { r with table := List.map (fun x => (x.1, rsWord x.2)) (wordTable 128 16 (s.runBytes k.golden (goldenGates k.dtop k.itop) (16 * k.gateCount))) }
  (s.setCore n k').setRouter n r'

/-- Reload the golden records of the cores listed, counting each. -/
def reloadAll (s : State) : List Nat → State
  | [] => s
  | n :: t =>
    reloadAll ({ s.reloadCore n with grid := { (s.reloadCore n).grid with
      reloads := satAdd 32 s.grid.reloads 1 } }) t

end State
end Sys2Proof.Machine
end

