-- ==== Sys2Proof/Machine/LinkOps.lean ====
section
/-! DEFINITION. Addresses, routes, broadcasts and tallies on the torus, and what a device answers to a proposal
(R416 to R418, R428 to R434, R517). -/
namespace Sys2Proof.Machine

/-- An empty tally. -/
def TallyBody.zero : TallyBody := ⟨0, 0, false, false, [], 0, []⟩

/-- EARLIEST of a device that can foresee no count (R433). -/
def neverCount : Nat := 2 ^ 64 - 1

/-- Two tallies merged (R431). -/
def TallyBody.merge (a b : TallyBody) : TallyBody :=
  let m := (a.missed ++ b.missed).eraseDups
  { bseq := a.bseq, devices := a.devices + b.devices, halt := a.halt || b.halt
    overflow := a.overflow || b.overflow || 4 < m.length, lost := (a.lost ++ b.lost).eraseDups
    earliest := max a.earliest b.earliest, missed := m.take 4 }

/-- A tally with one more missed address. -/
def TallyBody.miss (a : TallyBody) (addr : Nat) : TallyBody := a.merge { TallyBody.zero with missed := [addr] }

/-- A scope: ROWZ, COLZ, rows − 1, columns − 1 (R416). -/
abbrev Scope := Nat × Nat × Nat × Nat

namespace State

/-! Addresses. -/

/-- The torus size; an axis not closed counts as 1. -/
def torusRows (s : State) : Nat := max 1 s.link.rows
def torusCols (s : State) : Nat := max 1 s.link.cols

/-- This device's address, row × 128 + column (R435). -/
def selfAddr (s : State) : Nat := s.link.row * 128 + s.link.col

/-- The address across port p (0 N, 1 E, 2 S, 3 W) (R403). -/
def acrossAddr (s : State) (p : Nat) : Nat :=
  let r := s.link.row
  let c := s.link.col
  let m := s.torusRows
  let n := s.torusCols
  match p with
  | 0 => (r + m - 1) % m * 128 + c
  | 1 => r * 128 + (c + 1) % n
  | 2 => (r + 1) % m * 128 + c
  | _ => r * 128 + (c + n - 1) % n

/-- The device is BOUND. -/
def bound (s : State) : Bool := s.link.st == 2

/-- The device is in QUARANTINE (R425). -/
def quarantined (s : State) : Bool := s.link.st == 3

/-- Transom messages leave on port p: it is UP, GATED or SKEWED (R422). -/
def canSend (s : State) (p : Nat) : Bool := (s.lport p).st == 2 || (s.lport p).st == 4 || (s.lport p).st == 5

/-! Routes (R416, R418). -/

/-- Way round a ring of n from a to b: none when there, else true for the rising direction, taken on a tie. -/
def ringWay (n a b : Nat) : Option Bool :=
  if a == b then none else some (decide ((b + n - a) % n ≤ (a + n - b) % n))

/-- The port towards an address: along the row first, then along the column (R418). -/
def portTowards (s : State) (addr : Nat) : Option Nat :=
  match ringWay s.torusCols s.link.col (addr % 128) with
  | some true => some 1
  | some false => some 3
  | none => match ringWay s.torusRows s.link.row (addr / 128) with
    | some true => some 2
    | some false => some 0
    | none => none

/-- A route from this device to an address. -/
def routeTo (s : State) (addr : Nat) : Route where
  drow := BitVec.ofNat 7 (addr / 128)
  dcol := BitVec.ofNat 7 addr
  srow := BitVec.ofNat 7 s.link.row
  scol := BitVec.ofNat 7 s.link.col
  sgen := BitVec.ofNat 16 s.link.gen
  bcast := false
  bseq := 0
  rowz := 0
  colz := 0
  rm1 := 0
  cm1 := 0
  resend := false

/-- What a device in QUARANTINE may originate (R425). -/
def mayOriginate (s : State) (body : Msg) : Bool := !s.quarantined || (match body with | .dictResp _ => true | _ => false)

/-- Put a message in the queue of port p; one for a port that is not UP, GATED or SKEWED is gone. -/
def queueMsg (s : State) (m : OutMsg) : State :=
  if s.canSend m.port then { s with link := { s.link with outbox := s.link.outbox ++ [m] } } else s

/-- The Porter hands a message to port p: its SEQ is the next (R225). -/
def sendOn (s : State) (p : Nat) (r : Route) (body : Msg) : State :=
  if s.mayOriginate body then
    ({ s with link := { s.link with seqNext := (s.link.seqNext + 1) % 256 } }).queueMsg
      ⟨p, r, body, 0, false, lecelFlits r body s.link.seqNext⟩
  else s

/-- Pass a message that came in on port q on to port p; flits: the message as it came. -/
def passOn (s : State) (q p : Nat) (r : Route) (body : Msg) (flits : List (BitVec 120)) : State :=
  if s.quarantined then s else s.queueMsg ⟨p, r, body, q + 1, false, flits⟩

/-- Send a message to an address. -/
def sendTo (s : State) (addr : Nat) (body : Msg) : State :=
  match s.portTowards addr with
  | some p => s.sendOn p (s.routeTo addr) body
  | none => s

/-- Pass on a message that came in on port q, on its way to another device (R418). -/
def forward (s : State) (q : Nat) (r : Route) (body : Msg) (flits : List (BitVec 120)) : State :=
  match s.portTowards (r.drow.toNat * 128 + r.dcol.toNat) with
  | some p => s.passOn q p r body flits
  | none => s

/-! Buffers and credits (R415, R430). -/

/-- Flits of a class in the forwarding buffer of port p's input: those of the message received in part, of messages that
wait to be taken, and of messages that have not left on every port they go to. -/
def heldFlits (s : State) (p : Nat) (urgent : Bool) : Nat :=
  let x := s.lport p
  let out := s.link.outbox.filter (fun m => m.input == p + 1 && m.body.urgent == urgent)
  let whole := (x.rxHeld.filter (fun m => (m.flits.headD 0).getLsbD 126 == urgent)).map (fun m => m.flits.length)
  let left := ((out.map (fun m => (m.route, m.body))).eraseDups).map (fun k =>
    ((out.filter (fun m => m.route == k.1 && m.body == k.2)).map (fun m => m.flits.length)).foldl max 0)
  (if urgent then x.rxUrgent else x.rxNormal).length + (whole ++ left).foldl (· + ·) 0

/-- FREE_U and FREE_N: free places of the 18 of a class at port p's input (R407, R430). -/
def freePlaces (s : State) (p : Nat) (urgent : Bool) : Nat := 18 - s.heldFlits p urgent

/-- A flit of a class may leave on port p: the far buffer's free places exceed the flits sent in the last 2 × FLIGHT + 320
cc (R415). -/
def creditFor (s : State) (p : Nat) (urgent : Bool) : Bool :=
  let x := s.lport p
  let late := (if urgent then x.sentU else x.sentN).filter (fun t => decide (s.now < t + 2 * x.flight + 320))
  decide (late.length < (if urgent then x.freeU else x.freeN))

/-- The message of a class whose flit port p sends next: the one begun, else the first of the inputs in round-robin order:
local, N, E, S, W (R227). -/
def pickMsg (s : State) (p : Nat) (urgent : Bool) : Option OutMsg :=
  let l := s.link.outbox.filter (fun m => m.port == p && m.body.urgent == urgent)
  let last := if urgent then (s.lport p).servedU else (s.lport p).servedN
  match l.find? (fun m => m.started) with
  | some m => some m
  | none => ((List.range 5).map (fun i => (last + 1 + i) % 5)).findSome? (fun i => l.find? (fun m => m.input == i))

/-- The count RINK_SYNC and the Lecel frames go by: RINK, or while it is held a local count from root PLL lock (R563). -/
def frameCount (s : State) : Nat := if s.rinkRun then s.rink else s.now - s.start.pllSince.getD s.now

/-- That count in units of 0.3125 ns. -/
def halfCount (s : State) : Nat := 2 * s.frameCount + (if s.rinkHalf then 1 else 0)

/-- The count at the start of the Lecel frame whose capture cycle this is, in units of 0.3125 ns (R405, R408). -/
def captureStart (s : State) : BitVec 64 := BitVec.ofNat 64 (s.halfCount + 32)

/-- A RINK_SYNC of this device takes its count as its route flit leaves: TA of a PROBE, TC of an ECHO (R426). -/
def stampMsg (s : State) (m : OutMsg) : OutMsg :=
  let again (b : Msg) : OutMsg :=
    let seq := hdrSeq ((m.flits.drop 1).headD 0)
    { m with body := b, flits := lecelFlits m.route b seq }
  match m.started, m.input, m.body with
  | false, 0, .rinkSync 0 _ _ _ => again (.rinkSync 0 s.captureStart 0 0)
  | false, 0, .rinkSync 1 ta tb _ => again (.rinkSync 1 ta tb s.captureStart)
  | _, _, _ => m

/-- What the leaving of a flit of message m does on port p. -/
def flitLeaves (s : State) (p : Nat) (m : OutMsg) : State :=
  let m' := s.stampMsg m
  let out := if m'.flits.length ≤ 1 then s.link.outbox.erase m
    else s.link.outbox.replace m { m' with started := true, flits := m'.flits.drop 1 }
  ({ s with link := { s.link with outbox := out } }).onLport p (fun x =>
    let recent (l : List Nat) : List Nat := l.filter (fun t => decide (s.now < t + 2 * x.flight + 320)) ++ [s.now]
    let x := match m.started, m.input, m'.body with
      | false, 0, .rinkSync 0 ta _ _ => { x with probeTa := some ta }
      | _, _, _ => x
    if m.body.urgent then { x with sentU := recent x.sentU, servedU := m.input }
    else { x with sentN := recent x.sentN, servedN := m.input })

/-- The message whose flit port p sends now: URGENT before NORMAL (R227, R415). -/
def nextFlit (s : State) (p : Nat) : Option OutMsg :=
  let of_ (u : Bool) : Option OutMsg := if s.creditFor p u then s.pickMsg p u else none
  match of_ true with
  | some m => some m
  | none => of_ false

/-- The transom transfer of port p's next frame, and the state after it (R415). -/
def sendFlit (s : State) (p : Nat) : BitVec 128 × State :=
  match s.nextFlit p with
  | none => (0, s)
  | some m =>
    let l := (s.stampMsg m).flits
    (lecelWord m.body.urgent (!m.started) (decide (l.length ≤ 1)) (l.headD 0), s.flitLeaves p m)

/-! Messages received whole, and the Porter's delivery buffer (R430). -/

/-- The message of port p with this route and TYPE that has been received whole. -/
def rxOf (s : State) (p : Nat) (r : Route) (body : Msg) : Option LecelRx := (s.lport p).rxHeld.find? (fun x => x.isOf r body)

/-- The message has been taken from the input of port p. -/
def takeRx (s : State) (p : Nat) (r : Route) (body : Msg) : State :=
  match s.rxOf p r body with
  | some x => s.onLport p (fun q => { q with rxHeld := q.rxHeld.erase x })
  | none => s

/-- The flits of a message that has arrived on port p; one that no frame has brought has SEQ 0. -/
def rxFlits (s : State) (p : Nat) (r : Route) (body : Msg) : List (BitVec 120) :=
  match s.rxOf p r body with
  | some x => x.flits.map (fun f => f.extractLsb' 0 120)
  | none => lecelFlits r body 0

/-- The count at the start of the Lecel frame that carried the route flit of a message (R426); for one that no frame has
brought, the present count. -/
def rxStart (s : State) (p : Nat) (r : Route) (body : Msg) : BitVec 64 :=
  (s.rxOf p r body).elim (BitVec.ofNat 64 s.halfCount) (fun x => x.start)

/-- A unicast message enters the Porter's delivery buffer: it has waited until the Porter took a message from a full one
(R430). -/
def deliverMsg (s : State) (body : Msg) : State :=
  { s with link := { s.link with delivery := s.link.delivery.drop (s.link.delivery.length - 15) ++ [body] } }

/-! Broadcast trees (R429). -/

/-- Devices of a ring of n reached in the rising and in the falling direction from position a of a scope that begins at
z and holds m + 1 places. -/
def reach (n a z m : Nat) : Nat × Nat :=
  if n ≤ m + 1 then (n / 2, (n - 1) / 2) else (m - (a + n - z) % n, (a + n - z) % n)

/-- Reach along the originator's row, east and west. -/
def reachEW (s : State) (oc : Nat) (sc : Scope) : Nat × Nat := reach s.torusCols oc sc.2.1 sc.2.2.2

/-- Reach along a column, south and north. -/
def reachNS (s : State) (or_ : Nat) (sc : Scope) : Nat × Nat := reach s.torusRows or_ sc.1 sc.2.2.1

/-- D of a broadcast. -/
def depthOf (s : State) (origin : Nat) (sc : Scope) : Nat :=
  let e := s.reachEW (origin % 128) sc
  let v := s.reachNS (origin / 128) sc
  max e.1 e.2 + max v.1 v.2

/-- Child ports of this device in the tree of an originator, given the port the copy arrived on (none: the originator
itself), and its own depth. -/
def childPorts (s : State) (origin : Nat) (sc : Scope) (from_ : Option Nat) : List Nat × Nat :=
  let n := s.torusCols
  let m := s.torusRows
  let e := s.reachEW (origin % 128) sc
  let v := s.reachNS (origin / 128) sc
  let east := (s.link.col + n - origin % 128) % n
  let west := (origin % 128 + n - s.link.col) % n
  let south := (s.link.row + m - origin / 128) % m
  let north := (origin / 128 + m - s.link.row) % m
  let along := if east ≤ e.1 then east else west
  let column := (if 0 < v.1 then [2] else []) ++ (if 0 < v.2 then [0] else [])
  match from_ with
  | none => ((if 0 < e.1 then [1] else []) ++ (if 0 < e.2 then [3] else []) ++ column, 0)
  | some 3 => ((if east < e.1 then [1] else []) ++ column, east)
  | some 1 => ((if west < e.2 then [3] else []) ++ column, west)
  | some 0 => (if south < v.1 then [2] else [], along + south)
  | some _ => (if north < v.2 then [0] else [], along + north)

/-- The address a device across port p has. -/
def withAddrs (s : State) (ps : List Nat) : List (Nat × Nat) := ps.map (fun p => (p, s.acrossAddr p))

/-! Layouts (R283, R321, R428, R432). -/

/-- The course's layout spans this many physical columns. -/
def layoutCols (i : CourseInfo) : Nat := i.devCols * (if i.pairs then 2 else 1)

/-- Scope of the layout of slot k. -/
def layoutScope (s : State) (k : Nat) : Scope :=
  let i := (s.slot k).info
  (i.originRow, i.originCol, i.devRows - 1, layoutCols i - 1)

/-- Number of physical devices of the layout, those declared lost apart. -/
def layoutSize (s : State) (k : Nat) : Nat :=
  (s.slot k).info.devRows * layoutCols (s.slot k).info - (s.slot k).lostAddrs.length

/-- The layout index of an address (R428). -/
def layoutIndex (s : State) (i : CourseInfo) (addr : Nat) : Nat :=
  let c := (addr % 128 + s.torusCols - i.originCol % s.torusCols) % s.torusCols
  (addr / 128 + s.torusRows - i.originRow % s.torusRows) % s.torusRows * i.devCols + (if i.pairs then c / 2 else c)

/-- An address lies in the layout of slot k. -/
def inLayout (s : State) (k addr : Nat) : Bool :=
  let i := (s.slot k).info
  decide ((addr / 128 + s.torusRows - i.originRow % s.torusRows) % s.torusRows < i.devRows)
  && decide ((addr % 128 + s.torusCols - i.originCol % s.torusCols) % s.torusCols < layoutCols i)

/-- This device is the even member of its pair (R321). -/
def evenMember (s : State) (k : Nat) : Bool :=
  (s.link.col + s.torusCols - (s.slot k).info.originCol % s.torusCols) % s.torusCols % 2 == 0

/-- The address of this device's partner, and the shared port (R321). -/
def partnerPort (s : State) (k : Nat) : Nat := if s.evenMember k then 1 else 3

/-- This device coordinates the launches of slot k (R432, R517). -/
def coordinates (s : State) (k : Nat) : Bool :=
  let x := s.slot k
  x.acting || (x.info.deviceIndex == 0 && (!x.info.pairs || s.evenMember k || x.pairState == 2))

/-- CTAG of an image: bytes 0 and 1 of its digest, byte 0 lower (R407). -/
def ctagOf (i : CourseInfo) : Nat := fieldLE i.imageDigest 0 2

/-- The slot whose course has a CTAG. -/
def slotOfTag (s : State) (ctag : Nat) : Option Nat :=
  s.residents.find? (fun k => (s.slot k).st != .loading && ctagOf (s.slot k).info == ctag)

/-- 5B + 2,048 for the layout of slot k (R432). -/
def agreeSpan (s : State) (k : Nat) : Nat := 5 * 384 * s.depthOf s.selfAddr (s.layoutScope k) + 2048

/-! Proposals (R432, R433). -/

/-- Slot k stands at a boundary with nothing of its recovery left to do, and in pairs mode its last lap is confirmed. -/
def atBoundary (s : State) (k : Nat) : Bool :=
  let x := s.slot k
  (x.stage == .idle || x.stage == .waiting) && x.reloads.isEmpty && x.rebuilding.isEmpty && !s.heldBySites k
    && (!x.info.pairs || x.confirmed || x.attempt != .first)

/-- The probe asked for runs on slot k (R330). -/
def probing (s : State) (k : Nat) : Bool := s.det.probe.state == 1 && s.det.probe.slot == k

/-- The action this device has for slot k: 0 LAUNCH, 1 PAUSE, 2 PROBE; none when no run is wanted (R432, R433). -/
def wantedAction (s : State) (k : Nat) : Option Nat :=
  let x := s.slot k
  if s.probing k then some 2
  else if x.st == .running || x.st == .replaying then
    if !x.halt.isEmpty && x.attempt != .replay then some 1 else some 0
  else none

/-- The Louvre admits a lap of slot k and holds the admission (R433, R473, R512); its wait counts from the first decision
(R502). -/
def holdAdmission (s : State) (k : Nat) : State × Bool :=
  if (s.slot k).admitted then (s, true)
  else (s.onSlot k (fun x => { x with waitSince := if x.waitSince == 0 then s.now - 1 else x.waitSince })).decideLap k

/-- EARLIEST of a device that the Louvre holds back (R476): the first sample at which the account, refilled at
POWER_LIMIT with no further debit, would reach the bound, as a RINK count; a refusal on another ground foresees none. -/
def earliestFor (s : State) (k : Nat) : Nat :=
  let need : Int := ((s.slot k).info.energyBound * 2 ^ 16 : Nat) - s.louvre.account
  let step := s.louvre.powerLimit * 2 ^ 16
  if !s.coolEnough k || need ≤ 0 || step == 0 then neverCount
  else
    let n := (need.toNat + step - 1) / step
    let due := s.louvre.lastSample + 1600 * n
    s.rink + (due - s.now)

/-- A lost device reports itself in its tally (R517). -/
def ifLost (s : State) : List Nat := if s.grid.deviceLost != 0 then [s.selfAddr] else []

/-- Addresses declared lost in any layout. -/
def lostSomewhere (s : State) (addr : Nat) : Bool := (List.range 8).any (fun k => (s.slot k).lostAddrs.contains addr)

/-- Layout neighbours that a device lists as missed: those across a port that is not UP, and the one at the far end of a
lost link when its layout index is the higher (R516, R517). -/
def missing (s : State) (ctag : Nat) : List Nat :=
  match s.slotOfTag ctag with
  | none => []
  | some k =>
    let i := (s.slot k).info
    let l := (List.range 4).filter (fun p =>
      s.acrossAddr p != s.selfAddr && s.inLayout k (s.acrossAddr p) && !s.lostSomewhere (s.acrossAddr p)
      && ((s.lport p).st != 2 || ((s.lport p).linkLost && i.deviceIndex < s.layoutIndex i (s.acrossAddr p))))
    (l.map s.acrossAddr).eraseDups

/-- The boundary of the lap that slot k runs or is about to, as a now count (R287). -/
def lapEnds (s : State) (k : Nat) : Option Nat :=
  match (s.slot k).stage with
  | .committed a | .driven a => some (s.now + (a - s.rink) + s.lapLen k + 24)
  | .running a => some (a + s.lapLen k + 24)
  | .aborted a t => some (min (t + 24) (a + s.lapLen k + 24))
  | _ => none

/-- The now count by which the recovery of slot k after its faulted boundary is complete (R270, R511): 16,384 cc for the
staging of a row shift, the COMMIT, and 8,448 cc for the reload of one row of a die or one core; 250 µs from the boundary for
anything wider; one block in each service period for the rebuild of a slice. -/
def recoveryEnd (s : State) (k : Nat) : Nat :=
  let x := s.slot k
  let b := x.boundaryAt
  let plans := (match s.grid.plan with | some p => [p] | none => s.grid.failing.filterMap s.remedyPlan)
  let staged := if !s.heldBySites k then 0
    else if plans.all (fun p => p.remaps == 0) then b + 16384 + 25 + 8448 else b + 400000
  let narrow := ((x.reloads.map (fun n => (n / 128, n % 128 / 64))).eraseDups).length ≤ 1
  let reloaded := if x.reloads.isEmpty then 0 else if narrow then x.reloadFrom.getD b + 8448 else b + 400000
  let rebuilt := (s.mem.rebuilds.filter (fun r => r.slot == some k)).map (fun r => r.since + 4 * r.blocks)
  rebuilt.foldl max (max staged reloaded)

/-- Slot k will be ready at launch count l: it stands at its boundary, or its replay's recovery will be complete by l − 48
(R433, R512). -/
def readyFor (s : State) (k l : Nat) : Bool :=
  let x := s.slot k
  s.atBoundary k || (x.attempt == .replay && (x.stage == .idle || x.stage == .waiting)
    && decide (s.rink + (s.recoveryEnd k - s.now) + 48 ≤ l))

/-- EARLIEST of a slot that is not ready (R433): the first multiple of 256 at or after the boundary of the lap it runs, or
from 48 cc after the end of its recovery; one that waits for its partner's digest foresees no count that the manual fixes, and
answers a free one that has not passed (assumption 33). -/
def earliestReady (s : State) (k : Nat) : Nat × State :=
  let x := s.slot k
  match s.lapEnds k with
  | some t => (roundUpTo 256 (s.rink + (t - s.now)), s)
  | none =>
    if x.attempt == .replay && s.now < s.recoveryEnd k then (roundUpTo 256 (s.rink + (s.recoveryEnd k - s.now) + 48), s)
    else
      let f := s.free 32
      (roundUpTo 256 (s.rink + f.1.toNat), f.2)

/-- What this device answers to a proposal (R433), with the admission it takes. -/
def answerProposal (s : State) (q : Proposal) : State × TallyBody :=
  match s.slotOfTag q.ctag.toNat with
  | none => (s, { TallyBody.zero with earliest := neverCount, lost := s.ifLost, missed := s.missing q.ctag.toNat })
  | some k =>
    let x := s.slot k
    let halt := !x.halt.isEmpty && x.attempt != .replay
    let base := { TallyBody.zero with halt := halt, lost := s.ifLost, missed := s.missing q.ctag.toNat }
    let same := s.wantedAction k == some q.action.toNat && (q.action != 2 || s.det.probe.cycle == q.probeCycle.toNat)
    if s.grid.deviceLost != 0 || q.lap.toNat != x.lapNext || !same then (s, { base with earliest := neverCount })
    else if !s.readyFor k q.count.toNat then
      let e := s.earliestReady k
      (e.2, { base with earliest := e.1 })
    else if q.action == 1 then (s, { base with devices := 1 })
    else
      let r := s.holdAdmission k
      if r.2 then (r.1.onSlot k (fun x => { x with pledged := !s.atBoundary k }), { base with devices := 1 })
      else (r.1, { base with earliest := r.1.earliestFor k })

/-! Broadcasts (R431). -/

/-- The route of a broadcast of this device. -/
def bcastRoute (s : State) (bseq : Nat) (sc : Scope) : Route :=
  { s.routeTo 0 with
    bcast := true, bseq := BitVec.ofNat 16 bseq, rowz := BitVec.ofNat 7 sc.1, colz := BitVec.ofNat 7 sc.2.1
    rm1 := BitVec.ofNat 7 sc.2.2.1, cm1 := BitVec.ofNat 7 sc.2.2.2 }

/-- The children a device waits for, and those it lists as missed because their port is not UP (R517). -/
def splitChildren (s : State) (l : List (Nat × Nat)) : List (Nat × Nat) × List Nat :=
  let l := l.filter (fun c => !s.lostSomewhere c.2)
  (l.filter (fun c => (s.lport c.1).st == 2), (l.filter (fun c => (s.lport c.1).st != 2)).map (fun c => c.2))

/-- Start a broadcast now, with this device's own answer as the tally so far. -/
def startBcast (s : State) (slot : Option Nat) (sc : Scope) (body : Msg) (bseq : Nat) (own : TallyBody) : State :=
  let r := s.bcastRoute bseq sc
  let kids := s.withAddrs (s.childPorts s.selfAddr sc none).1
  let split := s.splitChildren kids
  let s := kids.foldl (fun s c => s.sendOn c.1 r body) s
  let tally := split.2.foldl TallyBody.miss { own with bseq := BitVec.ofNat 16 bseq }
  { s with link := { s.link with
    own := some ⟨bseq, slot, sc, split.1, s.now + 2 * 384 * s.depthOf s.selfAddr sc + 512, tally, body⟩ } }

/-- The next broadcast sequence number; 0 stands for plain unicast (R416). -/
def takeBseq (s : State) : Nat × State :=
  (s.link.bseqNext, { s with link := { s.link with
    bseqNext := if s.link.bseqNext == 65535 then 1 else s.link.bseqNext + 1 } })

/-- Originate a broadcast; it waits while another of this device is outstanding. -/
def broadcast (s : State) (slot : Option Nat) (sc : Scope) (body : Msg) : State :=
  if s.quarantined then s
  else match s.link.own with
  | some _ => { s with link := { s.link with queue := s.link.queue ++ [(slot, sc, body)] } }
  | none =>
    let b := s.takeBseq
    match body with
    | .propose q =>
      let a := b.2.answerProposal q
      a.1.startBcast slot sc body b.1 a.2
    | _ => b.2.startBcast slot sc body b.1 { TallyBody.zero with devices := 1 }

/-! Port states (R410, R436, R482). -/

/-- PORT_STATE of port p becomes st; source LECEL fires when it changes (R482). -/
def portState (s : State) (p st : Nat) : State :=
  if (s.lport p).st == st then s else (s.onLport p (fun x => { x with st := st })).fire (0x20 + p)

/-- The running slot whose course uses port p, and its lap cycle. -/
def portLap (s : State) (p : Nat) : Option (Nat × Nat) :=
  let k := (s.lport p).usedBy
  if k < 8 then (s.lapCycle k).map (fun c => (k, c)) else none

/-- A fault of port p stops the slot that uses it (R410), but for a port whose flits come over the shared port (R521). -/
def portFault (s : State) (p code : Nat) : State :=
  match s.portLap p with
  | some (k, _) => if bitOf s.grid.coverPorts p == 1 then s else s.raiseNow k (0xA000 + p) code
  | none => s

/-- LECEL_SKEW of port p. -/
def portSkew (s : State) (p : Nat) : State :=
  (s.onLport p (fun x => { x with skewFaults := satAdd 32 x.skewFaults 1 })).portFault p 0x51

/-- PARTITION's PID (R428). -/
def pid (s : State) : Nat := (s.link.partition.map (fun v => bitsOf v.toNat 63 48)).getD 0

/-- GEN_TABLE's entry for an address. -/
def genEntry (s : State) (addr : Nat) : GenEnt := Table.get ⟨0, false⟩ addr s.link.genTable

/-- The key of the link of port p (R544). -/
def lecelKey (s : State) (p : Nat) : List Byte :=
  let me := (s.selfAddr, s.link.gen)
  let you := (s.acrossAddr p, (s.genEntry (s.acrossAddr p)).gen)
  let l := if me.1 ≤ you.1 then (me, you) else (you, me)
  (hmac384 s.sec.linkSecret ([0x4C, 0x45, 0x43, 0x45, 0x4C] ++ leBytes 2 l.1.1 ++ leBytes 2 l.2.1 ++ leBytes 2 l.1.2
    ++ leBytes 2 l.2.2 ++ leBytes 2 s.pid)).take 32

/-- The port begins to train: PMD, LECEL_CRYPT and LINK_SECRET are taken as written, and with encryption the cipher block
is asked for the link's key (R544, R545, R547, R586). -/
def takeSettings (s : State) (p : Nat) : State :=
  let s' := s.onLport p (fun x => { x with
    pmdLive := x.pmd, cryptLive := x.crypt, key := if x.crypt == 1 then s.lecelKey p else [] })
  { s' with sec := { s'.sec with
    installed := s'.sec.installed.filter (fun k => k != 2 + p)
    installs := s'.sec.installs.filter (fun k => k != 2 + p) ++ (if (s.lport p).crypt == 1 && s.isOn (30 + p) then [2 + p] else []) } }

/-- The port leaves what it was doing for state st: what it holds of either direction is dropped, transom messages
received in part are counted, and leaving UP during a lap of its course raises LECEL_DOWN (R410, R507, R562). A port that
goes DOWN trains again. -/
def portLeave (s : State) (p st : Nat) : State :=
  let x := s.lport p
  let up := x.st == 2
  let s := s.setLport p { x with
    released := none, inOrder := 0, joinWait := none, late := false, probeTa := none, tx := none, due := [], fwd := []
    rxUrgent := [], rxNormal := [], freeU := 0, freeN := 0, authRun := 0, peerState := 0
    rxHeld := [], sentU := [], sentN := [], ebufFixed := false
    transomLost := satAdd 32 x.transomLost x.inPart }
  let s := { s with link := { s.link with outbox := s.link.outbox.filter (fun m => m.port != p) } }
  let s := (s.takeSettings p).portState p st
  if up then s.portFault p 0x52 else s

/-- The port trains after its pads are released (R562). -/
def portTrain (s : State) (p : Nat) : State :=
  ((s.onLport p (fun x => { x with released := some s.now, tooLong := false })).takeSettings p).portState p 1

/-- A broadcast of slot k is outstanding or waits, or its next proposal waits for its count. -/
def proposing (s : State) (k : Nat) : Bool :=
  (s.slot k).reproposeAt.isSome || s.link.own.any (fun o => o.slot == some k) || s.link.queue.any (fun o => o.1 == some k)

/-- Propose the next lap of slot k, as its coordinator (R432). -/
def proposeLap (s : State) (k : Nat) : State :=
  match s.wantedAction k with
  | none => s
  | some a =>
    let x := s.slot k
    let l := roundUpTo 256 (s.rink + s.agreeSpan k)
    let q : Proposal := ⟨BitVec.ofNat 16 (ctagOf x.info), BitVec.ofNat 48 x.lapNext, BitVec.ofNat 8 a, BitVec.ofNat 64 l,
      BitVec.ofNat 32 (if a == 2 then s.det.probe.cycle else 0)⟩
    (s.onSlot k (fun x => { x with proposed := some (x.lapNext, l), reproposeAt := none })).broadcast (some k)
      (s.layoutScope k) (.propose q)

end State
end Sys2Proof.Machine
end

