-- ==== Sys2Proof/Machine/Boundary.lean ====
section
/-! DEFINITION. The boundary of a lap: remedies for failed sites, replays, completion, pausing and the next launch
(R38, R234, R287 to R292, R313, R319, R325, R328, R509 to R516, R524). -/
namespace Sys2Proof.Machine

/-- Latch the seeds as they stood before this cycle, t, and clear SEEDS_PENDING but for what this cycle has written: a
write in the cycle of the latch is for the next launch (R158, R289). -/
def Slot.takeSeeds (x : Slot) (t : Nat) : Slot :=
  if x.seedsAt == some t then { x with latched := x.seedsBefore, seedsPending := x.seedsNew }
  else { x with latched := x.seeds, seedsPending := 0 }

namespace State

/-! Changes of sites (R38, R39, R231, R234, R514). -/

/-- A slot stands between laps with no lap admitted, or with a replay agreed on that waits for its recovery (R234, R512). -/
def betweenLaps (s : State) (k : Nat) : Bool :=
  !s.attemptOpen k && (!s.lapAhead k || ((s.slot k).pledged && (match (s.slot k).stage with | .driven _ => false | _ => true)))

/-- Slot mask of a COMMIT (R222, R234). -/
def slotMask (l : List Nat) : Nat := (l.map (fun k => 2 ^ k)).sum

/-- A STAGE message leaves the Porter for the router of site n (R225, R234): over the channel when the site carries a core,
whose number the header names; a router without a number is reached directly (assumption 34). -/
def sendStage (s : State) (n : Nat) (x : Site) : State :=
  let m : StageMsg := ⟨n, x.fence, x.bypass, x.nsteer, x.ssteer, s.grid.porterSeq, false⟩
  let s := { s with grid := { s.grid with stages := s.grid.stages ++ [m], porterSeq := (s.grid.porterSeq + 1) % 256 } }
  match s.coreAt n with
  | none => s
  | some c =>
    let h := headerFlit c destPorter tySTAGE 1 m.seq (stagePayload x.fence x.bypass x.nsteer x.ssteer)
    { s with grid := { s.grid with transom := s.grid.transom.inject (0x4000 + coreY c) h [] } }

/-- The routers whose latches a plan changes: FENCE, BYPASS or steering. -/
def stagedSites (s : State) (p : SitePlan) : Table Site :=
  p.sites.filter (fun x =>
    let o := s.site x.1
    o.fence != x.2.fence || o.bypass != x.2.bypass || o.nsteer != x.2.nsteer || o.ssteer != x.2.ssteer)

/-- Drive COMMIT in the next cycle once every STAGE is acknowledged and every slot it names stands between laps (R234,
R511): first for the sites that courses own, then for the others. -/
def driveCommit (s : State) : State :=
  match s.grid.plan with
  | none => s
  | some p =>
    if s.grid.stages.isEmpty && s.grid.commit.isNone && (planSlots p).all s.betweenLaps then
      { s with grid := { s.grid with commit := some (s.now + 1, slotMask (planSlots p)) } }
    else s

/-- Take a plan in hand: its STAGE messages are sent; one that changes no site needs no COMMIT. -/
def beginPlan (s : State) (p : SitePlan) : State :=
  if p.sites.isEmpty then s
  else
    let t := { s with grid := { s.grid with plan := some p } }
    ((s.stagedSites p).foldl (fun (t : State) x => t.sendStage x.1 x.2) t).driveCommit

/-- Begin the changes that wait, one plan at a time: what a load or a release leaves, then the remedy of the first failed
site that has one whose slots all stand between laps (R38, R231, R234). -/
def startSites (s : State) : State :=
  if s.grid.plan.isSome then s
  else if s.grid.unsettled then
    { s with grid := { s.grid with unsettled := false } }.beginPlan (s.planFor s none 0 0)
  else match (s.grid.failing.filterMap s.remedyPlan).find? (fun p => (planSlots p).all s.betweenLaps) with
    | some p => s.beginPlan p
    | none => s

/-- A faulted boundary: a failed site without a remedy is the loss of the device (R38, R514); other changes begin. -/
def faultedSites (s : State) : State :=
  match s.grid.failing.find? (fun n => (s.remedyPlan n).isNone) with
  | some n => ({ s with grid := { s.grid with failing := s.grid.failing.erase n } }.countFailed n).reportSite.loseDevice 2
  | none => s.startSites

/-! The next launch (R292 step 5, R510). -/

/-- The largest lap number plus 1 (R315). -/
def lapLimit : Nat := 2 ^ 48

/-- The run of a slot at a clean boundary is over (R292 step 4): its count has reached 0, or the lap numbers are used up. -/
def runOver (x : Slot) : Bool := x.attempt == .first && ((x.counted && x.lapsLeft == 0) || x.lapNext == lapLimit)

/-- Go on from the boundary of slot k in the order of R292, each action once the one before is done: site changes are
committed (step 3), the slot pauses when its run is over or a halt applies (step 4), or its next launch is sought (step 5),
once nothing of its recovery is left and in pairs mode its lap is confirmed. -/
def resume (s : State) (k : Nat) : State :=
  let x := s.slot k
  if !(x.st == .running || x.st == .replaying) || x.stage != .idle || s.heldBySites k then s
  else if runOver x then s.pauseSlot k true
  else if x.attempt == .first && !x.halt.isEmpty && !s.multi k then s.pauseSlot k false
  else if !s.atBoundary k then s
  else if s.multi k then (if s.coordinates k && !s.proposing k then s.proposeLap k else s)
  else s.askAdmission k

/-- Go on with every slot. -/
def resumeAll (s : State) : State := (List.range 8).foldl resume s

/-- Cores that the mapping as it stands moves to other sites. -/
def movedCores (s : State) : List Nat :=
  (s.grid.cores.filter (fun c => s.siteFor c.1 != c.2.site)).map (fun c => c.1)

/-- The first COMMIT of a remedy: the site counts as failed, the mapping changes, the cores it moves change their sites and
are to be reloaded, and their courses' VERIFY windows open (R38, R234, R325, R511, R514). -/
def applyRemedy (s : State) (p : SitePlan) : State :=
  match p.failed with
  | none => s
  | some n =>
    let s := s.countFailed n
    let s := { s with grid := { s.grid with
      rowMap := p.rowMap, failing := s.grid.failing.erase n
      rowShifts := satAdd 32 s.grid.rowShifts p.shifts, rowRemaps := satAdd 32 s.grid.rowRemaps p.remaps } }
    let moved := s.movedCores
    let s := moved.foldl (fun s c => s.setCore c { s.core c with site := s.siteFor c }) s
    let slots := (List.range 8).filter (fun k => moved.any (fun c => (s.core c).slot == k))
    (slots.foldl (fun s k => (s.openWindow k .recovery).onSlot k (fun x => { x with
      reloads := (x.reloads ++ moved.filter (fun c => (s.core c).slot == k)).eraseDups, reloadFrom := some s.now })) s).reportSite

/-- Whether a COMMIT with this mask names the slot that owns a site; mask 0 names the sites of no course (R234). -/
def commitNames (p : SitePlan) (mask n : Nat) : Bool :=
  match p.owners.find? (fun x => x.1 == n) with
  | some x => bitOf mask x.2 == 1
  | none => mask == 0

/-- A site takes its new status, its latches as they were staged (R234, R239). -/
def applySite (s : State) (n : Nat) (x : Site) : State :=
  s.setSite n (match (s.site n).staged with
    | some (f, b, nn, ss) => { x with fence := f, bypass := b, nsteer := nn, ssteer := ss, staged := none }
    | none => { x with staged := none })

/-- Make the changes of a COMMIT with this mask (R38, R234, R239). -/
def applyCommit (s : State) (mask : Nat) : State :=
  match s.grid.plan with
  | none => { s with grid := { s.grid with commit := none } }
  | some p =>
    let s := s.applyRemedy p
    let s := (p.sites.filter (fun x => commitNames p mask x.1)).foldl (fun s x => s.applySite x.1 x.2) s
    let left := p.sites.filter (fun x => !commitNames p mask x.1)
    let q := { p with failed := none, sites := left, owners := p.owners.filter (fun x => Table.has x.1 left) }
    let s := { s with grid := { s.grid with commit := none, plan := if left.isEmpty then none else some q } }
    if left.isEmpty then s.startSites.resumeAll else s.driveCommit

/-! Fingerprints and digests (R319). -/

/-- Rows of the course. -/
def courseRows (s : State) (k : Nat) : Nat := (s.slot k).info.rows

/-- Column fingerprint K_x (R319). -/
def columnFp (s : State) (k x : Nat) : BitVec 64 :=
  (List.range (s.courseRows k)).foldl (fun f y => fmix f (s.core (128 * y + x)).fp) 0

/-- Columns of a stripe. -/
def stripeColumns (i : CourseInfo) : List Nat := (List.range i.stripeWidth).map (fun c => i.stripeFirst + c)

/-- The bytes LAP_DIGEST is taken over: header, column fingerprints, slice fingerprints (R319). -/
def digestInput (s : State) (k : Nat) : List Byte :=
  let x := s.slot k
  let i := x.info
  leBytes 8 x.lapNext ++ sliceBytes i.imageDigest 0 48 ++ leBytes 2 i.deviceIndex ++ leBytes 1 i.rows
  ++ leBytes 1 i.stripeFirst ++ leBytes 1 i.stripeWidth ++ [0, 0, 0]
  ++ (stripeColumns i).flatMap (fun c => leBytes 8 (s.columnFp k c).toNat)
  ++ (s.slotSlices k).flatMap (fun j => leBytes 8 (s.ctl j).fp.toNat)

/-! Seeds (R158, R289, R313, R328). -/

/-- The 16 seeds of a table. -/
def seedList (t : Table (BitVec 112)) : List (BitVec 112) := (List.range 16).map (fun i => Table.get 0 i t)

/-- The seeds as 224 bytes. -/
def seedBytes (l : List (BitVec 112)) : List Byte := l.flatMap (fun v => leBytes 14 v.toNat)

/-- Seeds of the newest SEED_LOG entry. -/
def lastLogged (x : Slot) : List (BitVec 112) := (Table.get (0, []) ((x.seedLogCount + 63) % 64) x.seedLog).2

/-- What driving LAUNCH does for a launch that is not a replay (R289, R313, R328). -/
def latchSeeds (s : State) (k : Nat) : State :=
  s.onSlot k (fun y =>
    let x := y.takeSeeds s.now
    let l := seedList x.latched
    let append := !x.launched || lastLogged x != l
    { x with
      launched := true
      seedRecs := x.seedRecs ++ leBytes 8 x.lapNext ++ seedBytes l
      seedLog := if append then Table.put (x.seedLogCount % 64) (x.lapNext, l) x.seedLog else x.seedLog
      seedLogCount := if append then x.seedLogCount + 1 else x.seedLogCount })

/-! Starting and stopping the grid's part of a course (R53, R222). -/

/-- Apply f to every core of slot k. -/
def onCores (s : State) (k : Nat) (f : Core → Core) : State :=
  { s with grid := { s.grid with cores := Table.mapVals (fun _ c => if c.slot == k then f c else c) s.grid.cores } }

/-- Apply f to every router of slot k. -/
def onRouters (s : State) (k : Nat) (f : Router → Router) : State :=
  { s with grid := { s.grid with routers := Table.mapVals (fun _ r => if r.slot == k then f r else r) s.grid.routers } }

/-- Empty the controllers of the slot's slices of what belongs to a lap; G stays (R222, R318). -/
def clearSlices (s : State) (k : Nat) : State :=
  (s.slotSlices k).foldl (fun s j =>
    let c := s.ctl j
    if c.inbound.isEmpty && c.reqs.isEmpty && c.reads.isEmpty then s
    else s.setCtl j { c with inbound := [], reqs := [], reads := [] }) s

/-- Discard the flits on the edge links of the slot's stacks (R222). -/
def clearEdges (s : State) (k : Nat) : State :=
  let l := s.slotStacks k
  { s with mem := { s.mem with edgeIn := s.mem.edgeIn.filter (fun e => !(l.contains e.stack)) } }

/-- Cores, routers and slices of slot k stop (R222). -/
def stopGrid (s : State) (k : Nat) : State :=
  (((s.onCores k Core.stop).onRouters k Router.stop).clearSlices k).clearEdges k

/-- The grid of slot k comes to its lap's boundary: what still ran stops, and ended cores read BOUNDARY (R65, R83). -/
def restGrid (s : State) (k : Nat) : State := (s.stopGrid k).onCores k Core.rest

/-- Fingerprints of the slot's slices at lap cycle 0 (R318). -/
def zeroSliceFps (s : State) (k : Nat) : State :=
  (s.slotSlices k).foldl (fun s j => if (s.ctl j).fp == 0 then s else s.setCtl j { s.ctl j with fp := 0 }) s

/-- Every router of slot k applies its latched entry, whose read meets the physical error pattern that errs gives; one that
cannot be corrected is GATE_UNCORRECTABLE at lap cycle 0 (R210, R212, R229). -/
def launchRouters (s : State) (k : Nat) (errs : Table (BitVec 160)) : State :=
  let err (n : Nat) : BitVec 160 := Table.get 0 n errs
  let own := s.grid.routers.filter (fun r => r.2.slot == k)
  let s := { s with grid := { s.grid with
    routers := Table.mapVals (fun n r => if r.slot == k then r.launch (err n) else r) s.grid.routers } }
  (own.filter (fun r => (Router.entryRead (err r.1)).isNone)).foldl (fun s r => s.routerFault r.1 Router.fGATEUNC) s

/-- Lap cycle 0 of an attempt of slot k (R53, R64, R130, R206, R212): first attempts take the entries named by the lap
before; replays use those of the first attempt. -/
def startGrid (s : State) (k : Nat) (first : Bool) (errs : Table (BitVec 160)) : State :=
  let s := if first then (s.onCores k (fun c => { c with entry := c.entryNext })).onRouters k (fun r => { r with entry := r.entryNext })
    else s
  (((s.clearSlices k).zeroSliceFps k).onCores k (fun c => c.launch (s.site c.site).fence)).launchRouters k errs

/-! The boundary. -/

/-- The first of the entries of an attempt (R84, R88). -/
def firstRec : List FaultRec → Option FaultRec
  | [] => none
  | r :: t => match firstRec t with
    | none => some r
    | some q => if FaultLe r q then some r else some q

/-- The attempt has a lap fault among its entries (R88). -/
def hasLapFault (l : List FaultRec) : Bool := l.any (fun r => isLapFault r.code)

/-- Ports with LECEL_UNCORRECTABLE or LECEL_DOWN among the entries (R513). -/
def portsFaulted (l : List FaultRec) : List Nat :=
  (l.filter (fun r => r.code == 0x50 || r.code == 0x52)).map (fun r => r.core - 0xA000)

/-- Cores whose word or gate entry was uncorrectable in the attempt (R510). -/
def reloadsOf (l : List FaultRec) : List Nat :=
  ((l.filter (fun r => (r.code == 0x20 || r.code == 0x31) && r.core < 0x8000)).map (fun r => r.core)).eraseDups

/-- An attempt that R513 passes over: its first entry is THERM_ABORT or SUPPLY_ABORT. -/
def passedOver (r : FaultRec) : Bool := r.code == pTHERM || r.code == pSUPPLY

/-- An attempt whose first trap arose on this device, LECEL_SKEW excluded (R513). -/
def ownTrap (r : FaultRec) : Bool := r.code != 0x51 && r.code != pPEER

/-- A Lecel link is lost (R513). -/
def loseLink (s : State) (p : Nat) : State := s.onLport p (fun x => { x with linkLost := true })

/-- The escalations of R513 for a faulted attempt whose first entry is r. -/
def escalate (s : State) (k : Nat) (r : FaultRec) : State :=
  if passedOver r then s
  else
    let x := s.slot k
    let ports := portsFaulted x.faults
    let s := match x.run with
      | q :: _ => if q.core == r.core && r.core < 0x8000 then s.decideFailed (s.core r.core).site else s
      | [] => s
    let s := (ports.filter (fun p => x.portsBad.contains p)).foldl loseLink s
    let run := r :: x.run
    let s := s.onSlot k (fun x => { x with run := run, portsBad := ports })
    if 8 ≤ run.length && (run.take 8).all ownTrap then s.loseDevice 3 else s

/-- A boundary at which the attempt of slot k is to be replayed (R292 step 1, R510, R513, R524). errs: what the reads of
repairs meet (R268). -/
def replayBoundary (s : State) (k : Nat) (errs : List BlockErr) : State :=
  let x := s.slot k
  let s := s.restGrid k
  let s := s.onSlot k (fun x => { x with
    stage := .idle, abortAt := none, faultDrive := none, provisional := none, digestDue := x.digestDue.filter (fun d => d.lap != x.lapNext)
    boundaryAt := s.now, faultBoundaryAt := some s.now, faultSince := some (x.faultSince.getD s.now)
    st := .replaying, attempt := .replay, admitted := false
    reloads := (x.reloads ++ reloadsOf x.faults).eraseDups, reloadFrom := none, pledged := false })
  let s := match firstRec x.faults with | some r => s.escalate k r | none => s
  let s := (s.repairFailed k errs).settleMemory
  s.faultedSites.resume k

/-- A faulted boundary (R88, R287): a lap fault is replayed, a program fault alone halts the course. DESIGN CHOICE
(assumption 13): what was raised in the attempt decides, though a report may still be on its way (R228); the boundary falls
24 cc after the ABORT, and the manual has no step that waits for the reports. -/
def faultedBoundary (s : State) (k : Nat) (errs : List BlockErr) : State :=
  let x := s.slot k
  let s := ({ s with grid := { s.grid with lapFaults := satAdd 64 s.grid.lapFaults 1 } }).tallyEvent 5 1
  if hasLapFault x.faults then s.replayBoundary k errs
  else
    let s := (s.restGrid k).onSlot k (fun x => { x with stage := .idle, abortAt := none, faultDrive := none, boundaryAt := s.now })
    (((s.tallyEvent 7 1).haltSlot k .programFault).settleMemory.faultedSites).resumeAll

/-- µs, rounded up, of a span in cc. -/
def microsUp (cc : Nat) : Nat := (cc + 1599) / 1600

/-- The end of a replay's interruption (R524). -/
def recovered (x : Slot) (now : Nat) : Slot :=
  match x.faultSince with
  | none => x
  | some t =>
    let m := min (2 ^ 32 - 1) (microsUp (now - t))
    { x with recoveryLast := m, recoveryMax := max x.recoveryMax m, faultSince := none }

/-- A lap of a VERIFY window completes (R325). -/
def verifyLap (s : State) (k : Nat) : State :=
  if 0 < (s.slot k).verifyLeft then
    (s.onSlot k (fun x => { x with verifyLeft := x.verifyLeft - 1, attPending := true })).fireSlot k 3
  else s

/-- Cores of slot k whose flags show DEEP (R80, R502). -/
def deepCores (s : State) (k : Nat) : Nat := (s.grid.cores.filter (fun c => c.2.slot == k && c.2.flags.getLsbD 4)).length

/-- What follows a completed lap, in the order of R292: staged site changes, a pause, or the next launch. -/
def afterLap (s : State) (k : Nat) : State := s.startSites.resume k

/-- The boundary of a completed lap (R81, R287, R292, R319, R320, R325, R509). -/
def completeLap (s : State) (k : Nat) : State :=
  let x := s.slot k
  let input := s.digestInput k
  let deep := s.deepCores k
  let s := s.observe 8 (deep : Int)
  let s := if 0 < deep then s.fireSlot k 6 else s
  let s := s.onCores k (fun c => { c.stop with phase := .boundary })
  let s := ((s.onRouters k Router.stop).clearSlices k).clearEdges k
  let s := s.onSlot k (fun x => { recovered x s.now with
    lapNext := x.lapNext + 1
    lapsDone := x.lapsDone + 1
    lapsLeft := if x.counted then x.lapsLeft - 1 else 0
    stage := .idle, attempt := .first, abortAt := none, faultDrive := none
    st := .running
    run := [], portsBad := [], failedBlocks := [], blocksBad := []
    boundaryAt := s.now
    provisional := if s.multi k || x.info.pairs then some ⟨x.lapNext, x.lapsDone, x.digestLog, x.lapDigest⟩ else none
    confirmed := false
    pairIn := (match x.pairIn with | some i => if i.1 == x.lapNext then some i else none | none => none)
    digestDue := x.digestDue ++ [⟨s.now + 6144, x.lapNext, input⟩] })
  let s := if x.attempt == .replay then s else s.onSlot k (fun x => { x with pairMiss := 0 })
  ((s.verifyLap k).settleMemory).afterLap k

/-- The now count of the boundary of slot k's attempt (R287). -/
def boundaryDue (s : State) (k : Nat) : Option Nat :=
  match (s.slot k).stage with
  | .running a => some (a + s.lapLen k + 24)
  | .aborted a t => some (min (t + 24) (a + s.lapLen k + 24))
  | _ => none

/-- The boundary of slot k's attempt, in its cycle: a slot that has halted only comes to rest. -/
def lapBoundary (s : State) (k : Nat) (errs : List BlockErr) : State :=
  if s.boundaryDue k != some s.now then s
  else if (s.slot k).st == .halted then
    (((s.restGrid k).onSlot k (fun x => { x with
      stage := .idle, abortAt := none, faultDrive := none, boundaryAt := s.now })).settleMemory.faultedSites).resumeAll
  else if (s.slot k).faults.isEmpty && (s.slot k).abortAt.isNone then s.completeLap k
  else s.faultedBoundary k errs

/-- The values before the last completion of slot k stand again (R323, R509). -/
def uncomplete (s : State) (k : Nat) : State :=
  match (s.slot k).provisional with
  | none => s
  | some v =>
    (s.refund k).onSlot k (fun x => { x with
      lapNext := v.lap, lapsDone := v.done, lapsLeft := if x.counted then x.lapsLeft + 1 else x.lapsLeft
      digestLog := v.log, lapDigest := v.digest, faultSince := some x.boundaryAt })

/-- A provisional completion is withdrawn (R509): the boundary becomes a faulted one, and the lap is replayed. -/
def withdraw (s : State) (k : Nat) : State :=
  if (s.slot k).provisional.isNone then s
  else
    let r : FaultRec := ⟨0xC000, pPEER, s.lapLen k - 1, 0⟩
    let s := ((s.uncomplete k).onSlot k (fun x => { x with faults := [r] })).enterFirst k (s.slot k).attemptNo r
    let s := ({ s with grid := { s.grid with lapFaults := satAdd 64 s.grid.lapFaults 1 } }).tallyEvent 5 1
    s.replayBoundary k []

/-! Pairs mode (R321 to R324). -/

/-- PAIR_STATE becomes SOLO (R324, R325, R483). -/
def enterSolo (s : State) (k : Nat) : State :=
  if (s.slot k).pairState == 2 then s
  else ((s.onSlot k (fun x => { x with pairState := 2 })).openWindow k .recovery).fireSlot k 5

/-- The last lap of slot k is confirmed, and its next launch may follow (R322). -/
def confirm (s : State) (k : Nat) : State :=
  (s.onSlot k (fun x => { x with confirmed := true, pairMiss := 0 })).resume k

/-- The lap slot k has completed last. -/
def lastLap (x : Slot) : Nat := x.lapNext - 1

/-- Compare the two digests of the last lap, once both are held (R322, R323). -/
def pairCheck (s : State) (k : Nat) : State :=
  let x := s.slot k
  match x.pairSent, x.pairIn, x.provisional with
  | some (n, _, mine, ev), some (m, theirs, ev'), some _ =>
    if x.confirmed || n != lastLap x || m != lastLap x then s
    else if mine == theirs then s.confirm k
    else
      let s := s.onSlot k (fun x => { x with pairMismatches := satAdd 32 x.pairMismatches 1 })
      if x.pairMiss == 0 then
        ((s.uncomplete k).onSlot k (fun x => { x with
          pairMiss := 1, pairEvidence := (ev, ev'), faults := [], pairIn := none, pairSent := none })).replayBoundary k []
      else
        let a := x.pairEvidence.1 || ev
        let b := x.pairEvidence.2 || ev'
        if a && !b then s.loseDevice 6
        else if b && !a then (s.enterSolo k).confirm k
        else ((s.uncomplete k).onSlot k (fun x => { x with faultSince := none })).haltSlot k .diverged
  | _, _, _ => s

/-- Send this member's digest to its partner (R322, R417). -/
def sendPair (s : State) (k lap : Nat) (digest : List Byte) (evidence : Bool) : State :=
  let p := s.partnerPort k
  (s.sendOn p (s.routeTo (s.acrossAddr p)) (.pairDigest (BitVec.ofNat 16 (ctagOf (s.slot k).info)) lap evidence digest)).onSlot k
    (fun x => { x with pairSent := some (lap, s.now, digest, evidence) })

/-- The first digest due now is ready (R320, R322): it is logged, and in pairs mode sent; a member alone confirms. -/
def digestReady (s : State) (k : Nat) : State :=
  match (s.slot k).digestDue with
  | [] => s
  | job :: rest =>
    if job.due != s.now then s
    else
      let n := job.lap
      let d := sha384 job.input
      let s := s.onSlot k (fun x => { x with
        lapDigest := (n, d), digestLog := Table.put (n % 64) (n, d) x.digestLog, digestDue := rest })
      if !(s.slot k).info.pairs || (s.slot k).provisional.isNone then s
      else if (s.slot k).pairState == 2 then s.confirm k
      else (s.sendPair k n d (s.slot k).evidence).pairCheck k

end State
end Sys2Proof.Machine
end

