-- ==== Sys2Proof/Machine/HostOps.lean ====
section
/-! DEFINITION. The host ports: response records, trailers, data commands, ownership and port resets
(R326 to R329, R376 to R397). -/
namespace Sys2Proof.Machine

/-! Records of the return area (R390, R391). -/

/-- Header of a response record. -/
def responseHeader (opcode flags slot len tag status rseq v0 v1 stamp : Nat) : List Byte :=
  leBytes 1 opcode ++ leBytes 1 flags ++ leBytes 1 slot ++ [0] ++ leBytes 4 len ++ leBytes 8 tag ++ leBytes 2 status
  ++ leBytes 6 0 ++ leBytes 8 rseq ++ leBytes 8 v0 ++ leBytes 8 v1 ++ leBytes 8 stamp ++ leBytes 8 0

/-- Bytes of a response after its header: payload and trailer, filled to a multiple of 64. -/
def Response.body (r : Response) : List Byte :=
  let b := r.payload ++ (match r.trailer with | .ready t => t | _ => [])
  b ++ List.replicate ((64 - b.length % 64) % 64) 0

/-- Size of a response's record. -/
def Response.size (r : Response) : Nat := 64 + r.body.length

/-- A response that does not wait for the key block. -/
def Response.postable (r : Response) : Bool := match r.trailer with | .signing => false | _ => true

/-- The port has a return area (R380). -/
def Port.hasReturn (q : Port) : Bool :=
  q.returnBase % 4096 == 0 && q.returnSize % 4096 == 0 && decide (131072 ≤ q.returnSize) && decide (q.returnSize ≤ 2 ^ 30)

/-- The record and the PAD that must come before it: the PAD's size, 0 when none is needed (R390). -/
def Port.padFor (q : Port) (size : Nat) : Nat :=
  let room := q.returnSize - q.returnTail % q.returnSize
  if room < size then room else 0

/-- The return area has room for a record, its PAD counted. -/
def Port.hasRoom (q : Port) (size : Nat) : Bool :=
  decide ((q.returnTail : Int) + q.padFor size + size - q.returnHead ≤ q.returnSize)

/-- QUIESCENT (R380); a command that waits inside the device is told by State. -/
def Port.quiet (q : Port) : Bool :=
  q.bufFree == 0xFFFFFFFF && q.job.isNone && q.remote.isNone && q.responses.isEmpty && q.async.isEmpty
    && q.returnHead == q.returnTail

/-- A run is to stop early with a status; a run whose last sweep is over has ended as it did (R350). -/
def MogulRun.stopBy (r : MogulRun) (st : Nat) : MogulRun := if r.ended then r else { r with stopping := some (r.stopping.getD st) }

/-- A signature in progress for port p whose response is discarded: its result goes nowhere (R397). -/
def SigJob.withoutPort (j : SigJob) (p : Nat) : SigJob :=
  match j with
  | .trailer r m => if r == p then .trailer 2 m else .trailer r m
  | .spdm e => .spdm e

namespace State

/-- A HALT_AT_BOUNDARY or a TAKEOVER of port p waits inside the device. -/
def portWaits (s : State) (p : Nat) : Bool :=
  (List.range 8).any (fun k =>
    (s.slot k).halt.any (fun h => h.1.port == p)
    || (match (s.slot k).takeover with | some (t, _) => t.port == p && t.tag < 2 ^ 64 | none => false))

/-- QUIESCENT of port p. -/
def quiescent (s : State) (p : Nat) : Bool := (s.port p).quiet && !s.portWaits p

/-- A packet of port p is executing: the next one may not start (R384, R390). -/
def portBusy (s : State) (p : Nat) : Bool :=
  let q := s.port p
  q.returnWait || q.job.isSome || q.remote.isSome || q.responses.any (fun r => r.sync) || s.portWaits p

/-- Set RETURN_WAIT; vector 2 fires when it becomes 1 (R392). -/
def waitReturn (s : State) (p : Nat) : State :=
  if (s.port p).returnWait then s else (s.onPort p (fun q => { q with returnWait := true })).msix p 2

/-- Write one record at RETURN_TAIL: what follows the header first (R390, R392). -/
def writeRecord (s : State) (p : Nat) (header body : List Byte) : State :=
  s.onPort p (fun q =>
    let a := q.returnBase + q.returnTail % q.returnSize
    { sendHost (sendHost q (a + 64) body) a header with
      returnTail := q.returnTail + 64 + body.length
      rseqLast := q.rseqLast + 1 })

/-- Write the PAD record that fills the area's end. -/
def writePad (s : State) (p size : Nat) : State :=
  if size == 0 then s
  else s.writeRecord p (responseHeader 0xFF 2 0xFF (size - 64) 0 0 ((s.port p).rseqLast + 1) 0 0 s.rink)
    (List.replicate (size - 64) 0)

/-- Write a response's record. -/
def writeResponse (s : State) (p : Nat) (r : Response) : State :=
  let q := s.port p
  let flags := match r.trailer with | .ready _ => 1 | _ => 0
  s.writeRecord p
    (responseHeader r.opcode flags r.slot r.payload.length r.tag r.status (q.rseqLast + 1) r.value0 r.value1 s.rink) r.body

/-- Post the first response of port p that is ready, or set RETURN_WAIT when the area has no room (R390, R392). -/
def postResponse (s : State) (p : Nat) : State :=
  let q := s.port p
  match q.responses.find? Response.postable with
  | none => s
  | some r =>
    if !q.hasReturn || !s.portSends p then s
    else if !q.hasRoom r.size then s.waitReturn p
    else
      let s := (s.writePad p (q.padFor r.size)).writeResponse p r
      let s := s.onPort p (fun q => { q with responses := q.responses.erase r, returnWait := false })
      if r.quiet then s else s.msix p 0

/-! Trailers (R326 to R329). -/

/-- DEVICE of a trailer. -/
def deviceWord (s : State) : Nat := s.link.row % 128 * 2 ^ 23 + s.link.col % 128 * 2 ^ 16 + s.link.gen % 2 ^ 16

/-- WINDOW of a trailer. -/
def windowCode (s : State) (k : Nat) : Nat :=
  if (s.slot k).attPending then
    (match (s.slot k).verifyCause with | .load => 1 | .recovery => 2 | .unseal => 4 | .none => 0)
  else if s.det.verifyMode == 1 then 3 else 0

/-- Bytes 0 to 319 of the trailer that slot k issues now. -/
def trailerBytes (s : State) (k : Nat) (result : List Byte) (addr : Nat) : List Byte :=
  let x := s.slot k
  asciiBytes "FSAT" ++ leBytes 2 1 ++ leBytes 1 k
  ++ leBytes 1 ((if s.det.strict && x.strictHeld then 1 else 0) + (if x.info.pairs then 2 else 0) + 4 * s.windowCode k)
  ++ leBytes 8 (x.attSeq + 1) ++ leBytes 8 s.rink ++ leBytes 4 s.deviceWord ++ leBytes 4 0
  ++ (sha384 s.sec.pubkey).take 32 ++ sliceBytes x.info.imageDigest 0 48 ++ sliceBytes x.info.immDigest 0 48
  ++ sha384 x.inputRecs ++ sha384 x.seedRecs ++ result ++ leBytes 8 x.lapNext ++ leBytes 8 addr

/-- Issue a trailer for slot k: the running digests restart after it (R327, R328). -/
def issueTrailer (s : State) (k : Nat) (result : List Byte) (addr : Nat) : List Byte × State :=
  (s.trailerBytes k result addr,
   s.onSlot k (fun x => { x with attSeq := x.attSeq + 1, inputRecs := [], seedRecs := [], strictHeld := true }))

/-- A signature of the other port is taken first when both ports wait (R534). -/
def nextSignature (s : State) : Option SigJob :=
  let of (p : Nat) := s.sec.sigQueue.find? (fun j => match j with | .trailer q _ => q == p | .spdm _ => false)
  match of (1 - s.sec.turn) with
  | some j => some j
  | none => match of s.sec.turn with
    | some j => some j
    | none => s.sec.sigQueue.head?

/-- Start the next signature when the key block is free and has its key. -/
def startSigning (s : State) : State :=
  if s.sec.signing.isSome || s.sec.identity != 1 || !s.isOn 1 then s
  else match s.nextSignature with
    | none => s
    | some j => { s with sec := { s.sec with
        signing := some (j, s.now), sigQueue := s.sec.sigQueue.erase j
        turn := (match j with | .trailer p _ => p | .spdm _ => s.sec.turn) } }

/-- Respond with a trailer: it waits for its signature, or carries zeros on a device without identity (R329, R532). -/
def respondSigned (s : State) (p : Nat) (r : Response) (message : List Byte) : State :=
  if 2 ≤ p then s
  else if s.sec.identity == 2 then s.respond p { r with trailer := .ready (message ++ List.replicate 96 0) }
  else
    let s := s.respond p { r with trailer := .signing }
    ({ s with sec := { s.sec with sigQueue := s.sec.sigQueue ++ [SigJob.trailer p message] } }).startSigning

/-- The trailer's signature is made: the first response of the port that waits for one takes it. The signature for a response
that a reset of its port has discarded bears no port (R397). -/
def giveSignature (s : State) (p : Nat) (bytes : List Byte) : State :=
  if 2 ≤ p then s else s.onPort p (fun q => { q with
    responses := match q.responses.find? (fun r => !r.postable) with
      | some r => q.responses.map (fun x => if x == r then { x with trailer := .ready bytes } else x)
      | none => q.responses })

/-! Data commands (R326, R386). -/

/-- SLOT of the response to a data command: its course's slot for a read, else 0xFF (R386). -/
def dataSlot (write : Bool) (slot : Option Nat) : Nat := if write then 0xFF else slot.getD 0xFF

/-- Answer a data command that has ended. -/
def finishJob (s : State) (p : Nat) (q : DataJob) : State :=
  let s := s.onPort p (fun x => { x with job := none })
  let base : Response := ⟨if q.write then 0x20 else 0x21, dataSlot q.write q.slot, q.tag, q.status, 0, 0, [], q.quiet, true, .none⟩
  let p := if q.discard then 2 else p
  if q.status != stOK then s.respond p base
  else if q.write then s.respond p { base with value0 := q.count }
  else
    match q.slot with
    | none => s.respond p { base with payload := q.data }
    | some k =>
      if (s.slot k).attPending || s.det.verifyMode == 1 then
        let t := s.issueTrailer k (sha384 q.data) q.la
        t.2.respondSigned p { base with payload := q.data } t.1
      else s.respond p { base with payload := q.data }

/-- One line of the data command numbered id is done; the last one answers it. The number's parity is the port. -/
def jobLine (s : State) (id : Nat) (f : DataJob → DataJob) : State :=
  let p := id % 2
  match (s.port p).job with
  | none => s
  | some q =>
    if q.id != id then s
    else
      let q := { f q with left := q.left - 1 }
      if q.left == 0 then s.finishJob p q else s.onPort p (fun x => { x with job := some q })

/-! Seals that end early (R297). -/

/-- End a seal: the slot is PAUSED as before it, and the SEAL is answered. -/
def endSeal (s : State) (k status : Nat) : State :=
  match (s.slot k).sealJob with
  | none => s
  | some j =>
    let back := (s.slot k).st == .sealing
    let s := s.onSlot k (fun x => { x with st := if back then .paused else x.st, sealJob := none })
    let s := if back then (s.fireSlot k 4).fireSlot k 1 else s.fireSlot k 4
    s.answerTicket j.ticket 0x32 k status j.seq j.bytes [] true

/-- Length of port p's seal area, and its host address (R294, R301). -/
def sealLength (s : State) (p : Nat) : Nat := fieldLE (Table.get [] p s.sealAreas) 8 8
def sealAddress (s : State) (p : Nat) : Nat := fieldLE (Table.get [] p s.sealAreas) 0 8

/-- Port p has room for n more bytes of its seal area, and may write. -/
def sealRoom (s : State) (n p : Nat) : Bool :=
  let q := s.port p
  s.portSends p && decide ((q.sealTail : Int) + n - q.sealHead ≤ s.sealLength p)

/-- Write bytes into the seal area of port p, as a ring. -/
def sealWrite (bytes : List Byte) (s : State) (p : Nat) : State :=
  let len := s.sealLength p
  let at_ := (s.port p).sealTail % len
  s.onPort p (fun q => { sendHost (sendHost q (s.sealAddress p + at_) (bytes.take (len - at_))) (s.sealAddress p) (bytes.drop (len - at_))
    with sealTail := q.sealTail + bytes.length })

/-- A seal record: its header and its payload (R295). -/
def sealRecord (j : SealJob) (type : Nat) (payload : List Byte) : List Byte :=
  leBytes 2 type ++ leBytes 2 0 ++ leBytes 4 payload.length ++ leBytes 8 j.seq ++ leBytes 8 j.sealId ++ List.replicate 40 0 ++ payload

/-- A seal that uses port p loses it by a reset, or (link: true) with its link: the rest is an ABORT record, to the other port
when the seal has one, else to the port itself, if it still can write it (R297). -/
def abortSealOn (s : State) (p : Nat) (link : Bool) (k : Nat) : State :=
  match (s.slot k).sealJob with
  | none => s
  | some j =>
    if !j.split && j.owner != p then s
    else
      let t := if j.ticket.port == p then { j.ticket with port := 0xFF } else j.ticket
      let left := j.split && j.dead.isNone
      let j := { j with ticket := t, dead := some p, abort := some stPORT_LOST, todo := [(0xFF, leBytes 2 stPORT_LOST, [])] }
      let s := s.onSlot k (fun x => { x with sealJob := some j })
      let r := sealRecord j 0xFF (leBytes 2 stPORT_LOST)
      if left then s
      else if !j.split && !link && s.sealRoom r.length p then
        ((sealWrite r s p).onSlot k (fun x => { x with
          sealJob := some { j with seq := j.seq + 1, bytes := j.bytes + r.length }, sealProgress := j.bytes + r.length })).endSeal k stPORT_LOST
      else s.endSeal k stPORT_LOST

/-! Ownership (R394 to R396). -/

/-- Port p owns slot k. -/
def owns (s : State) (p k : Nat) : Bool := (s.slot k).owner == p + 1

/-- Answer a TAKEOVER write that has been resolved: its packet's response, or the answer of the access. -/
def answerTakeover (s : State) (k status : Nat) : State :=
  match (s.slot k).takeover with
  | none => s
  | some (t, _) =>
    let s := s.onSlot k (fun x => { x with takeover := none })
    if t.tag < 2 ^ 64 then
      s.respond t.port ⟨0x02, 0xFF, t.tag, status, if status == stOK then 0x0302 + 2 ^ 32 else 0, 0, [], t.quiet, true, .none⟩
    else { s with dict := { s.dict with answer := some ⟨status, []⟩ } }

/-- A response to a LAUNCH of slot k. -/
def launchResponse (k : Nat) (r : Response) : Bool := r.opcode == 0x30 && r.slot == k

/-- Ownership of slot k moves to port p, and with it its LAUNCH response, whether it is still to come or waits to be posted
(R396). -/
def moveOwner (s : State) (k p : Nat) : State :=
  let held := (s.port (1 - p)).responses.filter (launchResponse k)
  let s := s.onPort (1 - p) (fun q => { q with
    responses := q.responses.filter (fun r => !launchResponse k r)
    returnWait := q.returnWait && q.responses.any (fun r => !launchResponse k r && r.postable) })
  let s := s.onPort p (fun q => { q with responses := q.responses ++ held })
  let s := match (s.slot k).launchTicket with
    | none => s
    | some t =>
      let s := if t.port < 2 then s.onPort t.port (fun q => { q with async := q.async.erase t }) else s
      let t' := { t with port := p }
      (s.onPort p (fun q => { q with async := q.async ++ [t'] })).onSlot k (fun x => { x with launchTicket := some t' })
  s.onSlot k (fun x => { x with owner := p + 1 })

/-! Port resets (R397). -/

/-- What a reset of port p does to slot k. -/
def portResetSlot (p : Nat) (link : Bool) (s : State) (k : Nat) : State :=
  let s := s.abortSealOn p link k
  let s := s.onSlot k (fun x => { x with
    launchTicket := (match x.launchTicket with | some t => if t.port == p then none else some t | none => none)
    halt := x.halt.map (fun h => (if h.1.port == p then { h.1 with port := 0xFF } else h.1, h.2))
    takeover := (match x.takeover with | some t => if t.1.port == p then none else some t | none => none) })
  let x := s.slot k
  if x.st == .loading && x.owner == p + 1 then s.emptySlot k
  else if x.st == .unsealing && x.owner == p + 1 then s.haltSlot k .unsealFailed
  else s

/-- Mogul runs of port p end without a response (R350, R397). -/
def portResetMogul (s : State) (p : Nat) : State :=
  let f (r : MogulRun) : MogulRun :=
    if r.ticket.port == p then { r.stopBy stMOGUL_STOPPED with respond := false } else r
  { s with mogul := { s.mogul with runW := s.mogul.runW.map f, runE := s.mogul.runE.map f } }

/-- The interrupt target of port p at the port's reset (R492): its stack empties, and its ACTIVE sources end. -/
def portResetTarget (s : State) (p : Nat) : State :=
  let one (n : Nat) (x : Source) : Source := if s.targetOf n == p then { x with active := false } else x
  let t := { s with irq := { s.irq with
    sources := Table.mapVals one s.irq.sources, targets := Table.put p ⟨none, []⟩ s.irq.targets } }
  irqUpdate s t

/-- Number of the key of stream n of port p in the cipher block (0: the link stream). -/
def ideKey (p n : Nat) : Nat := if n == 0 then p else 7 + 4 * p + n

/-- A key of the cipher block is one of port p's IDE keys. -/
def ideKeyOf (p k : Nat) : Bool := (List.range 5).any (fun n => ideKey p n == k)

/-- The reset of a port, by FLR or (link: true) by the loss of its link (R397): what the table names, on that port
alone. A packet that executes completes, and its response is discarded. -/
def portReset (s : State) (p : Nat) (link : Bool) : State :=
  let s := (List.range 8).foldl (portResetSlot p link) s
  let s := (s.portResetMogul p).portResetTarget p
  let q := s.port p
  let s := { s with sec := { s.sec with
    sigQueue := s.sec.sigQueue.filter (fun j => match j with | .trailer r _ => r != p | .spdm _ => true)
    signing := s.sec.signing.map (fun (x : SigJob × Nat) => (x.1.withoutPort p, x.2))
    ide := Table.erase p s.sec.ide
    installs := s.sec.installs.filter (fun k => !ideKeyOf p k)
    installed := s.sec.installed.filter (fun k => !ideKeyOf p k) } }
  s.setPort p { Port.fresh with
    sent := q.sent
    msixSent := q.msixSent
    linkUp := q.linkUp && !link
    linkWidth := if link then 0 else q.linkWidth
    perst := q.perst
    ideRequired := q.ideRequired
    job := q.job.map (fun (j : DataJob) => { j with discard := true })
    remote := q.remote.map (fun (r : RemoteReq) => { r with discard := true })
    maxPayload := if link then 128 else q.maxPayload
    packets := q.packets
    ideFails := q.ideFails
    flrs := satAdd 32 q.flrs 1 }

end State
end Sys2Proof.Machine
end

