-- ==== Sys2Proof/Machine/Image.lean ====
section
/-! DEFINITION. Course images: their parts, the loader's checks 2 to 22 and what a load leaves (R274 to R283, R152 to R156,
R214, R250, R255 to R264, R411, R412, R520, R535). -/
namespace Sys2Proof.Machine

/-! Header (R274, R275). -/

/-- The header's fields. -/
structure ImgHeader where
  al : Nat
  flags : Nat
  rows : Nat
  first : Nat
  width : Nat
  priority : Nat
  lapFrames : Nat
  devRows : Nat
  devCols : Nat
  streams : Nat
  bound : Nat
  sections : Nat
  length : Nat
  courseId : Nat
  deriving DecidableEq, Repr

/-- The header in the first 128 bytes of an image. -/
def headerOf (b : List Byte) : ImgHeader where
  al := fieldLE b 10 1
  flags := fieldLE b 11 1
  rows := fieldLE b 12 1
  first := fieldLE b 13 1
  width := fieldLE b 14 1
  priority := fieldLE b 15 1
  lapFrames := fieldLE b 16 2
  devRows := fieldLE b 18 1
  devCols := fieldLE b 19 1
  streams := fieldLE b 20 4
  bound := fieldLE b 24 4
  sections := fieldLE b 28 4
  length := fieldLE b 32 8
  courseId := fieldLE b 40 8

def ImgHeader.signed (h : ImgHeader) : Bool := h.flags % 2 == 1
def ImgHeader.pairs (h : ImgHeader) : Bool := h.flags / 2 % 2 == 1

/-- Bytes of the whole image: header and sections, digest, and the signature block of a SIGNED one. -/
def ImgHeader.total (h : ImgHeader) : Nat := h.length + 48 + (if h.signed then 104 else 0)

/-- The part of check 2 that the header alone decides (R281). -/
def headerValid (b : List Byte) : Bool :=
  let h := headerOf b
  b.take 8 == asciiBytes "FLIOSCRS" && fieldLE b 8 2 == 1 && allZero (sliceBytes b 48 80) && decide (h.flags < 4)
  && (h.rows == 72 || h.rows == 76 || h.rows == 80)
  && h.first % 16 == 0 && h.width % 16 == 0 && decide (16 ≤ h.width) && decide (h.first + h.width ≤ 128)
  && decide (h.priority ≤ 15) && decide (1 ≤ h.devRows) && decide (h.devRows ≤ 128)
  && decide (1 ≤ h.devCols) && decide (h.devCols ≤ 128) && decide (1 ≤ h.streams) && decide (h.streams ≤ 65536)

/-! Sections (R276). -/

/-- A section. -/
structure Section where
  type : Nat
  dev : Nat
  payload : List Byte
  deriving DecidableEq, Repr

/-- What the bytes received so far say of the sections. -/
inductive Walk where
  | bad | more | done (l : List Section)
  deriving DecidableEq, Repr

/-- A section may follow one of the given type and device. -/
def follows (a b : Nat × Nat) : Bool := a.1 < b.1 || (a.1 == b.1 && (a.2 < b.2 || (a.2 == b.2 && b.1 == 3)))

/-- The sections in the bytes rest, of which left are still to come up to IMAGE_LENGTH; n sections are announced. -/
def walkSections : Nat → List Byte → Nat → Nat × Nat → List Section → Walk
  | 0, _, left, _, acc => if left == 0 then .done acc.reverse else .bad
  | n + 1, rest, left, last, acc =>
    if left < 16 then .bad
    else if rest.length < 16 then .more
    else
      let t := fieldLE rest 0 2
      let d := fieldLE rest 2 2
      let len := fieldLE rest 8 8
      if !(1 ≤ t && t ≤ 6) || fieldLE rest 4 4 != 0 || !follows last (t, d) || left < 16 + len then .bad
      else if rest.length < 16 + len then .more
      else walkSections n (rest.drop (16 + len)) (left - 16 - len) (t, d) (⟨t, d, (rest.drop 16).take len⟩ :: acc)

/-- Apart from FILL, at most one section of a type applies to a device. -/
def sectionsUnique (devices : Nat) (l : List Section) : Bool :=
  l.all (fun x => x.type == 3 || x.dev != 0xFFFF || !(l.any (fun y => y.type == x.type && y.dev < devices)))

/-- The sections of one type that apply to device d. -/
def sectionsFor (d t : Nat) (l : List Section) : List Section := l.filter (fun x => x.type == t && (x.dev == 0xFFFF || x.dev == d))

/-- Payload of the section of a type that applies to device d; none when there is none. -/
def payloadFor (d t : Nat) (l : List Section) : Option (List Byte) := ((sectionsFor d t l).head?).map (fun x => x.payload)

/-! EDGE (R255, R256, R276). -/

/-- The 16-bit words of a byte string that are not zero, by position. -/
def sparseWords (b : List Byte) : Table (BitVec 16) :=
  ((chunksOf 2 (b.length / 2 + 1) b).zipIdx.map (fun x => (x.2, BitVec.ofNat 16 (ofLE x.1)))).filter (fun x => x.2 != 0)

/-- The tables of an EDGE payload, at most n of them; none when its form is broken. -/
def edgeTables : Nat → List Byte → Option (List EdgeTable)
  | _, [] => some []
  | 0, _ => none
  | n + 1, b =>
    let pages := fieldLE b 1 1
    let len := 16 + 32768 * pages
    if b.length < len || pages == 0 || 16 < pages || !allZero (sliceBytes b 2 14) then none
    else (edgeTables n (b.drop len)).map (fun l => ⟨fieldLE b 0 1, pages, sparseWords ((b.drop 16).take (32768 * pages))⟩ :: l)

/-- The form of one section (R276): its length, and the RSVD bytes at its head. -/
def sectionFormed (h : ImgHeader) (x : Section) : Bool :=
  let n := x.payload.length
  match x.type with
  | 1 => n == 16 * h.streams + 224
  | 2 => decide (16 ≤ n) && allZero (sliceBytes x.payload 4 12) && n == 16 + 16 * fieldLE x.payload 0 4
  | 3 => decide (16 ≤ n) && fieldLE x.payload 12 4 == 0 && n == 16 + 64 * fieldLE x.payload 8 4
  | 4 => n % 32 == 0
  | 5 => (edgeTables 16 x.payload).isSome
  | _ => true

/-- The part of check 2 that the sections decide for device d: a course has streams (R275). -/
def sectionsValid (h : ImgHeader) (d : Nat) (l : List Section) : Bool :=
  sectionsUnique (h.devRows * h.devCols) l && l.all (sectionFormed h) && (payloadFor d 1 l).isSome

/-! STREAMS and EXTENTS (R153, R156, R261, R262). -/

/-- The n 16-byte entries of a payload from offset off. -/
def entries16 (b : List Byte) (off n : Nat) : List Nat := (chunksOf 16 n (b.drop off)).map ofLE

/-- Declarations of a STREAMS payload. -/
def streamDecls (h : ImgHeader) (b : List Byte) : List Nat := entries16 b 0 h.streams

/-- A declaration that STREAM_FORMAT does not refuse (R156). DESIGN CHOICE (assumption 17): non-zero STATE or SLOT bits, which
R276 has zero and R156 does not name, are refused with it. -/
def declFormed (e : Nat) : Bool :=
  bitsOf e 127 120 == 0 && bitsOf e 109 96 == 0 && bitsOf e 111 110 != 3 && decide (bitsOf e 115 112 ≤ 7)
  && !(bitsOf e 111 110 == 1 && bitsOf e 95 80 == 0)

/-- The declared draws are in range (R156). -/
def declDraws (e : Nat) : Bool := 1 ≤ bitsOf e 31 0 && bitsOf e 31 0 ≤ 2 ^ 24

/-- The stream table entry of a declaration in slot k: BOUND, DRAWMAX one less than the declared draws (R153, R156). -/
def declEntry (k e : Nat) : BitVec 128 :=
  BitVec.ofNat 128 (2 ^ 126 + k % 8 * 2 ^ 123 + (e / 2 ^ 32 % 2 ^ 88) * 2 ^ 32 + (bitsOf e 31 0 - 1))

/-- The seeds of a STREAMS payload. -/
def imageSeeds (h : ImgHeader) (b : List Byte) : Table (BitVec 112) :=
  (List.range 16).map (fun i => (i, BitVec.ofNat 112 (fieldLE b (16 * h.streams + 14 * i) 14)))

/-- An extent from its entry. -/
def extentOf (e : Nat) : Extent := ⟨bitsOf e 127 125, bitsOf e 124 123, bitsOf e 119 87, bitsOf e 86 54, bitsOf e 53 35⟩

/-- Entries of an EXTENTS payload. -/
def extentEntries (b : List Byte) : List Nat := entries16 b 16 (fieldLE b 0 4)

/-- A policy its class permits (R262). -/
def policyPermitted (cls policy : Nat) : Bool :=
  (1 ≤ cls && cls ≤ 4 && policy == 0) || ((cls == 1 || cls == 2 || cls == 4) && policy == 1) || (cls == 3 && policy == 2)

/-- A run of blocks from line la lies among the open blocks of one bank set, in a stack that the stripe reaches. -/
def runPlaced (first width la count : Nat) : Bool :=
  laSlice la ≤ 479 && laBlock la + count ≤ openBlocks && stripeReaches first width (sliceStack (laSlice la))

/-- An extent entry that MEMORY_MAP does not refuse by itself (R261, R264). -/
def extentValid (first width e : Nat) : Bool :=
  let x := extentOf e
  policyPermitted x.cls x.policy && bitsOf e 122 120 == 0 && bitsOf e 34 0 == 0 && decide (1 ≤ x.count)
  && runPlaced first width x.first x.count
  && (if x.policy == 1 then
        runPlaced first width x.mla x.count && sliceStack (laSlice x.mla) != sliceStack (laSlice x.first)
      else x.mla == 0)

/-- The copies of a list of extents: first line, blocks, class, whether it is the primary. -/
def extentCopies (l : List Extent) : List (Nat × Nat × Nat × Bool) :=
  l.flatMap (fun e => (e.first, e.count, e.cls, true) :: (if e.policy == 1 then [(e.mla, e.count, e.cls, false)] else []))

/-- Lines that two runs share. -/
def sharedLines (a n b m : Nat) : Nat := min (a + n) (b + m) - max a b

/-- No two copies share a line. -/
def copiesApart : List (Nat × Nat × Nat × Bool) → Bool
  | [] => true
  | x :: t => t.all (fun y => sharedLines x.1 x.2.1 y.1 y.2.1 == 0) && copiesApart t

/-- Every line of a run lies in a copy that satisfies f; the copies do not overlap. -/
def runCovered (l : List (Nat × Nat × Nat × Bool)) (f : Nat → Bool → Bool) (la n : Nat) : Bool :=
  ((l.filter (fun c => f c.2.2.1 c.2.2.2)).map (fun c => sharedLines c.1 c.2.1 la n)).sum == n

/-- Some line of a run lies in a copy of class cls. -/
def runTouches (l : List (Nat × Nat × Nat × Bool)) (cls la n : Nat) : Bool :=
  l.any (fun c => c.2.2.1 == cls && sharedLines c.1 c.2.1 la n != 0)

/-- A run lies inside one primary copy whose class is among those given. -/
def runInside (l : List (Nat × Nat × Nat × Bool)) (cls : List Nat) (la n : Nat) : Bool :=
  l.any (fun c => c.2.2.2 && cls.contains c.2.2.1 && c.1 ≤ la && la + n ≤ c.1 + c.2.1)

/-! FILL and CORE (R276 to R278). -/

/-- First line and bytes of a FILL. -/
def fillOf (x : Section) : Nat × List Byte := (fieldLE x.payload 0 8, x.payload.drop 16)

/-- The contents the fills give to HBM, which is zero elsewhere in the extents (R262). -/
def filled (l : List (Nat × List Byte)) : Memory := l.foldl (fun (m : Memory) f => m.patch (64 * f.1) f.2) []

/-- A CORE record. -/
structure CoreRec where
  x : Nat
  y : Nat
  flags : Nat
  rsvd : Nat
  dtop : Nat
  itop : Nat
  entry : Nat
  gateEntry : Nat
  gateCount : Nat
  golden : Nat
  deriving DecidableEq, Repr

/-- The record in 32 bytes. -/
def coreRecOf (b : List Byte) : CoreRec where
  x := fieldLE b 0 1
  y := fieldLE b 1 1
  flags := fieldLE b 2 1
  rsvd := fieldLE b 3 1 + fieldLE b 24 8
  dtop := fieldLE b 4 4
  itop := fieldLE b 8 2
  entry := fieldLE b 10 2
  gateEntry := fieldLE b 12 2
  gateCount := fieldLE b 14 2
  golden := fieldLE b 16 8

/-- The records of a CORE payload. -/
def coreRecs (b : List Byte) : List CoreRec := (chunksOf 32 (b.length / 32 + 1) b).map coreRecOf

/-- Core number of a record. -/
def CoreRec.core (c : CoreRec) : Nat := 128 * c.y + c.x

/-- Lines of a record's golden record (R278). -/
def CoreRec.lines (c : CoreRec) : Nat := c.dtop / 64 + c.itop / 4 + 6 + (c.gateCount + 3) / 4

/-- A record of the list that check 17 accepts: in range under R277, its core in the stripe and in no other record. More than
512 gate entries are GATE_FORMAT's to refuse (R214; DEDUCED, assumption 17). -/
def coreRecValid (h : ImgHeader) (l : List (Nat × Nat × Nat × Bool)) (recs : List CoreRec) (c : CoreRec) : Bool :=
  c.rsvd == 0 && decide (c.x ≤ 127) && decide (c.y < h.rows) && decide (h.first ≤ c.x) && decide (c.x < h.first + h.width)
  && (recs.filter (fun r => r.core == c.core)).length == 1 && decide (c.flags ≤ 3) && c.dtop % 64 == 0 && decide (c.dtop ≤ 0x30000)
  && c.itop % 4 == 0 && decide (c.itop ≤ 2048) && decide (c.entry ≤ 2047) && decide (c.gateEntry ≤ 511)
  && decide (1 ≤ c.gateCount) && decide (c.golden < 2 ^ 33)
  && runInside l [1] c.golden c.lines

/-- The logical cores of a stripe in ascending core number. -/
def stripeCores (rows first width : Nat) : List Nat :=
  (List.range rows).flatMap (fun y => (List.range width).map (fun x => 128 * y + first + x))

/-! Windows (R250, R264, check 15). -/

/-- The 48 window entries of a golden record. -/
def recWindows (m : Memory) (c : CoreRec) : List (BitVec 64) :=
  (chunksOf 8 48 (m.readBytes (64 * c.golden + State.goldenWindows c.dtop c.itop) 384)).map (fun b => BitVec.ofNat 64 (ofLE b))

/-- The ring of a slot: its entries up to the first LAST; none when their number is not 1, 2, 4, 8 or 16. -/
def ringOf (l : List (BitVec 64)) : Option (List (BitVec 64)) :=
  let n := ((l.take 16).takeWhile (fun w => !w.getLsbD 63)).length + 1
  if n == 1 || n == 2 || n == 4 || n == 8 || n == 16 then some (l.take n) else none

/-- The rings of a record; none when one is broken. -/
def recRings (m : Memory) (c : CoreRec) : Option (List (List (BitVec 64))) :=
  let w := recWindows m c
  match ringOf w, ringOf (w.drop 16), ringOf (w.drop 32) with
  | some a, some b, some d => some [a, b, d]
  | _, _, _ => none

/-- Fields of a window entry. -/
def winSlice (w : BitVec 64) : Nat := Core.winField w 56 48
def winPeriod (w : BitVec 64) : Nat := Core.winField w 47 42
def winAlt (w : BitVec 64) : Bool := w.getLsbD 61

/-- First line of a window, and its lines, both carry slots included (R251). -/
def winFirst (w : BitVec 64) : Nat := lineOf (winSlice w) (winPeriod w % 32) (Core.winField w 36 18)
def winLines (w : BitVec 64) : Nat := 2 ^ Core.winField w 41 37 * (if winAlt w then 2 else 1)

/-- A window entry that MEMORY_MAP does not refuse. -/
def winValid (l : List (Nat × Nat × Nat × Bool)) (w : BitVec 64) : Bool :=
  Core.winField w 59 57 == 0 && decide (winSlice w ≤ 479) && decide (Core.winField w 41 37 ≤ 18) && decide (8 ≤ Core.winField w 9 0)
  && decide (Core.winField w 36 18 + winLines w ≤ openBlocks)
  && runCovered l (fun _ _ => true) (winFirst w) (winLines w)
  && !(w.getLsbD 62 && runTouches l 1 (winFirst w) (winLines w))

/-- A window entry that check 15 accepts. -/
def winCarry (l : List (Nat × Nat × Nat × Bool)) (w : BitVec 64) : Bool :=
  (!(w.getLsbD 62 && runTouches l 2 (winFirst w) (winLines w)) || (winAlt w && w.getLsbD 60))
  && (!winAlt w || runCovered l (fun c _ => c == 2) (winFirst w) (winLines w))

/-- No number twice. -/
def noneTwice : List Nat → Bool
  | [] => true
  | a :: t => !t.contains a && noneTwice t

/-- No two entries name one slice and period in a frame phase. -/
def phasesApart (rings : List (List (BitVec 64))) : Bool :=
  (List.range 16).all (fun f => noneTwice (rings.map (fun r =>
    let w := r.getD (f % r.length) 0
    64 * winSlice w + winPeriod w)))

/-! Edge tables (R256, R257, R264). -/

/-- An edge entry at place i of its table that MEMORY_MAP does not refuse: not on a reserved transfer, and within the
windows of R257. -/
def edgeEntryValid (i : Nat) (e : BitVec 16) : Bool :=
  let c := i % 16384 / 64
  let t := i / 2 % 2
  let p := 4 * State.edgePeriod e
  if !State.edgeValid e then true
  else if State.edgeSlice e > 29 || e.getLsbD 5 then false
  else if i % 2 == 0 then
    let d := (p + 256 - c) % 256
    State.edgeRole e ≤ 4 && !(t == 1 && c % 8 == 5) && 2 ≤ d && d ≤ 64
  else
    let d := (c + 256 - p) % 256
    State.edgeRole e ≤ 3 && !(t == 1 && c % 8 == 7) && 64 ≤ d && d ≤ 127

/-- The edge tables that MEMORY_MAP does not refuse. -/
def edgesValid (first width : Nat) (l : List EdgeTable) : Bool :=
  l.all (fun t => t.stack ≤ 15 && stripeReaches first width t.stack && t.entries.all (fun e => edgeEntryValid e.1 e.2))
  && noneTwice (l.map (fun t => t.stack))

/-! Gate entries (R211, R214). -/

/-- Gate table of a record. -/
def recGates (m : Memory) (c : CoreRec) : List Nat :=
  (chunksOf 16 c.gateCount (m.readBytes (64 * c.golden + State.goldenGates c.dtop c.itop) (16 * c.gateCount))).map ofLE

/-- A gate entry of the core in column x that GATE_FORMAT does not refuse. -/
def gateValid (first width x e : Nat) : Bool :=
  let opens := bitOf e 125 == 1 || bitOf e 124 == 1
  let stop := bitsOf e 127 126 == 3
  !(bitOf e 125 == 1 && bitOf e 124 == 1) && !(stop && opens)
  && !(stop && bitsOf e 123 121 != 0) && !(!stop && !opens && bitsOf e 123 112 != 0)
  && decide (bitsOf e 31 29 ≤ 5) && bitsOf e 22 0 == 0
  && !(x == first && x != 0 && bitsOf e 75 68 != 0)
  && !(x + 1 == first + width && x != 127 && bitsOf e 91 84 != 0)

/-! LECEL (R402, R408, R411, R412, R520). -/

/-- The ports of a LECEL payload, in ascending order, and its page count. -/
def lecelPortList (b : List Byte) : List Nat := (List.range 4).filter (fun p => bitOf (fieldLE b 1 1) p == 1)
def lecelPages (b : List Byte) : Nat := fieldLE b 0 1

/-- Entry of port number i of the list, page q, ingress (d = 1) or egress, Lecel frame j, slot k. -/
def lecelEntry (b : List Byte) (i q d j k : Nat) : Nat :=
  fieldLE b (16 + (i * lecelPages b + q) * 7600 + 3800 * d + 2 * (38 * j + (k - 1))) 2

/-- The first cycle of Lecel frame j within its frame, plus 496: 512 cc after its capture (R408). -/
def lecelStart (j : Nat) : Nat := 128 * j / 25

/-- An entry is VALID; its transfer and row. -/
def lecelValid (e : Nat) : Bool := bitOf e 15 == 1
def lecelTr (e : Nat) : Nat := bitOf e 7
def lecelRow (e : Nat) : Nat := bitsOf e 6 0

/-- The form of a LECEL payload (R411). -/
def lecelFormed (b : List Byte) : Bool :=
  decide (16 ≤ b.length) && decide (1 ≤ lecelPages b) && decide (lecelPages b ≤ 16) && decide (fieldLE b 1 1 ≤ 15)
  && allZero (sliceBytes b 2 14) && b.length == 16 + (lecelPortList b).length * lecelPages b * 7600
  && (chunksOf 2 (b.length / 2) (b.drop 16)).all (fun e => bitsOf (ofLE e) 14 8 == 0)

/-- Every entry of a page direction satisfies f, given its Lecel frame and slot. -/
def pageAll (b : List Byte) (i q d : Nat) (f : Nat → Nat → Nat → Bool) : Bool :=
  (List.range 50).all (fun j => (List.range 38).all (fun k => f j (k + 1) (lecelEntry b i q d j (k + 1))))

/-- An entry of the page names a row below rows (DEDUCED, assumption 17: whether it is VALID or not); a VALID one no reserved
cycle, and egress is not captured before lap cycle 0, ingress not delivered after the lap's last cycle. -/
def pageValid (h : ImgHeader) (b : List Byte) (i q : Nat) : Bool :=
  let laps := (List.range h.lapFrames).filter (fun f => f % lecelPages b == q)
  let last := laps.getLast?.getD 0
  [0, 1].all (fun d => pageAll b i q d (fun j _ e => decide (lecelRow e < h.rows) && (!lecelValid e ||
    (!(lecelTr e == 1 && lecelStart j % 8 == 7)
     && (if d == 0 then !(q == 0 && lecelStart j < 16)
         else laps.isEmpty || decide (256 * last + lecelStart j + 496 < 256 * h.lapFrames))))))

/-- Rows and transfers that a port's page delivers to in Lecel frame j. -/
def delivers (b : List Byte) (i q j : Nat) : List Nat :=
  ((List.range 38).map (fun k => lecelEntry b i q 1 j (k + 1))).filterMap (fun e =>
    if lecelValid e then some (2 * lecelRow e + lecelTr e) else none)

/-- Ports number i and n of the list, if they are W and N or E and S, never deliver to one place together. -/
def edgesApart (b : List Byte) (q : Nat) : Bool :=
  let l := lecelPortList b
  [(0, 3), (1, 2)].all (fun pr => !(l.contains pr.1 && l.contains pr.2) ||
    (List.range 50).all (fun j =>
      (delivers b (l.idxOf pr.1) q j).all (fun x => !((delivers b (l.idxOf pr.2) q j).contains x))))

/-- VALID slots of a port's page direction in Lecel frame j. -/
def usedSlots (b : List Byte) (i q d j : Nat) : Nat :=
  ((List.range 38).filter (fun k => lecelValid (lecelEntry b i q d j (k + 1)))).length

/-- Number of port p in the list has a VALID entry. -/
def portCarries (b : List Byte) (p : Nat) : Bool :=
  let i := (lecelPortList b).idxOf p
  (lecelPortList b).contains p && (List.range (lecelPages b)).any (fun q => [0, 1].any (fun d => (List.range 50).any (fun j =>
    usedSlots b i q d j != 0)))

/-- Number of port p in the list names slot 38, the tag's, in no VALID entry (R542). -/
def tagFree (b : List Byte) (p : Nat) : Bool :=
  let i := (lecelPortList b).idxOf p
  (List.range (lecelPages b)).all (fun q => [0, 1].all (fun d => (List.range 50).all (fun j =>
    !lecelValid (lecelEntry b i q d j 38))))

/-- What R520 asks of a PAIRS image. -/
def pairsValid (h : ImgHeader) (b : List Byte) : Bool :=
  let l := lecelPortList b
  h.devCols == 1 && (b.isEmpty || (!portCarries b 1 && !portCarries b 3
    && (h.devRows != 2 || !(l.contains 0 && l.contains 2) || (List.range (lecelPages b)).all (fun q => [0, 1].all (fun d =>
        (List.range 50).all (fun j => usedSlots b (l.idxOf 0) q d j + usedSlots b (l.idxOf 2) q d j ≤ 38))))))

/-- Statuses of R281's checks (R393). -/
def stCheck (n : Nat) : Nat := 0x100 + n

/-- The slot's record of an image with header h and sections l, on device d. -/
def infoOf (h : ImgHeader) (l : List Section) (d originRow originCol : Nat) (digest : List Byte) : CourseInfo where
  courseId := h.courseId
  pairs := h.pairs
  signed := h.signed
  rows := h.rows
  stripeFirst := h.first
  stripeWidth := h.width
  priority := h.priority
  lapFrames := h.lapFrames
  devRows := h.devRows
  devCols := h.devCols
  originRow := originRow
  originCol := originCol
  deviceIndex := d
  energyBound := h.bound
  imageDigest := digest
  immDigest := []
  streamBase := 0
  streamCount := h.streams
  extents := (extentEntries ((payloadFor d 2 l).getD [])).map extentOf
  edges := ((payloadFor d 5 l).bind (edgeTables 16)).getD []
  lecel := (payloadFor d 6 l).getD []

/-- The fills that apply to device d. -/
def fillsFor (d : Nat) (l : List Section) : List (Nat × List Byte) := (sectionsFor d 3 l).map fillOf

/-- The CORE records that apply to device d. -/
def recsFor (d : Nat) (l : List Section) : List CoreRec := coreRecs ((payloadFor d 4 l).getD [])

namespace State

/-- The device's place in a layout at an origin (R428): its rows and physical columns from the origin. -/
def placeAt (s : State) (row col : Nat) : Nat × Nat :=
  ((s.link.row + s.torusRows - row % s.torusRows) % s.torusRows, (s.link.col + s.torusCols - col % s.torusCols) % s.torusCols)

/-- This device's index in the layout of a header at an origin; none when it lies outside. -/
def imageIndex (s : State) (h : ImgHeader) (row col : Nat) : Option Nat :=
  let q := s.placeAt row col
  let c := if h.pairs then q.2 / 2 else q.2
  if q.1 < h.devRows && c < h.devCols then some (q.1 * h.devCols + c) else none

/-- The domains that hold a stripe (check 8). -/
def stripeDomains (first width : Nat) : List Nat :=
  (if first < 64 then [2, 3, 4, 5] else []) ++ (if 64 < first + width then [6, 7, 8, 9] else []) ++ [10, 11]
  ++ ((List.range 16).filter (stripeReaches first width)).map (fun st => 12 + st)

/-- Checks 3 to 10, by the header. -/
def headerChecks (s : State) (k : Nat) (h : ImgHeader) (row col : Nat) : Option Nat :=
  let others := s.courses.filter (fun j => j != k)
  if h.al != 1 then some (stCheck 3)
  else if (s.imageIndex h row col).isNone then some (stCheck 4)
  else if s.flash.gradeRows < h.rows || (s.grid.activeRows == 0 && (s.buildMapping h.rows).isNone) then some (stCheck 5)
  else if others.any (fun j => (s.slot j).info.rows != h.rows) then some (stCheck 6)
  else if others.any (fun j =>
      let i := (s.slot j).info
      decide (i.stripeFirst < h.first + h.width) && decide (h.first < i.stripeFirst + i.stripeWidth)) then some (stCheck 7)
  else if !((stripeDomains h.first h.width).all s.isOn) then some (stCheck 8)
  else if !(1 ≤ h.lapFrames && h.lapFrames ≤ 1024) then some (stCheck 9)
  else if h.bound == 0 || s.louvre.cap < h.bound then some (stCheck 10)
  else none

/-- The lowest run of n free entries of the stream table (R152). -/
def streamRun (s : State) (n : Nat) : Option Nat :=
  let starts := 0 :: s.det.streams.map (fun e => e.1 + 1)
  starts.find? (fun b => b + n ≤ 65536 && s.det.streams.all (fun e => e.1 < b || b + n ≤ e.1))

/-- Checks 11 to 13. -/
def streamChecks (s : State) (h : ImgHeader) (b : List Byte) : Option Nat :=
  let l := streamDecls h b
  if !(l.all declFormed) then some (stCheck 11)
  else if !(l.all declDraws) then some stDRAW_RANGE
  else if (s.streamRun h.streams).isNone then some (stCheck 12)
  else if (List.range 16).any (fun st => stripeReaches h.first h.width st && (s.stack st).lost) then some (stCheck 13)
  else none

/-- Check 19 (R412, R520); present says that the image has a LECEL section for this device. -/
def lecelCheck (s : State) (k : Nat) (h : ImgHeader) (i : CourseInfo) (present : Bool) : Bool :=
  let b := i.lecel
  let many := decide (1 < h.devRows * h.devCols) || h.pairs
  let tagged := !many || s.residents.all (fun j => j == k || ctagOf (s.slot j).info != ctagOf i)
  let here := { s with slots := Table.put k { s.slot k with info := i } s.slots }
  (!h.pairs || pairsValid h b) && tagged && (!present ||
    (lecelFormed b && (List.range (lecelPortList b).length).all (fun n => (List.range (lecelPages b)).all (pageValid h b n))
     && (List.range (lecelPages b)).all (edgesApart b)
     && (lecelPortList b).all (fun p =>
          (if p == 0 || p == 3 then h.first == 0 else h.first + h.width == 128)
          && s.isOn (30 + p) && (s.lport p).usedBy == 0xFF && (s.lport p).st == 2
          && s.bound && (s.lport p).peerState == 2
          && ((s.lport p).crypt == 0 || tagFree b p)
          && (here.inLayout k (s.acrossAddr p) || !portCarries b p))))

/-- Checks 14 to 19, by the sections for this device. -/
def bodyChecks (s : State) (k : Nat) (h : ImgHeader) (i : CourseInfo) (entries : List Nat) (fills : List (Nat × List Byte))
    (recs : List CoreRec) (lecel : Bool) : Option Nat :=
  let copies := extentCopies i.extents
  let m := filled fills
  let judged := recs.filter (coreRecValid h copies recs)
  let rings := judged.map (recRings m)
  let all := rings.flatMap (fun r => r.getD [])
  if !(entries.all (extentValid h.first h.width)) || !copiesApart copies || rings.any (fun r => r.isNone)
      || !(all.all (fun r => r.all (winValid copies))) || !phasesApart all || !edgesValid h.first h.width i.edges then some (stCheck 14)
  else if !(all.all (fun r => r.all (winCarry copies))) then some (stCheck 15)
  else if !(fills.all (fun f => f.2.isEmpty || runInside copies [1, 4] f.1 (f.2.length / 64))) then some (stCheck 16)
  else if recs.map CoreRec.core != stripeCores h.rows h.first h.width || !(recs.all (coreRecValid h copies recs)) then some (stCheck 17)
  else if !(recs.all (fun c => decide (c.gateCount ≤ 512) && (recGates m c).all (gateValid h.first h.width c.x))) then
    some (stCheck 18)
  else if !s.lecelCheck k h i lecel then some (stCheck 19)
  else none

/-! What a load does (R34, R152, R262, R263, R281, R282). -/

/-- Write line la of an extent, in both copies of a mirrored one. -/
def writeCopies (s : State) (e : Extent) (la : Nat) (data : List Byte) : State :=
  let s := s.writeLine la data 1 false
  if e.policy == 1 then s.writeLine (otherCopy e la) data 1 false else s

/-- Write every block of an extent from the fills, zero where none names it. -/
def fillExtent (m : Memory) (s : State) (e : Extent) : State :=
  let s := s.writeLines e.first e.count m (64 * e.first) 1 false
  if e.policy == 1 then s.writeLines e.mla e.count m (64 * e.first) 1 false else s

/-- Insert an extent in order of its first line. -/
def insertExtent (e : Extent) : List Extent → List Extent
  | [] => [e]
  | x :: t => if e.first ≤ x.first then e :: x :: t else x :: insertExtent e t

/-- Extents in order of their first lines. -/
def sortExtents (l : List Extent) : List Extent := l.foldr insertExtent []

/-- The SHA-384 of the primary copies of the IMMUTABLE blocks in ascending line address (R282). -/
def immutableDigest (s : State) (l : List Extent) : List Byte :=
  let imm := sortExtents (l.filter (fun e => e.cls == 1))
  sha384 (imm.flatMap (fun e => s.runBytes e.first 0 (64 * e.count)))

/-- Checks 3 to 19 have passed: the slot holds its stripe, streams and extents, the mapping is set when none is, and HBM
is written. -/
def claimImage (s : State) (k : Nat) (i : CourseInfo) (decls : List Nat) (seeds : Table (BitVec 112))
    (fills : List (Nat × List Byte)) : State :=
  let s := if s.grid.activeRows == 0 then (s.buildMapping i.rows).getD s else s
  let base := (s.streamRun i.streamCount).getD 0
  let s := { s with det := { s.det with
    streams := decls.zipIdx.foldl (fun t e => Table.put (base + e.2) (declEntry k e.1) t) s.det.streams } }
  let s := i.extents.foldl (fillExtent (filled fills)) s
  let i := { i with streamBase := base, immDigest := s.immutableDigest i.extents }
  { s with
    slots := Table.put k { s.slot k with info := i, seeds := seeds, latched := seeds } s.slots
    link := { s.link with ports := (lecelPortList i.lecel).foldl (fun t p =>
      if i.lecel.isEmpty then t else Table.put p { s.lport p with usedBy := k } t) s.link.ports } }

/-- A core and its router as the load leaves them (R53, R64, R212, R278). -/
def placeCore (k : Nat) (s : State) (c : CoreRec) : State :=
  let n := c.core
  let site := s.siteFor n
  let s := s.setCore n { Core.fresh with
    slot := k, site := site, idleRec := bitOf c.flags 1 == 1, routeOnly := bitOf c.flags 0 == 1
    dtop := c.dtop, itop := c.itop, golden := c.golden, gateCount := c.gateCount, entry := c.entry, entryNext := c.entry }
  let s := s.setRouter n { Router.fresh with
    slot := k, gateCount := c.gateCount, entry := c.gateEntry, entryNext := c.gateEntry }
  s.reloadCore n

/-- Every check has passed: the slot is PAUSED with its first lap ahead, and its VERIFY window opens (R282, R325). The fences of
its route-only cores go out with the next COMMIT (R231). A device that treats itself as lost halts it (R516). -/
def installImage (s : State) (k : Nat) (recs : List CoreRec) : State :=
  let s := recs.foldl (placeCore k) s
  let s := { s with grid := { s.grid with unsettled := true } }
  let s := ((s.onSlot k (fun x => { x with st := .paused, loadJob := none })).openWindow k .load).fireSlot k 1
  if s.grid.deviceLost != 0 then s.haltSlot k .deviceLost else s

/-! The loader (R281, R385). -/

/-- Checks 20 to 22 of an image whose digest, and signature, may still be on their way. -/
def sealChecks (s : State) (h : ImgHeader) (bs digest : List Byte) : Option Nat :=
  let rest := bs.drop h.length
  let sig := rest.drop 48
  if rest.length < 48 then none
  else if rest.take 48 != digest then some (stCheck 20)
  else if s.flash.signedRequired && !h.signed then some (stCheck 21)
  else if !h.signed || sig.length < 104 then none
  else
    let slot := fieldLE sig 0 4
    let key := Table.get [] slot s.flash.imageKeys
    if 7 < slot || allZero key || !ecdsaVerifyHash key digest (ofBE (sliceBytes sig 8 48)) (ofBE (sliceBytes sig 56 48)) then
      some (stCheck 22)
    else none

/-- The loader takes the bytes received so far into account: a status when a check has failed, and the state after what
the bytes decide. Each check waits until the bytes of the checks before it are all here. -/
def loadBytes (s : State) (k : Nat) (j : LoadJob) (final : Bool) : Option Nat × State :=
  let h := headerOf j.bytes
  let whole (s : State) (recs : List CoreRec) (digest : List Byte) : Option Nat × State :=
    match s.sealChecks h j.bytes digest with
    | some st => (some st, s)
    | none => if final then (if j.bytes.length == h.total then (none, s.installImage k recs) else (some (stCheck 2), s)) else (none, s)
  let wait (s : State) : Option Nat × State := if final then (some (stCheck 2), s) else (none, s)
  if j.bytes.length < 128 then wait s
  else if !headerValid j.bytes || h.length < 128 || h.total < j.bytes.length then (some (stCheck 2), s)
  else match walkSections h.sections ((j.bytes.take h.length).drop 128) (h.length - 128) (0, 0) [] with
    | .bad => (some (stCheck 2), s)
    | .more => wait s
    | .done l =>
      let d := (s.imageIndex h j.originRow j.originCol).getD 0
      let digest := if (s.slot k).info.rows == 0 then sha384 (j.bytes.take h.length) else (s.slot k).info.imageDigest
      let i := infoOf h l d j.originRow j.originCol digest
      let recs := recsFor d l
      if (s.slot k).info.rows != 0 then whole s recs digest
      else if !sectionsValid h d l then (some (stCheck 2), s)
      else
        let streams := (payloadFor d 1 l).getD []
        match s.headerChecks k h j.originRow j.originCol with
        | some st => (some st, s)
        | none =>
          match s.streamChecks h streams with
          | some st => (some st, s)
          | none =>
            match s.bodyChecks k h i (extentEntries ((payloadFor d 2 l).getD [])) (fillsFor d l) recs (payloadFor d 6 l).isSome with
            | some st => (some st, s)
            | none => whole (s.claimImage k i (streamDecls h streams) (imageSeeds h streams) (fillsFor d l)) recs digest

end State
end Sys2Proof.Machine
end

