-- ==== Sys2Proof/Machine/Route.lean ====
section
/-! DEFINITION. Receiving transom messages over Lecel: the generation check, delivery and forwarding, broadcasts and their
tallies, becoming BOUND and entering QUARANTINE (R418 to R425, R429 to R431, R434, R517, R518). -/
namespace Sys2Proof.Machine

/-- The addresses in a route flit. -/
def Route.source (r : Route) : Nat := r.srow.toNat * 128 + r.scol.toNat
def Route.dest (r : Route) : Nat := r.drow.toNat * 128 + r.dcol.toNat

/-- The scope of a broadcast's route flit. -/
def Route.scope (r : Route) : Scope := (r.rowz.toNat, r.colz.toNat, r.rm1.toNat, r.cm1.toNat)

/-- What R423 makes of a generation. -/
inductive GenVerdict where
  | accepted | jump | older
  deriving DecidableEq, Repr

/-- The verdict on generation gen against an entry (R423). -/
def genVerdict (entry gen : Nat) : GenVerdict :=
  let d := (gen + 65536 - entry) % 65536
  if entry == 0 || d ≤ 1024 then .accepted else if d ≤ 32768 then .jump else .older

/-- The generation after g (R421). -/
def nextGen (g : Nat) : Nat := g % 65535 + 1

namespace State

/-! Generations (R423, R424). -/

/-- Record a generation; SD_SENT is cleared when the entry changes. -/
def recordGen (s : State) (addr gen : Nat) : State :=
  if (s.genEntry addr).gen == gen then s
  else { s with link := { s.link with genTable := Table.put addr ⟨gen, false⟩ s.link.genTable } }

/-- The check of an address's generation on arrival at port p: an older one is counted, and answered with STAND_DOWN the
first time since the entry changed. Generation 0 is that of a device that is not BOUND yet and holds no address: it is
accepted as unknown (DEDUCED, assumption 31). -/
def genCheck (s : State) (p addr gen : Nat) : GenVerdict × State :=
  let e := s.genEntry addr
  match if gen == 0 then .accepted else genVerdict e.gen gen with
  | .accepted => (.accepted, if gen == 0 then s else s.recordGen addr gen)
  | .jump => (.jump, { s with link := { s.link with genJumps := satAdd 32 s.link.genJumps 1 } })
  | .older =>
    let s := { s with link := { s.link with staleDiscards := satAdd 64 s.link.staleDiscards 1 } }
    if e.sdSent || !s.canSend p || s.quarantined then (.older, s)
    else
      let s := s.sendOn p (s.routeTo addr) (.standDown addr gen e.gen)
      (.older, { s with link := { s.link with
        standDowns := satAdd 32 s.link.standDowns 1
        genTable := Table.put addr { e with sdSent := true } s.link.genTable } })

/-- A message has arrived on port p with route r: whether it goes on past the checks of R422, R423 and R425. -/
def admitMsg (s : State) (p : Nat) (r : Route) : Bool × State :=
  if 4 ≤ p || !s.canSend p || s.quarantined then (false, s)
  else
    let v := s.genCheck p r.source r.sgen.toNat
    (v.1 == .accepted, v.2)

/-- The message is for this device. -/
def forSelf (s : State) (r : Route) : Bool := r.dest == s.selfAddr

/-- Receive a unicast message: it is taken from its port's buffer and checked, and delivered here or passed on. -/
def unicast (s : State) (p : Nat) (r : Route) (body : Msg) (deliver : State → State) : State :=
  let a := (s.takeRx p r body).admitMsg p r
  if !a.1 then a.2 else if a.2.forSelf r then deliver (a.2.deliverMsg body) else a.2.forward p r body (s.rxFlits p r body)

/-- Receive a message that is meant for the device across the port alone (BIND, RINK_SYNC): its generation is checked, and
it is delivered (R423). -/
def nearMsg (s : State) (p : Nat) (r : Route) (body : Msg) (deliver : State → State) : State :=
  let a := (s.takeRx p r body).admitMsg p r
  if !a.1 then a.2 else deliver (a.2.deliverMsg body)

/-- Receive a dictionary message, which no check of generations stops (R423); a device in QUARANTINE forwards none (R425). -/
def dictMsg (s : State) (p : Nat) (r : Route) (body : Msg) (deliver : State → State) : State :=
  if 4 ≤ p || !s.canSend p then s
  else
    let s' := s.takeRx p r body
    if s'.forSelf r then deliver (s'.deliverMsg body) else s'.forward p r body (s.rxFlits p r body)

/-! Broadcasts (R429 to R431). -/

/-- Send the tally of a broadcast to its parent. -/
def sendTally (s : State) (h : Bcast) : State :=
  s.sendOn h.parent (s.routeTo (s.acrossAddr h.parent)) (.tally h.tally)

/-- Hold a broadcast until its children have answered; one without children is answered at once. -/
def holdBcast (s : State) (h : Bcast) : State :=
  let s := { s with link := { s.link with
    heard := s.link.heard.filter (fun x => !(x.origin == h.origin && x.bseq == h.bseq)) } }
  if h.waiting.isEmpty then s.sendTally h else { s with link := { s.link with heard := s.link.heard ++ [h] } }

/-- The device keeps the last BSEQ it delivered from an originator. -/
def noteBseq (s : State) (origin bseq : Nat) : State :=
  { s with link := { s.link with lastBseq := Table.put origin bseq s.link.lastBseq } }

/-- A broadcast copy arrives on port p as flits: it is forwarded to the children, and delivered when the delivery buffer has
room once the Porter has taken `taken` messages from it, and it has not been delivered before; deliver answers the device's
own tally (R430, R431). -/
def bcastCopy (s : State) (p : Nat) (r : Route) (body : Msg) (flits : List (BitVec 120)) (taken : Nat)
    (deliver : State → State × TallyBody) : State :=
  let s := { s with link := { s.link with delivery := s.link.delivery.drop taken } }
  let sc := r.scope
  let c := s.childPorts r.source sc (some p)
  let kids := s.withAddrs c.1
  let s := kids.foldl (fun s k => s.passOn p k.1 r body flits) s
  let d : State × TallyBody :=
    if Table.get 0 r.source s.link.lastBseq == r.bseq.toNat then (s, { TallyBody.zero with devices := 1 })
    else if 16 ≤ s.link.delivery.length then
      ({ s with link := { s.link with bcastMissed := satAdd 32 s.link.bcastMissed 1 } }, TallyBody.zero.miss s.selfAddr)
    else deliver ((s.noteBseq r.source r.bseq.toNat).deliverMsg body)
  let split := d.1.splitChildren kids
  let tally := split.2.foldl TallyBody.miss { d.2 with bseq := r.bseq }
  d.1.holdBcast ⟨r.source, r.bseq.toNat, p, split.1,
    s.now + 2 * 384 * (s.depthOf r.source sc - c.2) + 512, false, tally, body⟩

/-- Receive a message that is sent by broadcast, or again by unicast to a device that missed it. -/
def bcastMsg (s : State) (p : Nat) (r : Route) (body : Msg) (taken : Nat) (deliver : State → State × TallyBody) : State :=
  let a := (s.takeRx p r body).admitMsg p r
  let flits := s.rxFlits p r body
  if !a.1 then a.2
  else if r.bcast then a.2.bcastCopy p r body flits taken deliver
  else if !a.2.forSelf r then a.2.forward p r body flits
  else if Table.get 0 r.source a.2.link.lastBseq == r.bseq.toNat && r.bseq != 0 then a.2
  else (deliver ((a.2.noteBseq r.source r.bseq.toNat).deliverMsg body)).1

/-- The plain tally of a device that holds a broadcast. -/
def heldTally (s : State) : State × TallyBody := (s, { TallyBody.zero with devices := 1 })

/-! QUARANTINE (R424, R425, R518). -/

/-- Enter QUARANTINE: every non-EMPTY slot halts with STAND_DOWN. -/
def quarantine (s : State) : State :=
  if s.quarantined then s
  else
    let keep (m : OutMsg) : Bool := m.input == 0 && m.body.code == 9
    let s := ({ s with link := { s.link with
      st := 3, own := none, queue := [], heard := [], outbox := s.link.outbox.filter keep } }).fire 4
    (List.range 8).foldl (fun s k => s.haltSlot k .standDown) s

/-! Losses (R516 to R521). -/

/-- The lost places of the layout of slot k: row and side of the pair. -/
def lostPlaces (s : State) (k : Nat) : List (Nat × Nat) :=
  let i := (s.slot k).info
  (s.slot k).lostAddrs.map (fun a =>
    ((a / 128 + s.torusRows - i.originRow % s.torusRows) % s.torusRows, (a % 128 + s.torusCols - i.originCol % s.torusCols) % s.torusCols))

/-- Rows next to row r of a layout of n rows on a torus of m rows, north first. -/
def nextRows (n m r : Nat) : List Nat :=
  (if 0 < r then [r - 1] else if n == m && 1 < n then [n - 1] else [])
  ++ (if r + 1 < n then [r + 1] else if n == m && 1 < n then [0] else [])

/-- A loss that no cover can meet (R521): both members of a pair; a member without its partner beside a lost one; two
different lost neighbours of one member. -/
def uncoverable (s : State) (k : Nat) : Bool :=
  let l := s.lostPlaces k
  let n := (s.slot k).info.devRows
  (List.range n).any (fun r => (l.contains (r, 0) && l.contains (r, 1)) || [0, 1].any (fun c =>
    let lostNext := ((nextRows n s.torusRows r).eraseDups).filter (fun q => l.contains (q, c))
    !l.contains (r, c) && ((l.contains (r, 1 - c) && !lostNext.isEmpty) || 1 < lostNext.length)))

/-- A device of slot k's layout is declared lost (R519, R521). -/
def loseMember (s : State) (k addr : Nat) : State :=
  if (s.slot k).lostAddrs.contains addr then s
  else
    let s := s.onSlot k (fun x => { x with lostAddrs := x.lostAddrs ++ [addr] })
    let x := s.slot k
    if !x.info.pairs || s.uncoverable k then s.haltSlot k .deviceLost
    else if addr == s.acrossAddr (s.partnerPort k) then
      let s := s.enterSolo k
      if (s.slot k).provisional.isSome && !(s.slot k).confirmed then s.confirm k else s
    else s

/-! The coordinator's side (R432, R434, R517). -/

/-- Take the broadcasts that wait, up to the first that goes out. A proposal is made anew: its launch count goes by the
cycle that sends it (R432). -/
def nextBcast (s : State) : State :=
  s.link.queue.foldl (fun s _ =>
    match s.link.own, s.link.queue with
    | none, (k, sc, body) :: rest =>
      let s := { s with link := { s.link with queue := rest } }
      match body, k with
      | .propose _, some k => s.proposeLap k
      | _, _ => s.broadcast k sc body
    | _, _ => s) s

/-- Declare devices of slot k's layout lost: each is named in a LOST broadcast (R517). -/
def declareLost (s : State) (k : Nat) (l : List Nat) : State :=
  let l := (l.eraseDups).filter (fun a => s.inLayout k a && a != s.selfAddr && !(s.slot k).lostAddrs.contains a)
  l.foldl (fun s a =>
    let x := s.slot k
    let m : Msg := .lost (BitVec.ofNat 16 (ctagOf x.info)) x.lapNext a (s.genEntry a).gen
    let s := { s with grid := { s.grid with lossesDeclared := satAdd 32 s.grid.lossesDeclared 1 } }
    (s.broadcast (some k) (s.layoutScope k) m).loseMember k a) s

/-- A COMMIT takes effect on this device (R434): a count is committed, unless it comes too late to be driven; a PAUSE
pauses the slot at its boundary. -/
def takeCommit (s : State) (q : Proposal) : State :=
  match s.slotOfTag q.ctag.toNat with
  | none => s
  | some k =>
    let x := s.slot k
    if s.grid.deviceLost != 0 || q.lap.toNat != x.lapNext || !(x.stage == .idle || x.stage == .waiting)
        || !(x.st == .running || x.st == .replaying || s.probing k) then s
    else if q.action == 1 then s.pauseSlot k false
    else if s.rink + 24 ≤ q.count.toNat then s.commitCount k q.count.toNat
    else s

/-- The tally of a proposal is complete (R434, R517). -/
def judgeTally (s : State) (k : Nat) (q : Proposal) (t : TallyBody) : State :=
  let missed := t.missed
  if missed.isEmpty && t.lost.isEmpty && !t.overflow && (t.halt || t.devices == s.layoutSize k) then
    let q := if t.halt then { q with action := 1 } else q
    ((s.onSlot k (fun x => { x with missedLast := [] })).broadcast (some k) (s.layoutScope k) (.commit q)).takeCommit q
  else
    let twice := missed.filter (fun a => (s.slot k).missedLast.contains a)
    let s := { s with link := { s.link with agreeRounds := satAdd 32 s.link.agreeRounds 1 } }
    let at_ := if !missed.isEmpty || t.earliest == neverCount then s.rink else t.earliest - s.agreeSpan k
    let s := s.onSlot k (fun x => { x with missedLast := missed, reproposeAt := some at_ })
    s.declareLost k (t.lost ++ twice)

/-- Send a broadcast again to an address that missed it (R431). -/
def resendTo (bseq : Nat) (body : Msg) (s : State) (addr : Nat) : State :=
  match s.portTowards addr with
  | some p => ({ s with link := { s.link with bcastResends := satAdd 32 s.link.bcastResends 1 } }).sendOn p
      { s.routeTo addr with bseq := BitVec.ofNat 16 bseq, resend := true } body
  | none => s

/-- This device's own broadcast is complete: a proposal is judged; any other is sent again to whoever missed it, or, after
an OVERFLOW, to all with the same BSEQ. -/
def completeOwn (s : State) (o : OwnBcast) : State :=
  let s := { s with link := { s.link with own := none } }
  match o.body, o.slot with
  | .propose q, some k => (s.judgeTally k q o.tally).nextBcast
  | _, _ =>
    if o.tally.overflow then s.startBcast o.slot o.scope o.body o.bseq { TallyBody.zero with devices := 1 }
    else ((o.tally.missed.foldl (resendTo o.bseq o.body) s).nextBcast).resumeAll

/-- A TALLY of a child across port p (R431). -/
def takeTally (s : State) (p : Nat) (t : TallyBody) : State :=
  let mine := s.link.own.filter (fun o => o.bseq == t.bseq.toNat && o.waiting.any (fun w => w.1 == p))
  match mine with
  | some o =>
    let o := { o with tally := o.tally.merge t, waiting := o.waiting.filter (fun w => w.1 != p) }
    if o.waiting.isEmpty then s.completeOwn o else { s with link := { s.link with own := some o } }
  | none =>
    match s.link.heard.find? (fun h => h.bseq == t.bseq.toNat && h.waiting.any (fun w => w.1 == p)) with
    | none => s
    | some h =>
      let h' := { h with tally := h.tally.merge t, waiting := h.waiting.filter (fun w => w.1 != p) }
      let s := { s with link := { s.link with heard := s.link.heard.filter (fun x => x != h) } }
      if h'.waiting.isEmpty then s.sendTally h' else { s with link := { s.link with heard := s.link.heard ++ [h'] } }

/-- The wait for the children of an originator's broadcast is over: those that have not answered are missed (R431). -/
def tallyTimeout (s : State) (origin : Nat) : State :=
  let late (t : TallyBody) (w : List (Nat × Nat)) : TallyBody := (w.map (fun c => c.2)).foldl TallyBody.miss t
  if origin == s.selfAddr then
    match s.link.own with
    | some o =>
      if o.waiting.isEmpty || o.deadline ≤ s.now then s.completeOwn { o with tally := late o.tally o.waiting, waiting := [] } else s
    | none => s
  else
    let ripe (h : Bcast) : Bool := h.origin == origin && decide (h.deadline ≤ s.now)
    let overdue := s.link.heard.filter ripe
    let s := { s with link := { s.link with heard := s.link.heard.filter (fun h => !ripe h) } }
    overdue.foldl (fun s h => s.sendTally { h with tally := late h.tally h.waiting }) s

/-! Becoming BOUND (R420, R421, R426). -/

/-- The port towards the device's parent (R426): while it joins, that of the offer it took. -/
def parentPort (s : State) : Option Nat :=
  match s.link.st, s.link.offer with
  | 2, _ => if 0 < s.link.col then some 3 else if 0 < s.link.row then some 0 else none
  | _, some o => some o.2.2.2
  | _, none => if 0 < s.link.col then some 3 else if 0 < s.link.row then some 0 else none

/-- Send a RINK_SYNC PROBE on port p; it takes its TA as its route flit leaves (R426). -/
def sendProbe (s : State) (p : Nat) : State :=
  (s.sendOn p (s.routeTo (s.acrossAddr p)) (.rinkSync 0 0 0 0)).onLport p
    (fun x => { x with probeTa := some 0, syncAt := s.now })

/-- Ask the parent for alignment, when both axes have closed, the parent is BOUND and no probe is outstanding. -/
def askParent (s : State) : State :=
  if s.quarantined || s.link.aligned || !s.link.closedEW || !s.link.closedNS then s
  else match s.parentPort with
    | some p => if s.canSend p && (s.lport p).peerState == 2 && (s.lport p).probeTa.isNone then s.sendProbe p else s
    | none => s

/-- The device becomes BOUND; one that has joined tells the whole torus its generation. -/
def becomeBound (s : State) : State :=
  let gen := (s.link.offer.map (fun o => o.2.2.1)).getD 1
  let s' := { s with link := { s.link with st := 2, gen := gen, aligned := true } }
  match s.link.offer with
  | some _ => s'.broadcast none (0, 0, s'.torusRows - 1, s'.torusCols - 1) (.genUpdate s'.selfAddr gen)
  | none => s'

/-- Go on with binding once both axes have closed: the RINK master starts its count at 0, every other device aligns. -/
def bindCheck (s : State) : State :=
  if !(s.link.st == 0 || s.link.st == 1) || !s.link.closedEW || !s.link.closedNS then s
  else if s.link.aligned then s.becomeBound
  else if s.link.offer.isNone && s.link.row == 0 && s.link.col == 0 then
    { s with rink := 0, rinkRun := true, rinkHalf := false, grid := { s.grid with routerRink := 0 } }.becomeBound
  else s.askParent

end State
end Sys2Proof.Machine
end

