-- ==== Sys2Proof/Machine/Lecel.lean ====
section
/-! DEFINITION. The Lecel ports: frames formed and received, delivery, training and loss of a port (R401 to R413, R422,
R436, R507, R520, R521, R542 to R546, R562). -/
namespace Sys2Proof.Machine

/-- A field of a Lecel frame's header (R407). -/
def hdrField (h : BitVec 128) (hi lo : Nat) : Nat := bitsOf h.toNat hi lo

/-- The header of a Lecel frame. -/
def frameHeader (f : BitVec 5140) : BitVec 128 := f.extractLsb' 4992 128

/-- Slot k of a Lecel frame, 1 to 39 (R406). -/
def frameSlot (f : BitVec 5140) (k : Nat) : BitVec 128 := f.extractLsb' (4992 - 128 * k) 128

/-- LFN and FRC of a Lecel frame. -/
def frameLfn (f : BitVec 5140) : Nat := (f.extractLsb' 5134 6).toNat
def frameFrc (f : BitVec 5140) : Nat := (f.extractLsb' 5120 14).toNat

/-- The edge router and link a Lecel entry names on port p (R402, R408): the core number and the direction. -/
def edgePlace (p row : Nat) : Nat × Nat := if p == 0 || p == 3 then (128 * row, 3) else (128 * row + 127, 1)

/-- The entry of port p in the section that slot's course has for this device: page of lap frame f, ingress (d = 1) or
egress, Lecel frame j, slot k. -/
def lapEntry (b : List Byte) (p f d j k : Nat) : Nat :=
  if b.isEmpty || !(lecelPortList b).contains p then 0
  else lecelEntry b ((lecelPortList b).idxOf p) (f % lecelPages b) d j k

namespace State

/-- The RINK count at the start of a frame, nearest to this device's own, whose low 14 bits of RINK div 256 are FRC (R406,
R543). -/
def frameStart (s : State) (frc j : Nat) : Nat :=
  let own := s.frameCount / 256
  let up := (frc + 16384 - own % 16384) % 16384
  let f := if up ≤ 8192 then own + up else own + up - 16384
  256 * f + lecelStart j

/-- The header port p sends; a frame is ACTIVE when its capture lies in a lap of the port's course (R407, R507, R516). -/
def txHeader (s : State) (p : Nat) : BitVec 128 :=
  let lap := if s.grid.deviceLost != 0 || s.quarantined then none else s.portLap p
  let active := match lap with
    | some (k, _) => 2 ^ 77 + ctagOf (s.slot k).info * 2 ^ 61 + (s.slot k).lapNext % 2 ^ 48 * 2 ^ 13
    | none => 0
  BitVec.ofNat 128 (s.link.row % 128 * 2 ^ 121 + s.link.col % 128 * 2 ^ 114 + s.link.gen % 65536 * 2 ^ 98 + p % 4 * 2 ^ 96
    + s.link.st % 4 * 2 ^ 94 + s.pid * 2 ^ 78 + active + s.freePlaces p true * 2 ^ 8 + s.freePlaces p false * 2 ^ 3)

/-- The flit a slot of port p's frame takes in this cycle (R408), where its egress entry is VALID. -/
def egressFlit (s : State) (p k c j n : Nat) : Option Flit :=
  let e := lapEntry (s.slot k).info.lecel p ((c + 16) / 256) 0 j n
  let at_ := edgePlace p (lecelRow e)
  if lecelValid e then some (s.driven at_.1 at_.2 (lecelTr e)) else none

/-- Put one slot's flit into a frame; one whose check bytes cannot be decoded raises LECEL_UNCORRECTABLE (R408, R410). -/
def putSlot (p k c j : Nat) (bad : BitVec 38) (a : State × Table Flit) (n : Nat) : State × Table Flit :=
  match a.1.egressFlit p k c j n with
  | none => a
  | some f =>
    if bad.getLsbD (n - 1) then
      let v := a.1.free 128
      (v.2.portFault p 0x50, Table.put n v.1 a.2)
    else (a.1, Table.put n f a.2)

/-- Port p forms Lecel frame j in its capture cycle (R405 to R408); flits to be forwarded for the partner go first (R521). -/
def capture (s : State) (p j : Nat) (bad : BitVec 38) : State :=
  let x := s.lport p
  if 4 ≤ p || 50 ≤ j || !s.isOn (30 + p) || (s.domain (30 + p)).padsHeld || (s.frameCount + 16) % 256 != lecelStart j then s
  else
    let head := s.txHeader p
    let sends := x.st == 2 && s.grid.deviceLost == 0 && !s.quarantined
    let slots : Table Flit := if sends then x.fwd.foldl (fun t f => Table.put f.slot f.flit t) [] else []
    let a : State × Table Flit := match sends, s.portLap p with
      | true, some (k, c) => ((List.range 38).map (fun n => n + 1)).foldl (putSlot p k c j bad) (s, slots)
      | _, _ => (s, slots)
    let frame := (s.frameCount + 16) / 256
    let t : BitVec 128 × State := if s.canSend p then a.1.sendFlit p else (0, a.1)
    let f := lecelBits j frame head a.2 t.1
    t.2.onLport p (fun x => { x with
      tx := some (LecelTx.mk j frame s.now head a.2 t.1 (if x.cryptLive == 1 then sealFrame x.key frame j f else f)), fwd := [] })

/-! Reception. -/

/-- What is held of transom messages in part is discarded and counted (R409, R436). -/
def dropParts (s : State) (p : Nat) : State :=
  s.onLport p (fun x => { x with transomLost := satAdd 32 x.transomLost x.inPart, rxUrgent := [], rxNormal := [] })

/-- The transom transfer of slot 39 joins its message; the last flit completes it, and it waits in the port's buffer to be
taken (R224, R415, R430). The count of its route flit is that at which its frame began to arrive (R426). -/
def transomIn (s : State) (p : Nat) (t : BitVec 128) : State :=
  if !t.getLsbD 127 then s
  else
    s.onLport p (fun x =>
      let first := t.getLsbD 125
      let old := if t.getLsbD 126 then x.rxUrgent else x.rxNormal
      let at_ := if first then BitVec.ofNat 64 s.halfCount else if t.getLsbD 126 then x.rxStartU else x.rxStartN
      let l := if first then [t] else if old.isEmpty then [] else old ++ [t]
      let whole := t.getLsbD 124 && !l.isEmpty
      let x := { x with
        transomLost := if first && !old.isEmpty then satAdd 32 x.transomLost 1 else x.transomLost
        rxHeld := if whole then x.rxHeld ++ [LecelRx.mk at_ l] else x.rxHeld }
      let l := if whole then [] else l
      if t.getLsbD 126 then { x with rxUrgent := l, rxStartU := at_ } else { x with rxNormal := l, rxStartN := at_ })

/-- A VALID ingress entry of the running lap names a slot of the frame that should have come now (R409). -/
def expects (s : State) (p : Nat) : Bool :=
  match s.portLap p with
  | none => false
  | some (k, _) =>
    let x := s.lport p
    let j := (x.lastLfn + 1) % 50
    let base := s.rink - x.flight
    let start := (base - lecelStart j) / 256 * 256 + lecelStart j
    lecelStart j ≤ base && (s.slot k).lastLaunch + 16 ≤ start
      && (List.range 38).any (fun n => lecelValid (lapEntry (s.slot k).info.lecel p ((start - (s.slot k).lastLaunch) / 256) 1 j (n + 1)))

/-- A frame that could not be corrected, or failed authentication, is lost whole (R409, R546). -/
def frameLost (s : State) (p : Nat) (auth : Bool) : State :=
  let due := s.expects p
  let s := (s.dropParts p).onLport p (fun x =>
    let x := { x with lastLfn := (x.lastLfn + 1) % 50 }
    if auth then { x with inOrder := 0, authFails := satAdd 32 x.authFails 1, authRun := x.authRun + 1 }
    else { x with inOrder := 0, cwUncorrectable := satAdd 64 x.cwUncorrectable 1 })
  let s := if due then s.portFault p 0x50 else s
  if 64 ≤ (s.lport p).authRun then s.portLeave p 3 else s

/-- The LFN of a decoded frame continues the sequence, or begins one (R405). -/
def frameSeen (s : State) (p : Nat) (corrected : Bool) (lfn : Nat) : State :=
  s.onLport p (fun x => { x with
    cwCorrected := if corrected then satAdd 64 x.cwCorrected 1 else x.cwCorrected
    lastFrame := s.now, authRun := 0, lastLfn := lfn
    inOrder := if lfn == (x.lastLfn + 1) % 50 then x.inOrder + 1 else 1 })

/-- The port goes from UP to GATED or SKEWED: leaving UP during a lap is a fault (R410, R422). -/
def portGate (s : State) (p st : Nat) : State :=
  if (s.lport p).st == st then s
  else
    let up := (s.lport p).st == 2
    let s := (s.onLport p (fun x => { x with due := [], fwd := [] })).portState p st
    if up then s.portFault p 0x52 else s

/-- What a header says of its sender: peer, state, free places; PEER is laid out as ADDRESS (R407, R436). -/
def headerSeen (s : State) (p : Nat) (h : BitVec 128) : State :=
  s.onLport p (fun x => { x with
    peer := hdrField h 127 121 * 2 ^ 23 + hdrField h 120 114 * 2 ^ 16 + hdrField h 113 98
    peerState := hdrField h 95 94, freeU := hdrField h 12 8, freeN := hdrField h 7 3 })

/-- The checks of a header on a port that is UP, GATED or SKEWED (R422, R423): the port's state after them, and whether
the header was discarded for its generation. A sender holds an address and a generation once it is BOUND, and this device
knows its neighbours' once it is (DEDUCED, assumption 31); the facing port, QUARANTINE and the PID are checked of every
header. -/
def headerCheck (s : State) (p : Nat) (h : BitVec 128) : Bool × State :=
  let sender := hdrField h 95 94
  let addr := hdrField h 127 121 * 128 + hdrField h 120 114
  let known := s.bound && 2 ≤ sender
  let gate (s : State) : State := if (s.lport p).st == 5 then s else s.portGate p 4
  if !s.canSend p then (false, s)
  else if hdrField h 97 96 != (p + 2) % 4 || (known && addr != s.acrossAddr p) then
    if (s.lport p).st == 5 then (false, s)
    else (false, ({ s with link := { s.link with bindSkews := satAdd 32 s.link.bindSkews 1 } }).portGate p 5)
  else
    let v := if known then s.genCheck p addr (hdrField h 113 98) else (.accepted, s)
    match v.1 with
    | .jump => (true, v.2.portGate p 5)
    | .older => (true, if sender == 3 then gate v.2 else v.2)
    | .accepted =>
      if sender == 3 || hdrField h 93 78 != s.pid then (false, gate v.2)
      else (false, if (v.2.lport p).st == 5 then v.2 else v.2.portState p 2)

/-- The header of a frame captured in lap frame-cycle c of slot k's lap is ACTIVE with its CTAG and LAP, and the port is
UP (R410). -/
def headerFits (s : State) (p k : Nat) (h : BitVec 128) : Bool :=
  (s.lport p).st == 2 && hdrField h 77 77 == 1 && hdrField h 76 61 == ctagOf (s.slot k).info && hdrField h 60 13 == (s.slot k).lapNext

/-- Hold the flits of a frame captured in lap cycle c for delivery 512 cc later by the ingress entries of port q (R408,
R413, R521). -/
def takeFlits (s : State) (q k c j : Nat) (start : Nat) (f : BitVec 5140) : State :=
  let l := ((List.range 38).map (fun n => n + 1)).filterMap (fun n =>
    let e := lapEntry (s.slot k).info.lecel q ((c + 16) / 256) 1 j n
    if lecelValid e then some (⟨start + c + 512, lecelRow e, lecelTr e, frameSlot f n⟩ : LecelDue) else none)
  s.onLport q (fun x => { x with due := x.due ++ l })

/-- Port q of this device's partner is covered, and this device's port of the same name serves it (R521). -/
def coversFor (s : State) (k q : Nat) : Bool :=
  let x := s.slot k
  let far := if s.evenMember k then s.link.col + 1 else s.link.col + s.torusCols - 1
  let peer := s.acrossAddr q / 128 * 128 + far % s.torusCols
  x.info.pairs && x.pairState == 1 && x.lostAddrs.contains peer

/-- Flits that arrive on a port covered for the partner go on over the shared port in the same slots (R521). -/
def forwardFlits (s : State) (p k c j : Nat) (start : Nat) (f : BitVec 5140) : State :=
  if !s.coversFor k p then s
  else
    let l := ((List.range 38).map (fun n => n + 1)).filterMap (fun n =>
      if lecelValid (lapEntry (s.slot k).info.lecel p ((c + 16) / 256) 1 j n) then some (⟨n, start + c, frameSlot f n⟩ : LecelFwd)
      else none)
    s.onLport (s.partnerPort k) (fun x => { x with fwd := x.fwd ++ l })

/-- The scheduled slots of a frame that fits the lap of the port's course; one that does not is LECEL_SKEW (R408, R410). -/
def scheduledIn (s : State) (p : Nat) (discarded : Bool) (f : BitVec 5140) : State :=
  match s.portLap p with
  | none => s
  | some (k, c) =>
    if bitOf s.grid.coverPorts p == 1 then s else
    let start := s.frameStart (frameFrc f) (frameLfn f)
    let first := (s.slot k).lastLaunch
    if start < first + 16 || first + s.lapLen k + 16 ≤ start then s
    else if discarded || !s.headerFits p k (frameHeader f) then s.portSkew p
    else
      let cap := start - 16 - first
      (s.takeFlits p k cap (frameLfn f) (s.now - c) f).forwardFlits p k cap (frameLfn f) (s.now - c) f

/-- A frame on the shared port of a pair brings the flits of the ports that are covered; origin is the lap cycle of their
first capture (R521). -/
def coveredIn (s : State) (p origin : Nat) (f : BitVec 5140) : State :=
  match s.residents.find? (fun k => (s.slot k).info.pairs && s.partnerPort k == p && (s.lapCycle k).isSome) with
  | none => s
  | some k =>
    match (s.lapCycle k), (List.range 50).find? (fun j => lecelStart j == (origin + 16) % 256) with
    | some c, some j =>
      if (s.lport p).st != 2 then s
      else ((List.range 4).filter (fun q => bitOf s.grid.coverPorts q == 1)).foldl
        (fun s q => s.takeFlits q k origin j (s.now - c) f) s
    | _, _ => s

/-- The message of a frame received on port p: with encryption, none unless it is authentic (R542, R546). -/
def opened (s : State) (p : Nat) (f : BitVec 5140) : Option (BitVec 5140) :=
  let x := s.lport p
  if x.cryptLive == 1 then openFrame x.key (s.frameStart (frameFrc f) (frameLfn f) / 256) (frameLfn f) f else some f

/-- A frame is received on port p, its bits as they were sent. A port that trains counts it toward codeword lock alone. -/
def frame (s : State) (p : Nat) (fate : FrameFate) (f : BitVec 5140) (origin : Nat) : State :=
  if 4 ≤ p || !s.isOn (30 + p) || (s.domain (30 + p)).padsHeld then s
  else if fate == .failed then s.frameLost p false
  else if !s.canSend p then (s.frameSeen p (fate == .corrected) (frameLfn f)).headerSeen p (frameHeader f)
  else match s.opened p f with
    | none => s.frameLost p true
    | some g =>
      let s := ((s.frameSeen p (fate == .corrected) (frameLfn g)).headerSeen p (frameHeader g)).transomIn p (frameSlot g 39)
      let v := s.headerCheck p (frameHeader g)
      (((v.2.scheduledIn p v.1 g).coveredIn p origin g).askParent)

/-! Delivery, training, loss. -/

/-- The flits of port p due in this cycle are at the ring inputs of the edge routers (R408). -/
def deliverFlits (s : State) (p : Nat) : State :=
  if 4 ≤ p then s
  else
    let x := s.lport p
    let s := s.setLport p { x with due := x.due.filter (fun d => s.now < d.due) }
    (x.due.filter (fun d => d.due == s.now)).foldl (fun s d =>
      let at_ := edgePlace p d.row
      if Table.has at_.1 s.grid.routers then s.addArrival at_.1 ⟨s.now, 2 * at_.2 + d.transfer, d.flit⟩ else s) s

/-- The axis of a port: the other port on it. -/
def otherEnd (p : Nat) : Nat := (p + 2) % 4

/-- This device heads the axis of port p: HEAD_ROW the E/W ring, HEAD_COL the N/S ring (R419). -/
def headsAxis (s : State) (p : Nat) : Bool := bitOf s.start.straps (if p % 2 == 1 then 0 else 1) == 1

/-- The axis of port p has closed. -/
def axisClosed (s : State) (p : Nat) : Bool := if p % 2 == 1 then s.link.closedEW else s.link.closedNS

/-- Close the axis of port p: its size and this device's place on it. -/
def closeAxis (s : State) (p size place : Nat) : State :=
  (if p % 2 == 1 then { s with link := { s.link with closedEW := true, cols := size, col := place } }
   else { s with link := { s.link with closedNS := true, rows := size, row := place } }).bindCheck

/-- Send BIND on port p (R417). -/
def sendBind (s : State) (p kind value gen addr size : Nat) : State :=
  s.sendOn p { s.routeTo 0 with drow := 0, dcol := 0 } (.bind kind value gen addr size)

/-- The head of an axis sends its COUNT on port E or S (R419, R562). -/
def startCount (s : State) (ns : Bool) : State :=
  let s := s.sendBind (if ns then 2 else 1) (if ns then 1 else 0) 1 0 0 0
  { s with link := { s.link with
    st := if s.link.st == 0 then 1 else s.link.st
    countEW := if ns then s.link.countEW else some s.now
    countNS := if ns then some s.now else s.link.countNS } }

/-- No port trained next to a BOUND device: this one takes part in ring binding (R420). -/
def ringBinds (s : State) : Bool :=
  (s.link.st == 0 || s.link.st == 1) && s.link.offer.isNone && !((List.range 4).any (fun p => (s.lport p).late))

/-- Ring binding begins on the axis of port p once both its ports are UP (R562). -/
def headStarts (s : State) (p : Nat) : State :=
  let q := otherEnd p
  if s.ringBinds && s.headsAxis p && !s.axisClosed p && (s.lport p).st == 2 && (s.lport q).st == 2
      && (if p % 2 == 1 then s.link.countEW else s.link.countNS).isNone then s.startCount (p % 2 == 0)
  else s

/-- TORUS_SIZE as R435 lays it out. -/
def torusSize (s : State) : Nat := (s.torusRows - 1) * 128 + (s.torusCols - 1)

/-- A port gains codeword lock and is UP (R401, R405, R420, R421, R545 to R547). -/
def portUp (s : State) (p peerState : Nat) : State :=
  let x := s.lport p
  if 4 ≤ p || !(x.st == 0 || x.st == 1 || x.st == 3) || x.tooLong || !s.isOn (30 + p) || (s.domain (30 + p)).padsHeld || x.inOrder < 64
      || (x.cryptLive == 1 && !s.sec.installed.contains (2 + p)) then s
  else
    let s := (s.onLport p (fun x => { x with lastFrame := s.now, peerState := peerState })).portState p 2
    if s.quarantined then s
    else if s.bound then
      if peerState == 0 then
        let a := s.acrossAddr p
        s.sendBind p 4 0 (nextGen (s.genEntry a).gen) a s.torusSize
      else s.askParent
    else if peerState == 2 then s.onLport p (fun x => { x with late := true, joinWait := some s.now })
    else (s.headStarts p).askParent

/-- A port that decodes no frame for 176 cc leaves UP (R507). -/
def portDown (s : State) (p : Nat) : State :=
  if p < 4 && s.canSend p && (s.lport p).lastFrame + 176 ≤ s.now then s.portLeave p 3 else s

/-- A port that is not UP within 2 s of its pad release reads ABSENT; an axis with both ports ABSENT is a ring of one
(R403, R562). -/
def portAbsent (s : State) (p : Nat) : State :=
  match (s.lport p).released with
  | some t =>
    if 4 ≤ p || (s.lport p).st != 1 || s.now < t + 3200000000 then s
    else
      let s := s.portState p 0
      if (s.lport (otherEnd p)).st == 0 && s.ringBinds && !s.axisClosed p then s.closeAxis p 1 0 else s
  | none => s

end State

/-- LECEL_CAPTURE (R408). -/
def execLecelCapture (p j : Nat) (bad : BitVec 38) (s : State) : Host.Outcome State Fault Refusal := .next (s.capture p j bad)

/-- LECEL_FRAME (R406). -/
def execLecelFrame (p : Nat) (fate : FrameFate) (frame : BitVec 5140) (origin : Nat) (s : State) :
    Host.Outcome State Fault Refusal := .next (s.frame p fate frame origin)

/-- LECEL_DELIVERY (R408). -/
def execLecelDelivery (p : Nat) (s : State) : Host.Outcome State Fault Refusal := .next (s.deliverFlits p)

/-- LECEL_PORT_UP (R401). -/
def execLecelPortUp (p : Nat) (peerState : BitVec 2) (s : State) : Host.Outcome State Fault Refusal :=
  .next (s.portUp p peerState.toNat)

/-- LECEL_DOWN (R507). -/
def execLecelDown (p : Nat) (s : State) : Host.Outcome State Fault Refusal := .next (s.portDown p)

/-- LECEL_ABSENT (R562). -/
def execLecelAbsent (p : Nat) (s : State) : Host.Outcome State Fault Refusal := .next (s.portAbsent p)

end Sys2Proof.Machine
end

