-- ==== Sys2Proof/Machine/Bind.lean ====
section
/-! DEFINITION. Binding: ring counts, joining, stand-down, generations and the alignment of RINK (R419 to R427, R562). -/
namespace Sys2Proof.Machine
namespace State

/-- A count that is discarded and counted in BIND_SKEWS (R419). -/
def bindSkew (s : State) : State := { s with link := { s.link with bindSkews := satAdd 32 s.link.bindSkews 1 } }

/-- COUNT of an axis arrives on the port it runs round to: W for E/W, N for N/S; mine: this device's own, come round. -/
def countIn (ns : Bool) (p v : Nat) (mine : Bool) (s : State) : State :=
  let out := if ns then 2 else 1
  if p != otherEnd out || !s.ringBinds || s.axisClosed p then s
  else if 128 < v then s.bindSkew
  else if s.headsAxis p then
    if !mine then s.bindSkew
    else if v == 0 then s
    else (s.sendBind out (if ns then 3 else 2) (v - 1) 0 0 0).closeAxis p v 0
  else if v == 128 then s.bindSkew
  else
    let s := { s with link := { s.link with
      st := 1
      provCol := if ns then s.link.provCol else some v
      provRow := if ns then some v else s.link.provRow } }
    s.sendBind out (if ns then 1 else 0) (v + 1) 0 0 0

/-- CLOSE of an axis arrives: the device confirms its place as it forwards the message; the head ends it (R419). -/
def closeIn (ns : Bool) (p v : Nat) (s : State) : State :=
  let out := if ns then 2 else 1
  if p != otherEnd out || !s.ringBinds || s.axisClosed p || s.headsAxis p then s
  else match (if ns then s.link.provRow else s.link.provCol) with
    | none => s
    | some c => (s.sendBind out (if ns then 3 else 2) v 0 0 0).closeAxis p (v + 1) c

/-- The head sends COUNT again 100 ms after its last (R562). -/
def resendCount (s : State) (ns : Bool) : State :=
  let p := if ns then 2 else 1
  match (if ns then s.link.countNS else s.link.countEW) with
  | some t => if t + 160000000 ≤ s.now && s.ringBinds && !s.axisClosed p && s.headsAxis p then s.startCount ns else s
  | none => s

/-- A JOIN offer arrives on port p (R421): the first is taken; a later one that names something else makes its port
SKEWED. -/
def joinIn (p addr gen size : Nat) (s : State) : State :=
  match s.link.offer with
    | some o =>
      if o.1 == addr && o.2.1 == size && genVerdict o.2.2.1 gen != .older then s.onLport p (fun x => { x with joinWait := none })
      else s.portGate p 5
    | none =>
      if s.bound || (s.lport p).joinWait.isNone then s
      else
        let s := s.onLport p (fun x => { x with joinWait := none, peerState := 2 })
        { s with link := { s.link with
          st := 1, row := addr / 128 % 128, col := addr % 128, rows := size / 128 % 128 + 1, cols := size % 128 + 1
          closedEW := true, closedNS := true, offer := some (addr, size, gen, p) } }.bindCheck

/-- The wait for a JOIN offer on port p is over after 1 ms (R420). -/
def joinOver (s : State) (p : Nat) : State :=
  match (s.lport p).joinWait with
  | some t => if t + 1600000 ≤ s.now then s.onLport p (fun x => { x with joinWait := none }) else s
  | none => s

/-- STAND_DOWN arrives: it puts the device it names, at the generation it names, into QUARANTINE (R424). -/
def standDownIn (addr stale : Nat) (s : State) : State :=
  if addr == s.selfAddr && stale == s.link.gen && s.bound then s.quarantine else s

/-- GEN_UPDATE is delivered: the generation is recorded unless it is older or a jump (R417, R421, R423). -/
def genUpdated (addr gen : Nat) (s : State) : State × TallyBody :=
  (if genVerdict (s.genEntry addr).gen gen == .accepted then s.recordGen addr gen else s).heldTally

/-- The parent's answer to a PROBE whose frame began to arrive at tb; the ECHO takes its TC as its route flit leaves
(R426). -/
def probeIn (p : Nat) (ta tb : BitVec 64) (s : State) : State :=
  if s.bound && s.link.aligned then s.sendOn p (s.routeTo (s.acrossAddr p)) (.rinkSync 1 ta tb 0) else s

/-- FLIGHT, and EBUF_DEPTH once after each training (R408, R426); rt is the round trip in units of 0.3125 ns. -/
def setFlight (s : State) (p : Nat) (rt : Int) : State :=
  let f := ((rt + 3) / 4).toNat
  s.onLport p (fun x => { x with
    flight := f, ebuf := if x.ebufFixed then x.ebuf else 352 - f, ebufFixed := true, tooLong := decide (160 < f), probeTa := none })

/-- Shift the count by an offset in units of 0.3125 ns. -/
def shiftCount (s : State) (off : Int) : State :=
  let c := ((s.halfCount : Int) + off).emod (2 ^ 65)
  { s with
    rink := c.toNat / 2, rinkHalf := c.toNat % 2 == 1, rinkRun := true
    grid := { s.grid with routerRink := c.toNat / 2 % 2 ^ 16 } }

/-- The echo of this device's PROBE arrives in a frame that began to arrive at td (R404, R426, R427). -/
def echoIn (p : Nat) (ta tb tc td : BitVec 64) (s : State) : State :=
  if s.parentPort != some p || (s.lport p).probeTa != some ta then s
  else
    let off := ((tb - ta).toInt - (td - tc).toInt) / 2
    let s := s.setFlight p ((td - ta).toInt - (tc - tb).toInt)
    if 160 < (s.lport p).flight then s.portLeave p 3
    else if s.link.aligned then
      if off.natAbs < 2 then s
      else ({ s with link := { s.link with aligned := false, rinkDrifts := satAdd 32 s.link.rinkDrifts 1 } }).portLeave p 3
    else
      let s := s.shiftCount off
      if off != 0 then s.sendProbe p
      else { s with link := { s.link with aligned := true } }.bindCheck

/-- A child repeats RINK_SYNC 2^20 cc after its last (R427). -/
def syncAgain (s : State) : State :=
  match s.parentPort with
  | some p => if s.bound && s.link.aligned && s.canSend p && (s.lport p).syncAt + 2 ^ 20 ≤ s.now then s.sendProbe p else s
  | none => s

end State

/-- COUNT_EW (R419). -/
def execCountEw (p : Nat) (r : Route) (value : BitVec 8) (mine : Bool) (s : State) : Host.Outcome State Fault Refusal :=
  .next (s.nearMsg p r (.bind 0 value.toNat 0 0 0) (State.countIn false p value.toNat mine))

/-- COUNT_NS (R419). -/
def execCountNs (p : Nat) (r : Route) (value : BitVec 8) (mine : Bool) (s : State) : Host.Outcome State Fault Refusal :=
  .next (s.nearMsg p r (.bind 1 value.toNat 0 0 0) (State.countIn true p value.toNat mine))

/-- CLOSE_EW (R419). -/
def execCloseEw (p : Nat) (r : Route) (value : BitVec 8) (s : State) : Host.Outcome State Fault Refusal :=
  .next (s.nearMsg p r (.bind 2 value.toNat 0 0 0) (State.closeIn false p value.toNat))

/-- CLOSE_NS (R419). -/
def execCloseNs (p : Nat) (r : Route) (value : BitVec 8) (s : State) : Host.Outcome State Fault Refusal :=
  .next (s.nearMsg p r (.bind 3 value.toNat 0 0 0) (State.closeIn true p value.toNat))

/-- JOIN (R421). -/
def execJoin (p : Nat) (r : Route) (addr gen size : BitVec 16) (s : State) : Host.Outcome State Fault Refusal :=
  .next (s.nearMsg p r (.bind 4 0 gen.toNat addr.toNat size.toNat) (State.joinIn p addr.toNat gen.toNat size.toNat))

/-- JOIN_WAIT_EXPIRY (R420). -/
def execJoinWaitExpiry (p : Nat) (s : State) : Host.Outcome State Fault Refusal := .next (s.joinOver p)

/-- COUNT_RESEND (R562). -/
def execCountResend (ns : Bool) (s : State) : Host.Outcome State Fault Refusal := .next (s.resendCount ns)

/-- STAND_DOWN (R424). -/
def execStandDown (p : Nat) (r : Route) (addr stale current : BitVec 16) (s : State) : Host.Outcome State Fault Refusal :=
  .next (s.unicast p r (.standDown addr.toNat stale.toNat current.toNat) (State.standDownIn addr.toNat stale.toNat))

/-- GEN_UPDATE (R417). -/
def execGenUpdate (p : Nat) (r : Route) (addr gen : BitVec 16) (taken : Nat) (s : State) : Host.Outcome State Fault Refusal :=
  .next (s.bcastMsg p r (.genUpdate addr.toNat gen.toNat) taken (State.genUpdated addr.toNat gen.toNat))

/-- RINK_SYNC_PROBE (R426). -/
def execRinkSyncProbe (p : Nat) (r : Route) (ta : BitVec 64) (s : State) : Host.Outcome State Fault Refusal :=
  .next (s.nearMsg p r (.rinkSync 0 ta 0 0) (State.probeIn p ta (s.rxStart p r (.rinkSync 0 ta 0 0))))

/-- RINK_SYNC_ECHO (R426). -/
def execRinkSyncEcho (p : Nat) (r : Route) (ta tb tc : BitVec 64) (s : State) : Host.Outcome State Fault Refusal :=
  .next (s.nearMsg p r (.rinkSync 1 ta tb tc) (State.echoIn p ta tb tc (s.rxStart p r (.rinkSync 1 ta tb tc))))

/-- RINK_SYNC_PERIOD (R427). -/
def execRinkSyncPeriod (s : State) : Host.Outcome State Fault Refusal := .next s.syncAgain

end Sys2Proof.Machine
end

