-- ==== Sys2Proof/Machine/Agree.lean ====
section
/-! DEFINITION. Launch agreement, pairs mode between the members, and the declaration of losses (R322 to R324, R417,
R431 to R434, R509, R517 to R519, R523). -/
namespace Sys2Proof.Machine
namespace State

/-- A partner's digest arrives: a copy for a lap already held is discarded (R322, R417). -/
def pairDigestIn (ctag lap : Nat) (evidence : Bool) (digest : List Byte) (s : State) : State :=
  match s.slotOfTag ctag with
  | none => s
  | some k =>
    let x := s.slot k
    if !x.info.pairs || x.pairState == 2 || x.pairIn.any (fun i => i.1 == lap) then s
    else (s.onSlot k (fun x => { x with pairIn := some (lap, digest, evidence) })).pairCheck k

/-- The partner's digest for the lap this device's digest was sent for is held. -/
def holdsPartner (x : Slot) (lap : Nat) : Bool := x.pairIn.any (fun i => i.1 == lap)

/-- PAIR_DIGEST is sent again after 1,024 cc, until the partner's is held or 10,240 cc have passed (R417). -/
def resendPair (s : State) (k : Nat) : State :=
  let x := s.slot k
  match x.pairSent with
  | some (lap, sent, d, ev) =>
    if sent + 1024 ≤ s.now && s.now < x.boundaryAt + 10240 && !holdsPartner x lap && x.pairState == 1 then s.sendPair k lap d ev
    else s
  | none => s

/-- No digest of the partner by 10,240 cc after the boundary: the member treats it as lost and confirms alone (R324). -/
def pairExpires (s : State) (k : Nat) : State :=
  let x := s.slot k
  if x.info.pairs && x.pairState == 1 && x.provisional.isSome && !x.confirmed && x.boundaryAt + 10240 ≤ s.now
      && !holdsPartner x (lastLap x) then s.loseMember k (s.acrossAddr (s.partnerPort k))
  else s

/-- A proposal is delivered: a device that has completed the lap proposed treats its boundary as faulted first (R433,
R509). -/
def proposalIn (q : Proposal) (s : State) : State × TallyBody :=
  match s.slotOfTag q.ctag.toNat with
  | none => s.answerProposal q
  | some k =>
    let s := if (s.slot k).provisional.any (fun v => v.lap == q.lap.toNat) && s.grid.deviceLost == 0 then s.withdraw k else s
    (s.onSlot k (fun x => { x with faultBoundaryAt := none })).answerProposal q

/-- LOST is delivered: the device it names enters QUARANTINE, every other takes the loss (R518, R519, R521). -/
def lostIn (ctag addr gen : Nat) (s : State) : State × TallyBody :=
  if addr == s.selfAddr && gen == s.link.gen then
    let s := s.quarantine
    ({ s with grid := { s.grid with deviceLost := if s.grid.deviceLost == 0 then 6 else s.grid.deviceLost } }).heldTally
  else match s.slotOfTag ctag with
    | some k => (s.loseMember k addr).heldTally
    | none => s.heldTally

/-- A fresh proposal of slot k's coordinator, when its count has come and no broadcast of the slot is outstanding (R434,
R517). -/
def reproposeDue (s : State) (k : Nat) : State :=
  match (s.slot k).reproposeAt with
  | some t =>
    let busy := s.link.own.any (fun o => o.slot == some k) || s.link.queue.any (fun o => o.1 == some k)
    if t ≤ s.rink && s.coordinates k && !busy then
      (s.onSlot k (fun x => { x with reproposeAt := none })).proposeLap k
    else s
  | none => s

/-- Every device of a lower layout index but the coordinator's is lost, and this one is no coordinator: it is the next
(R517). -/
def nextInLine (s : State) (k : Nat) : Bool :=
  let i := (s.slot k).info
  let places := (List.range i.devRows).flatMap (fun r => (List.range (layoutCols i)).map (fun c =>
    (i.originRow + r) % s.torusRows * 128 + (i.originCol + c) % s.torusCols))
  0 < i.deviceIndex && (!i.pairs || s.evenMember k || (s.slot k).pairState == 2)
  && places.all (fun a => s.layoutIndex i a == 0 || i.deviceIndex ≤ s.layoutIndex i a || (s.slot k).lostAddrs.contains a)

/-- The next device takes the coordinator's role when it has held no PROPOSE within 2(5B + 2,048) cc of its own faulted
boundary (R517). -/
def takeOver (s : State) (k : Nat) : State :=
  match (s.slot k).faultBoundaryAt with
  | some t =>
    if (s.slot k).st == .replaying && !s.coordinates k && s.nextInLine k && t + 2 * s.agreeSpan k ≤ s.now then
      (s.onSlot k (fun x => { x with acting := true, faultBoundaryAt := none })).proposeLap k
    else s
  | none => s

/-- In pairs mode a member that has not answered READY for a replay within 300 µs of its faulted boundary is declared lost:
by the coordinator, or, when it is the coordinator, by the next device (R523). -/
def replayDeadline (s : State) (k addr : Nat) : State :=
  let x := s.slot k
  let first := s.layoutIndex x.info addr == 0
  if x.info.pairs && x.st == .replaying && x.stage == .idle && x.boundaryAt + 480000 ≤ s.now
      && (s.coordinates k || (first && s.nextInLine k)) then
    (s.onSlot k (fun x => { x with acting := x.acting || first && !s.coordinates k })).declareLost k [addr]
  else s

end State

/-- PAIR_DIGEST (R322). -/
def execPairDigest (p : Nat) (r : Route) (ctag : BitVec 16) (lap : BitVec 48) (evidence : Bool) (digest : List Byte)
    (s : State) : Host.Outcome State Fault Refusal :=
  .next (s.unicast p r (.pairDigest ctag lap.toNat evidence digest) (State.pairDigestIn ctag.toNat lap.toNat evidence digest))

/-- PAIR_DIGEST_RESEND (R417). -/
def execPairDigestResend (k : Nat) (s : State) : Host.Outcome State Fault Refusal := .next (s.resendPair k)

/-- PAIR_DIGEST_TIMEOUT (R324). -/
def execPairDigestTimeout (k : Nat) (s : State) : Host.Outcome State Fault Refusal := .next (s.pairExpires k)

/-- PROPOSE (R433). -/
def execPropose (p : Nat) (r : Route) (q : Proposal) (taken : Nat) (s : State) : Host.Outcome State Fault Refusal :=
  .next (s.bcastMsg p r (.propose q) taken (State.proposalIn q))

/-- TALLY (R431). -/
def execTally (p : Nat) (r : Route) (t : TallyBody) (s : State) : Host.Outcome State Fault Refusal :=
  .next (s.unicast p r (.tally t) (fun s => s.takeTally p t))

/-- TALLY_TIMEOUT (R431). -/
def execTallyTimeout (origin : Nat) (s : State) : Host.Outcome State Fault Refusal := .next (s.tallyTimeout origin)

/-- COMMIT (R434). -/
def execCommit (p : Nat) (r : Route) (q : Proposal) (taken : Nat) (s : State) : Host.Outcome State Fault Refusal :=
  .next (s.bcastMsg p r (.commit q) taken (fun s => (s.takeCommit q).heldTally))

/-- REPROPOSE (R434). -/
def execRepropose (k : Nat) (s : State) : Host.Outcome State Fault Refusal := .next (s.reproposeDue k)

/-- COORDINATOR_TAKEOVER (R517). -/
def execCoordinatorTakeover (k : Nat) (s : State) : Host.Outcome State Fault Refusal := .next (s.takeOver k)

/-- LOST (R518). -/
def execLost (p : Nat) (r : Route) (ctag : BitVec 16) (lap : BitVec 48) (addr gen : BitVec 16) (taken : Nat) (s : State) :
    Host.Outcome State Fault Refusal :=
  .next (s.bcastMsg p r (.lost ctag lap.toNat addr.toNat gen.toNat) taken (State.lostIn ctag.toNat addr.toNat gen.toNat))

/-- REPLAY_READY_DEADLINE (R523). -/
def execReplayReadyDeadline (k addr : Nat) (s : State) : Host.Outcome State Fault Refusal := .next (s.replayDeadline k addr)

end Sys2Proof.Machine
end

