-- ==== Sys2Proof/Machine/MogulOps.lean ====
section
/-! DEFINITION. The Mogul annealer: problem, energy, flip rule, sweeps, sample and results (R334 to R354). -/
namespace Sys2Proof.Machine

/-! Geometry and the spin records (R334, R336, R337). -/

/-- Width of a geometry: 0 W, 1 E, 2 JOINED. -/
def geomWidth (g : Nat) : Nat := if g == 2 then 512 else 256

/-- Lattices a geometry uses. -/
def geomLattices (g : Nat) : List Nat := if g == 0 then [0] else if g == 1 then [1] else [0, 1]

/-- The lattice and the place v·256 + u of spin (u, v) of a geometry; none outside it. -/
def spinPlace (g : Nat) (u v : Int) : Option (Nat × Nat) :=
  if 0 ≤ u && u < geomWidth g && 0 ≤ v && v < 256 then
    some (if g == 1 || (g == 2 && 256 ≤ u) then 1 else 0, v.toNat * 256 + u.toNat % 256)
  else none

/-- The fields of a spin record. -/
def recH (r : BitVec 32) : Int := toSigned 8 (bitsOf r.toNat 27 20)
def recJE (r : BitVec 32) : Int := toSigned 5 (bitsOf r.toNat 19 15)
def recJSE (r : BitVec 32) : Int := toSigned 5 (bitsOf r.toNat 14 10)
def recJS (r : BitVec 32) : Int := toSigned 5 (bitsOf r.toNat 9 5)
def recJSW (r : BitVec 32) : Int := toSigned 5 (bitsOf r.toNat 4 0)

/-- The couplings of a record, and the steps to the spins they couple. -/
def recEdges (r : BitVec 32) : List (Int × Int × Int) :=
  [(recJE r, 1, 0), (recJSE r, 1, 1), (recJS r, 0, 1), (recJSW r, -1, 1)]

/-- A record that breaks R337 by itself: a reserved coupling or a non-zero RSVD field. -/
def recBad (r : BitVec 32) : Bool := bitsOf r.toNat 30 28 != 0 || (recEdges r).any (fun e => e.1 == -16)

/-- A problem: the record of a place of a lattice. -/
abbrev Problem := Nat → Nat → BitVec 32

/-- A state: the spins of lattices W and E. -/
structure Spins where
  w : BitVec 65536
  e : BitVec 65536
  deriving DecidableEq, Repr

/-- The spin at a place of a lattice, as ±1. -/
def Spins.at (s : Spins) (lat i : Nat) : Int := if (if lat == 0 then s.w else s.e).getLsbD i then 1 else -1

/-- The places of a geometry's spins. -/
def geomPlaces (g : Nat) : List (Int × Int) :=
  (List.range 256).flatMap (fun (v : Nat) => (List.range (geomWidth g)).map (fun (u : Nat) => ((u : Int), (v : Int))))

/-- The record and the couplings of a spin that reach spins outside the geometry are all zero (R337). -/
def placeOk (pb : Problem) (g : Nat) (u v : Int) : Bool :=
  match spinPlace g u v with
  | none => true
  | some (l, i) => !recBad (pb l i)
      && (recEdges (pb l i)).all (fun e => e.1 == 0 || (spinPlace g (u + e.2.1) (v + e.2.2)).isSome)

/-- A problem has the form R337 asks of a geometry. -/
def problemOk (pb : Problem) (g : Nat) : Bool := (geomPlaces g).all (fun p => placeOk pb g p.1 p.2)

/-- The record of spin (u, v); zero outside. -/
def recordAt (pb : Problem) (g : Nat) (u v : Int) : BitVec 32 :=
  match spinPlace g u v with | some (l, i) => pb l i | none => 0

/-- The spin (u, v) as ±1; zero outside. -/
def spinAt (s : Spins) (g : Nat) (u v : Int) : Int :=
  match spinPlace g u v with | some (l, i) => s.at l i | none => 0

/-- The stored edges of a spin and its field, times the spins they join (R338). -/
def placeEnergy (pb : Problem) (s : Spins) (g : Nat) (u v : Int) : Int :=
  let r := recordAt pb g u v
  spinAt s g u v * ((recEdges r).foldl (fun a e => a + e.1 * spinAt s g (u + e.2.1) (v + e.2.2)) (recH r))

/-- The energy of a state (R338). -/
def energyOf (pb : Problem) (s : Spins) (g : Nat) : Int :=
  -((geomPlaces g).foldl (fun a p => a + placeEnergy pb s g p.1 p.2) 0)

/-! The flip decision (R339, R342). -/

/-- X(Z) of R339. -/
def noiseX (z : Nat) : Nat :=
  let l : Int := -(Real256.log2 (2 * z + 1) (-13))
  min 4095 (Real256.roundScaled 256 (l * (Real256.ln2 : Int) / (Real256.one : Int))).toNat

/-- The local field of a spin: its couplings to its eight neighbours and h (R339). -/
def localField (pb : Problem) (s : Spins) (g : Nat) (u v : Int) : Int :=
  let own := (recEdges (recordAt pb g u v)).foldl (fun a e => a + e.1 * spinAt s g (u + e.2.1) (v + e.2.2))
    (recH (recordAt pb g u v))
  own + recJE (recordAt pb g (u - 1) v) * spinAt s g (u - 1) v
    + recJSE (recordAt pb g (u - 1) (v - 1)) * spinAt s g (u - 1) (v - 1)
    + recJS (recordAt pb g u (v - 1)) * spinAt s g u (v - 1)
    + recJSW (recordAt pb g (u + 1) (v - 1)) * spinAt s g (u + 1) (v - 1)

/-- A spin flips (R339). -/
def flips (pb : Problem) (s : Spins) (g : Nat) (u v : Int) (t z : Nat) : Bool :=
  let de := 2 * spinAt s g u v * localField pb s g u v
  decide (de * 65536 < (t * noiseX z : Nat))

/-- The temperature of a sweep (R342). -/
def curveTemp : List Breakpoint → Nat → Nat
  | [], _ => 0
  | [b], _ => b.temp
  | a :: b :: l, s =>
    if b.sweep ≤ s then curveTemp (b :: l) s
    else ((a.temp : Int) + ((b.temp : Int) - a.temp) * (s - a.sweep : Nat) / ((b.sweep - a.sweep : Nat) : Int)).toNat

/-! Sweeps (R343, R344). -/

/-- The noise of one sweep: 12 bits for each cell of lattices W and E. -/
structure SweepNoise where
  w : BitVec 786432
  e : BitVec 786432
  deriving DecidableEq, Repr

/-- Z of a place of a lattice. -/
def SweepNoise.z (n : SweepNoise) (lat i : Nat) : Nat := ((if lat == 0 then n.w else n.e).extractLsb' (12 * i) 12).toNat

/-- Flip the spin at a place of a lattice. -/
def Spins.flip (s : Spins) (lat i : Nat) : Spins :=
  if lat == 0 then { s with w := s.w ^^^ (1 <<< i) } else { s with e := s.e ^^^ (1 <<< i) }

/-- Update the spins listed, each from the state s0 at the end of the cycle before. -/
def updateSpins (pb : Problem) (g t : Nat) (n : SweepNoise) (s0 : Spins) (ps : List (Int × Int)) : Spins :=
  ps.foldl (fun s p => match spinPlace g p.1 p.2 with
    | some (l, i) => if flips pb s0 g p.1 p.2 t (n.z l i) then s.flip l i else s
    | none => s) s0

/-- The spins of one phase. -/
def phasePlaces (g p : Nat) : List (Int × Int) := (geomPlaces g).filter (fun x => x.1 % 2 + 2 * (x.2 % 2) == (p : Int))

/-- The state after a sweep: mode 0 PHASED, 1 MASS. -/
def sweepSpins (pb : Problem) (g mode t : Nat) (n : SweepNoise) (s : Spins) : Spins :=
  if mode == 1 then updateSpins pb g t n s (geomPlaces g)
  else [0, 1, 2, 3].foldl (fun s p => updateSpins pb g t n s (phasePlaces g p)) s

/-- What R341 watches after a cell's next value. -/
def NoiseCell.next (c : NoiseCell) (z : Nat) : NoiseCell :=
  let run := if c.run != 0 && c.z == z then c.run + 1 else 1
  ⟨z, run, c.stuck || decide (8 ≤ run)⟩

/-- Every cell of the run after its next value. -/
def watchNoise (g : Nat) (n : SweepNoise) (l : List NoiseCell) : List NoiseCell :=
  let zs := (geomLattices g).flatMap (fun lat => (List.range 65536).map (n.z lat))
  if l.isEmpty then zs.map (NoiseCell.next ⟨0, 0, false⟩) else (l.zip zs).map (fun x => x.1.next x.2)

/-! States, signatures and the sample (R346, R347, R353). -/

/-- A row of 256 spins as 32 bytes. -/
def spinRow (b : BitVec 65536) (v : Nat) : List Byte := leBytes 32 (b.extractLsb' (256 * v) 256).toNat

/-- A state as bytes (R353). -/
def stateBytes (g : Nat) (s : Spins) : List Byte :=
  (List.range 256).flatMap (fun v =>
    if g == 2 then spinRow s.w v ++ spinRow s.e v else if g == 1 then spinRow s.e v else spinRow s.w v)

/-- The signature of a state (R346). -/
def signature (g : Nat) (s : Spins) : BitVec 64 :=
  (chunksOf 8 2048 (stateBytes g s)).foldl (fun f w => fmix f (BitVec.ofNat 64 (ofLE w))) 0

/-- Insert into the sample by ascending energy, then sweep. -/
def insertEntry (x : SampleEntry) : List SampleEntry → List SampleEntry
  | [] => [x]
  | y :: t => if x.energy < y.energy || (x.energy == y.energy && x.sweep < y.sweep) then x :: y :: t else y :: insertEntry x t

/-- A state qualifies for the sample (R347). -/
def qualifies (keep : Nat) (l : List SampleEntry) (x : SampleEntry) : Bool :=
  (decide (l.length < keep) || (match l.getLast? with | some y => decide (x.energy < y.energy) | none => true))
  && !(l.any (fun y => y.energy == x.energy && y.sig == x.sig))

namespace State

/-- The record of a place of a lattice. -/
def problem (s : State) : Problem := fun lat i => Table.get 0 (65536 * lat + i) s.mogul.cells

/-- The run that uses a lattice. -/
def runOf (s : State) (lat : Nat) : Option MogulRun :=
  if lat == 0 then s.mogul.runW
  else match s.mogul.runW with
    | some r => if r.geom == 2 then some r else s.mogul.runE
    | none => s.mogul.runE

/-- Replace a run, by its geometry. -/
def setRun (s : State) (g : Nat) (r : Option MogulRun) : State :=
  if g == 1 then { s with mogul := { s.mogul with runE := r } } else { s with mogul := { s.mogul with runW := r } }

/-- Set the states of the lattices of a geometry. -/
def setLattices (s : State) (g st : Nat) : State :=
  { s with mogul := { s.mogul with
    latW := if g == 1 then s.mogul.latW else st
    latE := if g == 0 then s.mogul.latE else st } }

/-- Set the progress of a geometry's lattices. -/
def setProgress (s : State) (g n : Nat) : State :=
  { s with mogul := { s.mogul with
    progressW := if g == 1 then s.mogul.progressW else n
    progressE := if g == 0 then s.mogul.progressE else n } }

/-- Lengths of a sweep in cc. -/
def sweepLen (mode : Nat) : Nat := if mode == 1 then 1 else 4

/-- The current cycle is the last of the run's next sweep: sweep 0 begins within 2 µs of acceptance, and each later one
follows at once (R343, R344, R350). MOGUL_CLK comes from the W root PLL (R335): without it no sweep runs. -/
def sweepDue (s : State) (r : MogulRun) : Bool :=
  let n := sweepLen r.mode
  if r.done == 0 then decide (r.lastEnd + n ≤ s.now + 1) && decide (s.now + 1 ≤ r.lastEnd + 3200 + n) else s.now == r.lastEnd + n

/-- One sweep of the run that uses lattice lat, at its last cycle. -/
def sweepStep (s : State) (lat : Nat) : State :=
  match s.runOf lat with
  | none => s
  | some r =>
    if r.ended || !s.clockOn 0 || !s.sweepDue r then s
    else
      let a := s.free 786432
      let b := a.2.free 786432
      let n : SweepNoise := ⟨a.1, b.1⟩
      let sp := sweepSpins s.problem r.geom r.mode (curveTemp r.curve r.done) n ⟨r.spinsW, r.spinsE⟩
      let last := r.done == r.sweepsM1 || r.stopping.isSome
      let r := { r with
        done := r.done + 1, lastEnd := s.now, spinsW := sp.w, spinsE := sp.e
        noise := watchNoise r.geom n r.noise
        pending := r.pending ++ [⟨r.done, s.now + 40, sp.w, sp.e⟩]
        ended := last }
      let s := ((b.2.setRun r.geom (some r)).setProgress r.geom r.done).tallyEvent 27 1
      if last then s.setLattices r.geom 2 else s

/-- The energy of a sweep-end state is ready, and the state is captured or missed (R345, R347). -/
def energyReady (s : State) (lat : Nat) : State :=
  match s.runOf lat with
  | none => s
  | some r =>
    match r.pending with
    | [] => s
    | p :: rest =>
      if p.ready != s.now || !s.clockOn 0 then s
      else
        let sp : Spins := ⟨p.w, p.e⟩
        let x : SampleEntry := ⟨energyOf s.problem sp r.geom, p.sweep, signature r.geom sp, p.w, p.e⟩
        let r := { r with pending := rest, eFinal := x.energy }
        let busy := (match r.drainUntil with | some u => decide (s.now + 1 ≤ u) | none => false)
        if !qualifies r.keep r.sample x then s.setRun r.geom (some r)
        else if busy then s.setRun r.geom (some { r with missed := satAdd 32 r.missed 1 })
        else s.setRun r.geom (some { r with
          captured := satAdd 32 r.captured 1
          sample := (insertEntry x (if r.sample.length < r.keep then r.sample else r.sample.dropLast))
          drainUntil := some (s.now + (if r.geom == 2 then 64 else 32)) })

/-- The last cycle of a drain: the capture register frees (R347). -/
def drainEnd (s : State) (lat : Nat) : State :=
  match s.runOf lat with
  | none => s
  | some r => if r.drainUntil == some s.now && s.clockOn 0 then s.setRun r.geom (some { r with drainUntil := none }) else s

/-- The result set of a run (R352, R354). -/
def runResult (r : MogulRun) : ResultSet :=
  ⟨r.geom, r.mode, r.done, r.eInitial, r.eFinal, r.captured, r.missed, (r.noise.filter (fun c => c.stuck)).length,
   r.sample, r.spinsW, r.spinsE⟩

/-- The summary of a result set as bytes (R352). -/
def summaryBytes (x : ResultSet) : List Byte :=
  leBytes 1 x.geom ++ leBytes 1 x.mode ++ leBytes 2 x.entries.length ++ leBytes 4 0 ++ leBytes 8 x.sweepsDone
  ++ leBytes 4 (ofSigned 32 x.eInitial) ++ leBytes 4 (ofSigned 32 x.eFinal) ++ leBytes 4 x.captured ++ leBytes 4 x.missed
  ++ leBytes 4 x.stuck ++ leBytes 12 0
  ++ x.entries.flatMap (fun e => leBytes 4 (ofSigned 32 e.energy) ++ leBytes 4 e.sweep ++ leBytes 8 e.sig.toNat ++ leBytes 8 0)

/-- The run that uses lattice lat has been judged to its end: its results stand, it is answered, and its lattices are
IDLE (R350, R354). -/
def endMogul (s : State) (lat : Nat) : State :=
  match s.runOf lat with
  | none => s
  | some r =>
    if !r.ended || !r.pending.isEmpty || r.drainUntil.isSome || !s.porterOn then s
    else
      let x := runResult r
      let s := (s.setRun r.geom none).setLattices r.geom 0
      let s := { s with mogul := { s.mogul with
        set0 := if r.geom == 1 then s.mogul.set0 else some x
        set1 := if r.geom == 1 then some x else s.mogul.set1
        prevW := if r.geom == 0 then some r.spinsW else s.mogul.prevW
        prevE := if r.geom == 1 then some r.spinsE else s.mogul.prevE
        prevJ := if r.geom == 2 then some (r.spinsW, r.spinsE) else s.mogul.prevJ } }
      if r.respond then s.answerTicket r.ticket 0x40 0xFF (r.stopping.getD stOK) 0 0 (summaryBytes x) true else s

/-- MOGUL_STOP (R350, R355): a write that names an idle lattice has no effect. -/
def mogulStop (s : State) (v : BitVec 8) : State :=
  let f (r : MogulRun) : MogulRun :=
    if (v.getLsbD 0 && r.geom != 1) || (v.getLsbD 1 && r.geom != 0) then r.stopBy stMOGUL_STOPPED else r
  { s with mogul := { s.mogul with runW := s.mogul.runW.map f, runE := s.mogul.runE.map f } }

/-! The command (R348, R349). -/

/-- The breakpoints of a payload. -/
def payloadCurve (bs : List Byte) : List Breakpoint :=
  (List.range (fieldLE bs 3 1)).map (fun k => ⟨fieldLE bs (16 + 8 * k) 4, fieldLE bs (20 + 8 * k) 2⟩)

/-- Sweep numbers strictly increase. -/
def curveRises : List Breakpoint → Bool
  | [] => true
  | [_] => true
  | a :: b :: l => decide (a.sweep < b.sweep) && curveRises (b :: l)

/-- The payload has the form of R348 and R342. -/
def payloadOk (bs : List Byte) : Bool :=
  let n := fieldLE bs 3 1
  let c := payloadCurve bs
  bs.length == 16 + 8 * n && fieldLE bs 0 1 ≤ 2 && fieldLE bs 1 1 ≤ 1 && fieldLE bs 2 1 ≤ 2 && 1 ≤ n && n ≤ 64
  && 1 ≤ fieldLE bs 8 2 && fieldLE bs 8 2 ≤ 256 && fieldLE bs 10 6 == 0
  && (List.range n).all (fun k => fieldLE bs (22 + 8 * k) 2 == 0)
  && (c.headD ⟨1, 0⟩).sweep == 0 && curveRises c && ((c.getLast?).map (fun b => b.sweep)).getD 0 ≤ fieldLE bs 4 4

/-- Spins a run may take up with INIT PREVIOUS. -/
def previousSpins (s : State) (g : Nat) : Option Spins :=
  if g == 0 then s.mogul.prevW.map (fun w => ⟨w, 0⟩)
  else if g == 1 then s.mogul.prevE.map (fun e => ⟨0, e⟩)
  else s.mogul.prevJ.map (fun x => ⟨x.1, x.2⟩)

/-- The status MOGUL_RUN is refused with, if any (R349). DOMAIN_OFF is check 8 of R281. -/
def mogulRefusal (s : State) (bs : List Byte) (domainOff : Nat) : Option Nat :=
  let g := fieldLE bs 0 1
  if !payloadOk bs then some stMOGUL_FORMAT
  else if s.det.strict then some stSTRICT_REFUSED
  else if !((geomLattices g).all (fun l => s.isOn (34 + l))) then some domainOff
  else if (geomLattices g).any (fun l => (if l == 0 then s.mogul.latW else s.mogul.latE) != 0) then some stMOGUL_ACTIVE
  else if !problemOk s.problem g then some stPROBLEM_FORMAT
  else if fieldLE bs 2 1 == 2 && (s.previousSpins g).isNone then some stNO_PREVIOUS
  else none

/-- The spins of S0 of a lattice. -/
def recordSpins (pb : Problem) (lat : Nat) : BitVec 65536 :=
  (List.range 65536).foldl (fun b i => if (pb lat i).getLsbD 31 then b ||| (1 <<< i) else b) 0

/-- The initial spins (R348): noise gives each spin one free bit. -/
def initSpins (s : State) (g init : Nat) : Spins × State :=
  if init == 0 then (⟨recordSpins s.problem 0, recordSpins s.problem 1⟩, s)
  else if init == 1 then
    let a := s.free 65536
    let b := a.2.free 65536
    (⟨a.1, b.1⟩, b.2)
  else ((s.previousSpins g).getD ⟨0, 0⟩, s)

/-- Accept a run (R350, R354). -/
def startMogul (s : State) (bs : List Byte) (t : Ticket) : State :=
  let g := fieldLE bs 0 1
  let i := s.initSpins g (fieldLE bs 2 1)
  let sp := i.1
  let e0 := energyOf s.problem sp g
  let r : MogulRun := { geom := g, mode := fieldLE bs 1 1, keep := fieldLE bs 8 2, sweepsM1 := fieldLE bs 4 4
                        curve := payloadCurve bs, ticket := t, respond := true, done := 0, lastEnd := s.now, stopping := none
                        ended := false, spinsW := sp.w, spinsE := sp.e, eInitial := e0, eFinal := e0, pending := []
                        drainUntil := none, sample := [], captured := 0, missed := 0, noise := [] }
  let s := (((i.2.setRun g (some r)).setLattices g 1).setProgress g 0)
  { s with mogul := { s.mogul with
    runs := satAdd 32 s.mogul.runs 1
    set0 := if g == 1 then s.mogul.set0 else none
    set1 := if g == 0 then s.mogul.set1 else none } }

end State
end Sys2Proof.Machine
end

