-- ==== Sys2Proof/Machine/Annealer.lean ====
section
/-! DEFINITION. The meanings of the annealer's own events (R343 to R350). -/
namespace Sys2Proof.Machine

/-- ENERGY_READY (R347). -/
def execEnergyReady (lat : Nat) (s : State) : Host.Outcome State Fault Refusal := .next (s.energyReady lat)

/-- DRAIN_END (R347). -/
def execDrainEnd (lat : Nat) (s : State) : Host.Outcome State Fault Refusal := .next (s.drainEnd lat)

/-- MOGUL_RUN_END (R350). -/
def execMogulRunEnd (lat : Nat) (s : State) : Host.Outcome State Fault Refusal := .next (s.endMogul lat)

/-- SWEEP (R343). -/
def execSweep (lat : Nat) (s : State) : Host.Outcome State Fault Refusal := .next (s.sweepStep lat)

end Sys2Proof.Machine
end

