-- ==== Sys2Proof/Machine/Control.lean ====
section
/-! DEFINITION. What the CT operations of a core do (R61 to R65). -/
namespace Sys2Proof.Machine

/-- LOOP (R61). -/
def execLoop (n : Nat) (arg : BitVec 12) (upset : Bool) (s : State) : Host.Outcome State Fault Refusal :=
  .next (s.onCt n 0x1 arg upset (fun k x => k.ctLoopOp x arg))

/-- ENDL (R61). -/
def execEndl (n : Nat) (arg : BitVec 12) (upset : Bool) (s : State) : Host.Outcome State Fault Refusal :=
  .next (s.onCt n 0x2 arg upset (fun k x => k.ctEndlOp x arg))

/-- WAIT (R61). -/
def execWait (n : Nat) (arg : BitVec 12) (upset : Bool) (s : State) : Host.Outcome State Fault Refusal :=
  .next (s.onCt n 0x3 arg upset (fun k x => k.ctWaitOp x arg))

/-- END (R61). -/
def execEndLap (n : Nat) (arg : BitVec 12) (upset : Bool) (s : State) : Host.Outcome State Fault Refusal :=
  .next (s.onCt n 0x4 arg upset (fun k x => k.ctEndOp x arg))

/-- RDFLAG (R61). -/
def execRdflag (n : Nat) (arg : BitVec 12) (upset : Bool) (s : State) : Host.Outcome State Fault Refusal :=
  .next (s.onCt n 0x5 arg upset (fun k x => k.ctRead x (arg.toNat / 16 != 0) (arg.toNat % 16) (fun k => k.flags.zeroExtend 32)))

/-- RDCC (R61). -/
def execRdcc (n : Nat) (arg : BitVec 12) (upset : Bool) (s : State) : Host.Outcome State Fault Refusal :=
  .next (s.onCt n 0x6 arg upset (fun k x => k.ctRead x (arg.toNat / 16 != 0) (arg.toNat % 16) (fun _ => BitVec.ofNat 32 x.c)))

/-- RDLAP (R61). -/
def execRdlap (n : Nat) (arg : BitVec 12) (upset : Bool) (s : State) : Host.Outcome State Fault Refusal :=
  .next (s.onCt n 0x7 arg upset (fun k x => k.ctRead x (arg.toNat / 32 != 0) (arg.toNat % 16)
    (fun _ => BitVec.ofNat 32 (if arg.getLsbD 4 then x.lap / 2 ^ 32 % 2 ^ 16 else x.lap))))

end Sys2Proof.Machine
end

