-- ==== Sys2Proof/Machine/Log.lean ====
section
/-! DEFINITION. The Logbook: intervals, observations and records (R497 to R505, R558). -/
namespace Sys2Proof.Machine

/-- One metric as the 120 bytes of a record (R500). -/
def metricBytes (m : Metric) : List Byte :=
  (List.range 16).flatMap (fun b => leBytes 4 (Table.get 0 b m.bins)) ++ leBytes 8 m.count ++ leBytes 8 (ofSigned 64 m.sum)
  ++ leBytes 8 (ofSigned 64 m.mn) ++ leBytes 8 (ofSigned 64 m.mx) ++ leBytes 24 0

namespace State

/-- The Logbook's area exists: no stack is lost together with its partner (R558). -/
def logArea (s : State) : Bool := (List.range 16).all (fun i => !((s.stack i).lost && (s.stack (i ^^^ 4)).lost))

/-- A record's bytes, SEQ and WRITTEN32 still zero (R500). -/
def recordBytes (s : State) (rec start ms : Nat) : List Byte :=
  leBytes 4 0 ++ leBytes 2 1 ++ leBytes 2 rec ++ leBytes 8 start ++ leBytes 8 s.rink ++ leBytes 4 0 ++ leBytes 4 s.deviceWord
  ++ leBytes 4 ms ++ leBytes 220 0 ++ (List.range 32).flatMap (fun m => metricBytes (Table.get Metric.zero m s.log.metrics))

/-- Records of the current series that are being written. -/
def writingNow (s : State) : Nat := (s.log.writing.filter (fun w => decide (w.record < 4096))).length

/-- The interval in progress ends: it is recorded, or counted as lost (R498). A record's first two writes, block 0 with SEQ 0
and the blocks after it, are made at once (R503; DESIGN CHOICE, assumption 35). -/
def closeInterval (s : State) (start ms : Nat) (whole : Bool) : State :=
  let rec_ := s.log.count + s.writingNow
  if whole && s.porterOn && rec_ < 4096 && s.logArea then
    let q := s.log.seqNext
    let b := s.recordBytes rec_ start ms
    ({ s with log := { s.log with
      seqNext := if q == 2 ^ 32 - 1 then 1 else q + 1
      writing := s.log.writing ++ [(⟨rec_, q, b, s.now⟩ : LogWrite)] } }).writeLog rec_ 0 64 b
  else { s with log := { s.log with lost := satAdd 32 s.log.lost 1 } }

/-- An interval begins now. -/
def openInterval (s : State) : State :=
  { s with log := { s.log with current := some (s.rink, s.log.interval, s.log.enable && s.porterOn), metrics := [] } }

/-- The end of an interval, and the start of the next; the first interval begins at the first multiple of its length
(R497). -/
def intervalEnd (s : State) : State :=
  if !s.rinkRun then s
  else match s.log.current with
    | none => if 0 < s.rink && s.rink % (1600000 * s.log.interval) == 0 then s.openInterval else s
    | some (start, ms, whole) =>
      if s.rink == start + 1600000 * ms then (s.closeInterval start ms whole).openInterval else s

/-- The value so far of the counter a per-ms metric names (R502). -/
def msCounter (s : State) (m : Nat) : Nat :=
  let sumPorts (f : LecelPort → Nat) := ((List.range 4).map (fun p => f (s.lport p))).sum
  match m with
  | 3 => s.louvre.admitted
  | 9 => s.grid.linkCorrected
  | 10 => s.mem.corrected
  | 11 => s.mem.eccReports
  | 12 => sumPorts (fun p => p.cwCorrected)
  | 13 => sumPorts (fun p => p.cwUncorrectable)
  | 14 => s.grid.transomDrops + sumPorts (fun p => p.transomLost)
  | 15 => s.grid.schussErrors
  | 16 => s.grid.fenceDrops
  | 17 => s.link.staleDiscards
  | 18 => s.mem.blockRepairs
  | 19 => s.mem.merged
  | 21 => (s.port 0).packets
  | 22 => (s.port 1).packets
  | 23 => s.ent.failed
  | 28 => s.power.supplyAlarms
  | 29 => s.thermal.events
  | 30 => ((List.range 8).map (fun k => (s.slot k).pairMismatches)).sum
  | 31 => s.link.agreeRounds
  | _ => Table.get 0 m s.log.tallies

/-- The per-ms metrics, POOL_BITS apart. -/
def msMetrics : List Nat := [3, 5, 6, 7, 9, 10, 11, 12, 13, 14, 15, 16, 17, 18, 19, 21, 22, 23, 26, 27, 28, 29, 30, 31]

/-- One metric's observation at a millisecond; metrics 19 and 27 count in units of 1,024. -/
def msObserve (s : State) (m : Nat) : State :=
  let v := s.msCounter m
  let d := v - Table.get 0 m s.log.snap
  let s := s.observe m ((if m == 19 || m == 27 then d / 1024 else d : Nat) : Int)
  { s with log := { s.log with snap := Table.put m v s.log.snap } }

/-- The tick of a millisecond of RINK (R502). -/
def msTick (s : State) : State :=
  if !s.rinkRun || s.rink % 1600000 != 0 then s
  else
    let s := (msMetrics.foldl msObserve s).observe 24 ((8 * s.ent.pool.length : Nat) : Int)
    { s with log := { s.log with lastMs := s.rink } }

/-- The first record that waits is complete: SEQ is written last, and LOG_COUNT and LOG_SEQ_LAST change with it
(R498, R503). -/
def recordDone (s : State) : State :=
  match s.log.writing with
  | [] => s
  | w :: rest =>
    if !s.porterOn then s
    else
      let bytes := leBytes 4 w.seq ++ sliceBytes w.bytes 4 20 ++ leBytes 4 (s.rink % 2 ^ 32) ++ w.bytes.drop 28
      let own := decide (w.record < 4096)
      let s := { s with log := { s.log with
        writing := rest
        records := Table.put (w.record % 4096) bytes s.log.records
        seqLast := w.seq
        seqFirst := if w.record == 0 then w.seq else s.log.seqFirst
        count := if own then s.log.count + 1 else s.log.count
        full := s.log.full || w.record == 4095 } }
      let s := (s.writeLog (w.record % 4096) 0 1 (bytes.take 64)).fire 7
      if w.record == 4095 then s.fire 6 else s

/-- A new series: the interval in progress becomes its record 0 (R498). -/
def logClear (s : State) : State :=
  { s with log := { s.log with
    count := 0, full := false, seqFirst := 0
    writing := s.log.writing.map (fun (w : LogWrite) => { w with record := 4096 + w.record % 4096 }) } }

end State

/-- LOG_INTERVAL_END (R498). -/
def execLogIntervalEnd (s : State) : Host.Outcome State Fault Refusal := .next s.intervalEnd

/-- LOG_MS_TICK (R502). -/
def execLogMsTick (s : State) : Host.Outcome State Fault Refusal := .next s.msTick

/-- LOG_RECORD_WRITE (R503). -/
def execLogRecordWrite (s : State) : Host.Outcome State Fault Refusal := .next s.recordDone

end Sys2Proof.Machine
end

