-- ==== Sys2Proof/Machine/PowerOps.lean ====
section
/-! DEFINITION. Power domains, wakes, resets, start-up, the meters and the sensors (R457 to R481, R550 to R560). An AON
cycle is 16 cc. -/
namespace Sys2Proof.Machine

/-- Domains that domain d requires, AON apart (R457). -/
def requires (d : Nat) : List Nat :=
  if d ≤ 1 then []
  else if d ≤ 5 then [0, 10]
  else if d ≤ 9 then [0, 11]
  else if d ≤ 11 then [0]
  else if d ≤ 19 then [10]
  else if d ≤ 27 then [11]
  else if d == 28 || d == 30 || d == 33 then [10, 1]
  else if d == 29 || d == 31 || d == 32 then [11, 1]
  else if d == 34 then [10]
  else [11]

/-- A domain with a sash lock (R457). -/
def sashLocked (d : Nat) : Bool := 12 ≤ d && d ≤ 33

/-- Numbers of the domains that have controls. -/
def allDomains : List Nat := List.range 36

/-- CMP_CONFIG fields (R469). -/
def Comparator.enabled (c : Comparator) : Bool := c.config.getLsbD 31
def Comparator.edgeMode (c : Comparator) : Bool := c.config.getLsbD 30
def Comparator.asserted (c : Comparator) : Bool := c.config.getLsbD 31 && c.config.getLsbD 28

/-- The threshold in steps of 1.2 V / 1,024, and the hysteresis in such steps (R467, R469). -/
def Comparator.thresh (c : Comparator) : Nat := bitsOf c.config.toNat 9 0
def Comparator.hyst (c : Comparator) : Nat := 4 * bitsOf c.config.toNat 27 25

/-- An input of uv microvolts makes ASSERTED 1: above the threshold, or with POL 1 below it (R467). -/
def Comparator.asserts (c : Comparator) (uv : Nat) : Bool :=
  if c.config.getLsbD 29 then decide (1024 * uv < 1200000 * c.thresh) else decide (1200000 * c.thresh < 1024 * uv)

/-- An input makes ASSERTED 0: below the threshold less the hysteresis, or with POL 1 above their sum (R467). -/
def Comparator.releases (c : Comparator) (uv : Nat) : Bool :=
  if c.config.getLsbD 29 then decide (1200000 * (c.thresh + c.hyst) < 1024 * uv)
  else decide (1024 * uv + 1200000 * c.hyst < 1200000 * c.thresh)

/-- The alarm window of a rail that the samples watch, in mV (R579). -/
def alarmWindow (rail : Nat) : Option (Nat × Nat) :=
  match rail with
  | 0 => some (700, 800)
  | 1 => some (700, 800)
  | 2 => some (800, 900)
  | 3 => some (750, 850)
  | 4 => some (1040, 1160)
  | 5 => some (375, 425)
  | 6 => some (1680, 1920)
  | 7 => some (770, 830)
  | 8 => some (1150, 1250)
  | _ => none

namespace State

/-! The state of the domains. -/

/-- Change domain d. -/
def onDomain (s : State) (d : Nat) (f : Domain → Domain) : State := s.setDomain d (f (s.domain d))

/-- Every domain that d requires is ON. -/
def requiredOn (s : State) (d : Nat) : Bool := (requires d).all s.isOn

/-- A domain that requires d is ON. -/
def dependentOn (s : State) (d : Nat) : Bool := allDomains.any (fun e => (requires e).contains d && s.isOn e)

/-- What holds the device: PWR_OK or RESET_N low, a device reset, or the want of REFCLK, without which the AON logic does
not advance (R551, R554). -/
def held (s : State) : Bool := !s.start.pwrOk || !s.start.resetN || s.start.resetHeld.isSome || !s.start.refclk

/-- A domain in RET or OFF begins to wake (R466). -/
def beginWake (s : State) (d : Nat) : State :=
  s.onDomain d (fun x => { x with
    st := 4, req := 0, since := s.now, fromRet := x.st == 1, armed := false, latched := false })

/-- AON cycles since cycle 0 of the entry. -/
def entryCycle (s : State) (d : Nat) : Nat := (s.now - (s.domain d).since) / 16

/-- A wake event of domain d under R464: write marks a DOMAIN_REQ write, and level a level-mode comparator. -/
def wakeOne (s : State) (d : Nat) (write level : Bool) : State :=
  let x := s.domain d
  let c := s.entryCycle d
  if x.st == 0 || x.st == 4 then s
  else if x.st == 3 && c < 4 then
    let s := { s with power := { s.power with entriesCancelled := satAdd 32 s.power.entriesCancelled 1 } }
    if x.fromRet then (s.onDomain d (fun x => { x with st := 1 })).beginWake d
    else s.onDomain d (fun x => { x with st := 0, req := 0, padsHeld := false })
  else if x.armed then s.beginWake d
  else if c ≤ 4 then s.onDomain d (fun x => { x with latched := true, req := if write then 0 else x.req })
  else if c ≤ 12 then
    if level then s else { s with power := { s.power with wakesLost := satAdd 32 s.power.wakesLost 1 } }
  else s.beginWake d

/-- Wake domain d, the domains it requires first (R459): at most three stand above it. -/
def wakeEvent (s : State) (d : Nat) (write level : Bool) : Nat → State
  | 0 => s
  | n + 1 =>
    let s := (requires d).foldl (fun s e => if s.isOn e then s else wakeEvent s e false level n) s
    s.wakeOne d write level

/-! What an entry takes from its domain (R458, R461, R372, R397). -/

/-- The SECURE domain has left ON: cells stop, partial blocks and the pool go; OFF loses the DRBG and the keys (R372). -/
def secureLeaves (s : State) (off : Bool) : State :=
  { s with
    ent := { s.ent with
      cells := Table.mapVals (fun _ c => { c with on := false }) s.ent.cells
      pool := [], keyWaits := false, cipherWaits := false
      drbgLive := s.ent.drbgLive && !off
      drbg := if off then Drbg.zero else s.ent.drbg
      reserve := if off then [] else s.ent.reserve }
    sec := { s.sec with
      identity := if off && s.sec.identity != 2 then 0 else s.sec.identity
      pubkey := if off then List.replicate 97 0 else s.sec.pubkey
      signing := none
      sigQueue := (match s.sec.signing with | some (j, _) => [j] | none => []) ++ s.sec.sigQueue
      installs := if off then [] else s.sec.installs
      installed := if off then [] else s.sec.installed
      masks := if off then [] else s.sec.masks } }

/-- A slice controller that has lost its tables and queues; what is counted since reset stays (R269, R272, R458). -/
def SliceCtl.cleared (c : SliceCtl) : SliceCtl := { SliceCtl.fresh with scrubPass := c.scrubPass, repaired := c.repaired }

/-- Clear the controllers whose number satisfies p. -/
def clearCtls (s : State) (p : Nat → Bool) : State :=
  { s with mem := { s.mem with ctl := Table.mapVals (fun j c => if p j then SliceCtl.cleared c else c) s.mem.ctl } }

/-- A stack that goes OFF loses its contents (R458). -/
def stackOff (s : State) (st : Nat) : State :=
  let s := s.setStack st { s.stack st with trained := false, filled := false }
  let lo := lineOf (32 * st) 0 0
  let hi := lineOf (32 * (st + 1)) 0 0
  { s with mem := { s.mem with
    hbm := s.mem.hbm.clearRange (64 * lo) (64 * hi)
    meta_ := s.mem.meta_.filter (fun e => decide (e.1 < lo) || decide (hi ≤ e.1))
    clearing := s.mem.clearing.filter (fun r => sliceStack (laSlice r.1) != st) } }

/-- A lattice that goes OFF loses its problem (R458). The final state of its last run is kept (R349, R354). -/
def latticeOff (s : State) (lat : Nat) : State :=
  { s with mogul := { s.mogul with cells := s.mogul.cells.filter (fun e => decide (e.1 / 65536 ≠ lat)) } }

/-- A ring that goes OFF loses the state of its slice controllers; RING_W also the oracle's settings (R457, R458). -/
def ringOff (s : State) (east : Bool) : State :=
  let s := s.clearCtls (fun j => decide (8 ≤ ctlStack j) == east)
  { s with
    dict := { s.dict with oracles := if east then s.dict.oracles else [] } }

/-- The PORTER domain has left ON: the Logbook's interval is not recorded (R498), and OFF loses the interrupt controller
and the Louvre, but for what AON keeps of the comparator sources (R457, R458, R493). -/
def porterLeaves (s : State) (off : Bool) : State :=
  let s := { s with log := { s.log with current := s.log.current.map (fun (c : Nat × Nat × Bool) => (c.1, c.2.1, false)) } }
  if off then
    ({ s with
      irq := { Irq.reset with
        ibi := s.irq.ibi
        sources := Table.put 0 (Table.get Source.fresh 0 Irq.reset.sources) ((s.irq.sources.filter (fun (x : Nat × Source) => decide (0x10 ≤ x.1 && x.1 ≤ 0x15))).map (fun (x : Nat × Source) =>
          (x.1, { Source.fresh with alert := x.2.alert, pending := x.2.pending }))) }
      louvre := { Louvre.reset with hold := false, lastSample := s.louvre.lastSample } }).alertUpdate
  else s.alertUpdate

/-- What the entry of domain d to RET or (off) OFF does beyond its own state. -/
def entryEffect (s : State) (d : Nat) (off : Bool) : State :=
  if d == 0 then s.porterLeaves off
  else if d == 1 then s.secureLeaves off
  else if d == 10 || d == 11 then (if off then s.ringOff (d == 11) else s)
  else if 12 ≤ d && d ≤ 27 then (if off then s.stackOff (d - 12) else s)
  else if d == 28 || d == 29 then s.portReset (d - 28) true
  else if 30 ≤ d && d ≤ 33 then s.portLeave (d - 30) 3
  else if d == 34 || d == 35 then (if off then s.latticeOff (d - 34) else s)
  else s

/-- Cycle 0 of an entry (R462). -/
def beginEntry (s : State) (d target : Nat) : State :=
  s.onDomain d (fun x => { x with
    st := 3, req := target, target := target, since := s.now, fromRet := x.st == 1, armed := false, latched := false })

/-- Cycle 4: the entry commits, pads of a sash-locked domain held (R462, R465). -/
def commitEntry (s : State) (d : Nat) : State :=
  let x := s.domain d
  if x.st != 3 || s.now != x.since + 64 then s
  else (s.setDomain d { x with st := x.target, padsHeld := x.padsHeld || sashLocked d }).entryEffect d (x.target == 2)

/-- Cycle 13: wake logic is armed, and a latched event or an asserted level comparator wakes the domain (R464). -/
def armWake (s : State) (d : Nat) : State :=
  let x := s.domain d
  if !(x.st == 1 || x.st == 2) || x.armed || s.now != x.since + 208 || s.held then s
  else
    let s := s.setDomain d { x with armed := true, latched := false }
    let level := s.power.comparators.any (fun c => c.2.asserted && !c.2.edgeMode && c.2.mask.getLsbD d)
    if x.latched || level then s.wakeEvent d false true 4 else s

/-! DOMAIN_REQ and PAD_RELEASE (R460, R461, R465). -/

/-- R460 keeps domain d from entering a state. -/
def domainInUse (s : State) (d target : Nat) : Bool :=
  (s.residents.filter (fun k => (s.slotDomains k).contains d)).any (fun k =>
    target == 2 || !(s.slot k).st.idle || (s.slot k).admitted || s.lapAhead k)

/-- A Mogul run uses the lattice of domain d. -/
def mogulUses (s : State) (d : Nat) : Bool :=
  (d == 34 && s.mogul.latW != 0) || (d == 35 && s.mogul.latE != 0)

/-- A write to DOMAIN_REQ d that has passed the checks before the chapter's own (R461, R464). -/
def requestDomain (s : State) (d v : Nat) : Nat × State :=
  let x := s.domain d
  if 3 ≤ v then (stBAD_VALUE, s)
  else if s.held then (stOK, s)
  else if v == 0 && x.st == 3 then (stOK, s.wakeEvent d true false 4)
  else if x.st == 3 || x.st == 4 then (0x500, s)
  else if x.st == v then (stOK, s)
  else if x.st == 2 && v == 1 then (stBAD_VALUE, s)
  else if v == 0 then (stOK, s.wakeEvent d true false 4)
  else if x.st == 0 && s.dependentOn d then (0x501, s)
  else if s.domainInUse d v then (0x502, s)
  else if x.st == 0 && s.mogulUses d then (stMOGUL_ACTIVE, s)
  else (stOK, s.beginEntry d v)

/-- PAD_RELEASE of domain d reads 1: from entry cycle 2 (R465). -/
def padsHeldNow (s : State) (d : Nat) : Bool :=
  let x := s.domain d
  x.padsHeld || (sashLocked d && x.st == 3 && decide (x.since + 32 ≤ s.now))

/-- Release the pads of domain d, which is ON: a Lecel port trains (R465, R562). -/
def releasePads (s : State) (d : Nat) : State :=
  let s := s.onDomain d (fun x => { x with padsHeld := false })
  if 30 ≤ d && d ≤ 33 then s.portTrain (d - 30) else s

/-! Start-up (R550 to R559). -/

/-- Domains that start-up brings ON. -/
def startDomains : List Nat := List.range 34

/-- START_STATE becomes READY when every start-up domain is ON with its pads released and the RESERVED areas are
written (R555, R566). -/
def readyCheck (s : State) : State :=
  if s.start.st == 1 && s.start.reservedDone && startDomains.all (fun d => s.isOn d && !(s.domain d).padsHeld) then
    { s with start := { s.start with st := 2, us := microsUp (s.now - s.start.time0.getD s.now) } }
  else s

/-- The next domains of the start-up sequence begin to wake (R554). -/
def startNext (s : State) : State :=
  let go := s.start.toWake.filter (fun d => if d == 10 || d == 11 then s.isOn 0 else s.isOn 10 && s.isOn 11 && s.requiredOn d)
  let s := go.foldl (fun s d => if (s.domain d).st == 2 then s.beginWake d else s) s
  { s with start := { s.start with toWake := s.start.toWake.filter (fun d => !go.contains d) } }

/-- Every entropy cell that is not retired starts, and the source is STARTING unless it is FATAL, in which nobody waits for a
block (R363, R365, R371, R372). -/
def startCells (s : State) : State :=
  let fatal := s.ent.st == .fatal
  let start (n : Nat) : Nat × Cell :=
    let c := Table.get Cell.fresh n s.ent.cells
    (n, if c.st == .retired then c else
      { c with st := .settling, on := true, warm := 0, failRun := 0, since := s.now, run := 0, last := false })
  { s with ent := { s.ent with
    st := if fatal then .fatal else .starting
    cells := (List.range 16).map start
    keyWaits := !fatal && (!s.ent.drbgLive || s.ent.reseedWaits)
    cipherWaits := !fatal && decide (s.ent.reserve.length < 8) } }

/-- PORTER has reached ON in start-up: POWERING, the hold of R477, and A = 0. -/
def porterUp (s : State) : State :=
  { s with
    start := { s.start with st := 1 }
    louvre := { s.louvre with hold := true, holdFrom := some s.now, account := 0 } }

/-- What a domain does on reaching ON (R363, R465, R493, R554, R559). -/
def onEffect (s : State) (d : Nat) : State :=
  let starting := s.start.st == 0 || s.start.st == 1
  let s := if d == 1 then s.startCells else s
  let s := if d == 0 && s.start.st == 0 then s.porterUp else s
  let s := if d == 0 then s.alertUpdate else s
  let s := if starting && sashLocked d && !(s.domain d).padsHeld && 30 ≤ d then s.portTrain (d - 30) else s
  if starting then s.startNext.readyCheck else s

/-- A stack may come into service: from OFF it has been trained and zero-filled (R466, R557). -/
def stackReady (s : State) (d : Nat) : Bool :=
  !(12 ≤ d && d ≤ 27) || (s.domain d).fromRet || (s.stack (d - 12)).filled

/-- The boot ROM lets PORTER come ON: start-up has not failed, and it accepts the configuration record and a firmware bank
(R537, R553, R554). -/
def bootAccepts (s : State) : Bool := s.start.st != 3 && s.flash.recordGood && s.flash.bankGood

/-- A waking domain reaches ON (R459, R466, R554). During start-up its pads are released with it. -/
def wakeComplete (s : State) (d : Nat) : State :=
  let x := s.domain d
  if x.st != 4 || !s.requiredOn d || !s.stackReady d || (d == 0 && !s.bootAccepts) then s
  else
    let starting := s.start.st == 0 || s.start.st == 1
    (s.setDomain d { x with st := 0, padsHeld := x.padsHeld && !starting }).onEffect d

/-- The state of every object at the start of a pin or device reset (kept: what R456, R470 and R532 keep), with what is no
object: time, package flash, the pins, and the commands that wait. -/
def coldState (s : State) (aon : Bool) : State :=
  { State.reset with
    now := s.now
    fresh := s.fresh
    flash := { s.flash with fwSvn := s.flash.fwNext.getD s.flash.fwSvn, fwNext := none }
    ent := if aon then Entropy.reset else { Entropy.reset with
      st := if s.ent.st == .fatal then .fatal else .starting
      cells := (s.ent.cells.filter (fun c => c.2.st == .retired)).map (fun c =>
        (c.1, { Cell.fresh with st := .retired, fails := c.2.fails })) }
    power := if aon then Power.reset else { Power.reset with
      aonEnergy := s.power.aonEnergy
      domains := s.power.domains.map (fun x =>
        (x.1, { domainDefault x.1 with energy := x.2.energy, padsHeld := sashLocked x.1 })) }
    dict := if aon then Dict.reset else { Dict.reset with
      resets := s.dict.resets, i3cAddress := s.dict.i3cAddress, lastReset := s.dict.lastReset }
    louvre := { Louvre.reset with lastSample := s.louvre.lastSample }
    ports := s.ports.map (fun q => (q.1, { Port.fresh with perst := q.2.perst }))
    sec := if !aon && s.sec.identity == 2 then { Security.reset with identity := 2 } else Security.reset
    start := { StartUp.powerOn with
      pwrOk := s.start.pwrOk, resetN := s.start.resetN, refclk := s.start.refclk, refclkOk := s.start.refclkOk
      straps := if aon then 0 else s.start.straps
      strapPins := s.start.strapPins, addrPins := s.start.addrPins }
    pins := { Pins.reset with jtag := s.pins.jtag, boundary := s.pins.boundary, pinDrive := s.pins.pinDrive }
    pending := s.pending }

/-- A pin or device reset begins: what it clears is cleared, the root PLLs stop, and every domain except AON enters
OFF; wake events are ignored until start-up resumes (R551). -/
def beginReset (s : State) : State :=
  let t := s.coldState false
  let thermal := if s.thermal.state == 2 then s.thermal else t.thermal
  allDomains.foldl (fun r d => if (s.domain d).st == 2 then r else
    r.onDomain d (fun x => { x with st := 3, since := s.now, target := 2, armed := false })) { t with thermal := thermal, pins := { t.pins with thermN := thermal.state == 0 } }

/-- A device reset begins (R454, R551). -/
def beginDeviceReset (s : State) : State :=
  let t := s.beginReset
  { t with start := { t.start with resetHeld := some s.now } }

/-- Time 0 of R554: REFCLK runs, PWR_OK and RESET_N are high, and no reset holds the device. -/
def timeZero (s : State) (latch : Bool) : State :=
  if s.held || !s.start.refclk || s.start.time0.isSome then s
  else { s with start := { s.start with
    time0 := some s.now, st := 0, straps := if latch then s.start.strapPins else s.start.straps } }

/-- Start-up resumes at root PLL lock after a pin (kind 1) or device (kind 2) reset (R550, R552): every domain has
reached OFF. -/
def resumeStart (s : State) (kind : Nat) : State :=
  let s := allDomains.foldl (fun s d => if (s.domain d).st == 3 then
    s.onDomain d (fun x => { x with st := 2, target := 2, armed := true, latched := false }) else s) s
  let s := { s with
    dict := { s.dict with lastReset := kind, resets := satAdd 32 s.dict.resets 1 }
    thermal := if kind == 1 then Thermal.reset else s.thermal
    pins := { s.pins with thermN := s.pins.thermN || kind == 1 } }
  s.timeZero (kind == 1)

/-! Training and the fill of the stacks (R240, R241, R556). -/

/-- A stack has trained: failed names the pseudo-channels that failed, and its slices are assigned. -/
def stackTrained (s : State) (st : Nat) (failed : BitVec 32) : State :=
  let d := s.domain (12 + st)
  if d.st != 4 || d.fromRet || (s.stack st).trained || !s.requiredOn (12 + st) then s
  else
    let bad := failed ||| Table.get 0 st s.flash.pcFailed ||| (s.stack st).failed
    let good := (List.range 32).filter (fun pc => !bad.getLsbD pc)
    if (s.stack st).lost then s.setStack st ⟨true, [], bad, true, false⟩
    else
      let lost := decide (good.length < 30)
      let s := s.setStack st ⟨lost, if lost then [] else (good.drop 30).map (fun pc => 32 * st + pc), bad, true, false⟩
      (List.range 30).foldl (fun s i =>
        s.setSliceEnt (30 * st + i) (if lost then ⟨2, 32 * st + i⟩ else ⟨0, 32 * st + good.getD i i⟩)) s

/-- A stack's zero fill is complete, and scrub starts on its slices at their first block (R556). -/
def stackFilled (s : State) (st : Nat) : State :=
  let x := s.stack st
  if !x.trained || x.filled || (s.domain (12 + st)).st != 4 then s
  else
    (s.setStack st { x with filled := true }).clearCtls (fun j => ctlStack j == st)

/-! Meters and sensors (R470, R471, R478 to R480). -/

/-- Cycles of the sample that ends now which lie within a span. -/
def spanCycles (now : Nat) (p : Span) : Nat := min now p.stop - max (now - 1600) p.first

/-- The allowance of one lap in the sample, as a fraction of units of 2^-16 µJ: numerator and denominator. -/
def spanShare (now : Nat) (p : Span) : Nat × Nat := (p.bound * 2 ^ 16 * spanCycles now p, max 1 p.len)

/-- A sum of fractions, exactly. -/
def sumFrac (l : List (Nat × Nat)) : Nat × Nat := l.foldl (fun a b => (a.1 * b.2 + b.1 * a.2, a.2 * b.2)) (0, 1)

/-- A at a meter sample (R471): m in units of 2^-16 µJ; the exact value is rounded down before the cap is applied. -/
def accountAt (s : State) (m : Nat) : Int :=
  let f := sumFrac (s.louvre.spans.map (spanShare s.now))
  let above : Int := max 0 ((m * f.2 : Nat) - (f.1 : Int))
  let exact : Int := (s.louvre.account + (s.louvre.powerLimit * 2 ^ 16 : Nat)) * (f.2 : Int) - above
  min ((s.louvre.cap * 2 ^ 16 : Nat) : Int) (exact / (f.2 : Int))

/-- Domains whose readings of this sample lie outside their windows (R480, R579). -/
def alarmedDomains (rails : List RailReading) : List Nat :=
  (rails.filter (fun r => match alarmWindow r.rail with
    | some (lo, hi) => decide (r.mv < lo) || decide (hi < r.mv)
    | none => false)).map (fun r => r.domain)

/-- RAIL_MV: the lowest reading of each rail in the sample (R587). -/
def railLows (rails : List RailReading) (t : Table Nat) : Table Nat :=
  (List.range 12).foldl (fun t n =>
    let l := (rails.filter (fun r => r.rail == n)).map (fun r => r.mv)
    match l with
    | [] => t
    | v :: l => Table.put n (l.foldl min v) t) t

/-- Supply alarms of a sample (R323, R480, R482, R588). -/
def supplyAlarms (s : State) (rails : List RailReading) : State :=
  let bad := alarmedDomains rails
  if bad.isEmpty then s
  else
    let s := { s with power := { s.power with supplyAlarms := satAdd 32 s.power.supplyAlarms bad.length } }
    let s := bad.foldl (fun s _ => s.fire 2) s
    let s := s.evidenceAll
    (List.range 8).foldl (fun s k =>
      if (s.slotDomains k).any bad.contains then s.porterFault k pSUPPLY else s) s

/-- A meter sample: energy holds what the 36 domains and, last, AON drew, in units of 2^-16 µJ. Samples fall every
1,600 cc. -/
def meterSample (s : State) (energy : List Nat) (rails : List RailReading) : State :=
  if s.held || s.start.time0.isNone || (s.now - s.louvre.lastSample) % 1600 != 0 then s
  else
    let m := energy.sum
    let s := allDomains.foldl (fun s d => s.onDomain d (fun x => { x with energy := x.energy + energy.getD d 0 })) s
    let s := { s with power := { s.power with
      aonEnergy := s.power.aonEnergy + energy.getD 36 0, railMv := railLows rails s.power.railMv } }
    let s := if s.porterOn then { s with louvre := { s.louvre with account := s.accountAt m } } else s
    let s := { s with louvre := { s.louvre with
      lastSample := s.now, spans := s.louvre.spans.filter (fun p => decide (s.now < p.stop)) } }
    let s := ((s.observe 0 s.thermal.tjNow).observe 1 ((m / 2 ^ 16 : Nat) : Int)).observe 2 (s.louvre.account / (1000 * 2 ^ 16))
    (s.supplyAlarms rails).decide'

/-- THERM_STATE becomes EMERGENCY (R478). -/
def emergency (s : State) : State :=
  let s := { s with
    thermal := { s.thermal with state := 1, events := satAdd 32 s.thermal.events 1 }
    pins := { s.pins with thermN := false } }
  let s := (s.fire 1).evidenceAll
  let s := (List.range 8).foldl (fun s k => s.porterFault k pTHERM) s
  let f (r : MogulRun) : MogulRun := r.stopBy stMOGUL_THERMAL
  { s with mogul := { s.mogul with runW := s.mogul.runW.map f, runE := s.mogul.runE.map f } }

/-- THERM_STATE becomes TRIPPED: every domain enters OFF, and every course is lost (R479, R516). -/
def trip (s : State) : State :=
  let s := { s with thermal := { s.thermal with state := 2 }, pins := { s.pins with thermN := false } }
  let s := s.loseDevice 5
  allDomains.reverse.foldl (fun s d =>
    let st := (s.domain d).st
    if st == 2 || st == 3 && (s.domain d).target == 2 then s else s.beginEntry d 2) s

/-- A sample of the 16 die sensors, in 1/16 °C (R478, R479). -/
def thermalSample (s : State) (temps : List Int) : State :=
  match temps with
  | [] => s
  | t :: ts =>
    if s.held || s.start.time0.isNone then s
    else
      let tj := ts.foldl max t
      let s := { s with thermal := { s.thermal with tjNow := tj, die := (t :: ts).take 16 |>.zipIdx |>.map (fun x => (x.2, x.1)) } }
      let limit : Int := 16 * (s.thermal.tjLimit : Int)
      if s.thermal.state == 2 then s
      else
        let s := if s.thermal.state == 0 && limit + 80 ≤ tj then s.emergency else s
        if 1920 ≤ tj then s.trip
        else if s.thermal.state == 1 && tj < limit then
          { s with thermal := { s.thermal with state := 0 }, pins := { s.pins with thermN := true } }
        else s

/-! Comparators (R467, R468). -/

/-- Comparator n. -/
def comparator (s : State) (n : Nat) : Comparator :=
  Table.get ⟨if n == 5 then 0x20000000 else 0, 0⟩ n s.power.comparators

/-- Replace comparator n. -/
def setComparator (s : State) (n : Nat) (c : Comparator) : State :=
  { s with power := { s.power with comparators := Table.put n c s.power.comparators } }

/-- A wake event of comparator n: its source fires, and the domains its mask names wake (R467, R468, R482). -/
def comparatorWake (s : State) (n : Nat) : State :=
  let c := s.comparator n
  let s := s.fire (0x10 + n)
  if s.held then s
  else (allDomains.filter (fun d => c.mask.getLsbD d)).foldl (fun s d => s.wakeEvent d false (!c.edgeMode) 4) s

/-- The sample of an AON cycle finds the comparator's input, of uv microvolts, across its threshold, or, in level mode,
ASSERTED still 1 (R467). -/
def comparatorEvent (s : State) (n uv : Nat) : State :=
  let c := s.comparator n
  if 6 ≤ n || !c.enabled || (c.edgeMode && c.asserted) || !(c.asserts uv || (c.asserted && !c.releases uv)) then s
  else (s.setComparator n { c with config := c.config ||| 0x10000000 }).comparatorWake n

/-- The sample finds the input back across the threshold less its hysteresis. -/
def comparatorClear (s : State) (n uv : Nat) : State :=
  let c := s.comparator n
  if 6 ≤ n || !c.releases uv then s else s.setComparator n { c with config := c.config &&& 0xEFFFFFFF }

end State
end Sys2Proof.Machine
end

