-- ==== Sys2Proof/Machine/Startup.lean ====
section
/-! DEFINITION. The meanings of the start-up family (R43, R530 to R532, R550 to R558, R574). -/
namespace Sys2Proof.Machine
namespace State

/-- PWR_OK rises: a power-on reset; the strap pins stand as given (R550, R554, R573). -/
def pwrOkRise (s : State) (straps : BitVec 2) (addr : BitVec 3) : State :=
  if s.start.pwrOk then s
  else
    let t := s.coldState true
    ({ t with start := { t.start with pwrOk := true, strapPins := straps.toNat, addrPins := addr.toNat } }).timeZero true

/-- PWR_OK falls: the whole device is held in reset (R551). -/
def pwrOkFall (s : State) : State :=
  let t := s.coldState true
  { t with start := { t.start with pwrOk := false } }

/-- RESET_N is low: a pin reset begins (R551). -/
def resetFall (s : State) : State :=
  if !s.start.resetN then s
  else if !s.start.pwrOk then { s with start := { s.start with resetN := false } }
  else
    let t := s.beginReset
    { t with start := { t.start with resetN := false } }

/-- RESET_N rises: start-up resumes (R550, R584). -/
def resetRise (s : State) (straps : BitVec 2) (addr : BitVec 3) : State :=
  if s.start.resetN then s
  else
    let s := { s with
      start := { s.start with resetN := true, strapPins := straps.toNat, addrPins := addr.toNat }
      pins := { s.pins with pinDrive := none } }
    if s.start.pwrOk then s.resumeStart 1 else s

/-- A device reset releases itself after 10 µs (R551). -/
def releaseReset (s : State) : State :=
  match s.start.resetHeld with
  | some t => if s.now == t + 16000 then ({ s with start := { s.start with resetHeld := none } }).resumeStart 2 else s
  | none => s

/-- REFCLK runs within its limits (R554, R574). -/
def refclkStarts (s : State) : State :=
  ({ s with start := { s.start with refclk := true, refclkOk := true } }).timeZero (s.dict.lastReset != 2)

/-- REFCLK is lost, and its detector tells (R574). -/
def refclkStops (s : State) : State := { s with start := { s.start with refclk := false, refclkOk := false } }

/-- Time since time 0 of R554, once it has passed. -/
def sinceZero (s : State) : Option Nat := if s.held then none else s.start.time0.map (fun t => s.now - t)

/-- Both root PLLs lock, within 1 ms of time 0: PORTER and SECURE start to wake (R554). -/
def pllLocks (s : State) : State :=
  match s.sinceZero with
  | none => s
  | some t =>
    if s.start.st != 0 || s.start.pllLock == 3 || 1600000 < t then s
    else
      let s := { s with start := { s.start with
        pllLock := 3, pllSince := some s.now, toWake := startDomains.filter (fun d => decide (2 ≤ d)) } }
      (s.beginWake 0).beginWake 1

/-- The root PLLs have not locked within 1 ms: start-up fails (R554). -/
def pllTimesOut (s : State) : State :=
  match s.sinceZero with
  | none => s
  | some t =>
    if s.start.st != 0 || s.start.pllLock == 3 || t < 1600000 then s
    else { s with start := { s.start with st := 3, fault := 1 } }

/-- A root PLL loses lock: the device treats itself as lost, evidence is recorded for every course (R43, R323, R516), and the
clocks made from it stop; RINK counts on the W die's. -/
def pllLoses (s : State) (die : Nat) : State :=
  if 2 ≤ die || bitOf s.start.pllLock die == 0 then s
  else
    let s := ((s.fire 3).evidenceAll).loseDevice 1
    { s with
      start := { s.start with pllLock := s.start.pllLock - 2 ^ die, pllLost := s.start.pllLost ||| 2 ^ die }
      rinkRun := s.rinkRun && die != 0 }

/-- The boot ROM, while PORTER wakes, rejects a configuration record that is not as R553 has it, or finds no firmware bank to
accept (R537, R554). -/
def startFails (s : State) (firmware : Bool) : State :=
  if s.start.st != 0 || (s.domain 0).st != 4 || (if firmware then !s.flash.recordGood || s.flash.bankGood else s.flash.recordGood) then s
  else { s with start := { s.start with st := 3, fault := if firmware then 3 else 2 } }

/-- The RESERVED areas have been written (R555, R558). -/
def reservedWritten (s : State) : State :=
  if s.start.st != 1 || !((List.range 16).all (fun i => s.isOn (12 + i))) then s
  else ({ s with start := { s.start with reservedDone := true } }).readyCheck

/-- The identity private key of this device. -/
def identitySecret : Nat := identityKey (leBytes 48 Config.pufSecret.toNat)

/-- What a signature that a device without identity cannot make becomes (R532): a trailer with zeros, or an SPDM ERROR
Unspecified. -/
def dropSignature (s : State) : SigJob → State
  | .trailer p m => s.giveSignature p (m ++ List.replicate 96 0)
  | .spdm _ => { s with dict := { s.dict with reply := [0x7F, 5] } }

/-- The key block has read and corrected the PUF array, or could not (R530 to R532). -/
def deriveIdentity (s : State) : State :=
  if !s.isOn 1 || s.sec.identity != 0 then s
  else if s.flash.pufGood then
    ({ s with sec := { s.sec with identity := 1, pubkey := encodePoint (Jac.base.mul 384 identitySecret) } }).startSigning
  else
    let t := { s with sec := { s.sec with identity := 2, sigQueue := [] } }
    s.sec.sigQueue.foldl dropSignature t

end State

/-- PWR_OK_RISE (R551). -/
def execPwrOkRise (straps : BitVec 2) (addr : BitVec 3) (s : State) : Host.Outcome State Fault Refusal :=
  .next (s.pwrOkRise straps addr)

/-- PWR_OK_FALL (R551). -/
def execPwrOkFall (s : State) : Host.Outcome State Fault Refusal := .next s.pwrOkFall

/-- RESET_N_FALL (R551). -/
def execResetNFall (s : State) : Host.Outcome State Fault Refusal := .next s.resetFall

/-- RESET_N_RISE (R550). -/
def execResetNRise (straps : BitVec 2) (addr : BitVec 3) (s : State) : Host.Outcome State Fault Refusal :=
  .next (s.resetRise straps addr)

/-- DEVICE_RESET_RELEASE (R551). -/
def execDeviceResetRelease (s : State) : Host.Outcome State Fault Refusal := .next s.releaseReset

/-- REFCLK_START (R554). -/
def execRefclkStart (s : State) : Host.Outcome State Fault Refusal := .next s.refclkStarts

/-- REFCLK_LOSS (R574). -/
def execRefclkLoss (s : State) : Host.Outcome State Fault Refusal := .next s.refclkStops

/-- ROOT_PLL_LOCK (R554). -/
def execRootPllLock (s : State) : Host.Outcome State Fault Refusal := .next s.pllLocks

/-- PLL_LOCK_TIMEOUT (R554). -/
def execPllLockTimeout (s : State) : Host.Outcome State Fault Refusal := .next s.pllTimesOut

/-- ROOT_PLL_LOCK_LOSS (R43). -/
def execRootPllLockLoss (die : Nat) (s : State) : Host.Outcome State Fault Refusal := .next (s.pllLoses die)

/-- HBM_TRAINING_COMPLETE (R556). -/
def execHbmTrainingComplete (stack : Nat) (failed : BitVec 32) (s : State) : Host.Outcome State Fault Refusal :=
  .next (if stack < 16 then s.stackTrained stack failed else s)

/-- ZERO_FILL_COMPLETE (R556). -/
def execZeroFillComplete (stack : Nat) (s : State) : Host.Outcome State Fault Refusal :=
  .next (if stack < 16 then s.stackFilled stack else s)

/-- RESERVED_WRITE_COMPLETE (R558). -/
def execReservedWriteComplete (s : State) : Host.Outcome State Fault Refusal := .next s.reservedWritten

/-- START_UP_FAILURE (R554). -/
def execStartUpFailure (firmware : Bool) (s : State) : Host.Outcome State Fault Refusal := .next (s.startFails firmware)

/-- IDENTITY_DERIVATION (R530). -/
def execIdentityDerivation (s : State) : Host.Outcome State Fault Refusal := .next s.deriveIdentity

end Sys2Proof.Machine
end

