-- ==== Sys2Proof/Machine/Noise.lean ====
section
/-! DEFINITION. The meanings of the noise family: entropy cells, delivery, the DRBG, key installs and signatures
(R358 to R372, R533, R534, R547, R548). -/
namespace Sys2Proof.Machine

/-! Health tests (R359 to R362). -/

/-- The repetition count over raw bits i, i + 1, … of a block of 2,048: the run so far and its bit; the first bit at
which the run reaches 41, or the run at the end. -/
def rctScan (raw : BitVec 2048) : Nat → Nat → Nat → Bool → Option Nat × Nat × Bool
  | 0, _, run, last => (none, run, last)
  | n + 1, i, run, last =>
    let b := raw.getLsbD i
    let run := if run == 0 || b != last then 1 else run + 1
    if 41 ≤ run then (some i, run, b) else rctScan raw n (i + 1) run b

/-- Bits of the window from bit w on that equal its first bit. -/
def aptCount (raw : BitVec 2048) (w : Nat) : Nat :=
  ((List.range 1024).filter (fun i => raw.getLsbD (w + i) == raw.getLsbD w)).length

/-- The bit at which the adaptive proportion test fails: the last of the first window with 793 or more (R361). -/
def aptFail (raw : BitVec 2048) : Option Nat :=
  if 793 ≤ aptCount raw 0 then some 1023 else if 793 ≤ aptCount raw 1024 then some 2047 else none

/-- The conditioned block of 128 bytes (R359). -/
def conditioned (raw : BitVec 2048) : List Byte :=
  (List.range 128).map (fun b => BitVec.ofNat 8 (packFrom 1 (fun i =>
    let k := 8 * b + i
    if raw.getLsbD (2 * k) != raw.getLsbD (2 * k + 1) then 1 else 0) 8))

namespace State

/-- Entropy cell n. -/
def cell (s : State) (n : Nat) : Cell := Table.get Cell.fresh n s.ent.cells

/-- Replace cell n. -/
def setCell (s : State) (n : Nat) (c : Cell) : State := { s with ent := { s.ent with cells := Table.put n c s.ent.cells } }

/-- Number of retired cells. -/
def retiredCells (s : State) : Nat := ((List.range 16).filter (fun n => (s.cell n).st == .retired)).length

/-- SPDM ERROR Unspecified, with which a responder whose request of the DRBG or the cipher block is refused with NOISE_FATAL
answers (R371, R548). -/
def refuseNoise (s : State) : State := { s with dict := { s.dict with reply := [0x7F, 5] } }

/-- The source enters FATAL (R371): what waits for new bits is refused. -/
def noiseFatal (s : State) : State :=
  let s := s.ent.drbgQueue.foldl (fun s _ => s.refuseNoise) s
  ({ s with ent := { s.ent with
    st := .fatal
    cells := Table.mapVals (fun _ c => { c with on := false }) s.ent.cells
    pool := [], keyWaits := false, cipherWaits := false, reseedWaits := false, drbgQueue := [] } }).fire 0

/-- The source becomes READY for the first time once every cell is READY or RETIRED (R365). -/
def sourceCheck (s : State) : State :=
  if s.ent.st == .starting && (List.range 16).all (fun n => (s.cell n).st == .ready || (s.cell n).st == .retired) then
    { s with ent := { s.ent with st := .ready } }
  else s

/-- The DRBG takes a block: it instantiates, with the RINK count and the serial number as nonce, or reseeds (R370). A reseed
asked for before the instantiation waits for the next block. -/
def seedDrbg (s : State) (block : List Byte) : State :=
  let e := s.ent
  { s with ent := { e with
    drbg := if e.drbgLive then drbgReseed e.drbg block
      else drbgInstantiate block (leBytes 8 s.rink ++ leBytes 8 Config.serial.toNat)
    keyWaits := !e.drbgLive && e.reseedWaits
    reseedWaits := !e.drbgLive && e.reseedWaits
    drbgLive := true, drbgCount := 0, drbgSeeds := satAdd 32 e.drbgSeeds 1 } }

/-- A passed block of a READY cell goes whole to one consumer, or is spilled (R366 to R368, R370, R547). -/
def deliver (s : State) (block : List Byte) : State :=
  let e := s.ent
  if e.keyWaits then s.seedDrbg block
  else if e.cipherWaits then { s with ent := { e with cipherWaits := false, reserve := block } }
  else if e.pool.length + 128 ≤ 2048 then { s with ent := { e with pool := e.pool ++ block } }
  else { s with ent := { e with spilled := satAdd 64 e.spilled 1 } }

/-- The cells are in operation: SECURE is ON, or it is ENTERING from ON and has not left it (R372, R464). -/
def secureRuns (s : State) : Bool := s.isOn 1 || ((s.domain 1).st == 3 && !(s.domain 1).fromRet)

/-- A cell's block is being made: the cell runs and is past its settling. -/
def cellRuns (s : State) (c : Cell) : Bool := s.secureRuns && c.on && (c.st == .warming || c.st == .ready)

/-- Settling ends 102,400 cc after the start (R363, R364). -/
def settle (s : State) (n : Nat) : State :=
  let c := s.cell n
  if !s.secureRuns || !c.on || c.st != .settling || s.now != c.since + 102400 then s
  else s.setCell n { c with st := .warming, since := s.now, run := 0 }

/-- A block passes 131,072 cc after its first raw bit (R362, R364, R366). -/
def blockPasses (s : State) (n : Nat) (raw : BitVec 2048) : State :=
  let c := s.cell n
  let r := rctScan raw 2048 0 c.run c.last
  if !s.cellRuns c || s.now != c.since + 131072 || r.1.isSome || (aptFail raw).isSome then s
  else
    let warm := if c.st == .warming then c.warm + 1 else c.warm
    let s := s.setCell n { c with
      st := if 4 ≤ warm then .ready else c.st
      warm := warm, failRun := 0, since := s.now, run := r.2.1, last := r.2.2 }
    let s := { s with ent := { s.ent with passed := satAdd 64 s.ent.passed 1 } }
    if c.st == .ready && s.ent.st == .ready then s.deliver (conditioned raw) else s.sourceCheck

/-- A cell restarts after a failed block, or retires on its third in a row (R362, R364, R365, R371). -/
def cellFails (s : State) (n : Nat) : State :=
  let c := s.cell n
  if 2 ≤ c.failRun then
    let s := s.setCell n { c with st := .retired, on := false, warm := 0, failRun := 0, fails := satAdd 16 c.fails 1 }
    let s := s.fire 5
    if 9 ≤ s.retiredCells && s.ent.st != .fatal then s.noiseFatal else s.sourceCheck
  else
    s.setCell n { c with
      st := .settling, warm := 0, failRun := c.failRun + 1, fails := satAdd 16 c.fails 1, since := s.now, run := 0 }

/-- A block fails at its failing raw bit, latched 64 cc a bit (R358, R360 to R362). -/
def blockFails (s : State) (n : Nat) (raw : BitVec 2048) : State :=
  let c := s.cell n
  let r := (rctScan raw 2048 0 c.run c.last).1
  let a := aptFail raw
  let at_ := min (r.getD 2048) (a.getD 2048)
  if !s.cellRuns c || at_ == 2048 || s.now < c.since + 64 * at_ || c.since + 64 * (at_ + 1) < s.now then s
  else
    let s := { s with ent := { s.ent with
      failed := satAdd 64 s.ent.failed 1
      rctFails := if r == some at_ then satAdd 32 s.ent.rctFails 1 else s.ent.rctFails
      aptFails := if a == some at_ then satAdd 32 s.ent.aptFails 1 else s.ent.aptFails } }
    s.cellFails n

/-! The DRBG and the cipher block (R370, R371, R547, R548). -/

/-- What a request of the DRBG brings: 32 bytes for a nonce; for a key generation the public key of a key pair whose private key
comes from 56 bytes by the method of FIPS 186-5 appendix A.2.1, as R530 has it (DEDUCED, assumption 27). -/
def drbgValue (kind : Nat) (b : List Byte) : List Byte :=
  if kind == 1 then (encodePoint (Jac.base.mul 384 (ofBE b % (n384 - 1) + 1))).drop 1 else b

/-- Serve the first DRBG request; a due reseed waits for its block first, and falls due with the 2^20th request. -/
def drbgGenerate (s : State) : State :=
  match s.ent.drbgQueue with
  | [] => s
  | q :: rest =>
    if !s.isOn 1 || s.ent.st == .fatal || !s.ent.drbgLive || s.ent.reseedWaits then s
    else
      let g := drbgBytes s.ent.drbg (if q.kind == 1 then 56 else 32)
      let due := decide (2 ^ 20 ≤ s.ent.drbgCount + 1)
      let s := { s with ent := { s.ent with
        drbg := g.2, drbgQueue := rest, drbgCount := s.ent.drbgCount + 1, drbgServed := s.ent.drbgServed + 1
        reseedWaits := due, keyWaits := due } }
      let out := q.head ++ drbgValue q.kind g.1 ++ q.tail
      if q.signed then ({ s with sec := { s.sec with sigQueue := s.sec.sigQueue ++ [SigJob.spdm out] } }).startSigning
      else { s with dict := { s.dict with reply := out } }

/-- An install is refused: a Lecel port stays DOWN; the IDE key of a port is no longer programmed, and KEY_PROG's requester is told
(R371, R548; the form of what it is told is assumption 8's). -/
def refuseInstall (s : State) (k : Nat) : State :=
  if 2 ≤ k && k ≤ 5 then s.portState (k - 2) 3
  else
    let p := if ideKeyOf 0 k then 0 else 1
    let x := Table.get ⟨[], []⟩ p s.sec.ide
    { s with
      sec := { s.sec with ide := Table.put p { x with programmed := x.programmed.filter (fun n => ideKey p n != k) } s.sec.ide }
      dict := { s.dict with reply := [0x7E, 0x03, 0x04] } }

/-- Install the first key that waits, masked with 64 bits of the reserve; under NOISE_FATAL an install that finds none
is refused (R547, R548). -/
def keyInstall (s : State) : State :=
  match s.sec.installs with
  | [] => s
  | k :: rest =>
    if !s.isOn 1 then s
    else if 8 ≤ s.ent.reserve.length then
      { s with
        sec := { s.sec with
          installs := rest, installed := if s.sec.installed.contains k then s.sec.installed else s.sec.installed ++ [k]
          masks := Table.put k (s.ent.reserve.take 8) s.sec.masks }
        ent := { s.ent with
          reserve := s.ent.reserve.drop 8
          cipherWaits := s.ent.cipherWaits || (decide (s.ent.reserve.length < 16) && s.ent.st != .fatal) } }
    else if s.ent.st == .fatal then ({ s with sec := { s.sec with installs := rest } }).refuseInstall k
    else { s with ent := { s.ent with cipherWaits := true } }

/-- The key block completes its signature within 120 µs and takes the next (R533, R534). -/
def signatureDone (s : State) : State :=
  match s.sec.signing with
  | none => s
  | some (j, t) =>
    if !s.isOn 1 || t + 192000 < s.now then s
    else
      let s := { s with sec := { s.sec with signing := none, signatures := satAdd 64 s.sec.signatures 1 } }
      match j with
      | .trailer p m =>
        let g := ecdsaSign identitySecret m
        (s.giveSignature p (m ++ beBytes 48 g.1 ++ beBytes 48 g.2)).startSigning
      | .spdm m =>
        let v := s.free 768
        ({ v.2 with dict := { v.2.dict with reply := m ++ leBytes 96 v.1.toNat } }).startSigning

end State

/-- SETTLING_END (R363). -/
def execSettlingEnd (n : Nat) (s : State) : Host.Outcome State Fault Refusal := .next (if n < 16 then s.settle n else s)

/-- BLOCK_PASS (R362). -/
def execBlockPass (n : Nat) (raw : BitVec 2048) (s : State) : Host.Outcome State Fault Refusal :=
  .next (if n < 16 then s.blockPasses n raw else s)

/-- BLOCK_FAIL (R362). -/
def execBlockFail (n : Nat) (raw : BitVec 2048) (s : State) : Host.Outcome State Fault Refusal :=
  .next (if n < 16 then s.blockFails n raw else s)

/-- DRBG_GENERATE (R370). -/
def execDrbgGenerate (s : State) : Host.Outcome State Fault Refusal := .next s.drbgGenerate

/-- KEY_INSTALL (R547). -/
def execKeyInstall (s : State) : Host.Outcome State Fault Refusal := .next s.keyInstall

/-- SIGNATURE_COMPLETE (R534). -/
def execSignatureComplete (s : State) : Host.Outcome State Fault Refusal := .next s.signatureDone

end Sys2Proof.Machine
end

