-- ==== Sys2Proof/Machine/Stream.lean ====
section
/-! DEFINITION. The SX operations (R71, R144 to R178). -/
namespace Sys2Proof.Machine

/-- The entry a RAW of slot k uses for local stream i (R150, R152). -/
def State.streamEntry (s : State) (k i : Nat) : BitVec 128 :=
  let c := (s.slot k).info
  if i < c.streamCount then Table.get 0 (c.streamBase + i) s.det.streams else BitVec.ofNat 128 (i * 2 ^ 64)

/-- The lap field of an entry for lap n (R154). -/
def lapField (e : BitVec 128) (n : Nat) : BitVec 48 :=
  match bitsOf e.toNat 111 110 with
  | 0 => BitVec.ofNat 48 n
  | 1 => BitVec.ofNat 48 n - BitVec.ofNat 48 (bitsOf e.toNat 95 80)
  | _ => 0

/-- Key and lap field of a RAW of slot k in its lap (R146, R148, R158). -/
def State.streamKey (s : State) (k : Nat) : Core.StreamKey := fun i =>
  let e := s.streamEntry k i
  let seed := Table.get 0 (bitsOf e.toNat 119 116) (s.slot k).latched
  (carveKey seed (BitVec.ofNat 16 (bitsOf e.toNat 79 64)), lapField e (s.slot k).lapNext)

/-- RAW (R148). -/
def execRaw (n : Nat) (f : SxFields) (upset : Bool) (s : State) : Host.Outcome State Fault Refusal :=
  .next (s.onSx n 0x1 f upset (fun k x => k.sxRaw x f (s.streamKey (s.core n).slot)))

/-- NORM32 (R162). -/
def execNorm32 (n : Nat) (f : SxFields) (upset : Bool) (s : State) : Host.Outcome State Fault Refusal :=
  .next (s.onSx n 0x2 f upset (fun k x => k.sxNorm32 x f))

/-- NORM16 (R164). -/
def execNorm16 (n : Nat) (f : SxFields) (upset : Bool) (s : State) : Host.Outcome State Fault Refusal :=
  .next (s.onSx n 0x3 f upset (fun k x => k.sxNorm16 x f))

/-- GUMB (R177). -/
def execGumb (n : Nat) (f : SxFields) (upset : Bool) (s : State) : Host.Outcome State Fault Refusal :=
  .next (s.onSx n 0x4 f upset (fun k x => k.sxGumb x f))

/-- BERNP (R172). -/
def execBernp (n : Nat) (f : SxFields) (upset : Bool) (s : State) : Host.Outcome State Fault Refusal :=
  .next (s.onSx n 0x5 f upset (fun k x => k.sxBern x f 3 (fun q => (q, 0))))

/-- BERNL (R173). -/
def execBernl (n : Nat) (f : SxFields) (upset : Bool) (s : State) : Host.Outcome State Fault Refusal :=
  .next (s.onSx n 0x6 f upset (fun k x => k.sxBern x f 5 bernlThreshold))

end Sys2Proof.Machine
end

