-- ==== Sys2Proof/Machine/Dict.lean ====
section
/-! DEFINITION. The object dictionary: which objects exist, who reaches them, and what a read of each returns (R437 to
R456, and the object tables of every chapter). -/
namespace Sys2Proof.Machine

/-- Types of R438. -/
inductive ObjType where
  | bool | u8 | u16 | u32 | u64 | i8 | i16 | i32 | i64 | f32 | time64 | string | blob
  deriving DecidableEq, Repr

/-- Code of a type. -/
def ObjType.code : ObjType → Nat
  | .bool => 1 | .u8 => 2 | .u16 => 3 | .u32 => 4 | .u64 => 5 | .i8 => 6 | .i16 => 7 | .i32 => 8 | .i64 => 9 | .f32 => 10
  | .time64 => 11 | .string => 12 | .blob => 13

/-- Size in bytes of a type's values; of the longest STRING, and of no BLOB. -/
def ObjType.size : ObjType → Nat
  | .bool => 1 | .u8 => 1 | .u16 => 2 | .u32 => 4 | .u64 => 8 | .i8 => 1 | .i16 => 2 | .i32 => 4 | .i64 => 8 | .f32 => 4
  | .time64 => 8 | .string => 64 | .blob => 0

/-- Access classes of R440. -/
inductive Access where
  | const | ro | rw | wo | rwi | rwo
  deriving DecidableEq, Repr

/-- Code of an access class. -/
def Access.code : Access → Nat
  | .const => 0 | .ro => 1 | .rw => 2 | .wo => 3 | .rwi => 4 | .rwo => 5

/-- A group of objects, as a descriptor of R453 covers it; home 0xFF is AON. -/
structure ObjDesc where
  i0 : Nat
  i1 : Nat
  s0 : Nat
  s1 : Nat
  type : ObjType
  acc : Access
  home : Nat
  size : Nat
  deriving DecidableEq, Repr

/-- One object of a type with a size of its own. -/
def obj1 (i s : Nat) (t : ObjType) (a : Access) (home : Nat) : ObjDesc := ⟨i, i, s, s, t, a, home, t.size⟩
/-- Objects of consecutive subindices. -/
def objS (i s0 s1 : Nat) (t : ObjType) (a : Access) (home : Nat) : ObjDesc := ⟨i, i, s0, s1, t, a, home, t.size⟩
/-- One object of each of consecutive indices. -/
def objI (i0 i1 s : Nat) (t : ObjType) (a : Access) (home : Nat) : ObjDesc := ⟨i0, i1, s, s, t, a, home, t.size⟩
/-- Objects of every subindex of consecutive indices. -/
def objG (i0 i1 : Nat) (t : ObjType) (a : Access) (home : Nat) : ObjDesc := ⟨i0, i1, 0, 255, t, a, home, t.size⟩

/-- Numbers of HOME domains (R457): AON, PORTER, SECURE, RING_W. -/
def hAON : Nat := 0xFF
def hPORTER : Nat := 0
def hSECURE : Nat := 1
def hRING : Nat := 10

/-- Identity, directory, device reset, start-up (R452, R566). -/
def objectsIdentity (pages : Nat) : List ObjDesc :=
  [⟨0x1000, 0x1000, 1, 1, .string, .const, hAON, 6⟩, ⟨0x1000, 0x1000, 2, 2, .string, .const, hAON, 5⟩,
   ⟨0x1000, 0x1000, 3, 3, .string, .const, hAON, 4⟩, ⟨0x1000, 0x1000, 4, 4, .string, .const, hAON, 8⟩,
   ⟨0x1000, 0x1000, 5, 5, .string, .const, hAON, 2⟩,
   obj1 0x1000 6 .u64 .const hAON, obj1 0x1000 7 .u32 .ro hAON, obj1 0x1000 8 .u16 .const hAON,
   obj1 0x1000 9 .u8 .ro hAON, obj1 0x1000 0x0A .u32 .ro hAON, obj1 0x1000 0x0B .u8 .ro hAON,
   obj1 0x1000 0x0C .u8 .wo hAON, obj1 0x1000 0x0D .u8 .ro hAON, obj1 0x1000 0x0E .u8 .ro hAON,
   obj1 0x1000 0x0F .u32 .ro hAON, { obj1 0x1000 0x10 .blob .ro hAON with size := 48 },
   obj1 0x1001 0 .u8 .const hAON, { objS 0x1001 1 pages .blob .const hAON with size := 1024 }]

/-- Binding, host ports and Lecel ports (R400, R435, R436, R587). -/
def objectsLinks : List ObjDesc :=
  [obj1 0x1100 1 .u8 .ro hPORTER, obj1 0x1100 2 .u32 .ro hPORTER, obj1 0x1100 3 .u16 .ro hPORTER,
   obj1 0x1100 4 .u8 .ro hPORTER, obj1 0x1100 5 .u64 .rwi hPORTER, obj1 0x1100 6 .time64 .ro hAON,
   obj1 0x1100 7 .u64 .ro hPORTER, objS 0x1100 8 0x0E .u32 .ro hPORTER, objG 0x1101 0x1140 .u32 .ro hPORTER,
   objI 0x1200 0x1201 1 .bool .ro hPORTER, objI 0x1200 0x1201 2 .u8 .ro hPORTER, objI 0x1200 0x1201 3 .bool .rw hPORTER,
   objI 0x1200 0x1201 4 .u64 .ro hPORTER, objI 0x1200 0x1201 5 .u32 .ro hPORTER, objI 0x1200 0x1201 6 .u32 .ro hPORTER,
   obj1 0x1210 1 .u16 .ro hPORTER, objS 0x1210 2 4 .u8 .wo hPORTER, obj1 0x1210 5 .u16 .rw hPORTER,
   objI 0x1300 0x1303 1 .u8 .ro hPORTER, objI 0x1300 0x1303 2 .u32 .ro hPORTER, objI 0x1300 0x1303 3 .u16 .ro hPORTER,
   objI 0x1300 0x1303 4 .u16 .ro hPORTER, objI 0x1300 0x1303 5 .u64 .ro hPORTER, objI 0x1300 0x1303 6 .u64 .ro hPORTER,
   objI 0x1300 0x1303 7 .u32 .ro hPORTER, objI 0x1300 0x1303 8 .u32 .ro hPORTER, objI 0x1300 0x1303 9 .u8 .ro hPORTER,
   objI 0x1300 0x1303 0x0A .u8 .rwi hPORTER]

/-- Power domains, Louvre, clocks and sensors (R44, R481, R587). -/
def objectsPower : List ObjDesc :=
  [obj1 0x2000 1 .u64 .rw hAON, objS 0x2000 2 3 .u32 .ro hAON, obj1 0x2000 4 .u64 .ro hAON, obj1 0x2000 5 .u32 .ro hAON,
   objS 0x2001 0 0x23 .u8 .rw hAON, objS 0x2002 0 0x23 .u8 .ro hAON, obj1 0x2002 0xFF .u8 .ro hAON,
   objS 0x2003 0 0x23 .u64 .ro hAON, obj1 0x2003 0xFF .u64 .ro hAON,
   obj1 0x2100 1 .u32 .rw hPORTER, obj1 0x2100 2 .i64 .ro hPORTER, obj1 0x2100 3 .u32 .rwi hPORTER,
   objS 0x2100 4 5 .u32 .rw hPORTER, obj1 0x2100 6 .i16 .ro hPORTER, objS 0x2100 7 8 .u64 .ro hPORTER,
   obj1 0x2100 9 .bool .ro hPORTER,
   obj1 0x2200 1 .u32 .const hAON, obj1 0x2200 2 .bool .ro hAON, obj1 0x2200 3 .u8 .ro hAON, obj1 0x2200 4 .u8 .rw hAON,
   obj1 0x2200 5 .time64 .ro hAON, obj1 0x2200 6 .u32 .ro hAON, obj1 0x2200 7 .u8 .rw hAON,
   obj1 0x2200 0x10 .u8 .rw hAON, obj1 0x2200 0x11 .i16 .ro hAON, obj1 0x2200 0x12 .u8 .ro hAON,
   obj1 0x2200 0x13 .u32 .ro hAON, objS 0x2210 0 0x0F .i16 .ro hAON, objS 0x2220 0 0x0B .u16 .ro hAON,
   objS 0x2300 0 5 .u32 .rw hAON, objS 0x2301 0 5 .u64 .rw hAON]

/-- Interrupts and the Logbook (R496, R505). -/
def objectsIrq : List ObjDesc :=
  [objG 0x2400 0x2403 .u32 .rw hPORTER, objG 0x2404 0x2407 .u32 .rw hPORTER, objG 0x2408 0x240B .time64 .ro hPORTER,
   objG 0x240C 0x240F .u32 .ro hPORTER, objI 0x2410 0x2412 1 .u64 .ro hPORTER, objI 0x2410 0x2412 2 .u16 .wo hPORTER,
   objI 0x2410 0x2412 3 .u8 .ro hPORTER, { objI 0x2410 0x2412 4 .blob .ro hPORTER with size := 64 },
   objI 0x2410 0x2412 5 .u16 .ro hPORTER, objI 0x2410 0x2412 6 .u64 .ro hPORTER, obj1 0x2420 1 .u16 .wo hPORTER,
   obj1 0x2600 1 .bool .rw hPORTER, obj1 0x2600 2 .u32 .rw hPORTER, obj1 0x2600 3 .bool .ro hPORTER,
   obj1 0x2600 4 .u16 .ro hPORTER, objS 0x2600 5 7 .u32 .ro hPORTER, obj1 0x2600 8 .u8 .wo hPORTER,
   { objG 0x2610 0x261F .blob .ro hPORTER with size := 4096 }, objS 0x2700 1 2 .u16 .ro hAON]

/-- Grid, faults and memory, for rows rows (R44, R82, R238, R272, R529). -/
def objectsGrid (rows : Nat) : List ObjDesc :=
  [objS 0x3000 1 1 .u8 .const hPORTER, obj1 0x3000 2 .u8 .ro hPORTER, { obj1 0x3000 3 .blob .ro hPORTER with size := 160 },
   objS 0x3000 0x10 0x12 .u64 .ro hPORTER, objS 0x3000 0x13 0x16 .u32 .ro hPORTER,
   objG 0x3100 (0x30FF + rows / 2) .u64 .ro hPORTER, objS 0x3130 1 8 .u64 .ro hPORTER, obj1 0x3130 9 .u32 .ro hPORTER,
   obj1 0x3131 1 .u64 .ro hPORTER, obj1 0x3131 2 .u32 .ro hPORTER, obj1 0x3131 3 .u8 .ro hAON, obj1 0x3131 4 .u32 .ro hPORTER,
   obj1 0x3131 5 .u8 .ro hPORTER, obj1 0x3131 6 .u32 .ro hPORTER, objS 0x3132 0 7 .u32 .ro hPORTER,
   objS 0x3133 0 7 .u32 .ro hPORTER, objG 0x3200 0x3228 .u32 .ro hPORTER, objS 0x3229 0 0x3F .u32 .ro hPORTER,
   objS 0x3400 1 3 .u64 .ro hPORTER, objS 0x3400 4 6 .u32 .ro hPORTER, objS 0x3400 7 8 .u64 .ro hPORTER,
   objS 0x3401 0 0x0F .u64 .ro hPORTER, objG 0x3410 0x3410 .u16 .ro hPORTER, objS 0x3411 0 0xDF .u16 .ro hPORTER]

/-- Determinism, streams, entropy and oracle (R161, R167, R197, R333, R373). -/
def objectsDraws : List ObjDesc :=
  [objS 0x4000 1 2 .bool .rw hPORTER, obj1 0x4000 3 .u32 .const hPORTER, obj1 0x4000 4 .u32 .ro hPORTER,
   obj1 0x4000 5 .u16 .rw hPORTER, obj1 0x4000 6 .u8 .rw hPORTER,
   ⟨0x4010, 0x4017, 0x01, 0x10, .blob, .rwo, hPORTER, 14⟩, ⟨0x4010, 0x4017, 0x11, 0x12, .u32, .ro, hPORTER, 4⟩,
   objI 0x4010 0x4017 0x13 .u16 .ro hPORTER, ⟨0x4010, 0x4017, 0x21, 0x30, .blob, .ro, hPORTER, 14⟩,
   obj1 0x4018 1 .u8 .wo hPORTER,
   { objI 0x4020 0x4027 1 .blob .ro hPORTER with size := 56 }, { objI 0x4020 0x4027 2 .blob .ro hPORTER with size := 3584 },
   { objI 0x4020 0x4027 3 .blob .ro hPORTER with size := 14848 }, objI 0x4020 0x4027 4 .u64 .ro hPORTER,
   objI 0x4020 0x4027 5 .u16 .ro hPORTER, objI 0x4020 0x4027 6 .bool .ro hPORTER, objI 0x4020 0x4027 7 .u64 .ro hPORTER,
   objI 0x4020 0x4027 8 .u8 .ro hPORTER, objI 0x4020 0x4027 9 .u32 .ro hPORTER,
   obj1 0x4040 1 .u8 .rw hPORTER, obj1 0x4040 2 .u32 .rw hPORTER, obj1 0x4040 3 .u8 .wo hPORTER, obj1 0x4040 4 .u8 .ro hPORTER,
   obj1 0x4040 5 .u64 .ro hPORTER, obj1 0x4040 6 .u32 .ro hPORTER, { objS 0x4041 0 0x7F .blob .ro hPORTER with size := 640 },
   { objS 0x4042 0 0x0F .blob .ro hPORTER with size := 240 }, { objG 0x4100 0x41FF .blob .ro hPORTER with size := 16 },
   obj1 0x4400 1 .u8 .ro hAON, obj1 0x4400 2 .u16 .ro hSECURE, obj1 0x4400 3 .u16 .ro hAON, objS 0x4400 4 5 .u64 .ro hSECURE,
   objS 0x4400 6 7 .u32 .ro hSECURE, obj1 0x4400 8 .u64 .ro hSECURE, obj1 0x4400 9 .u16 .ro hSECURE,
   obj1 0x4400 0x0A .u8 .wo hSECURE, obj1 0x4400 0x0B .u32 .ro hSECURE, objS 0x4401 0 0x0F .u32 .ro hSECURE,
   { obj1 0x4410 1 .blob .ro hSECURE with size := 64 },
   obj1 0x4420 1 .u8 .rw hRING, { objS 0x4420 2 3 .blob .rw hRING with size := 16 }, obj1 0x4420 4 .u64 .rw hRING,
   { obj1 0x4420 5 .blob .rw hRING with size := 24 }, { obj1 0x4420 6 .blob .ro hRING with size := 224 },
   { obj1 0x4421 1 .blob .const hRING with size := 5120 }]

/-- Mogul, security, courses and debug (R85, R301, R355, R455, R549). -/
def objectsRest (rows : Nat) : List ObjDesc :=
  [objS 0x4800 1 2 .u8 .ro hPORTER, obj1 0x4800 3 .u8 .wo hPORTER, objS 0x4800 4 5 .u64 .ro hPORTER,
   objS 0x4800 6 7 .u32 .ro hPORTER,
   { objG 0x4810 0x4810 .blob .rw 34 with size := 1024 }, { objG 0x4811 0x4811 .blob .rw 35 with size := 1024 },
   { objS 0x4820 0 1 .blob .ro hPORTER with size := 6192 }, { objG 0x4830 0x4831 .blob .ro hPORTER with size := 16384 },
   { objS 0x4832 0 1 .blob .ro hPORTER with size := 16384 },
   obj1 0x5000 1 .u8 .ro hSECURE, { obj1 0x5000 2 .blob .ro hSECURE with size := 97 }, obj1 0x5000 3 .u16 .ro hPORTER,
   { obj1 0x5000 4 .blob .ro hPORTER with size := 8192 }, objS 0x5001 1 2 .bool .rw hPORTER,
   { objS 0x5002 0 7 .blob .rwi hPORTER with size := 97 }, objS 0x5003 1 2 .u16 .ro hPORTER,
   { obj1 0x5003 3 .blob .wo hPORTER with size := 4096 }, obj1 0x5003 4 .u8 .wo hPORTER,
   objS 0x5004 0 3 .u8 .rwi hSECURE, { obj1 0x5005 1 .blob .wo hSECURE with size := 32 }, objS 0x5006 0 3 .u32 .ro hSECURE,
   obj1 0x5007 1 .u64 .ro hSECURE,
   obj1 0x6000 1 .u8 .ro hPORTER, { objS 0x6001 1 2 .blob .rw hPORTER with size := 16 },
   ⟨0x6010, 0x6017, 1, 2, .u8, .ro, hPORTER, 1⟩, objI 0x6010 0x6017 3 .u64 .ro hPORTER, objI 0x6010 0x6017 4 .u32 .ro hPORTER,
   objI 0x6010 0x6017 5 .u64 .ro hPORTER, objI 0x6010 0x6017 6 .u32 .ro hPORTER, objI 0x6010 0x6017 7 .time64 .ro hPORTER,
   ⟨0x6010, 0x6017, 8, 9, .blob, .ro, hPORTER, 48⟩, objI 0x6010 0x6017 0x0A .u64 .ro hPORTER,
   ⟨0x6010, 0x6017, 0x0B, 0x0C, .u16, .ro, hPORTER, 2⟩, objI 0x6010 0x6017 0x0D .u32 .ro hPORTER,
   objI 0x6010 0x6017 0x0E .u8 .ro hPORTER, objI 0x6010 0x6017 0x0F .u16 .ro hPORTER, objI 0x6010 0x6017 0x10 .u64 .ro hPORTER,
   obj1 0x7000 1 .bool .rwi hPORTER, obj1 0x7000 2 .bool .rw hPORTER, obj1 0x7000 3 .u32 .ro hPORTER]
  ++ (List.range 4).map (fun t => { objG (0x7100 + 0x28 * t) (0x70FF + 0x28 * t + rows / 2) .blob .ro hPORTER with size := 11776 })

/-- Every group of objects of a device with rows rows and a directory of so many pages. -/
def objectsWith (rows pages : Nat) : List ObjDesc :=
  objectsIdentity pages ++ objectsLinks ++ objectsPower ++ objectsIrq ++ objectsGrid rows ++ objectsDraws ++ objectsRest rows

/-- DIR_PAGES. -/
def dirPages (rows : Nat) : Nat := ((objectsWith rows 1).length + 63) / 64

/-- Every group of objects of a device with rows rows. -/
def objectsOf (rows : Nat) : List ObjDesc := objectsWith rows (dirPages rows)

/-- FW_STAGE and FW_COMMIT, WO objects that are written only while every slot is idle (R538, R549). -/
def firmwareWrite (i sub : Nat) : Bool := i == 0x5003 && (sub == 3 || sub == 4)

/-- A group covers an object. -/
def ObjDesc.covers (o : ObjDesc) (i sub : Nat) : Bool := o.i0 ≤ i && i ≤ o.i1 && o.s0 ≤ sub && sub ≤ o.s1

/-! Reach (R443, R490, R536, R538). -/

/-- The PCIe port of a path. -/
def Path.port? : Path → Option Nat
  | .portA => some 0
  | .portB => some 1
  | _ => none

/-- Indices a management-bus access may read, and those of its RW objects it may write. -/
def mgmtReads (i : Nat) : Bool :=
  (0x1000 ≤ i && i ≤ 0x10FF) || (0x2000 ≤ i && i ≤ 0x20FF) || (0x2200 ≤ i && i ≤ 0x23FF) || (0x2600 ≤ i && i ≤ 0x27FF)
def mgmtWrites (i : Nat) : Bool := (0x2000 ≤ i && i ≤ 0x20FF) || (0x2200 ≤ i && i ≤ 0x23FF)

/-- The one port over which an object is written or, for CLAIM, read; 2 for the Porter's target. -/
def onePort (i sub : Nat) (write : Bool) : Option Nat :=
  if (0x2410 ≤ i && i ≤ 0x2412) && (if write then sub == 2 else sub == 1) then some (i - 0x2410)
  else if write && (i == 0x1200 || i == 0x1201) && sub == 3 then some (i - 0x1200)
  else if write && i == 0x6001 then some (sub - 1)
  else none

/-- Objects written only over PCIe. -/
def pcieOnly (i sub : Nat) : Bool :=
  i == 0x5001 || i == 0x5002 || i == 0x5005 || firmwareWrite i sub || (i == 0x1210 && 2 ≤ sub && sub ≤ 4)

/-- A path reaches an object for this kind of access. -/
def reaches (v : Path) (acc : Access) (i sub : Nat) (write : Bool) : Bool :=
  match onePort i sub write, v.port? with
  | some p, some q => p == q
  | some p, none => p == 2 && v == .porter
  | none, some _ => true
  | none, none =>
    match v, write with
    | .porter, _ => false
    | .mgmt, false => mgmtReads i
    | .mgmt, true => (i == 0x1000 && sub == 0x0C) || (mgmtWrites i && acc == .rw)
    | _, false => true
    | _, true => acc != .rwo && !pcieOnly i sub

/-- PATHS of a descriptor (R453). -/
def ObjDesc.paths (o : ObjDesc) : Nat :=
  let r (v : Path) (w : Bool) := if reaches v o.acc o.i0 o.s0 w then 1 else 0
  max (max (r .portA false) (r .portA true)) (max (r .portB false) (r .portB true))
  + 2 * r .transom false + 4 * r .transom true + 8 * r .mgmt false + 16 * r .mgmt true

/-- A descriptor's 16 bytes. -/
def ObjDesc.bytes (o : ObjDesc) : List Byte :=
  leBytes 2 o.i0 ++ leBytes 2 o.i1 ++ leBytes 1 o.s0 ++ leBytes 1 o.s1 ++ leBytes 1 o.type.code ++ leBytes 1 o.acc.code
  ++ leBytes 1 o.paths ++ leBytes 1 o.home ++ leBytes 4 o.size ++ leBytes 2 0

/-- Directory page p, from 1 on. -/
def dirPage (rows p : Nat) : List Byte :=
  sliceBytes ((((objectsOf rows).drop (64 * (p - 1))).take 64).flatMap ObjDesc.bytes) 0 1024

namespace State

/-- The group that holds an object, if it exists (check 2 of R451). -/
def objDesc (s : State) (i sub : Nat) : Option ObjDesc := (objectsOf s.flash.gradeRows).find? (fun o => o.covers i sub)

/-! What plain reads return. -/

/-- An address laid out as ADDRESS (R435). -/
def addrWord (row col gen : Nat) : Nat := row % 128 * 2 ^ 23 + col % 128 * 2 ^ 16 + gen % 2 ^ 16

/-- PARTITION (R435): as written, or the whole torus with PID 0. -/
def partitionWord (s : State) : Nat :=
  match s.link.partition with
  | some v => v.toNat
  | none => (s.torusRows - 1) * 128 + (s.torusCols - 1)

/-- 0x1000 and 0x1001 (R452, R566). -/
def valueIdentity (s : State) (i sub : Nat) : List Byte :=
  if i == 0x1001 then
    (if sub == 0 then leBytes 1 (dirPages s.flash.gradeRows) else dirPage s.flash.gradeRows sub)
  else match sub with
    | 1 => asciiBytes "Yarrix"
    | 2 => asciiBytes "Flios"
    | 3 => asciiBytes "FS16"
    | 4 => asciiBytes (if s.flash.gradeRows == 80 then "FS16-G80" else if s.flash.gradeRows == 76 then "FS16-G76" else "FS16-G72")
    | 5 => asciiBytes "A1"
    | 6 => leBytes 8 Config.serial.toNat
    | 7 => leBytes 4 (if s.start.fault == 3 then 0 else Config.firmwareVersion.toNat)
    | 8 => leBytes 2 1
    | 9 => leBytes 1 s.dict.lastReset
    | 10 => leBytes 4 s.dict.resets
    | 11 => leBytes 1 s.dict.i3cAddress
    | 13 => leBytes 1 s.start.st
    | 14 => leBytes 1 s.start.fault
    | 15 => leBytes 4 s.start.us
    | _ => s.flash.recordDigest

/-- 0x1100 to 0x1140 (R435). -/
def valueBinding (s : State) (i sub : Nat) : List Byte :=
  let l := s.link
  if i != 0x1100 then
    let e := Table.get ⟨0, false⟩ (256 * (i - 0x1101) + sub) l.genTable
    leBytes 4 (e.gen + (if e.sdSent then 2 ^ 16 else 0))
  else match sub with
    | 1 => leBytes 1 l.st
    | 2 => leBytes 4 (addrWord l.row l.col l.gen)
    | 3 => leBytes 2 ((s.torusRows - 1) * 128 + (s.torusCols - 1))
    | 4 => leBytes 1 s.start.straps
    | 5 => leBytes 8 s.partitionWord
    | 6 => leBytes 8 (if s.rinkRun then s.rink else 0)
    | 7 => leBytes 8 l.staleDiscards
    | 8 => leBytes 4 l.standDowns
    | 9 => leBytes 4 l.genJumps
    | 10 => leBytes 4 l.bindSkews
    | 11 => leBytes 4 l.bcastMissed
    | 12 => leBytes 4 l.bcastResends
    | 13 => leBytes 4 l.agreeRounds
    | _ => leBytes 4 l.rinkDrifts

/-- OWNER (R400). -/
def ownerWord (s : State) : Nat := ((List.range 8).map (fun k => (s.slot k).owner * 4 ^ k)).sum

/-- 0x1200 to 0x1210 (R400). -/
def valuePorts (s : State) (i sub : Nat) : List Byte :=
  if i == 0x1210 then (if sub == 1 then leBytes 2 s.ownerWord else leBytes 2 s.takeoverGrace)
  else
    let q := s.port (i - 0x1200)
    match sub with
    | 1 => leBytes 1 q.linkUp.toNat
    | 2 => leBytes 1 q.linkWidth
    | 3 => leBytes 1 q.ideRequired.toNat
    | 4 => leBytes 8 q.packets
    | 5 => leBytes 4 q.ideFails
    | _ => leBytes 4 q.flrs

/-- 0x1300 to 0x1303 (R436, R587). -/
def valueLecel (s : State) (i sub : Nat) : List Byte :=
  let x := s.lport (i - 0x1300)
  match sub with
  | 1 => leBytes 1 x.st
  | 2 => leBytes 4 x.peer
  | 3 => leBytes 2 x.flight
  | 4 => leBytes 2 x.ebuf
  | 5 => leBytes 8 x.cwCorrected
  | 6 => leBytes 8 x.cwUncorrectable
  | 7 => leBytes 4 x.transomLost
  | 8 => leBytes 4 x.skewFaults
  | 9 => leBytes 1 x.usedBy
  | _ => leBytes 1 x.pmd

/-- µJ of a count of energy. -/
def microJoules (e : Nat) : Nat := e / 2 ^ 16

/-- PAD_RELEASE (R465). -/
def padWord (s : State) : Nat := ((allDomains.filter s.padsHeldNow).map (fun d => 2 ^ d)).sum

/-- 0x2000 to 0x2003 (R481). -/
def valuePower (s : State) (i sub : Nat) : List Byte :=
  match i with
  | 0x2000 => (match sub with
    | 1 => leBytes 8 s.padWord
    | 2 => leBytes 4 s.power.wakesLost
    | 3 => leBytes 4 s.power.entriesCancelled
    | 4 => leBytes 8 ((allDomains.map (fun d => microJoules (s.domain d).energy)).sum + microJoules s.power.aonEnergy)
    | _ => leBytes 4 s.power.supplyAlarms)
  | 0x2001 => leBytes 1 (s.domain sub).req
  | 0x2002 => leBytes 1 (if sub == 0xFF then 0 else (s.domain sub).st)
  | _ => leBytes 8 (microJoules (if sub == 0xFF then s.power.aonEnergy else (s.domain sub).energy))

/-- 0x2100 (R481). -/
def valueLouvre (s : State) (sub : Nat) : List Byte :=
  let v := s.louvre
  match sub with
  | 1 => leBytes 4 v.powerLimit
  | 2 => leBytes 8 (ofSigned 64 (v.account / 2 ^ 16))
  | 3 => leBytes 4 v.cap
  | 4 => leBytes 4 v.heatRise
  | 5 => leBytes 4 v.starveLimit
  | 6 => leBytes 2 (ofSigned 16 v.forecast)
  | 7 => leBytes 8 v.admitted
  | 8 => leBytes 8 v.deferred
  | _ => leBytes 1 v.hold.toNat

/-- 0x2200 to 0x2301 (R44, R481, R587). -/
def valueSensors (s : State) (i sub : Nat) : List Byte :=
  match i with
  | 0x2210 => leBytes 2 (ofSigned 16 (Table.get 0 sub s.thermal.die))
  | 0x2220 => leBytes 2 (Table.get 0 sub s.power.railMv)
  | 0x2300 => leBytes 4 (s.comparator sub).config.toNat
  | 0x2301 => leBytes 8 (s.comparator sub).mask.toNat
  | _ => match sub with
    | 1 => leBytes 4 1600000000
    | 2 => leBytes 1 s.start.refclkOk.toNat
    | 3 => leBytes 1 s.start.pllLock
    | 4 => leBytes 1 s.start.pllLost
    | 5 => leBytes 8 s.pins.syncStamp
    | 6 => leBytes 4 s.pins.syncCount
    | 7 => leBytes 1 (s.pins.syncShiftNext.getD s.pins.syncShift)
    | 0x10 => leBytes 1 s.thermal.tjLimit
    | 0x11 => leBytes 2 (ofSigned 16 s.thermal.tjNow)
    | 0x12 => leBytes 1 s.thermal.state
    | _ => leBytes 4 s.thermal.events

/-- A running priority as a byte. -/
def prioByte (p : Option Nat) : Nat := p.getD 0xFF

/-- What CLAIM and PEEK return (R487). -/
def claimWord (s : State) (t : Nat) : Nat :=
  match s.firstDeliverable t with
  | some (n, x) => 2 ^ 63 + x.prio % 16 * 2 ^ 56 + n % 1024 * 2 ^ 32 + x.stamp % 2 ^ 32
  | none => 0

/-- STACK (R496): depth, then every entry but the top one, bottom first. -/
def stackBytes (t : Target) : List Byte :=
  sliceBytes (leBytes 1 t.stack.length ++ leBytes 3 0
    ++ (t.stack.drop 1).reverse.flatMap (fun e => leBytes 1 (prioByte e.1) ++ leBytes 1 0 ++ leBytes 2 e.2)) 0 64

/-- 0x2400 to 0x2412 (R484, R496). -/
def valueIrq (s : State) (i sub : Nat) : List Byte :=
  if i < 0x2410 then
    let x := s.source (i % 4 * 256 + sub)
    match (i - 0x2400) / 4 with
    | 0 => leBytes 4 (x.enable.toNat * 2 ^ 31 + x.alert.toNat * 2 ^ 30 + x.target * 2 ^ 28 + x.prio * 2 ^ 24)
    | 1 => leBytes 4 (x.pending.toNat * 2 ^ 31 + x.active.toNat * 2 ^ 30)
    | 2 => leBytes 8 x.stamp
    | _ => leBytes 4 x.fires
  else
    let t := s.target (i - 0x2410)
    match sub with
    | 3 => leBytes 1 (prioByte t.run)
    | 4 => stackBytes t
    | 5 => leBytes 2 ((t.stack.head?.map (fun e => e.2)).getD 0xFFFF)
    | _ => leBytes 8 (s.claimWord (i - 0x2410))

/-- A Logbook record; one not written reads as zeros (R383, R505). -/
def recordAt (s : State) (r : Nat) : List Byte := sliceBytes (Table.get [] r s.log.records) 0 4096

/-- 0x2600 to 0x2700 (R496, R505). -/
def valueLog (s : State) (i sub : Nat) : List Byte :=
  if i == 0x2700 then leBytes 2 (if sub == 1 then s.alertFirst else s.alertCount)
  else if i != 0x2600 then s.recordAt (256 * (i - 0x2610) + sub)
  else match sub with
    | 1 => leBytes 1 s.log.enable.toNat
    | 2 => leBytes 4 s.log.interval
    | 3 => leBytes 1 s.log.full.toNat
    | 4 => leBytes 2 s.log.count
    | 5 => leBytes 4 s.log.seqLast
    | 6 => leBytes 4 s.log.seqFirst
    | _ => leBytes 4 s.log.lost

/-- STATE of a core (R83). -/
def coreState (s : State) (n : Nat) : Nat :=
  if !Table.has n s.grid.cores then 0xF
  else if s.fenced n then 4
  else match (s.core n).phase with
    | .boundary => 0
    | .running => 1
    | .ended => 2
    | .trapped => 3

/-- CORE_STATUS of core n (R83). -/
def coreStatus (s : State) (n : Nat) : Nat :=
  let st := s.coreState n
  if st == 0xF then 0xF * 2 ^ 60
  else
    let c := s.core n
    st * 2 ^ 60 + c.slot % 16 * 2 ^ 56 + c.trapCode % 256 * 2 ^ 48 + c.trapPc % 2048 * 2 ^ 37 + c.trapCc % 2 ^ 18 * 2 ^ 19
    + c.flagsLast.toNat

/-- SITE_STATUS of site n (R239). -/
def siteStatus (s : State) (n : Nat) : Nat :=
  let x := s.site n
  x.state * 2 ^ 28 + x.fence.toNat * 2 ^ 27 + x.bypass.toNat * 2 ^ 26 + x.lx % 256 * 2 ^ 16 + x.ly % 256 * 2 ^ 8

/-- 0x3000 (R44, R237). -/
def valueGrid (s : State) (sub : Nat) : List Byte :=
  let g := s.grid
  match sub with
  | 1 => leBytes 1 s.flash.gradeRows
  | 2 => leBytes 1 g.activeRows
  | 3 => (List.range 160).flatMap (fun i =>
      leBytes 1 (if i % 80 < g.activeRows then Table.get 0xFF i g.rowMap else 0xFF))
  | 0x10 => leBytes 8 g.linkCorrected
  | 0x11 => leBytes 8 g.linkUncorrectable
  | 0x12 => leBytes 8 g.fenceDrops
  | 0x13 => leBytes 4 g.rowShifts
  | 0x14 => leBytes 4 g.rowRemaps
  | 0x15 => leBytes 4 g.transomDrops
  | _ => leBytes 4 g.schussErrors

/-- 0x3100 to 0x3229 (R82, R238, R529). -/
def valueSites (s : State) (i sub : Nat) : List Byte :=
  if i < 0x3130 then leBytes 8 (s.coreStatus (256 * (i - 0x3100) + sub))
  else if 0x3200 ≤ i then leBytes 4 (s.siteStatus (256 * (i - 0x3200) + sub))
  else match i with
    | 0x3130 => if sub == 9 then leBytes 4 s.grid.trapReports else leBytes 8 (s.slot (sub - 1)).firstTrap.toNat
    | 0x3131 => (match sub with
      | 1 => leBytes 8 s.grid.lapFaults
      | 2 => leBytes 4 s.grid.siteFailures
      | 3 => leBytes 1 s.grid.deviceLost
      | 4 => leBytes 4 s.grid.lossesDeclared
      | 5 => leBytes 1 s.grid.coverPorts
      | _ => leBytes 4 s.grid.reloads)
    | 0x3132 => leBytes 4 (s.slot sub).recoveryLast
    | _ => leBytes 4 (s.slot sub).recoveryMax

/-- 0x3400 to 0x3411 (R272, R273). -/
def valueMemory (s : State) (i sub : Nat) : List Byte :=
  let m := s.mem
  match i with
  | 0x3400 => (match sub with
    | 1 => leBytes 8 m.corrected
    | 2 => leBytes 8 m.uncorrectable
    | 3 => leBytes 8 m.merged
    | 4 => leBytes 4 m.scrubPasses
    | 5 => leBytes 4 m.blockRepairs
    | 6 => leBytes 4 m.substitutions
    | 7 => leBytes 8 m.eccReports
    | _ => leBytes 8 m.scrubDropped)
  | 0x3401 =>
    let x := s.stack sub
    leBytes 8 ((if x.lost then 2 ^ 60 else 0) + x.standby.length * 2 ^ 56 + x.failed.toNat)
  | _ =>
    let e := s.sliceEnt (256 * (i - 0x3410) + sub)
    leBytes 2 (e.st * 2 ^ 12 + e.phys % 512)

/-- LAP_DIGEST's 56 bytes (R333). -/
def digestEntry (e : Nat × List Byte) : List Byte := leBytes 8 e.1 ++ sliceBytes e.2 0 48

/-- One entry of SEED_LOG (R313). -/
def seedEntry (e : Nat × List (BitVec 112)) : List Byte := sliceBytes (leBytes 8 e.1 ++ seedBytes e.2) 0 232

/-- 0x4000 to 0x4040 (R161, R333). -/
def valueDeterminism (s : State) (i sub : Nat) : List Byte :=
  let d := s.det
  if 0x4100 ≤ i then leBytes 16 (Table.get 0 (256 * (i - 0x4100) + sub) d.streams).toNat
  else if i == 0x4000 then
    (match sub with
    | 1 => leBytes 1 d.strict.toNat
    | 2 => leBytes 1 d.strictLock.toNat
    | 3 => leBytes 4 2
    | 4 => leBytes 4 d.strictRefusals
    | 5 => leBytes 2 d.verifyLaps
    | _ => leBytes 1 d.verifyMode)
  else if i == 0x4040 then
    (match sub with
    | 1 => leBytes 1 d.probe.slotSet
    | 2 => leBytes 4 d.probe.cycleSet
    | 4 => leBytes 1 d.probe.state
    | 5 => leBytes 8 d.probe.lap
    | _ => leBytes 4 d.probe.endAt)
  else if i < 0x4020 then
    let x := s.slot (i - 0x4010)
    if sub ≤ 0x10 then leBytes 14 (Table.get 0 (sub - 1) x.seeds).toNat
    else if sub == 0x11 then leBytes 4 x.info.streamBase
    else if sub == 0x12 then leBytes 4 x.info.streamCount
    else if sub == 0x13 then leBytes 2 x.seedsPending.toNat
    else leBytes 14 (Table.get 0 (sub - 0x21) x.latched).toNat
  else
    let x := s.slot (i - 0x4020)
    match sub with
    | 1 => digestEntry x.lapDigest
    | 2 => (List.range 64).flatMap (fun n => digestEntry (Table.get (0, []) n x.digestLog))
    | 3 => (List.range 64).flatMap (fun n => seedEntry (Table.get (0, []) n x.seedLog))
    | 4 => leBytes 8 x.seedLogCount
    | 5 => leBytes 2 x.verifyLeft
    | 6 => leBytes 1 x.attPending.toNat
    | 7 => leBytes 8 x.attSeq
    | 8 => leBytes 1 x.pairState
    | _ => leBytes 4 x.pairMismatches

/-- CELL_STATUS of cell n (R374). -/
def cellWord (c : Cell) : Nat := c.st.code * 2 ^ 28 + c.warm % 8 * 2 ^ 25 + c.failRun % 4 * 2 ^ 23 + c.fails % 2 ^ 16

/-- The mask of the cells in a state. -/
def cellMask (s : State) (st : CellState) : Nat := slotMask ((List.range 16).filter (fun n => (s.cell n).st == st))

/-- 0x4400 and 0x4401 (R373). -/
def valueEntropy (s : State) (i sub : Nat) : List Byte :=
  let e := s.ent
  if i == 0x4401 then leBytes 4 (cellWord (s.cell sub))
  else match sub with
    | 1 => leBytes 1 e.st.code
    | 2 => leBytes 2 (s.cellMask .ready)
    | 3 => leBytes 2 (s.cellMask .retired)
    | 4 => leBytes 8 e.passed
    | 5 => leBytes 8 e.failed
    | 6 => leBytes 4 e.rctFails
    | 7 => leBytes 4 e.aptFails
    | 8 => leBytes 8 e.spilled
    | 9 => leBytes 2 (8 * e.pool.length)
    | _ => leBytes 4 e.drbgSeeds

/-- Number of the oracle settings a path uses (R168). -/
def oracleKey : Path → Nat
  | .portA => 0
  | .portB => 1
  | _ => 2

/-- The oracle settings of a path. -/
def oracleOf (s : State) (v : Path) : Oracle := Table.get Oracle.fresh (oracleKey v) s.dict.oracles

/-- 0x4420.01 to 0x4420.05 and CARVE_TABLES (R167). -/
def valueOracle (s : State) (v : Path) (i sub : Nat) : List Byte :=
  let o := s.oracleOf v
  if i == 0x4421 then carveTables
  else match sub with
    | 1 => leBytes 1 o.mode
    | 2 => sliceBytes o.key 0 16
    | 3 => sliceBytes o.ctr 0 16
    | 4 => leBytes 8 o.u
    | _ => sliceBytes o.req 0 24

/-- 0x4800 and PROBLEM_ROW (R355). -/
def valueMogul (s : State) (i sub : Nat) : List Byte :=
  let m := s.mogul
  if i != 0x4800 then (List.range 256).flatMap (fun u =>
    leBytes 4 (s.problem (i - 0x4810) (256 * sub + u) &&& 0x8FFFFFFF).toNat)
  else match sub with
    | 1 => leBytes 1 m.latW
    | 2 => leBytes 1 m.latE
    | 4 => leBytes 8 m.progressW
    | 5 => leBytes 8 m.progressE
    | 6 => leBytes 4 m.runs
    | _ => leBytes 4 m.refused

/-- 0x5000 to 0x5007 (R549). -/
def valueSecurity (s : State) (i sub : Nat) : List Byte :=
  match i with
  | 0x5000 => (match sub with
    | 1 => leBytes 1 s.sec.identity
    | 2 => sliceBytes s.sec.pubkey 0 97
    | 3 => leBytes 2 (min 8192 Config.certChainLen.toNat)
    | _ => sliceBytes ((leBytes 8192 Config.certChain.toNat).take (min 8192 Config.certChainLen.toNat)) 0 8192)
  | 0x5001 => leBytes 1 (if sub == 1 then s.flash.signedRequired.toNat else s.flash.securityLock.toNat)
  | 0x5002 => sliceBytes (Table.get [] sub s.flash.imageKeys) 0 97
  | 0x5003 => leBytes 2 (if sub == 1 then s.flash.fwSvn else s.flash.fwSvnMin)
  | 0x5004 => leBytes 1 (s.lport sub).crypt
  | 0x5006 => leBytes 4 (s.lport sub).authFails
  | _ => leBytes 8 s.sec.signatures

/-- 0x6000 to 0x6017 (R301). -/
def valueSlots (s : State) (i sub : Nat) : List Byte :=
  if i == 0x6000 then leBytes 1 (slotMask s.residents)
  else if i == 0x6001 then sliceBytes (Table.get [] (sub - 1) s.sealAreas) 0 16
  else
    let x := s.slot (i - 0x6010)
    match sub with
    | 1 => leBytes 1 x.st.code
    | 2 => leBytes 1 x.reason.code
    | 3 => leBytes 8 x.lapNext
    | 4 => leBytes 4 x.lapsLeft
    | 5 => leBytes 8 x.lapsDone
    | 6 => leBytes 4 x.replays
    | 7 => leBytes 8 x.lastLaunch
    | 8 => sliceBytes x.info.imageDigest 0 48
    | 9 => sliceBytes x.info.immDigest 0 48
    | 10 => leBytes 8 x.info.courseId
    | 11 => leBytes 1 x.info.stripeFirst ++ leBytes 1 x.info.stripeWidth
    | 12 => leBytes 2 x.info.lapFrames
    | 13 => leBytes 4 x.info.energyBound
    | 14 => leBytes 1 x.info.priority
    | 15 => leBytes 2 x.info.deviceIndex
    | _ => leBytes 8 x.sealProgress

/-- 0x7000 (R455). -/
def valueDebug (s : State) (sub : Nat) : List Byte :=
  match sub with
  | 1 => leBytes 1 s.dict.debugEnable.toNat
  | 2 => leBytes 1 s.dict.debugLock.toNat
  | _ => leBytes 4 s.dict.debugReads

/-- The value of an object whose read has no rule of its own. -/
def plainValue (s : State) (v : Path) (i sub : Nat) : List Byte :=
  if i < 0x1100 then s.valueIdentity i sub
  else if i < 0x1200 then s.valueBinding i sub
  else if i < 0x1300 then s.valuePorts i sub
  else if i < 0x2000 then s.valueLecel i sub
  else if i < 0x2100 then s.valuePower i sub
  else if i < 0x2200 then s.valueLouvre sub
  else if i < 0x2400 then s.valueSensors i sub
  else if i < 0x2600 then s.valueIrq i sub
  else if i < 0x3000 then s.valueLog i sub
  else if i < 0x3100 then s.valueGrid sub
  else if i < 0x3400 then s.valueSites i sub
  else if i < 0x4000 then s.valueMemory i sub
  else if i < 0x4400 then s.valueDeterminism i sub
  else if i < 0x4420 then s.valueEntropy i sub
  else if i < 0x4800 then s.valueOracle v i sub
  else if i < 0x5000 then s.valueMogul i sub
  else if i < 0x6000 then s.valueSecurity i sub
  else if i < 0x7000 then s.valueSlots i sub
  else s.valueDebug sub

/-! Reads with rules of their own. -/

/-- CLAIM (R487), whose wait the Logbook observes (R502). -/
def claimRead (s : State) (t : Nat) : State :=
  match s.firstDeliverable t with
  | none => s
  | some (n, x) =>
    let g := s.target t
    let s' := { s with irq := { s.irq with
      sources := Table.put n { x with pending := false, active := true } s.irq.sources
      targets := Table.put t ⟨some x.prio, (g.run, n) :: g.stack⟩ s.irq.targets } }
    (irqUpdate s s').observe 25 (((s.rink - x.stamp) / 16 : Nat) : Int)

/-- ACC_TILE (R85): tile t of core n. -/
def tileRead (s : State) (t n : Nat) : Nat × List Byte × State :=
  if !s.dict.debugEnable then (0x407, [], s)
  else if s.coreState n == 1 || s.coreState n == 2 then (0x408, [], s)
  else
    (stOK, (List.range 256).flatMap (fun i => ((s.core n).entryAt t (i / 16) (i % 16)).bytes),
     { s with dict := { s.dict with debugReads := satAdd 32 s.dict.debugReads 1 } })

/-- The words of a quad as 16 bytes. -/
def quadBytes (q : Quad) : List Byte := leBytes 16 q.bits.toNat

/-- The intermediates of a normal transform, as modes 1 and 2 of the oracle return them (R169). -/
def normalBytes (f : FpFmt) (u : Nat) : List Byte :=
  let p := normalParts (u % 2 ^ 32) (u / 2 ^ 32)
  sliceBytes (leBytes 4 p.e ++ leBytes 4 p.y ++ leBytes 4 (ofSigned 32 p.lg) ++ leBytes 4 p.s ++ leBytes 8 p.l30 ++ leBytes 4 p.r
    ++ leBytes 4 p.sinp ++ leBytes 4 p.cosp ++ leBytes 4 (normalTo f p.z0) ++ leBytes 4 (normalTo f p.z1)) 0 64

/-- Bytes of ORACLE_REQ that must be zero. -/
def reqZeros : List Nat := [1, 11, 15, 22, 23]

/-- Mode 4 of the oracle (R170). -/
def oracleCourse (s : State) (v : Path) (req : List Byte) : Nat × List Byte :=
  let k := fieldLE req 0 1
  if 7 < k || reqZeros.any (fun b => fieldLE req b 1 != 0) then (stBAD_VALUE, [])
  else if (s.slot k).st == .empty then (stNO_COURSE, [])
  else if v.port? != some ((s.slot k).owner - 1) || (s.slot k).owner == 0 then (stNOT_OWNER, [])
  else
    let c := (s.slot k).info
    let i := fieldLE req 2 2
    let e := s.streamEntry k i
    let key := carveKey (Table.get 0 (bitsOf e.toNat 119 116) (s.slot k).latched) (BitVec.ofNat 16 (bitsOf e.toNat 79 64))
    let ctr := carveCtr (lapField e (fieldLE req 16 6)) (BitVec.ofNat 56 (fieldLE req 4 7)) (BitVec.ofNat 24 (fieldLE req 12 3))
    (stOK, quadBytes (carveBlock key ctr) ++ leBytes 16 key.toNat ++ leBytes 16 ctr.toNat
      ++ leBytes 2 (if i < c.streamCount then 0 else 1) ++ leBytes 14 0)

/-- ORACLE_OUT (R168, R169). -/
def oracleRead (s : State) (v : Path) : Nat × List Byte :=
  let o := s.oracleOf v
  let key := BitVec.ofNat 128 (ofLE (o.key.take 16))
  let ctr := BitVec.ofNat 128 (ofLE (o.ctr.take 16))
  match o.mode with
  | 0 => (stOK, quadBytes (carveBlock key ctr))
  | 1 => (stOK, normalBytes .fp32 o.u)
  | 2 => (stOK, normalBytes .bf16 o.u)
  | 3 => (stOK, (carveTrace key ctr).flatMap quadBytes)
  | _ => s.oracleCourse v o.req

/-- ENTROPY_PORT (R369). -/
def entropyRead (s : State) : Nat × List Byte × State :=
  if s.ent.st == .fatal then (stNOISE_FATAL, [], s)
  else if s.ent.pool.length < 64 then (stNO_ENTROPY, [], s)
  else (stOK, s.ent.pool.take 64, { s with ent := { s.ent with pool := s.ent.pool.drop 64 } })

/-- The run that drains into result set j. -/
def drainsInto (s : State) (j : Nat) : Bool :=
  match (if j == 0 then s.mogul.runW else s.mogul.runE) with
  | some _ => (if j == 0 then s.mogul.latW else s.mogul.latE) == 2
  | none => false

/-- A read of a result set (R352, R353, R355). -/
def resultRead (s : State) (j : Nat) (f : ResultSet → Option (List Byte)) : Nat × List Byte :=
  if s.drainsInto j then (stMOGUL_ACTIVE, [])
  else match (if j == 0 then s.mogul.set0 else s.mogul.set1).bind f with
    | some b => (stOK, b)
    | none => (stNO_RESULT, [])

/-- PROBE_COLUMN and PROBE_STACK (R333). -/
def probeRead (l : Table (BitVec 64)) (p : Nat → Bool) : Nat × List Byte :=
  let v := l.filter (fun e => p e.1)
  if v.isEmpty then (0x400, []) else (stOK, v.flatMap (fun e => leBytes 8 e.2.toNat))

/-- Check 8 of a read, and what it returns (R451). -/
def readOwn (s : State) (v : Path) (i sub : Nat) : Nat × List Byte × State :=
  if 0x2410 ≤ i && i ≤ 0x2412 && sub == 1 then (stOK, leBytes 8 (s.claimWord (i - 0x2410)), s.claimRead (i - 0x2410))
  else if i == 0x4041 then let r := probeRead s.det.probe.cores (fun n => n % 128 == sub); (r.1, r.2, s)
  else if i == 0x4042 then let r := probeRead s.det.probe.slices (fun j => j / 30 == sub); (r.1, r.2, s)
  else if i == 0x4410 then s.entropyRead
  else if i == 0x4420 && sub == 6 then let r := s.oracleRead v; (r.1, r.2, s)
  else if i == 0x4820 then let r := s.resultRead sub (fun x => some (summaryBytes x)); (r.1, r.2, s)
  else if i == 0x4830 || i == 0x4831 then
    let r := s.resultRead (i - 0x4830) (fun x => (x.entries[sub]?).map (fun e => stateBytes x.geom ⟨e.w, e.e⟩)); (r.1, r.2, s)
  else if i == 0x4832 then let r := s.resultRead sub (fun x => some (stateBytes x.geom ⟨x.finalW, x.finalE⟩)); (r.1, r.2, s)
  else if 0x7100 ≤ i then s.tileRead ((i - 0x7100) / 0x28) (256 * ((i - 0x7100) % 0x28) + sub)
  else (stOK, s.plainValue v i sub, s)

/-- The object's domain is not ON (check 6 of R451). -/
def asleep (s : State) (home : Nat) : Bool := home != hAON && !s.isOn home

/-- A read of an object over a path: status, value, and the state after it (R442, R451). -/
def readObject (s : State) (v : Path) (i sub : Nat) : Nat × List Byte × State :=
  match s.objDesc i sub with
  | none => (0x400, [], s)
  | some o =>
    if !reaches v o.acc i sub false then (0x404, [], s)
    else if o.acc == .wo then (0x402, [], s)
    else if s.asleep o.home then (0x406, [], s)
    else s.readOwn v i sub

end State
end Sys2Proof.Machine
end

