-- ==== Sys2Proof/Machine/DictWrite.lean ====
section
/-! DEFINITION. Writes of dictionary objects: the checks of R451 and each chapter's own rules. -/
namespace Sys2Proof.Machine

/-! Dictionary statuses (R450), and those of the chapters that own the objects. -/
def stNO_OBJECT : Nat := 0x400
def stREAD_ONLY : Nat := 0x401
def stWRITE_ONLY : Nat := 0x402
def stSIZE_MISMATCH : Nat := 0x403
def stPATH_DENIED : Nat := 0x404
def stNOT_IDLE : Nat := 0x405
def stDOMAIN_ASLEEP : Nat := 0x406
def stDEBUG_LOCKED : Nat := 0x409
def stDICT_BUSY : Nat := 0x40A
def stSEGMENT_ORDER : Nat := 0x40B
def stSOURCE_ACTIVE : Nat := 0x503
def stFW_SIGNATURE : Nat := 0x504
def stFW_ROLLBACK : Nat := 0x505
def stKEY_SLOT_LOCKED : Nat := 0x506
def stPORT_IN_USE : Nat := 0x507

/-- Objects a write may change (R440). -/
def Access.writable : Access → Bool
  | .const => false
  | .ro => false
  | _ => true

/-- The written length is an object's size (R444). -/
def sizeOk (o : ObjDesc) (b : List Byte) : Bool :=
  match o.type with
  | .string => 1 ≤ b.length && b.length ≤ 64
  | _ => b.length == o.size

/-- The bytes encode a value of an object's type (R439). -/
def encodingOk (o : ObjDesc) (b : List Byte) : Bool :=
  match o.type with
  | .bool => ofLE b ≤ 1
  | .f32 => ofLE b % 2 ^ 31 ≤ 0x7F800000
  | _ => true

/-- The result of a write: its status, none while a TAKEOVER waits. -/
abbrev Written := Option Nat × State

namespace State

/-- Accept a write. -/
def wrote (s : State) : Written := (some stOK, s)
/-- Refuse a write. -/
def refuse (s : State) (st : Nat) : Written := (some st, s)
/-- Accept a write whose value lies in a range, or refuse it with BAD_VALUE. -/
def inRange (s : State) (ok : Bool) (t : State) : Written := if ok then t.wrote else s.refuse stBAD_VALUE

/-- The path is the PCIe port that owns slot k. -/
def ownedBy (s : State) (v : Path) (k : Nat) : Bool :=
  match v.port? with | some p => s.owns p k | none => false

/-- The path's port has its IDE link stream Secure (R545). -/
def secureOn (s : State) (v : Path) : Bool :=
  match v.port? with | some p => (s.port p).ideSecure | none => false

/-- A probe runs on slot k, so that commands to it are refused (R331). -/
def probed (s : State) (k : Nat) : Bool := s.det.probe.state == 1 && s.det.probe.slot == k

/-! Reset and ownership (R395, R454). -/

/-- DEVICE_RESET (R454): the reset begins when the response has left. -/
def writeReset (s : State) (x : Nat) (t : Option Ticket) : Written :=
  s.inRange (x == 0xA5) { s with start := { s.start with
    resetAsked := some (s.start.resetAsked.getD (s.now, match t with | some t => t.port | none => 2)) } }

/-- HANDOVER of slot k by its owner (R395). -/
def writeHandover (s : State) (v : Path) (k : Nat) : Written :=
  if (s.slot k).st == .empty then s.refuse stNO_COURSE
  else if !s.ownedBy v k then s.refuse stNOT_OWNER
  else if s.probed k then s.refuse stPROBE_BUSY
  else
    let other := if (s.slot k).owner == 1 then 1 else 0
    if (s.port other).linkUp && (s.port other).hasReturn then (s.moveOwner k other).wrote else s.refuse stPORT_LOST

/-- TAKEOVER of slot k by the standby port (R395). -/
def writeTakeover (s : State) (v : Path) (k : Nat) (t : Option Ticket) : Written :=
  let x := s.slot k
  match v.port? with
  | none => s.refuse stPATH_DENIED
  | some p =>
    if x.st == .empty then s.refuse stNO_COURSE
    else if s.owns p k then s.refuse stBAD_VALUE
    else if x.st == .loading || x.st == .sealing || x.st == .unsealing then s.refuse stSEAL_ACTIVE
    else if x.takeover.isSome then s.refuse stTAKEOVER_BUSY
    else if s.probed k then s.refuse stPROBE_BUSY
    else
      let q := s.port (1 - p)
      if !q.linkUp || q.d3hot then (s.moveOwner k p).wrote
      else
        (none, (s.onSlot k (fun x => { x with
          takeover := some (t.getD ⟨p, 2 ^ 64, false⟩, s.now) })).fire (0x30 + k))

/-- TAKEOVER_DENY of slot k by its owner (R395). -/
def writeDeny (s : State) (v : Path) (k : Nat) : Written :=
  if (s.slot k).st == .empty then s.refuse stNO_COURSE
  else if !s.ownedBy v k then s.refuse stNOT_OWNER
  else if s.probed k then s.refuse stPROBE_BUSY
  else (s.answerTakeover k stTAKEOVER_DENIED).wrote

/-- 0x1000 to 0x13FF. -/
def writeLinks (s : State) (v : Path) (i sub : Nat) (b : List Byte) (t : Option Ticket) : Written :=
  let x := ofLE b
  if i == 0x1000 then s.writeReset x t
  else if i == 0x1100 then
    let keep : BitVec 64 := 0xFFFF00000FFFFFFF
    ({ s with link := { s.link with partition := some (BitVec.ofNat 64 x &&& keep) } }).wrote
  else if i == 0x1210 then
    (match sub with
    | 2 => s.writeHandover v (x % 8)
    | 3 => s.writeTakeover v (x % 8) t
    | 4 => s.writeDeny v (x % 8)
    | _ => s.inRange (1 ≤ x && x ≤ 10000) { s with takeoverGrace := x })
  else if i < 0x1300 then (s.onPort (i - 0x1200) (fun q => { q with ideRequired := x == 1 })).wrote
  else s.inRange (x ≤ 2) (s.onLport (i - 0x1300) (fun p => { p with pmd := x }))

/-! Power, heat and pins (R44, R461, R465, R469, R481, R575). -/

/-- PAD_RELEASE (R465): each bit written 1 releases its domain, while it is ON with its pads held. -/
def writePads (s : State) (x : Nat) : State :=
  ((allDomains.filter (fun d => bitOf x d == 1 && s.isOn d && (s.domain d).padsHeld)).foldl releasePads s).readyCheck

/-- CMP_CONFIG (R469): ASSERTED is kept while the comparator samples. -/
def writeComparator (s : State) (n x : Nat) : State :=
  let c := s.comparator n
  let v : BitVec 32 := BitVec.ofNat 32 x &&& 0xEE0003FF
  let v := if v.getLsbD 31 && c.config.getLsbD 28 then v ||| 0x10000000 else v
  s.setComparator n { c with config := v }

/-- 0x2000 to 0x23FF. -/
def writePower (s : State) (i sub : Nat) (b : List Byte) : Written :=
  let x := ofLE b
  match i with
  | 0x2000 => (s.writePads x).wrote
  | 0x2001 => let r := s.requestDomain sub x; (some r.1, r.2)
  | 0x2100 => (match sub with
    | 1 => s.inRange (100 ≤ x && x ≤ 2400) { s with louvre := { s.louvre with powerLimit := x } }
    | 3 => s.inRange (65536 ≤ x && x ≤ 4194304 && s.residents.all (fun k => (s.slot k).info.energyBound ≤ x))
        { s with louvre := { s.louvre with cap := x } }
    | 4 => s.inRange (1000 ≤ x && x ≤ 200000) { s with louvre := { s.louvre with heatRise := x } }
    | _ => s.inRange (1 ≤ x && x ≤ 1000000) { s with louvre := { s.louvre with starveLimit := x } })
  | 0x2200 => (match sub with
    | 4 => ({ s with start := { s.start with pllLost := s.start.pllLost % 4 - (s.start.pllLost &&& x) % 4 } }).wrote
    | 7 => s.inRange (16 ≤ x && x ≤ 40) { s with pins := { s.pins with syncShiftNext := some x } }
    | _ => s.inRange (60 ≤ x && x ≤ 105) { s with thermal := { s.thermal with tjLimit := x } })
  | 0x2300 => (s.writeComparator sub x).wrote
  | _ => (s.setComparator sub { s.comparator sub with mask := BitVec.ofNat 64 x &&& 0xFFFFFFFFF }).wrote

/-! Interrupts and the Logbook (R484, R488, R491, R496 to R498). -/

/-- SRC_CONFIG of source n; that of a reserved source stays zero (R482, R484). -/
def writeSource (s : State) (n x : Nat) : Written :=
  let c := s.source n
  let target := bitsOf x 29 28
  let prio := if n == 0 then 15 else bitsOf x 27 24
  if target == 3 then s.refuse stBAD_VALUE
  else if c.active && (target != c.target || prio != c.prio) then s.refuse stSOURCE_ACTIVE
  else if !sourceUsed n then s.wrote
  else (s.onSource n (fun c => { c with enable := bitOf x 31 == 1, alert := bitOf x 30 == 1, target := target, prio := prio })).wrote

/-- EOI of target t (R488, R491): the source ended is offered again from the next cycle, and a source left deliverable is
signalled. -/
def writeEoi (s : State) (t n : Nat) : Written :=
  let g := s.target t
  match g.stack with
  | [] => s.refuse stBAD_VALUE
  | (run, m) :: rest =>
    if m != n then s.refuse stBAD_VALUE
    else
      let s' := { s with irq := { s.irq with
        sources := Table.put n { s.source n with active := false, offerFrom := s.now + 1 } s.irq.sources
        targets := Table.put t ⟨run, rest⟩ s.irq.targets } }
      (match s'.bestPrio t with
      | some p => (s'.msix t (3 + p)).alertUpdate
      | none => s'.alertUpdate).wrote

/-- 0x2400 to 0x2600. -/
def writeIrq (s : State) (i sub : Nat) (b : List Byte) : Written :=
  let x := ofLE b
  if i < 0x2404 then s.writeSource (256 * (i - 0x2400) + sub) x
  else if i < 0x2408 then
    (if bitOf x 31 == 1 then s.onSource (256 * (i - 0x2404) + sub) (fun c => { c with pending := false }) else s).wrote
  else if i < 0x2420 then s.writeEoi (i - 0x2410) (x % 1024)
  else if i == 0x2420 then s.inRange (0x2E0 ≤ x % 1024) (s.fire (x % 1024))
  else match sub with
    | 1 => ({ s with log := { s.log with enable := x == 1 } }).wrote
    | 2 => s.inRange (10 ≤ x && x ≤ 3600000) { s with log := { s.log with interval := x } }
    | _ => s.inRange (x == 0xC1) s.logClear

/-! Determinism, probes and draws (R158, R168, R197, R311, R325, R331, R370). -/

/-- STRICT (R311). -/
def writeStrict (s : State) (x : Nat) : Written :=
  if x == 1 then
    if s.mogul.runW.isSome || s.mogul.runE.isSome then s.refuse stMOGUL_ACTIVE
    else ({ s with det := { s.det with strict := true } }).wrote
  else if s.det.strictLock then s.refuse stSTRICT_LOCKED
  else ({ s with det := { s.det with strict := false } }).wrote

/-- Write seed slot j of slot k (R158). -/
def setSeed (s : State) (k j : Nat) (b : List Byte) : State :=
  s.onSlot k (fun x =>
    let again := x.seedsAt == some s.now
    { x with
      seeds := Table.put j (BitVec.ofNat 112 (ofLE b)) x.seeds, seedsPending := x.seedsPending ||| (1 <<< j)
      seedsAt := some s.now
      seedsBefore := if again then x.seedsBefore else x.seeds
      seedsNew := (if again then x.seedsNew else 0) ||| (1 <<< j) })

/-- SEED_FROM_NOISE (R197, R310). -/
def writeNoiseSeed (s : State) (v : Path) (x : Nat) : Written :=
  let k := x % 8
  if bitOf x 3 == 1 then s.refuse stBAD_VALUE
  else if (s.slot k).st == .empty then s.refuse stNO_COURSE
  else if !s.ownedBy v k then s.refuse stNOT_OWNER
  else if s.det.strict then
    ({ s with det := { s.det with strictRefusals := satAdd 32 s.det.strictRefusals 1 } }).refuse stSTRICT_REFUSED
  else if s.ent.st == .fatal then s.refuse stNOISE_FATAL
  else if s.ent.pool.length < 64 then s.refuse stNO_ENTROPY
  else if s.probed k then s.refuse stPROBE_BUSY
  else (({ s with ent := { s.ent with pool := s.ent.pool.drop 14 } }).setSeed k (x / 16 % 16) (s.ent.pool.take 14)).wrote

/-- PROBE_GO (R330, R331): the probe waits for the Louvre, or for the agreement of the devices of the layout. -/
def writeProbe (s : State) (v : Path) (x : Nat) : Written :=
  let k := s.det.probe.slotSet
  let y := s.slot k
  if x != 1 || (y.st != .empty && s.lapLen k ≤ s.det.probe.cycleSet) then s.refuse stBAD_VALUE
  else if y.st == .empty then s.refuse stNO_COURSE
  else if !s.ownedBy v k then s.refuse stNOT_OWNER
  else if s.det.probe.state == 1 then s.refuse stPROBE_BUSY
  else if !(y.st == .paused || (y.st == .halted && (y.reason == .programFault || y.reason == .diverged))) || y.stage != .idle then
    s.refuse stPROBE_STATE
  else
    let s := { s with det := { s.det with probe := { s.det.probe with
      slot := k, cycle := s.det.probe.cycleSet, state := 1, lap := y.lapNext, endAt := 0, cores := [], slices := [] } } }
    let s := s.onSlot k (fun x => { x with attempt := .probe })
    (if s.agreesLaunch k then (if s.coordinates k then s.proposeLap k else s) else s.askAdmission k).wrote

/-- Oracle settings of a path (R168). -/
def writeOracle (s : State) (v : Path) (sub : Nat) (b : List Byte) : Written :=
  let o := s.oracleOf v
  let set (o : Oracle) : State := { s with dict := { s.dict with oracles := Table.put (oracleKey v) o s.dict.oracles } }
  match sub with
  | 1 => s.inRange (ofLE b ≤ 4) (set { o with mode := ofLE b })
  | 2 => (set { o with key := b }).wrote
  | 3 => (set { o with ctr := b }).wrote
  | 4 => (set { o with u := ofLE b }).wrote
  | _ => (set { o with req := b }).wrote

/-- DRBG_RESEED (R370, R371). -/
def writeReseed (s : State) (x : Nat) : Written :=
  if x != 1 then s.refuse stBAD_VALUE
  else if s.ent.st == .fatal then s.refuse stNOISE_FATAL
  else ({ s with ent := { s.ent with reseedWaits := true, keyWaits := true } }).wrote

/-- 0x4000 to 0x47FF. -/
def writeDraws (s : State) (v : Path) (i sub : Nat) (b : List Byte) : Written :=
  let x := ofLE b
  match i with
  | 0x4000 => (match sub with
    | 1 => s.writeStrict x
    | 2 => s.inRange (x == 1 && s.det.strict) { s with det := { s.det with strictLock := true } }
    | 5 => s.inRange (1 ≤ x && x ≤ 4096) { s with det := { s.det with verifyLaps := x } }
    | _ => s.inRange (x ≤ 1) { s with det := { s.det with verifyMode := x } })
  | 0x4018 => s.writeNoiseSeed v x
  | 0x4040 => (match sub with
    | 1 => s.inRange (x ≤ 7) { s with det := { s.det with probe := { s.det.probe with slotSet := x } } }
    | 2 => ({ s with det := { s.det with probe := { s.det.probe with cycleSet := x } } }).wrote
    | _ => s.writeProbe v x)
  | 0x4400 => s.writeReseed x
  | 0x4420 => s.writeOracle v sub b
  | _ => if s.probed (i - 0x4010) then s.refuse stPROBE_BUSY else (s.setSeed (i - 0x4010) (sub - 1) b).wrote

/-! Mogul, security, seal areas and debug (R354, R355, R455, R536, R538, R545). -/

/-- PROBLEM_ROW of a lattice (R354, R355). -/
def writeRow (s : State) (lat row : Nat) (b : List Byte) : Written :=
  let m := s.mogul
  if (if lat == 0 then m.latW else m.latE) != 0 then s.refuse stMOGUL_ACTIVE
  else
    let base := 65536 * lat + 256 * row
    let put (t : Table (BitVec 32)) (u : Nat) : Table (BitVec 32) :=
      let w : BitVec 32 := BitVec.ofNat 32 (fieldLE b (4 * u) 4)
      if w == 0 then Table.erase (base + u) t else Table.put (base + u) w t
    ({ s with mogul := { m with
      cells := (List.range 256).foldl put m.cells
      prevW := if lat == 0 then none else m.prevW
      prevE := if lat == 1 then none else m.prevE
      prevJ := none } }).wrote

/-- FW_COMMIT (R537, R538). -/
def writeCommit (s : State) (x : Nat) : Written :=
  if x == 0x5A then ({ s with flash := { s.flash with fwSvnMin := max s.flash.fwSvnMin s.flash.fwSvn } }).wrote
  else if x != 0xC1 then s.refuse stBAD_VALUE
  else match Config.bankSvn s.sec.fwStage with
    | none => s.refuse stFW_SIGNATURE
    | some n =>
      if n.toNat < s.flash.fwSvnMin then s.refuse stFW_ROLLBACK
      else ({ s with flash := { s.flash with fwNext := some n.toNat }, sec := { s.sec with fwStage := [] } }).wrote

/-- 0x4800 to 0x5FFF. -/
def writeSecurity (s : State) (i sub : Nat) (b : List Byte) : Written :=
  let x := ofLE b
  match i with
  | 0x4800 => (s.mogulStop (BitVec.ofNat 8 x)).wrote
  | 0x4810 => s.writeRow 0 sub b
  | 0x4811 => s.writeRow 1 sub b
  | 0x5001 =>
    if sub == 1 then s.inRange (x == 1 || !s.flash.securityLock) { s with flash := { s.flash with signedRequired := x == 1 } }
    else s.inRange (x == 1) { s with flash := { s.flash with securityLock := true } }
  | 0x5002 =>
    if s.flash.securityLock && !allZero (Table.get [] sub s.flash.imageKeys) then s.refuse stKEY_SLOT_LOCKED
    else ({ s with flash := { s.flash with imageKeys := Table.put sub b s.flash.imageKeys } }).wrote
  | 0x5003 => if sub == 3 then ({ s with sec := { s.sec with fwStage := s.sec.fwStage ++ b } }).wrote else s.writeCommit x
  | 0x5004 =>
    if 1 < x then s.refuse stBAD_VALUE
    else if (s.lport sub).usedBy != 0xFF then s.refuse stPORT_IN_USE
    else (s.onLport sub (fun p => { p with crypt := x })).wrote
  | _ => ({ s with sec := { s.sec with linkSecret := b } }).wrote

/-- 0x6000 to 0x70FF. -/
def writeRest (s : State) (i sub : Nat) (b : List Byte) : Written :=
  let x := ofLE b
  if i == 0x6001 then ({ s with sealAreas := Table.put (sub - 1) b s.sealAreas }).wrote
  else if sub == 1 then
    if x == 1 && s.dict.debugLock then s.refuse stDEBUG_LOCKED
    else ({ s with dict := { s.dict with debugEnable := x == 1 } }).wrote
  else s.inRange (x == 1 && !s.dict.debugEnable) { s with dict := { s.dict with debugLock := true } }

/-- Check 8 of a write, and what it does. -/
def writeOwn (s : State) (v : Path) (i sub : Nat) (b : List Byte) (t : Option Ticket) : Written :=
  if i < 0x2000 then s.writeLinks v i sub b t
  else if i < 0x2400 then s.writePower i sub b
  else if i < 0x3000 then s.writeIrq i sub b
  else if i < 0x4800 then s.writeDraws v i sub b
  else if i < 0x6000 then s.writeSecurity i sub b
  else s.writeRest i sub b

/-- Check 7 of a write (R451). -/
def writeHeld (s : State) (v : Path) (o : ObjDesc) (i sub : Nat) : Option Nat :=
  if (o.acc == .rwi || firmwareWrite i sub) && !s.allIdle then some stNOT_IDLE
  else if o.acc == .rwo then
    (if (s.slot (i - 0x4010)).st == .empty then some stNO_COURSE
    else if !s.ownedBy v (i - 0x4010) then some stNOT_OWNER
    else none)
  else none

/-- A write of an object over a path, for the packet of ticket t where one carries it (R442, R451). -/
def writeObject (s : State) (v : Path) (i sub : Nat) (b : List Byte) (t : Option Ticket) : Written :=
  match s.objDesc i sub with
  | none => s.refuse stNO_OBJECT
  | some o =>
    if !reaches v o.acc i sub true || (i == 0x5005 && !s.secureOn v) then s.refuse stPATH_DENIED
    else if !o.acc.writable then s.refuse stREAD_ONLY
    else if !sizeOk o b then s.refuse stSIZE_MISMATCH
    else if !encodingOk o b then s.refuse stBAD_VALUE
    else if s.asleep o.home then s.refuse stDOMAIN_ASLEEP
    else match s.writeHeld v o i sub with
      | some st => s.refuse st
      | none => s.writeOwn v i sub b t

/-! Accesses that arrive over a path by themselves. -/

/-- A read over a path; its answer stands in Dict.answer. -/
def accessRead (s : State) (v : Path) (i sub : Nat) : State :=
  let r := s.readObject v i sub
  { r.2.2 with dict := { r.2.2.dict with answer := some ⟨r.1, r.2.1⟩ } }

/-- A write over a path; its answer stands in Dict.answer, and is none while a TAKEOVER waits. -/
def accessWrite (s : State) (v : Path) (i sub : Nat) (b : List Byte) : State :=
  let r := s.writeObject v i sub b none
  { r.2 with dict := { r.2.dict with answer := r.1.map (fun st => ⟨st, []⟩) } }

end State
end Sys2Proof.Machine
end

