-- ==== Sys2Proof/Machine/Exchange.lean ====
section
/-! DEFINITION. Dictionary messages: segmented exchanges, and the remote requests of a port's packets (R388, R445, R446). -/
namespace Sys2Proof.Machine

/-- 10 ms in cc. -/
def tenMs : Nat := 16000000

/-- An exchange has this name (R446). -/
def Exchange.named (e : Exchange) (v : Path) (who xid : Nat) : Bool := e.path == v && e.who == who && e.xid == xid

/-- An answer without data. -/
def DictSeg.answer (g : DictSeg) (status type total : Nat) (data : List Byte) : DictAns :=
  ⟨status, type, g.xid.toNat, g.offset.toNat, total, data⟩

namespace State

/-- Answer a segment: over the torus to who asked, or on the management bus, as a vendor-defined message in packets
(R445, R447). -/
def answerSeg (s : State) (v : Path) (who : Nat) (a : DictAns) : State :=
  let s := { s with dict := { s.dict with answer := some ⟨a.status, a.data⟩, reply := a.bytes } }
  match v with
  | .transom => s.sendTo who (.dictResp a)
  | _ =>
    let b := mcVendor Config.pciVendorId.toNat ++ a.bytes
    { s with dict := { s.dict with reply := b, busOut := mcPackets b } }

/-- The exchanges that have not ended by the passing of 10 ms. -/
def liveExchanges (s : State) : List Exchange := s.dict.exchanges.filter (fun e => decide (s.now < e.last + tenMs))

/-- The exchange of a name. -/
def exchangeOf (s : State) (v : Path) (who xid : Nat) : Option Exchange :=
  s.liveExchanges.find? (fun e => e.named v who xid)

/-- End the exchange of a name, and those whose time has passed. -/
def endExchange (s : State) (v : Path) (who xid : Nat) : State :=
  { s with dict := { s.dict with exchanges := s.liveExchanges.filter (fun e => !e.named v who xid) } }

/-- Hold an exchange. -/
def holdExchange (s : State) (e : Exchange) : State :=
  let s := s.endExchange e.path e.who e.xid
  { s with dict := { s.dict with exchanges := s.dict.exchanges ++ [e] } }

/-- An exchange may start: fewer than 8 others are held. -/
def mayStart (s : State) (v : Path) (who xid : Nat) : Bool :=
  (s.liveExchanges.filter (fun e => !e.named v who xid)).length < 8

/-- Refuse a segment, which ends its exchange. -/
def refuseSeg (s : State) (v : Path) (who : Nat) (g : DictSeg) (status : Nat) : State :=
  (s.endExchange v who g.xid.toNat).answerSeg v who (g.answer status 0 0 [])

/-- Type code of an object. -/
def typeOf (s : State) (i sub : Nat) : Nat := (s.objDesc i sub).elim 0 (fun o => o.type.code)

/-- Return bytes of a snapshot; the exchange ends with its last byte. -/
def giveSeg (s : State) (e : Exchange) (g : DictSeg) : State :=
  let off := g.offset.toNat
  let d := (e.data.drop off).take 96
  let s := if off + d.length == e.total then s.endExchange e.path e.who e.xid else s.holdExchange { e with last := s.now }
  s.answerSeg e.path e.who (g.answer stOK (s.typeOf e.index e.sub) e.total d)

/-- A READ segment (R446). -/
def segRead (s : State) (v : Path) (who : Nat) (g : DictSeg) : State :=
  let i := g.index.toNat
  let sub := g.sub.toNat
  let x := g.xid.toNat
  if 2 < g.op.toNat then s.refuseSeg v who g stBAD_VALUE
  else if g.offset == 0 then
    if !s.mayStart v who x then s.refuseSeg v who g stDICT_BUSY
    else
      let r := s.readObject v i sub
      if r.1 != stOK then r.2.2.refuseSeg v who g r.1
      else (r.2.2.endExchange v who x).giveSeg ⟨v, who, x, true, i, sub, r.2.1.length, r.2.1, s.now⟩ g
  else match s.exchangeOf v who x with
    | some e =>
      if e.read && e.index == i && e.sub == sub && g.offset.toNat < e.total then s.giveSeg e g
      else s.refuseSeg v who g stSEGMENT_ORDER
    | none => s.refuseSeg v who g stSEGMENT_ORDER

/-- TOTAL of a write differs from the size of an object the path may write. -/
def totalWrong (s : State) (v : Path) (g : DictSeg) : Bool :=
  match s.objDesc g.index.toNat g.sub.toNat with
  | some o => reaches v o.acc g.index.toNat g.sub.toNat true && o.acc.writable && o.type != .string && o.size != g.total.toNat
  | none => false

/-- The bytes received before a write segment and with it; a status when the segment is out of order, or its TOTAL is not
the one the exchange began with or falls short of the bytes received (R446). -/
def gather (s : State) (v : Path) (who : Nat) (g : DictSeg) : Nat × List Byte :=
  let x := g.xid.toNat
  if g.offset == 0 then (if s.mayStart v who x then (stOK, g.data) else (stDICT_BUSY, []))
  else match s.exchangeOf v who x with
    | some e =>
      if e.read || e.index != g.index.toNat || e.sub != g.sub.toNat || e.data.length != g.offset.toNat then (stSEGMENT_ORDER, [])
      else if e.total != g.total.toNat then (stSIZE_MISMATCH, [])
      else (stOK, e.data ++ g.data)
    | none => (stSEGMENT_ORDER, [])

/-- A WRITE segment, or (last) the one that applies the value (R446). -/
def segWrite (s : State) (v : Path) (who : Nat) (g : DictSeg) (last : Bool) : State :=
  let i := g.index.toNat
  let sub := g.sub.toNat
  let x := g.xid.toNat
  let r := s.gather v who g
  if 2 < g.op.toNat then s.refuseSeg v who g stBAD_VALUE
  else if r.1 != stOK then s.refuseSeg v who g r.1
  else if g.total.toNat < r.2.length then s.refuseSeg v who g stSIZE_MISMATCH
  else if s.totalWrong v g then s.refuseSeg v who g stSIZE_MISMATCH
  else if !last then
    (s.holdExchange ⟨v, who, x, false, i, sub, g.total.toNat, r.2, s.now⟩).answerSeg v who
      (g.answer stOK (s.typeOf i sub) g.total.toNat [])
  else
    let w := (s.endExchange v who x).writeObject v i sub r.2 none
    let st := w.1.getD stOK
    if st != stOK then w.2.refuseSeg v who g st
    else w.2.answerSeg v who (g.answer stOK (s.typeOf i sub) g.total.toNat [])

/-- An exchange ends 10 ms after its last segment. -/
def timeoutExchange (s : State) (v : Path) (who xid : Nat) : State :=
  { s with dict := { s.dict with exchanges := s.dict.exchanges.filter (fun e =>
    !(e.named v who xid && decide (e.last + tenMs ≤ s.now))) } }

/-! Messages (R445, R447). -/

/-- A segment in the bytes b of its message; one whose DLEN does not fit is refused with BAD_VALUE, for which the manual
gives no status: DESIGN CHOICE (assumption 23). -/
def segBytes (v : Path) (who : Nat) (b : List Byte) (run : State → Path → Nat → DictSeg → State) (s : State) : State :=
  if dictFormed b then run s v who (dictSegOf b) else s.refuseSeg v who (dictSegOf b) stBAD_VALUE

/-- A DICT_REQ arrives over Lecel or on the management bus: one for another device is passed on, and a bus message of
another type or vendor, or in packets that form none, is discarded. -/
def dictIn (s : State) (m : DictFrom) (run : State → Path → Nat → DictSeg → State) : State :=
  match m with
  | .link p r b => s.dictMsg p r (.dictReq (dictSegOf b)) (State.segBytes .transom r.source b run)
  | .bus eid packets =>
    match mcMessage packets with
    | some b => if b.take 3 == mcVendor Config.pciVendorId.toNat then s.segBytes .mgmt eid (b.drop 3) run else s
    | none => s

/-! Remote requests (R388, R444, R446). -/

/-- VALUE0 of a dictionary packet's response (R444). -/
def dictValue0 (type access len : Nat) : Nat := type + access * 2 ^ 8 + len * 2 ^ 32

/-- Access code of an object, whatever the grade of the device that holds it. -/
def accessOf (i sub : Nat) : Nat :=
  ((objectsOf 80).find? (fun o => o.covers i sub)).elim 0 (fun o => o.acc.code)

/-- Send the next segment of the request that port p waits for. -/
def sendRemote (s : State) (q : RemoteReq) : State :=
  let d := (q.data.drop q.done).take 96
  let seg : DictSeg :=
    if q.opcode == 1 then ⟨0, BitVec.ofNat 16 q.index, BitVec.ofNat 8 q.sub, BitVec.ofNat 16 q.xid, BitVec.ofNat 32 q.data.length, 0, []⟩
    else ⟨if q.done + d.length == q.data.length then 2 else 1, BitVec.ofNat 16 q.index, BitVec.ofNat 8 q.sub,
      BitVec.ofNat 16 q.xid, BitVec.ofNat 32 q.done, BitVec.ofNat 32 q.data.length, d⟩
  s.sendTo q.addr (.dictReq seg)

/-- The remote request of port p has ended. -/
def endRemote (s : State) (p : Nat) (q : RemoteReq) (status v0 : Nat) (payload : List Byte) : State :=
  (s.onPort p (fun x => { x with remote := none })).respond (if q.discard then 2 else p)
    ⟨q.opcode, 0xFF, q.tag, status, v0, 0, payload, q.quiet, true, .none⟩

/-- An answer segment for port p's remote request arrives, within its 10 ms. -/
def takeAnswer (s : State) (p : Nat) (a : DictAns) : State :=
  match (s.port p).remote with
  | none => s
  | some q =>
    if q.xid != a.xid || q.since + tenMs ≤ s.now then s
    else if a.status != stOK then s.endRemote p q a.status 0 []
    else if q.opcode == 1 then
      if a.offset != q.data.length then s
      else
        let q := { q with data := q.data ++ a.data }
        if a.total ≤ q.data.length then s.endRemote p q stOK (dictValue0 a.type (accessOf q.index q.sub) a.total) q.data
        else (s.onPort p (fun x => { x with remote := some q })).sendRemote q
    else if a.offset != q.done then s
    else
      let q := { q with done := min q.data.length (q.done + 96) }
      if q.data.length ≤ q.done then
        s.endRemote p q stOK (dictValue0 a.type (accessOf q.index q.sub) q.data.length) []
      else (s.onPort p (fun x => { x with remote := some q })).sendRemote q

/-- A DICT_RESP for this device: it answers the port whose request has its XID and went to its sender. -/
def respIn (r : Route) (a : DictAns) (s : State) : State :=
  match [0, 1].find? (fun p => (s.port p).remote.any (fun q => q.xid == a.xid && q.addr == r.source)) with
  | some p => s.takeAnswer p a
  | none => s

/-- No complete answer within 10 ms. -/
def remoteExpires (s : State) (p : Nat) : State :=
  match (s.port p).remote with
  | some q => if q.since + tenMs ≤ s.now then s.endRemote p q stREMOTE_TIMEOUT 0 [] else s
  | none => s

end State

/-- DICT_REQ_READ (R446). -/
def execDictReqRead (m : DictFrom) (s : State) : Host.Outcome State Fault Refusal := .next (s.dictIn m State.segRead)

/-- DICT_REQ_WRITE (R446). -/
def execDictReqWrite (m : DictFrom) (s : State) : Host.Outcome State Fault Refusal :=
  .next (s.dictIn m (fun s v who g => s.segWrite v who g false))

/-- DICT_REQ_WRITE_LAST (R446). -/
def execDictReqWriteLast (m : DictFrom) (s : State) : Host.Outcome State Fault Refusal :=
  .next (s.dictIn m (fun s v who g => s.segWrite v who g true))

/-- DICT_RESP (R446). -/
def execDictResp (p : Nat) (r : Route) (payload : List Byte) (s : State) : Host.Outcome State Fault Refusal :=
  .next (s.dictMsg p r (.dictResp (dictAnsOf payload)) (State.respIn r (dictAnsOf payload)))

/-- DICT_EXCHANGE_TIMEOUT (R446). -/
def execDictExchangeTimeout (via : Path) (who xid : Nat) (s : State) : Host.Outcome State Fault Refusal :=
  .next (s.timeoutExchange via who xid)

/-- REMOTE_TIMEOUT (R388). -/
def execRemoteTimeout (p : Nat) (s : State) : Host.Outcome State Fault Refusal := .next (s.remoteExpires p)

end Sys2Proof.Machine
end

