-- ==== Sys2Proof/Machine/Lap.lean ====
section
/-! DEFINITION. The commands of a lap: its launch, its end, its boundary and the schuss lines (R65, R213, R222, R223,
R287 to R292, R320, R330). Each acts only in its own cycle. -/
namespace Sys2Proof.Machine
namespace State

/-! LAP_END (R65, R213). -/

/-- The core has issued END, in this cycle at the latest. -/
def coreEnded (c : Core) (now : Nat) : Bool :=
  c.phase != .running || c.idleRec
    || c.inflight.any (fun m => m.due == now && (match m.act with | .ctEnd _ => true | _ => false))

/-- The router has reached STOP, in this cycle at the latest. -/
def routerStopped (r : Router) : Bool :=
  match r.seqNext with
  | some q => q.phase != .running
  | none => r.seq.phase != .running

/-- A router that has reached no STOP raises GATE_OVERRUN and applies no further entry (R213). -/
def endRouterLap (s : State) (n : Nat) : State :=
  let r := s.router n
  if routerStopped r then s
  else (s.setRouter n { r with seqNext := some { r.seq with phase := .faulted } }).routerFault n Router.fOVERRUN

/-- The last cycle of slot k's lap. -/
def endLap (s : State) (k : Nat) : State :=
  if s.lapCycle k != some (s.lapLen k - 1) then s
  else
    let s := (s.grid.cores.filter (fun c => c.2.slot == k)).foldl (fun s c =>
      if s.fenced c.1 || coreEnded (s.core c.1) (s.lapLen k - 1) then s
      else s.setCore c.1 ((s.core c.1).trap tOVERRUN)) s
    ((s.grid.routers.filter (fun r => r.2.slot == k)).map (fun r => r.1)).foldl endRouterLap s

/-! Launch (R204, R222, R289). -/

/-- Ports of slot k's LECEL section (R411). -/
def lecelPorts (i : CourseInfo) : List Nat :=
  if i.lecel.isEmpty then [] else (List.range 4).filter (fun p => bitOf (fieldLE i.lecel 1 1) p == 1)

/-- COVER_PORTS from this launch on: ports of the course whose peer or link is lost (R521). -/
def coverMask (s : State) (k : Nat) : Nat :=
  let x := s.slot k
  if !x.info.pairs then 0
  else slotMask ((lecelPorts x.info).filter (fun p => x.lostAddrs.contains (s.acrossAddr p) || (s.lport p).linkLost))

/-- PAIR_STATE at the first launch of a run (R322, R522); a change of it opens a VERIFY window (R325). -/
def pairAtLaunch (s : State) (k : Nat) : State :=
  let x := s.slot k
  if !x.freshRun then s
  else
    let s := s.onSlot k (fun x => { x with freshRun := false })
    if x.info.pairs && (s.lport (s.partnerPort k)).st == 2 && x.pairState != 1 then
      (s.onSlot k (fun x => { x with pairState := 1, lostAddrs := [] })).openWindow k .recovery
    else s

/-- The Porter drives LAUNCH, 24 cc before the count (R289, R327). A probe's launch of a PAUSED slot latches the seeds that
the lap itself would have, as every launch does that is no replay; a probe of a HALTED slot keeps those of the lap it
runs again (R330; DEDUCED, assumption 14). A replay agreed on whose recovery has not come to its end in the time of R511 does not
launch (DEDUCED, assumption 33). -/
def driveLaunch (s : State) (k : Nat) : State :=
  let x := s.slot k
  match x.stage with
  | .committed l =>
    if !s.rinkRun || s.rink + 24 != l then s
    else if x.pledged && (!x.reloads.isEmpty || !x.rebuilding.isEmpty || s.heldBySites k) then
      (s.onSlot k (fun x => { x with stage := .idle, pledged := false })).resume k
    else
      let s := s.onSlot k (fun x => { x with
        stage := .driven l, pledged := false, strictHeld := x.strictHeld && (s.det.strict || x.attempt == .probe) })
      match x.attempt with
      | .first =>
        let s := (s.latchSeeds k).pairAtLaunch k
        { s with grid := { s.grid with coverPorts := s.coverMask k } }
      | .replay => { s with grid := { s.grid with coverPorts := s.coverMask k } }
      | .probe => if x.st == .paused then s.onSlot k (fun x => x.takeSeeds s.now) else s
  | _ => s

/-- LAUNCH arrives: this cycle is lap cycle 0 (R222, R289, R325, R330, R483). -/
def arriveLaunch (s : State) (k : Nat) (errs : Table (BitVec 160)) : State :=
  let x := s.slot k
  match x.stage with
  | .driven l =>
    if !s.rinkRun || s.rink != l then s
    else
      let probe := x.attempt == .probe
      let s := s.onSlot k (fun x => { x with
        stage := .running s.now, lastLaunch := s.rink, attemptNo := x.attemptNo + 1
        admitted := false, faults := [], faultDrive := none, evidence := false, blocksBad := []
        abortAt := if probe then some (s.now + s.det.probe.cycle + 1) else none
        pairIn := if probe then x.pairIn else none, pairSent := if probe then x.pairSent else none
        st := if x.attempt == .replay then .replaying else x.st })
      let s := { s with louvre := { s.louvre with
        spans := s.louvre.spans ++ [(⟨k, x.info.energyBound, s.lapLen k, s.now, s.now + s.lapLen k⟩ : Span)] } }
      let s := s.startGrid k (x.attempt == .first || (probe && x.st == .paused)) errs
      if x.attempt == .replay then
        (((s.onSlot k (fun x => { x with replays := satAdd 32 x.replays 1 })).tallyEvent 6 1).openWindow k .recovery).fireSlot k 2
      else s
  | _ => s

/-! ABORT and the fault line (R222, R223). -/

/-- The fingerprints a probe captures (R330, R333). -/
def captureProbe (s : State) (k start : Nat) : State :=
  let x := s.slot k
  { s with det := { s.det with probe := { s.det.probe with
    state := if hasLapFault x.faults then 3 else 2
    lap := x.lapNext
    endAt := s.now - start - 1
    cores := (s.grid.cores.filter (fun c => c.2.slot == k)).map (fun c => (c.1, c.2.fp))
    slices := (s.slotSlices k).map (fun j => (j, (s.ctl j).fp)) } } }

/-- A probe is over: the slot stands where it stood (R330). -/
def endProbe (s : State) (k start : Nat) : State :=
  let s := s.captureProbe k start
  let s := (s.stopGrid k).onCores k (fun c => { c with entryNext := c.entry, phase := .boundary })
  let s := s.onRouters k (fun r => { r with entryNext := r.entry })
  s.onSlot k (fun x => { x with stage := .idle, attempt := .first, abortAt := none, faultDrive := none, faults := [] })

/-- ABORT arrives at slot k in this cycle (R222). A probe's may arrive in the cycle after its lap's last. -/
def arriveAbort (s : State) (k : Nat) : State :=
  let x := s.slot k
  match x.stage with
  | .running a =>
    let s' := { s with louvre := { s.louvre with
      spans := s.louvre.spans.map (fun (p : Span) => if p.slot == k && p.first == a then { p with stop := min p.stop s.now } else p) } }
    if x.abortAt != some s.now then s
    else let s := s'
    if x.attempt == .probe then s.endProbe k a
    else if s.now < a + s.lapLen k then (s.stopGrid k).onSlot k (fun x => { x with stage := .aborted a s.now })
    else s
  | _ => s

/-- The Porter sees FAULT for slot k, 24 cc after the first drive, and drives ABORT in the next cycle (R223). When a site of
the course has failed in the lap it needs a fence, which is a cause of its own (R231, R588; DEDUCED, assumption 13). -/
def faultLine (s : State) (k : Nat) : State :=
  let x := s.slot k
  match x.stage, x.faultDrive with
  | .running _, some t =>
    if s.now == t + 24 then
      let s := s.abortBy k (s.now + 25)
      if s.grid.failing.any (fun n => s.ownerOf n == some k) then s.porterCause k pFENCE else s
    else s
  | _, _ => s

/-- SCHUSS_ERROR: counted once, and a fault of every slot that runs (R223, R229, R323). -/
def schussError (s : State) : State :=
  let s := ({ s with grid := { s.grid with schussErrors := satAdd 32 s.grid.schussErrors 1 } }).evidenceAll
  ((s.grid.routers.filter (fun r => (s.lapCycle r.2.slot).isSome)).map (fun r => r.1)).foldl
    (fun s n => s.routerFault n Router.fSCHUSS) s

/-- TICK with argument arg arrives: every router checks its RINK count against it (R222). -/
def arriveTick (s : State) (arg : Nat) : State :=
  if s.grid.routerRink % 256 == 0 && s.grid.routerRink / 256 % 256 == arg then s else s.schussError

/-- A word arrives on the schuss lines (R222, R223): one with odd parity is an error and no command; f is what the command
w does, and any other word with even parity is not that command. -/
def schuss (s : State) (word w : BitVec 16) (f : State → State) : State :=
  if !evenParity word then s.schussError else if word == w then f s else s

/-- COMMIT arrives, 24 cc after it was driven, and every slot it names stands at a boundary (R234). -/
def arriveCommit (s : State) (word : BitVec 16) : State :=
  match s.grid.commit with
  | some (t, mask) =>
    if s.now == t + 24 && ((List.range 8).filter (fun k => bitOf mask k == 1)).all s.betweenLaps then
      s.schuss word (schussWord cmdCOMMIT 0 mask) (fun s => s.applyCommit mask)
    else s
  | none => s

end State

/-- LAP_END (R65). -/
def execLapEnd (k : Nat) (s : State) : Host.Outcome State Fault Refusal := .next (s.endLap k)

/-- LAUNCH_DRIVE (R289). -/
def execLaunchDrive (k : Nat) (s : State) : Host.Outcome State Fault Refusal := .next (s.driveLaunch k)

/-- SCHUSS_LAUNCH (R222). -/
def execSchussLaunch (k : Nat) (word : BitVec 16) (errs : List (Nat × BitVec 160)) (s : State) :
    Host.Outcome State Fault Refusal :=
  .next (s.schuss word (State.schussWord State.cmdLAUNCH k 0) (fun s => s.arriveLaunch k errs))

/-- SCHUSS_ABORT (R222). -/
def execSchussAbort (k : Nat) (word : BitVec 16) (s : State) : Host.Outcome State Fault Refusal :=
  .next (s.schuss word (State.schussWord State.cmdABORT k 0) (fun s => s.arriveAbort k))

/-- SCHUSS_COMMIT (R234). -/
def execSchussCommit (word : BitVec 16) (s : State) : Host.Outcome State Fault Refusal := .next (s.arriveCommit word)

/-- TICK (R222). -/
def execTick (word : BitVec 16) (s : State) : Host.Outcome State Fault Refusal :=
  let arg := bitsOf word.toNat 8 1
  .next (s.schuss word (State.schussWord State.cmdTICK 0 arg) (fun s => s.arriveTick arg))

/-- FAULT_LINE (R223). -/
def execFaultLine (k : Nat) (s : State) : Host.Outcome State Fault Refusal := .next (s.faultLine k)

/-- LAP_BOUNDARY (R287). -/
def execLapBoundary (k : Nat) (errs : List BlockErr) (s : State) : Host.Outcome State Fault Refusal :=
  .next (s.lapBoundary k errs)

/-- LAP_DIGEST_READY (R320). -/
def execLapDigestReady (k : Nat) (s : State) : Host.Outcome State Fault Refusal := .next (s.digestReady k)

/-- SCHUSS_PARITY_ERROR (R223). -/
def execSchussParityError (s : State) : Host.Outcome State Fault Refusal := .next s.schussError

end Sys2Proof.Machine
end

