-- ==== Sys2Proof/Machine/Matrix.lean ====
section
/-! DEFINITION. The MX operations and the retirement of an MMA (R67, R68, R121 to R142). -/
namespace Sys2Proof.Machine

/-- MMA (R67). -/
def execMma (n : Nat) (f : MxFields) (upset : Bool) (s : State) : Host.Outcome State Fault Refusal :=
  .next (s.onMx n 1 f upset (fun k x => k.mxOp x f (fun _ => f.row.toNat)))

/-- MMAL (R67). -/
def execMmal (n : Nat) (f : MxFields) (upset : Bool) (s : State) : Host.Outcome State Fault Refusal :=
  .next (s.onMx n 2 f upset (fun k x => k.mxOp x f (fun k => (f.row.toNat + (k.rl 0).count % 16) % 16)))

/-- MMA_RETIRE (R131). -/
def execMmaRetire (n : Nat) (err : List Int) (upset : Bool) (s : State) : Host.Outcome State Fault Refusal :=
  if upset then .next ((s.free 5904).2.onCore n (fun k x => k.mmaRetire x err true (s.free 5904).1))
  else .next (s.onCore n (fun k x => k.mmaRetire x err false 0))

end Sys2Proof.Machine
end

