-- ==== Sys2Proof/Machine/Memory.lean ====
section
/-! DEFINITION. Scheduled periods, edge transfers, scrub, and the loss of slices and stacks (R248 to R271). -/
namespace Sys2Proof.Machine
namespace State

/-! Inbound (R254 to R257, R267). -/

/-- The flit that reaches a stack's controllers on a link and transfer in this cycle; zero when none was driven. -/
def edgeFlit (s : State) (st l t : Nat) : Flit :=
  match s.mem.edgeIn.find? (fun e => e.stack == st && e.link == l && e.transfer == t && e.due == s.now) with
  | some e => e.flit
  | none => 0

/-- Keep a flit for the coming period that its edge entry names. -/
def takeEdge (s : State) (j : Nat) (c : Nat) (e : BitVec 16) (f : Flit) : State :=
  let t := periodStart c (edgePeriod e)
  let x := s.ctl j
  s.setCtl j { x with inbound := x.inbound ++ [⟨s.now, s.now + (t - c), edgePeriod e, edgeRole e, f⟩] }

/-- The transfer that reaches a stack now was driven in a reserved cycle, on transfer 1 (R203, R255). -/
def edgeReserved (s : State) (t : Nat) : Bool := t == 1 && s.rinkRun && (s.grid.routerRink + 2 ^ 16 - 6) % 8 == 7

/-- A transom transfer reaches a stack: no message is routed over the links into the stacks, so that it carries none; it is
decoded and counted (R201, R224). -/
def edgeTransom (s : State) (err : BitVec 160) : State :=
  match rsDecode (errSymbols err) with
  | .clean _ => s
  | .corrected _ => s.countCorrected
  | .failed => { s with grid := { s.grid with transomDrops := satAdd 32 s.grid.transomDrops 1 } }.evidenceAll

/-- A transfer on an edge link reaches its stack: one that the edge table assigns is for its slice controller (R201, R255,
R256, R267). -/
def edgeTransfer (s : State) (st l t : Nat) (err : BitVec 160) : State :=
  if !s.stackLive st then s
  else if s.edgeReserved t then s.edgeTransom err
  else match s.ownerOfStack st with
  | none => s
  | some k =>
    match s.lapCycle k, s.edgeTable k st with
    | some c, some tb =>
      let e := edgeEntry tb c l t 0
      let j := 30 * st + edgeSlice e
      if !edgeValid e || (t == 1 && c % 8 == 5) then s
      else match rsDecode (errSymbols err) with
        | .clean x => s.takeEdge j c e (s.edgeFlit st l t ^^^ residualFlit x)
        | .corrected x => s.countCorrected.takeEdge j c e (s.edgeFlit st l t ^^^ residualFlit x)
        | .failed =>
          let v := s.free 128
          ({ v.2 with grid := { v.2.grid with linkUncorrectable := satAdd 64 v.2.grid.linkUncorrectable 1 } }.takeEdge j c e
            v.1).raiseNow k (0x8000 + j) 0x41
    | _, _ => s

/-- Fields of a request flit (R254). -/
def reqOp (f : Flit) : Nat := bitsOf f.toNat 127 126
def reqSlice (f : Flit) : Nat := bitsOf f.toNat 125 117
def reqPeriod (f : Flit) : Nat := bitsOf f.toNat 116 111
def reqBlock (f : Flit) : Nat := bitsOf f.toNat 110 92
def reqNowr (f : Flit) : Bool := bitsOf f.toNat 77 77 == 1

/-- A request that arrives in this cycle is checked (R254, R257, R267). DESIGN CHOICE (assumption 15): the unused OP 0b11 asks
for nothing, as OP none does, and is not checked. -/
def memoryRequest (s : State) (j p : Nat) : State :=
  let x := s.ctl j
  match x.inbound.find? (fun i => i.role == 0 && i.period == p && i.at_ == s.now) with
  | none => s
  | some i =>
    let s := s.setCtl j { x with inbound := x.inbound.filter (fun i => !(i.role == 0 && i.period == p && i.at_ == s.now)) }
    let op := reqOp i.flit
    if op == 0 || op == 3 then s
    else if reqSlice i.flit != j || reqPeriod i.flit != p then s.sliceFault j 0x42
    else if reqNowr i.flit then s.sliceFault j 0x43
    else
      let y := s.ctl j
      s.setCtl j { y with reqs := y.reqs ++ [⟨i.start, p, op == 2, reqBlock i.flit⟩] }

/-! The period (R248, R257 to R259, R318). -/

/-- Fold the record of a period served for the course (R318). -/
def foldPeriod (kind p c block : Nat) (data : Lanes) (f : BitVec 64) : BitVec 64 :=
  fmixAll f (BitVec.ofNat 64 (kind * 2 ^ 56 + p * 2 ^ 48 + c) :: BitVec.ofNat 64 block ::
    (List.range 8).map (fun i => data.extractLsb' (64 * i) 64))

/-- Flit of a role taken for the period that starts now; zero when none came (R257). -/
def inboundFlit (s : State) (x : SliceCtl) (p role : Nat) : Flit :=
  match x.inbound.find? (fun i => i.start == s.now && i.period == p && i.role == role) with
  | some i => i.flit
  | none => 0

/-- The period's read data leaves for its transfers (R257). -/
def readOut (s : State) (j p la : Nat) (data : Lanes) (bad : Bool) : State :=
  let x := s.ctl j
  s.setCtl j { x with reads := x.reads ++ [⟨s.now + 64, p, la, data, bad⟩] }

/-- Blocks held no longer: 16 periods of a bank set are 2,048 cc (R259). -/
def ageHeld (s : State) (j : Nat) : State :=
  let x := s.ctl j
  s.setCtl j { x with held := x.held.filter (fun h => s.now ≤ h.at_ + 2048) }

/-- Slice j holds the block of line la, read or merged now, for its bank set (R259). -/
def hold (s : State) (j la : Nat) (data : Lanes) : State :=
  let x := s.ctl j
  s.setCtl j { x with
    held := ⟨laSet la, laBlock la, data, s.now⟩ :: x.held.filter (fun h => !(h.bankset == laSet la && h.block == laBlock la)) }

/-- A read of line la in the period that starts now, scheduled or service: the held copy, counted as merged, or the block
itself, which is held from now on (R258, R259); none when it is uncorrectable. -/
def fetchBlock (s : State) (j la : Nat) (errs : List BlockErr) : Option Lanes × State :=
  let s := s.ageHeld j
  match (s.ctl j).held.find? (fun h => h.bankset == laSet la && h.block == laBlock la) with
  | some h => (some h.data, { s with mem := { s.mem with merged := satAdd 64 s.mem.merged 1 } }.hold j la h.data)
  | none =>
    let r := s.readBlock errs la
    match r.1 with
    | some d => (some d.1, r.2.2.hold j la d.1)
    | none => (none, r.2.2)

/-- A scheduled read of line la failed in the attempt of slot k (R268). -/
def blockFailed (s : State) (k la : Nat) : State :=
  s.onSlot k (fun x => { x with blocksBad := if x.blocksBad.contains la then x.blocksBad else x.blocksBad ++ [la] })

/-- Serve a scheduled read in the period that starts now. -/
def servePeriodRead (s : State) (j k c : Nat) (r : SliceReq) (errs : List BlockErr) : State :=
  let la := lineOf j r.period r.block
  let fold (s : State) (d : Lanes) : State := s.setCtl j { s.ctl j with fp := foldPeriod 0x20 r.period c r.block d (s.ctl j).fp }
  let f := s.fetchBlock j la errs
  match f.1 with
  | some d => fold (f.2.readOut j r.period la d false) d
  | none =>
    let v := f.2.free 512
    fold ((v.2.blockFailed k la).readOut j r.period la v.1 true) v.1

/-- Serve a scheduled write in the period that starts now: its line is the four data flits taken for it. -/
def servePeriodWrite (s : State) (j c : Nat) (r : SliceReq) : State :=
  let x := s.ctl j
  let line : Nat := packFrom 128 (fun q => (s.inboundFlit x r.period (q + 1)).toNat) 4
  let d : Lanes := BitVec.ofNat 512 line
  let s := s.writeLine (lineOf j r.period r.block) (lanesBytes d) 2 false
  s.setCtl j { s.ctl j with fp := foldPeriod 0x21 r.period c r.block d (s.ctl j).fp }

/-- The start of a period of slice j: the request accepted for it, if any, is served (R257). -/
def slicePeriod (s : State) (j : Nat) (errs : List BlockErr) : State :=
  match s.ownerOfStack (sliceStack j) with
  | none => s
  | some k =>
    match s.lapCycle k with
    | none => s
    | some c =>
      let s := s.ageHeld j
      let x := s.ctl j
      let drop (s : State) : State :=
        let y := s.ctl j
        s.setCtl j { y with
          reqs := y.reqs.filter (fun r => r.start != s.now), inbound := y.inbound.filter (fun i => i.start != s.now) }
      match x.reqs.find? (fun r => r.start == s.now) with
      | none => drop s
      | some r => drop (if r.write then s.servePeriodWrite j c r else s.servePeriodRead j k c r errs)

/-- Flit q of a line. -/
def lineFlit (d : Lanes) (q : Nat) : Flit := d.extractLsb' (128 * q) 128

/-- Send the flits of a read on the outbound transfers that the edge table assigns in the 64 cycles from now (R255,
R257): a flit placed in cycle c is at the edge router in cycle c + 6. -/
def sendRead (s : State) (j k c : Nat) (r : ReadOut) : State :=
  let st := sliceStack j
  match s.edgeTable k st with
  | none => s
  | some tb =>
    let north := decide (st % 8 < 4)
    let row := if north then 0 else s.grid.activeRows - 1
    (List.range 64).foldl (fun s i => (List.range 16).foldl (fun s l => (List.range 2).foldl (fun s t =>
      let e := edgeEntry tb (c + i) l t 1
      if edgeValid e && edgePeriod e == r.period && 30 * st + edgeSlice e == j && edgeRole e ≤ 3
          && !(t == 1 && (c + i) % 8 == 7) then
        let n := 128 * row + stackColumn st + l
        if Table.has n s.grid.routers then
          s.addArrival n ⟨s.now + i + 6, 2 * (if north then 0 else 2) + t, lineFlit r.data (edgeRole e)⟩
        else s
      else s) s) s) s

/-- Read data of slice j that is ready now leaves; a read that could not be corrected faults the lap (R257, R267). -/
def dataReady (s : State) (j : Nat) : State :=
  match s.ownerOfStack (sliceStack j) with
  | none => s
  | some k =>
    let x := s.ctl j
    match s.lapCycle k, x.reads.find? (fun r => r.ready == s.now) with
    | some c, some r =>
      let s := s.setCtl j { x with reads := x.reads.filter (fun r => r.ready != s.now) }
      let s := s.sendRead j k c r
      if r.bad then s.raiseNow k (0x8000 + j) 0x40 else s
    | none, some r =>
      let s := s.setCtl j { x with reads := x.reads.filter (fun r => r.ready != s.now) }
      if r.bad then s.raiseNow k (0x8000 + j) 0x40 else s
    | _, _ => s

/-! The rotation (R248, R563). -/

/-- The count the rotation runs on outside laps: RINK, or a local count from root PLL lock while RINK is held (R563). -/
def rotation (s : State) : Nat := if s.rinkRun then s.rink else s.now - s.start.pllSince.getD 0

/-- The period that begins now, if one does (R248). -/
def periodNow (s : State) : Option Nat := if s.rotation % 4 == 0 then some (s.rotation % 256 / 4) else none

/-! Scrub (R260). -/

/-- Blocks of a slice. -/
def scrubBlocks : Nat := 11184800

/-- The slices that scrub: those not lost, and the standby pseudo-channels. -/
def scrubbing (s : State) : List Nat :=
  (List.range 480).filter (fun j => (s.sliceEnt j).st != 2)
  ++ (List.range 16).flatMap (fun st => (s.stack st).standby.map (fun c => 512 + c))

/-- Passes completed over every slice; the count never falls (R272). -/
def passesDone (s : State) : Nat :=
  max s.mem.scrubPasses (s.scrubbing.foldl (fun m j => min m (s.ctl j).scrubPass) (2 ^ 32 - 1))

/-- The next block of slice j's scrub. -/
def scrubStep (s : State) (j : Nat) : State :=
  let x := s.ctl j
  if x.scrubNext + 1 < scrubBlocks then s.setCtl j { x with scrubNext := x.scrubNext + 1 }
  else
    let s := s.setCtl j { x with scrubNext := 0, scrubPass := x.scrubPass + 1 }
    { s with mem := { s.mem with scrubPasses := s.passesDone } }

/-- Slice j, or standby pseudo-channel j - 512, scrubs in the frame of this cycle: it is in service and filled, and has not
scrubbed in the frame yet. -/
def scrubDue (s : State) (j : Nat) : Bool :=
  let st := ctlStack j
  s.stackLive st && (s.stack st).filled && (if 512 ≤ j then (s.stack st).standby.contains (j - 512) else j < 480 && (s.sliceEnt j).st != 2)
  && (s.ctl j).scrubFrame != some (s.rotation / 256)

/-- A corrected block is written back, its META unchanged (R246, R260). -/
def writeBack (s : State) (la : Nat) (d : Lanes) : State :=
  { s with mem := { s.mem with
    hbm := s.mem.hbm.patch (64 * s.placeOf la) (lanesBytes d)
    ctl := Table.mapVals (fun j c => if laSlice la == j then { c with
      held := c.held.filter (fun h => !(h.bankset == laSet la && h.block == laBlock la)) } else c) s.mem.ctl } }

/-- The scrub of the block at the slice's position: a block that R291 clears is written with zero; every other is read, a
corrected one to be written back in the next frame, an uncorrectable one repaired at once (R260, R268). -/
def scrubBlock (s : State) (j : Nat) (errs : List BlockErr) : State :=
  let i := (s.ctl j).scrubNext
  let la := scrubLine j i
  let s := s.scrubStep j
  if s.mem.clearing.any (fun r => inRun r.1 r.2 la) then s.writeLine la [] 1 false
  else
    let r := s.readBlock errs la
    match r.1 with
    | none => (r.2.2.repairBlock errs la).2
    | some d => if r.2.1 then r.2.2.setCtl j { r.2.2.ctl j with scrubWb := some (i, d.1) } else r.2.2

/-- One frame's scrub of slice j: the write-back of a block corrected in the frame before, or the next block. -/
def scrub (s : State) (j : Nat) (errs : List BlockErr) : State :=
  if !s.scrubDue j then s
  else
    let s := s.setCtl j { s.ctl j with scrubFrame := some (s.rotation / 256) }
    match (s.ctl j).scrubWb with
    | some (i, d) => (s.writeBack (scrubLine j i) d).setCtl j { (s.writeBack (scrubLine j i) d).ctl j with scrubWb := none }
    | none => s.scrubBlock j errs

/-! Service accesses (R263, R265, R266, R268, R386). -/

/-- Period p of slice j is booked in the current frame by the running lap of the course that reaches the slice
(R250, R265). -/
def booked (s : State) (j p : Nat) : Bool :=
  match s.ownerOfStack (sliceStack j) with
  | none => false
  | some k =>
    match s.lapCycle k with
    | none => false
    | some c => s.grid.cores.any (fun n => n.2.slot == k && (List.range 3).any (fun sl =>
        let w := n.2.windowAt sl (c / 256)
        Core.winField w 56 48 == j && Core.winField w 47 42 == p))

/-- The now count of the last cycle in which a lap of slot k ran, when the attempt has begun: 25 cc before its boundary,
unless it still runs (R287). -/
def lastRan (s : State) (k : Nat) : Option Nat :=
  match (s.slot k).stage with
  | .running a => some (min s.now (a + s.lapLen k - 1))
  | .aborted _ t => some (t - 1)
  | _ => if (s.slot k).boundaryAt < 25 then none else some ((s.slot k).boundaryAt - 25)

/-- A lap of slot k has run in the frame of this cycle (R266). -/
def ranThisFrame (s : State) (k : Nat) : Bool :=
  match s.lastRan k with | some t => s.now - t ≤ s.rotation % 256 | none => false

/-- The first service access of slice j that the period now may serve: rebuild, Porter, host; a host access to a resident
course's blocks waits for a frame in which the course runs no lap, and a slice being rebuilt serves nothing else (R265,
R266, R270). -/
def nextService (s : State) (j p : Nat) : Option ServiceReq :=
  if s.mem.rebuilds.any (fun r => r.slice == j) then none
  else
    let l := s.mem.service.filter (fun r => laSlice r.la == j && laSet r.la == p % 32
      && !(r.kind == .host && (match s.extentAt r.la with | some (k, _) => s.ranThisFrame k | none => false)))
    let pick (q : ServiceKind) : Option ServiceReq := l.find? (fun r => r.kind == q)
    match pick .rebuild with
    | some r => some r
    | none => match pick .porter with
      | some r => some r
      | none => pick .host

/-- A read of a data command: its line's data, or MEMORY_LOST for a POISON line and for one that no mirror brings back
(R266, R268). -/
def serveRead (s : State) (j : Nat) (r : ServiceReq) (errs : List BlockErr) : State :=
  let put (s : State) (d : Lanes) : State :=
    s.jobLine r.job (fun q => { q with data := spliceBytes q.data (64 * (r.la - q.la)) (lanesBytes d) })
  let lost (s : State) : State := s.jobLine r.job (fun q => { q with status := stMEMORY_LOST })
  if s.poisoned r.la then lost s
  else
    let f := s.fetchBlock j r.la errs
    match f.1 with
    | some d => put f.2 d
    | none =>
      let t := f.2.repairBlock errs r.la
      match t.1 with
      | some d => put t.2 d
      | none => lost t.2

/-- An access to a slice that has been lost since its command was accepted: the command ends with MEMORY_LOST (R386; DEDUCED,
assumption 15). -/
def lostAccess (s : State) (r : ServiceReq) : State :=
  ({ s with mem := { s.mem with service := s.mem.service.erase r } }).jobLine r.job (fun q => { q with status := stMEMORY_LOST })

/-- Serve the first access that the period now may serve: at most one in a period (R248). -/
def serviceAccess (s : State) (j : Nat) (errs : List BlockErr) : State :=
  match s.periodNow with
  | none => s
  | some p =>
    if s.booked j p || !s.stackLive (sliceStack j) || (s.ctl j).servedAt == some s.now then s
    else match s.nextService j p with
      | none => s
      | some r => if (s.sliceEnt j).st == 2 then s.lostAccess r else
        let s := { s with mem := { s.mem with service := s.mem.service.erase r } }
        let s := s.setCtl j { s.ctl j with servedAt := some s.now }
        let s := if r.kind == .host then s.observe 20 (((s.now - r.since) / 256 : Nat) : Int) else s
        if r.write then (s.writeLine r.la (lanesBytes r.data) r.wsrc r.poison).jobLine r.job id
        else s.serveRead j r errs

/-! Losses (R269 to R271). -/

/-- The rebuild of slice j is complete, one block in each period since the substitution: the slice is ACTIVE, and its course
goes on. The map changes between laps alone (R270, R273). -/
def rebuildDone (s : State) (j : Nat) (errs : List BlockErr) : State :=
  match s.mem.rebuilds.find? (fun r => r.slice == j) with
  | none => s
  | some r =>
    if s.now < r.since + 4 * r.blocks || !s.stackAtBoundary (sliceStack j) then s
    else
      let s := s.rebuildBlocks errs j r.slot
      let s := s.setSliceEnt j { s.sliceEnt j with st := 0 }
      let s := { s with mem := { s.mem with rebuilds := s.mem.rebuilds.filter (fun r => r.slice != j) } }
      let s := s.fire (0x100 + j)
      match r.slot with
      | some k => (s.onSlot k (fun x => { x with rebuilding := x.rebuilding.filter (fun i => i != j) })).resume k
      | none => s

end State

/-- MEMORY_REQUEST (R254). -/
def execMemoryRequest (j period : Nat) (s : State) : Host.Outcome State Fault Refusal := .next (if s.stackLive (sliceStack j) then s.memoryRequest j period else s)

/-- EDGE_TRANSFER (R256). -/
def execEdgeTransfer (stack link t : Nat) (err : BitVec 160) (s : State) : Host.Outcome State Fault Refusal :=
  .next (s.edgeTransfer stack link t err)

/-- SLICE_PERIOD (R257). -/
def execSlicePeriod (j : Nat) (errs : List BlockErr) (s : State) : Host.Outcome State Fault Refusal := 
  .next (if s.stackLive (sliceStack j) then s.slicePeriod j errs else s)

/-- READ_DATA_READY (R257). -/
def execReadDataReady (j : Nat) (s : State) : Host.Outcome State Fault Refusal := 
  .next (if s.stackLive (sliceStack j) then s.dataReady j else s)

/-- SCRUB (R260). -/
def execScrub (j : Nat) (errs : List BlockErr) (s : State) : Host.Outcome State Fault Refusal := .next (s.scrub j errs)

/-- SERVICE_ACCESS (R265). -/
def execServiceAccess (j : Nat) (errs : List BlockErr) (s : State) : Host.Outcome State Fault Refusal := .next (s.serviceAccess j errs)

/-- SLICE_PHY_FAULT (R269). -/
def execSlicePhyFault (j : Nat) (s : State) : Host.Outcome State Fault Refusal := .next (s.failSlice j)

/-- REBUILD_COMPLETE (R270). -/
def execRebuildComplete (j : Nat) (errs : List BlockErr) (s : State) : Host.Outcome State Fault Refusal :=
  .next (s.rebuildDone j errs)

/-- STACK_INTERFACE_FAILURE (R271). -/
def execStackInterfaceFailure (stack : Nat) (s : State) : Host.Outcome State Fault Refusal := .next (s.loseStack stack)

end Sys2Proof.Machine
end

