-- ==== Sys2Proof/Machine/Mesh.lean ====
section
/-! DEFINITION. The gate sequence, the reduction ALU and link transfers (R199 to R221, R229, R236). -/
namespace Sys2Proof.Machine
namespace State

/-- Set the register of hold h of router n. -/
def setHold (s : State) (n h : Nat) (f : Flit) : State :=
  let r := s.router n
  s.setRouter n (match h with | 0 => { r with h0 := f } | 1 => { r with h1 := f } | _ => { r with h2 := f })

/-- A hold register that cannot be corrected: a lap fault, and a free value in its place (R229). -/
def holdUpset (n : Nat) (holds : BitVec 3) (s : State) (h : Nat) : State :=
  if holds.getLsbD h then ((s.free 128).2.setHold n h (s.free 128).1).routerFault n Router.fFLIT else s

/-- The hold registers of router n that cannot be corrected in this cycle. -/
def holdUpsets (s : State) (n : Nat) (holds : BitVec 3) : State :=
  if s.routerLive n then [0, 1, 2].foldl (holdUpset n holds) s else s

/-- The end of a run whose entry has control code ctl, in the run's last cycle (R212, R213, R229). err: the physical error
pattern of the next entry's read. -/
def gateEnd (s : State) (n ctl : Nat) (err : BitVec 160) : State :=
  let r := s.router n
  match s.lapCycle r.slot with
  | none => s
  | some c =>
    if !(s.routerLive n && r.running && r.seq.runEnd == c && r.seqNext == none && gateCtl r.current == ctl) then s
    else
      let e := r.endRun c err
      let s := s.setRouter n e.1
      match e.2 with | some code => s.routerFault n code | none => s

/-- An operation of the reduction ALU of router n, when the current entry's AOP is code (R215 to R217); op gets the
injected flits, and bad stands for what the registers then get when the two copies disagree (R216). -/
def aluStep (s : State) (n code : Nat) (mismatch : Bool) (op : Router → Flit → Flit → Router)
    (bad : Flit → Flit → Router → Router) : State :=
  let r := s.router n
  if !s.routerLive n || r.aopNow != code then s
  else
    let r' := op r (s.injected n 0) (s.injected n 1)
    if mismatch then
      let a := s.free 128
      let b := a.2.free 128
      (b.2.setRouter n (bad a.1 b.1 r')).routerFault n Router.fREDUCE
    else s.setRouter n r'

/-- Results that disagree leave free values in the ALU registers. -/
def badResult (a b : Flit) (r : Router) : Router := { r with aluNext := some (a, b) }

/-- Disagreement in the second half of a merge leaves free values in both halves. -/
def badMerge (a b : Flit) (r : Router) : Router := { r with aluNext := some (a, b), top8LateNext := some (b, a) }

/-- One second in cc (R514). -/
def oneSecond : Nat := 1600000000

/-- A fault of router n, which is in no stripe (R229, R514): it is reported to the Porter, DEVICE is driven, and a second one
within a second fails its site. The report carries slot 15, which no course has (DESIGN CHOICE, assumption 34). -/
def idleRouterFault (s : State) (n code : Nat) : State :=
  let site := s.siteFor n
  let recent := s.grid.idleFaults.any (fun x => x.1 == site && s.now < x.2 + oneSecond)
  let s := { s with grid := { s.grid with
    idleFaults := (site, s.now) :: s.grid.idleFaults, deviceDrives := s.now :: s.grid.deviceDrives } }
  let s := s.openReport n true 15 code 0 0
  if recent then s.decideFailed site else s

/-- Latency of the link on which router or ring node n receives from direction d (R207). -/
def linkLat (s : State) (n d : Nat) : Nat :=
  if 0x4000 ≤ n then 2
  else match neighbour s.grid.activeRows n d with
    | some (_, l) => l
    | none => if d % 2 == 1 then 2 else 6

/-- The transfer received now from direction d was driven in a reserved cycle, on transfer 1 (R203). -/
def transomTransfer (s : State) (n d t : Nat) : Bool :=
  t == 1 && s.rinkRun && (s.grid.routerRink + 2 ^ 16 - s.linkLat n d) % 8 == 7

/-- A transom transfer arrives at node n from direction d (R201, R224): one that cannot be corrected is discarded with its
whole message, and counted. -/
def receiveTransom (s : State) (n d : Nat) (err : BitVec 160) : State :=
  let take (s : State) (e : BitVec 128) : State :=
    { s with grid := { s.grid with transom := s.grid.transom.receive s.now n d e } }
  match rsDecode (errSymbols err) with
  | .clean l => take s (residualFlit l)
  | .corrected l => take s.countCorrected (residualFlit l)
  | .failed =>
    { s with grid := { s.grid with
      transomDrops := satAdd 32 s.grid.transomDrops 1, transom := s.grid.transom.drop s.now n d } }.evidenceAll

/-- The scheduled flit on its way to input port p of router n in this cycle; zero when none was driven (R202). -/
def incoming (s : State) (n p : Nat) : Flit :=
  match (s.router n).arriving.find? (fun a => a.due == s.now && a.port == p) with | some a => a.flit | none => 0

/-- Router n has flit f on input port p in this cycle, when a lap of its course runs. -/
def putInput (s : State) (n p : Nat) (f : Flit) : State :=
  if s.routerLive n && Table.has n s.grid.routers then
    s.setRouter n { s.router n with inputs := Table.put p f (s.router n).inputs }
  else s

/-- A scheduled transfer arrives at router n from direction d (R201, R229). -/
def receiveScheduled (s : State) (n d t : Nat) (err : BitVec 160) : State :=
  let p := 2 * d + t
  let f := s.incoming n p
  match rsDecode (errSymbols err) with
  | .clean l => s.putInput n p (f ^^^ residualFlit l)
  | .corrected l => s.countCorrected.putInput n p (f ^^^ residualFlit l)
  | .failed =>
    let v := s.free 128
    let s := { v.2 with grid := { v.2.grid with
      linkUncorrectable := satAdd 64 v.2.grid.linkUncorrectable 1 } }.putInput n p v.1
    if Table.has n s.grid.routers then s.routerFault n Router.fFLIT else s.idleRouterFault n Router.fFLIT

/-- A link transfer arrives at router n from direction d (R201, R224, R229, R236). Across a stripe boundary scheduled
transfers are not decoded; transom transfers pass. A node of a ring receives transom transfers alone. -/
def receiveLink (s : State) (n d t : Nat) (err : BitVec 160) : State :=
  if s.transomTransfer n d t then s.receiveTransom n d err
  else if 0x2800 ≤ n || s.grid.activeRows ≤ coreY n || s.leavesStripe n d then s
  else s.receiveScheduled n d t err

end State

/-- GATE_NEXT (R212). -/
def execGateNext (n : Nat) (err : BitVec 160) (holds : BitVec 3) (s : State) : Host.Outcome State Fault Refusal :=
  .next ((s.gateEnd n 0 err).holdUpsets n holds)

/-- GATE_ENDA (R212). -/
def execGateEnda (n : Nat) (err : BitVec 160) (holds : BitVec 3) (s : State) : Host.Outcome State Fault Refusal :=
  .next ((s.gateEnd n 1 err).holdUpsets n holds)

/-- GATE_ENDB (R212). -/
def execGateEndb (n : Nat) (err : BitVec 160) (holds : BitVec 3) (s : State) : Host.Outcome State Fault Refusal :=
  .next ((s.gateEnd n 2 err).holdUpsets n holds)

/-- GATE_STOP (R212). -/
def execGateStop (n : Nat) (err : BitVec 160) (holds : BitVec 3) (s : State) : Host.Outcome State Fault Refusal :=
  .next ((s.gateEnd n 3 err).holdUpsets n holds)

/-- ADD (R218). -/
def execAdd (n : Nat) (mismatch : Bool) (holds : BitVec 3) (s : State) : Host.Outcome State Fault Refusal :=
  .next ((s.aluStep n 1 mismatch Router.aluOp State.badResult).holdUpsets n holds)

/-- MAX_IDX (R219). -/
def execMaxIdx (n : Nat) (mismatch : Bool) (holds : BitVec 3) (s : State) : Host.Outcome State Fault Refusal :=
  .next ((s.aluStep n 2 mismatch Router.aluOp State.badResult).holdUpsets n holds)

/-- MIN_IDX (R219). -/
def execMinIdx (n : Nat) (mismatch : Bool) (holds : BitVec 3) (s : State) : Host.Outcome State Fault Refusal :=
  .next ((s.aluStep n 3 mismatch Router.aluOp State.badResult).holdUpsets n holds)

/-- TOP8_FIRST (R220). -/
def execTop8First (n : Nat) (mismatch : Bool) (holds : BitVec 3) (s : State) : Host.Outcome State Fault Refusal :=
  .next ((s.aluStep n 4 mismatch Router.top8First (fun _ _ r => r)).holdUpsets n holds)

/-- TOP8_SECOND (R220). -/
def execTop8Second (n : Nat) (mismatch : Bool) (holds : BitVec 3) (s : State) : Host.Outcome State Fault Refusal :=
  .next ((s.aluStep n 5 mismatch Router.top8Second State.badMerge).holdUpsets n holds)

/-- LINK_TRANSFER (R201). -/
def execLinkTransfer (n dir t : Nat) (err : BitVec 160) (holds : BitVec 3) (s : State) : Host.Outcome State Fault Refusal :=
  .next ((s.receiveLink n dir t err).holdUpsets n holds)

end Sys2Proof.Machine
end

