-- ==== Sys2Proof/Machine/Port.lean ====
section
/-! DEFINITION. The commands of the host ports themselves: writes of the aperture, the control page and the MSI-X table,
the posting of responses, and what happens to a port and its link (R375 to R380, R387, R390 to R398, R560, R565). -/
namespace Sys2Proof.Machine

/-- Bytes of BAR0, and the start of its control page (R377). -/
def bar0Size : Nat := 0x800000
def controlPage : Nat := 0x400000

namespace State

/-! Aperture writes (R375, R378 to R380, R398). -/

/-- A memory write reaches port p: the port exists, its link is in L0, and the function is not in D3hot. -/
def reached (s : State) (p : Nat) : Bool := decide (p < 2) && (s.port p).linkUp && !(s.port p).d3hot

/-- Drop a write request and count it. -/
def dropWrite (s : State) (p : Nat) : State := s.onPort p (fun q => { q with drops := satAdd 32 q.drops 1 })

/-- A write arrives inside a stream of port p that is Secure and, when it is selective, covers its address. -/
def arrivesSecure (q : Port) : WriteVia → Bool
  | .plain => false
  | .link => q.ideSecure
  | .selective n covers => covers && q.selSecure.contains n

/-- A write that IDE_REQUIRED does not allow. -/
def notSecure (s : State) (p : Nat) (via : WriteVia) : Bool := (s.port p).ideRequired && !arrivesSecure (s.port p) via

/-- Window w of port p takes writes. -/
def windowFree (s : State) (p w : Nat) : Bool := decide (w < 32) && (s.port p).bufFree.getLsbD w

/-- Bytes written into window w at offset o: the header, then the payload; bytes beyond both are of no packet. -/
def windowWrite (x : Window) (o : Nat) (bytes : List Byte) : Window :=
  let all := spliceBytes (sliceBytes x.header 0 64 ++ x.payload) o bytes
  ⟨all.take 64, (all.drop 64).take 65536⟩

/-- POST of window w (R378). -/
def postWindow (s : State) (p w value : Nat) : State :=
  if s.windowFree p w then
    s.onPort p (fun q => { q with bufFree := q.bufFree &&& ~~~(1#32 <<< w), posted := q.posted ++ [(w, value)] })
  else s.dropWrite p

/-- A write of RETURN_BASE or (size) RETURN_SIZE: it takes effect only while the port is QUIESCENT (R380). -/
def writeReturnArea (s : State) (p : Nat) (size : Bool) (v : Nat) : State :=
  if s.quiescent p then
    s.onPort p (fun q => { q with
      returnBase := if size then q.returnBase else v, returnSize := if size then v else q.returnSize
      returnHead := 0, returnTail := 0 })
  else s.dropWrite p

/-- RETURN_HEAD. -/
def writeReturnHead (s : State) (p v : Nat) : State := s.onPort p (fun q => { q with returnHead := v })

/-- SEAL_HEAD. -/
def writeSealHead (s : State) (p v : Nat) : State := s.onPort p (fun q => { q with sealHead := v })

/-- A write of one of the control page's registers, whole; any other write there has no effect. -/
def controlWrite (s : State) (p o : Nat) (bytes : List Byte) : State :=
  if bytes.length != 8 then s
  else match o with
    | 0x008 => s.writeReturnArea p false (ofLE bytes)
    | 0x010 => s.writeReturnArea p true (ofLE bytes)
    | 0x018 => s.writeReturnHead p (ofLE bytes)
    | 0x030 => s.writeSealHead p (ofLE bytes)
    | _ => s

/-- PORT_STATUS of port p (R380, R398). -/
def portStatus (s : State) (p : Nat) : Nat :=
  let q := s.port p
  (s.quiescent p).toNat + 2 * q.returnWait.toNat + 4 * q.ideSecure.toNat

/-- What a read of a control page register of port p returns; such a read changes nothing (R380). -/
def controlRead (s : State) (p o : Nat) : Nat :=
  let q := s.port p
  match o with
  | 0x000 => q.bufFree.toNat
  | 0x008 => q.returnBase
  | 0x010 => q.returnSize
  | 0x018 => q.returnHead
  | 0x020 => q.returnTail
  | 0x028 => q.rseqLast
  | 0x030 => q.sealHead
  | 0x038 => q.sealTail
  | 0x040 => s.portStatus p
  | 0x048 => q.drops
  | _ => 0

/-- An MSI-X table entry as 16 bytes, and back. -/
def msixBytes (e : MsixEntry) : List Byte := leBytes 8 e.addr ++ leBytes 4 e.data ++ leBytes 4 e.masked.toNat
def msixOf (b : List Byte) : MsixEntry := ⟨fieldLE b 0 8, fieldLE b 8 4, fieldLE b 12 1 % 2 == 1⟩

/-- Vector v of port p is sent if it is pending and may be sent now. -/
def sendPending (s : State) (p v : Nat) : State :=
  let q := s.port p
  if q.pba.getLsbD v && q.msixEnable && !q.msixMaskAll && !(Table.get ⟨0, 0, true⟩ v q.msix).masked && s.portSends p then
    (s.onPort p (fun q => { q with pba := q.pba &&& ~~~(1#64 <<< v) })).msix p v
  else s

/-- A write into entry v of the MSI-X table; a vector that is pending when it is unmasked is sent. -/
def msixWrite (s : State) (p v o : Nat) (bytes : List Byte) : State :=
  let q := s.port p
  let e := msixOf ((spliceBytes (msixBytes (Table.get ⟨0, 0, true⟩ v q.msix)) o bytes).take 16)
  let s := s.setPort p { q with msix := Table.put v e q.msix }
  s.sendPending p v

/-- A write of BAR2: the table lies at 0, the pending-bit array is read-only. -/
def bar2Write (s : State) (p o : Nat) (bytes : List Byte) : State :=
  if o + bytes.length ≤ 1024 && o / 16 == (o + bytes.length - 1) / 16 then s.msixWrite p (o / 16) (o % 16) bytes else s

/-- The registers of the control page as bytes; an offset of no register reads as zero (R380). -/
def controlBytes (s : State) (p : Nat) : List Byte := (List.range 512).flatMap (fun i => leBytes 8 (s.controlRead p (8 * i)))

/-- What a read of n bytes of BAR0 from an offset returns: the windows, and all that is not the control page, read as zero
(R377, R378). Such a read changes nothing. -/
def bar0Read (s : State) (p off n : Nat) : List Byte :=
  (List.range n).map (fun i =>
    if controlPage ≤ off + i && off + i < controlPage + 4096 then (s.controlBytes p).getD (off + i - controlPage) 0 else 0)

/-- BAR2 as bytes: the MSI-X table, and the pending-bit array at 0x8000; the rest reads as zero (R377). -/
def bar2Byte (s : State) (p i : Nat) : Byte :=
  let q := s.port p
  if i < 1024 then (msixBytes (Table.get ⟨0, 0, true⟩ (i / 16) q.msix)).getD (i % 16) 0
  else if 0x8000 ≤ i && i < 0x8008 then (leBytes 8 q.pba.toNat).getD (i - 0x8000) 0
  else 0

/-- What a read of n bytes of BAR2 from an offset returns; such a read changes nothing. -/
def bar2Read (s : State) (p off n : Nat) : List Byte := (List.range n).map (fun i => s.bar2Byte p (off + i))

/-- A memory write of the host at an offset; BAR2 follows BAR0 in the model's offsets. -/
def apertureWrite (s : State) (p off : Nat) (bytes : List Byte) (via : WriteVia) : State :=
  if !s.reached p || bytes.isEmpty then s
  else if s.notSecure p via then s.dropWrite p
  else if off < controlPage then
    let w := off / 0x20000
    let o := off % 0x20000
    if !s.windowFree p w then s.dropWrite p
    else if o == 0x1FFF8 && bytes.length == 8 then s.postWindow p w (ofLE bytes)
    else s.onPort p (fun q => { q with
      windows := Table.put w (windowWrite (Table.get ⟨[], []⟩ w q.windows) o bytes) q.windows })
  else if off < controlPage + 4096 then s.controlWrite p (off - controlPage) bytes
  else if off < bar0Size then s
  else s.bar2Write p (off - bar0Size) bytes

/-- A write that arrives over the port's link stream. -/
def arrives (s : State) (p : Nat) (f : State → State) : State :=
  if !s.reached p then s else if s.notSecure p .link then s.dropWrite p else f s

/-! Responses (R390 to R392, R454). -/

/-- The response of port p that is posted next answers the accepted DEVICE_RESET write. -/
def answersReset (s : State) (p : Nat) : Bool :=
  match s.start.resetAsked, (s.port p).responses.find? Response.postable with
  | some (_, q), some r => q == p && r.opcode == 2 && r.status == stOK
  | _, _ => false

/-- Post the next response of port p; the response to a DEVICE_RESET write begins the reset. -/
def postNext (s : State) (p : Nat) : State :=
  let t := s.postResponse p
  if s.answersReset p && (t.port p).responses.length < (s.port p).responses.length then t.beginDeviceReset else t

/-! The port and its link (R375, R397, R398, R560, R565). -/

/-- The link of port p may train: PORTER is ON, the port's domain is ON with its pads released, and PERST_N is high. -/
def portTrains (s : State) (p : Nat) : Bool :=
  s.porterOn && s.isOn (28 + p) && !(s.domain (28 + p)).padsHeld && !(s.port p).perst

/-- The link of port p reaches L0 (R560). -/
def linkUp (s : State) (p width : Nat) : State :=
  if 2 ≤ p || (s.port p).linkUp || !s.portTrains p || !(width == 4 || width == 8 || width == 16) then s
  else s.onPort p (fun q => { q with linkUp := true, linkWidth := width, configLoaded := false })

/-- The Porter has loaded the function's configuration space; the model takes the host to enable MSI-X there, and to set
Max_Payload_Size to 128 · 2^payload bytes when that is supported (R375; DESIGN CHOICE, assumption 7). -/
def configured (s : State) (p payload : Nat) : State :=
  if p < 2 && (s.port p).linkUp && s.porterOn then
    s.onPort p (fun q => { q with
      configLoaded := true, msixEnable := true, maxPayload := if payload < 3 then 128 * 2 ^ payload else q.maxPayload })
  else s

/-- FLR of port p, by a host that can reach its configuration space. -/
def flr (s : State) (p : Nat) : State :=
  if p < 2 && (s.port p).linkUp && (s.port p).configLoaded then s.portReset p false else s

/-- The link of port p is lost. -/
def linkLoss (s : State) (p : Nat) : State := if p < 2 && (s.port p).linkUp then s.portReset p true else s

/-- PERST_N of port p goes low: a link loss of that port. -/
def perstFalls (s : State) (p : Nat) : State :=
  if 2 ≤ p || (s.port p).perst then s else (s.portReset p true).onPort p (fun q => { q with perst := true })

/-- PERST_N of port p goes high. -/
def perstRises (s : State) (p : Nat) : State := if p < 2 then s.onPort p (fun q => { q with perst := false }) else s

/-- A stream of port p (0: link, 1 to 4: selective) is Secure. -/
def streamSecure (q : Port) (stream : Nat) : Bool := if stream == 0 then q.ideSecure else q.selSecure.contains stream

/-- An integrity failure of a stream of port p takes it to Insecure; the port executes nothing until it has a new key
(R398). -/
def ideFails (s : State) (p stream : Nat) : State :=
  if p < 2 && streamSecure (s.port p) stream then
    let x := Table.get ⟨[], []⟩ p s.sec.ide
    let s := { s with sec := { s.sec with
      ide := Table.put p ⟨x.programmed.filter (fun n => n != stream), x.active.filter (fun n => n != stream)⟩ s.sec.ide
      installed := s.sec.installed.filter (fun k => k != ideKey p stream) } }
    (s.onPort p (fun q => { q with
      ideSecure := q.ideSecure && stream != 0
      selSecure := q.selSecure.filter (fun n => n != stream)
      ideBroken := stream :: q.ideBroken
      ideFails := satAdd 32 q.ideFails 1 })).fire (0x28 + p)
  else s

/-- The function of port p moves between D0 and D3hot. -/
def d3hotMoves (s : State) (p : Nat) (enter : Bool) : State :=
  if p < 2 && (s.port p).linkUp && (s.port p).configLoaded then s.onPort p (fun q => { q with d3hot := enter }) else s

/-- The grace of a takeover of slot k ends without a denial: ownership moves (R395). -/
def graceEnds (s : State) (k : Nat) : State :=
  match (s.slot k).takeover with
  | some (t, since) =>
    if k < 8 && since + 1600000 * s.takeoverGrace ≤ s.now then (s.moveOwner k t.port).answerTakeover k stOK else s
  | none => s

end State

/-- APERTURE_WRITE (R378). -/
def execApertureWrite (p off : Nat) (bytes : List Byte) (via : WriteVia) (s : State) : Host.Outcome State Fault Refusal :=
  .next (s.apertureWrite p off bytes via)

/-- POST (R378). -/
def execPost (p w : Nat) (value : BitVec 64) (via : WriteVia) (s : State) : Host.Outcome State Fault Refusal :=
  .next (if w < 32 then s.apertureWrite p (0x20000 * w + 0x1FFF8) (leBytes 8 value.toNat) via else s)

/-- RETURN_AREA_WRITE (R380). -/
def execReturnAreaWrite (p : Nat) (size : Bool) (value : BitVec 64) (s : State) : Host.Outcome State Fault Refusal :=
  .next (s.arrives p (fun s => s.writeReturnArea p size value.toNat))

/-- RETURN_HEAD (R380). -/
def execReturnHead (p : Nat) (value : BitVec 64) (s : State) : Host.Outcome State Fault Refusal :=
  .next (s.arrives p (fun s => s.writeReturnHead p value.toNat))

/-- SEAL_HEAD (R387). -/
def execSealHead (p : Nat) (value : BitVec 64) (s : State) : Host.Outcome State Fault Refusal :=
  .next (s.arrives p (fun s => s.writeSealHead p value.toNat))

/-- RESPONSE_POST (R390). -/
def execResponsePost (p : Nat) (s : State) : Host.Outcome State Fault Refusal :=
  .next (if p < 2 && s.porterOn then s.postNext p else s)

/-- FLR (R397). -/
def execFlr (p : Nat) (s : State) : Host.Outcome State Fault Refusal := .next (s.flr p)

/-- PCIE_LINK_LOSS (R397). -/
def execPcieLinkLoss (p : Nat) (s : State) : Host.Outcome State Fault Refusal := .next (s.linkLoss p)

/-- PERST_N (R565). -/
def execPerstN (p : Nat) (s : State) : Host.Outcome State Fault Refusal := .next (s.perstFalls p)

/-- PERST_N_RELEASE (R565). -/
def execPerstNRelease (p : Nat) (s : State) : Host.Outcome State Fault Refusal := .next (s.perstRises p)

/-- PCIE_LINK_UP (R560). -/
def execPcieLinkUp (p width : Nat) (s : State) : Host.Outcome State Fault Refusal := .next (s.linkUp p width)

/-- CONFIG_SPACE_LOADED (R560). -/
def execConfigSpaceLoaded (p : Nat) (payload : BitVec 2) (s : State) : Host.Outcome State Fault Refusal :=
  .next (s.configured p payload.toNat)

/-- IDE_INTEGRITY_FAILURE (R398). -/
def execIdeIntegrityFailure (p stream : Nat) (s : State) : Host.Outcome State Fault Refusal := .next (s.ideFails p stream)

/-- TAKEOVER_GRACE_EXPIRY (R395). -/
def execTakeoverGraceExpiry (k : Nat) (s : State) : Host.Outcome State Fault Refusal := .next (s.graceEnds k)

/-- D3HOT_TRANSITION (R375). -/
def execD3hotTransition (p : Nat) (enter : Bool) (s : State) : Host.Outcome State Fault Refusal := .next (s.d3hotMoves p enter)

end Sys2Proof.Machine
end

