-- ==== Sys2Proof/Machine/Spdm.lean ====
section
/-! DEFINITION. The SPDM responder, IDE_KM and DOE Discovery, at the level of messages: a request is answered with its
response code and what the manual says the answer holds (R399, R532, R539 to R541, R548; assumption 8). -/
namespace Sys2Proof.Machine

/-- SPDM ERROR codes: InvalidRequest, UnexpectedRequest, Unspecified (assumption 8: PRESUMED, DSP0274). -/
def eINVALID : Nat := 1
def eUNEXPECTED : Nat := 4
def eUNSPECIFIED : Nat := 5

namespace State

/-- The answer to a management or SPDM message. -/
def answerMsg (s : State) (b : List Byte) : State := { s with dict := { s.dict with reply := b } }

/-- SPDM ERROR with a code. -/
def spdmError (s : State) (code : Nat) : State := s.answerMsg (leBytes 1 0x7F ++ leBytes 1 code)

/-- A response: its code and contents. -/
def spdmAnswer (s : State) (code : Nat) (b : List Byte) : State := s.answerMsg (leBytes 1 code ++ b)

/-- The responder endpoint ep: the DOE mailbox of port A or B, or MCTP. -/
def endpoint (s : State) (ep : Nat) : Spdm := Table.get Spdm.fresh ep s.sec.spdm
def setEndpoint (s : State) (ep : Nat) (x : Spdm) : State := { s with sec := { s.sec with spdm := Table.put ep x s.sec.spdm } }

/-- Requests reach the responder: PORTER and SECURE are ON, and a mailbox's port is reached. -/
def respondsAt (s : State) (ep : Nat) : Bool := s.porterOn && s.isOn 1 && (ep == 2 || s.reached ep)

/-- Answer a request that needs what has been negotiated. -/
def negotiated (s : State) (ep : Nat) (f : State → State) : State :=
  if !s.respondsAt ep then s else if !(s.endpoint ep).algsDone then s.spdmError eUNEXPECTED else f s

/-- Answer a request that needs a secured session. -/
def inSession (s : State) (ep : Nat) (f : State → State) : State :=
  if !s.respondsAt ep then s else if !(s.endpoint ep).session then s.spdmError eUNEXPECTED else f s

/-- A response that needs a fresh value of the DRBG and a signature (R532, R548): it waits for both. -/
def signedAnswer (s : State) (kind ep : Nat) (head tail : List Byte) : State :=
  if s.sec.identity == 2 || s.ent.st == .fatal then s.spdmError eUNSPECIFIED
  else { s with ent := { s.ent with drbgQueue := s.ent.drbgQueue ++ [⟨kind, ep, head, tail, true⟩] } }

/-- The certificate chain in use. -/
def certChain : List Byte := (leBytes 8192 Config.certChain.toNat).take (min 8192 Config.certChainLen.toNat)

/-- GET_VERSION begins a connection (R539): versions 1.2 and 1.3. -/
def spdmVersion (s : State) (ep : Nat) : State :=
  if !s.respondsAt ep then s else (s.setEndpoint ep { Spdm.fresh with version := 1 }).spdmAnswer 0x04 [0x12, 0x13]

/-- GET_CAPABILITIES: certificates, challenge, measurements with signatures, key exchange, key update, heartbeat; no PSK, no
mutual authentication. -/
def spdmCapabilities (s : State) (ep : Nat) : State :=
  let e := s.endpoint ep
  if !s.respondsAt ep then s
  else if e.version == 0 then s.spdmError eUNEXPECTED
  else (s.setEndpoint ep { e with capsDone := true }).spdmAnswer 0x61 [0xD6, 0x62, 0x00, 0x00]

/-- NEGOTIATE_ALGORITHMS: ECDSA P-384, SHA-384, secp384r1, AES-256-GCM. -/
def spdmAlgorithms (s : State) (ep : Nat) : State :=
  let e := s.endpoint ep
  if !s.respondsAt ep then s
  else if !e.capsDone then s.spdmError eUNEXPECTED
  else (s.setEndpoint ep { e with algsDone := true }).spdmAnswer 0x63 [0x80, 0x02, 0x10, 0x02]

/-- GET_DIGESTS: slot 0 only. -/
def spdmDigests (s : State) : State := s.spdmAnswer 0x01 ([0x01] ++ sha384 certChain)

/-- GET_CERTIFICATE: a portion of slot 0's chain, and how much remains. -/
def spdmCertificate (slot off len : Nat) (s : State) : State :=
  if slot != 0 || certChain.length ≤ off then s.spdmError eINVALID
  else
    let b := (certChain.drop off).take len
    s.spdmAnswer 0x02 (leBytes 2 b.length ++ leBytes 2 (certChain.length - off - b.length) ++ b)

/-- Measurement block n (R540). -/
def measurement (s : State) (n : Nat) : Option (List Byte) :=
  match n with
  | 1 => some (leBytes 48 Config.firmwareDigest.toNat)
  | 2 => some (leBytes 2 s.flash.fwSvn ++ leBytes 2 s.flash.fwSvnMin)
  | 3 => some s.flash.recordDigest
  | 4 => some (sha384 (leBytes 1 s.flash.signedRequired.toNat ++ leBytes 1 s.flash.securityLock.toNat
      ++ (List.range 8).flatMap (fun k => sliceBytes (Table.get [] k s.flash.imageKeys) 0 97)))
  | 5 => some (leBytes 1 s.det.strict.toNat ++ leBytes 1 s.det.strictLock.toNat ++ leBytes 1 s.dict.debugEnable.toNat
      ++ leBytes 1 s.dict.debugLock.toNat)
  | _ =>
    if 0x10 ≤ n && n ≤ 0x17 then
      let x := s.slot (n - 0x10)
      some (if x.st == .empty then List.replicate 48 0 else sliceBytes x.info.imageDigest 0 48)
    else none

/-- The numbers of the measurement blocks. -/
def measurementList : List Nat := [1, 2, 3, 4, 5] ++ (List.range 8).map (fun k => 0x10 + k)

/-- One block as it stands in a response: its number and value. -/
def measurementBlock (s : State) (n : Nat) : List Byte :=
  match s.measurement n with
  | some b => leBytes 1 n ++ leBytes 2 b.length ++ b
  | none => []

/-- GET_MEASUREMENTS: index 0 asks for the number of blocks, 0xFF for all of them. -/
def spdmMeasurements (ep index : Nat) (signed : Bool) (nonce : List Byte) (s : State) : State :=
  let blocks : Option (List Byte) :=
    if index == 0 then some (leBytes 1 measurementList.length)
    else if index == 0xFF then some (measurementList.flatMap s.measurementBlock)
    else if (s.measurement index).isSome then some (s.measurementBlock index)
    else none
  match blocks with
  | none => s.spdmError eINVALID
  | some b => if signed then s.signedAnswer 0 ep ([0x60] ++ b) nonce else s.spdmAnswer 0x60 b

/-- CHALLENGE: the chain's digest, a fresh nonce, signed over the requester's nonce. -/
def spdmChallenge (ep slot : Nat) (nonce : List Byte) (s : State) : State :=
  if slot != 0 then s.spdmError eINVALID else s.signedAnswer 0 ep ([0x03] ++ sha384 certChain) nonce

/-- KEY_EXCHANGE: a fresh DHE key, signed; the session's handshake begins. -/
def spdmKeyExchange (ep slot : Nat) (bytes : List Byte) (s : State) : State :=
  if slot != 0 then s.spdmError eINVALID
  else if s.sec.identity == 2 || s.ent.st == .fatal then s.spdmError eUNSPECIFIED
  else (s.setEndpoint ep { s.endpoint ep with handshake := true, session := false }).signedAnswer 1 ep [0x64] bytes

/-- FINISH: the handshake ends in a secured session. -/
def spdmFinish (ep : Nat) (s : State) : State :=
  let e := s.endpoint ep
  if e.handshake then (s.setEndpoint ep { e with handshake := false, session := true }).spdmAnswer 0x65 []
  else s.spdmError eUNEXPECTED

/-- END_SESSION. -/
def spdmEnd (ep : Nat) (s : State) : State :=
  (s.setEndpoint ep { s.endpoint ep with session := false }).spdmAnswer 0x6C []

/-- An IDE_KM message other than those that program and activate keys: QUERY is answered with the port's capabilities, whose
contents the manual does not give; any other object is invalid. -/
def ideQuery (ep : Nat) (bytes : List Byte) (s : State) : State :=
  if ep < 2 && bytes.head? == some 0 then
    let v := s.free 64
    v.2.spdmAnswer 0x7E ([0x01] ++ leBytes 8 v.1.toNat)
  else s.spdmError eINVALID

/-- The IDE keys of port p. -/
def ideKeys (s : State) (p : Nat) : IdeKeys := Table.get ⟨[], []⟩ p s.sec.ide
def setIdeKeys (s : State) (p : Nat) (x : IdeKeys) : State := { s with sec := { s.sec with ide := Table.put p x s.sec.ide } }

/-- KEY_PROG: a key for a stream (0: the link stream, 1 to 4: a selective stream, R375) is accepted and its install asked for;
outside a secured session of the port's own mailbox, and for a stream the port has not, the status is "unsupported" (R541,
R547). -/
def keyProg (s : State) (ep slot : Nat) : State :=
  if !s.respondsAt ep then s
  else if 2 ≤ ep || !(s.endpoint ep).session || 4 < slot then s.spdmAnswer 0x7E [0x03, 0x03]
  else
    let x := s.ideKeys ep
    let s := s.setIdeKeys ep { x with programmed := if x.programmed.contains slot then x.programmed else x.programmed ++ [slot] }
    ({ s with sec := { s.sec with installs := if s.sec.installs.contains (ideKey ep slot) then s.sec.installs else s.sec.installs ++ [ideKey ep slot] } }).spdmAnswer
      0x7E [0x03, 0x00]

/-- A stream of port q has a new key in use: it is Secure (R398). -/
def secureStream (q : Port) (stream : Nat) : Port :=
  { q with
    ideSecure := q.ideSecure || stream == 0
    selSecure := if stream == 0 || q.selSecure.contains stream then q.selSecure else stream :: q.selSecure
    ideBroken := q.ideBroken.filter (fun n => n != stream) }

/-- K_SET_GO: the programmed key becomes active, and its stream is Secure once the key is installed. Vectors that waited for
the link stream are sent. -/
def keySetGo (s : State) (ep slot : Nat) : State :=
  if !s.respondsAt ep then s
  else if 2 ≤ ep || !(s.endpoint ep).session then s.spdmError eUNEXPECTED
  else
    let x := s.ideKeys ep
    if !x.programmed.contains slot || !s.sec.installed.contains (ideKey ep slot) then s.spdmAnswer 0x7E [0x06, 0x01]
    else
      let s := s.setIdeKeys ep { x with active := if x.active.contains slot then x.active else x.active ++ [slot] }
      let s := s.onPort ep (fun q => secureStream q slot)
      ((List.range 64).foldl (fun s v => s.sendPending ep v) s).spdmAnswer 0x7E [0x06, 0x00]

/-- An object on the mailbox of port p, named by its vendor in bits [15:0] and its type in bits [23:16]. DOE Discovery answers
with PCI-SIG, an object type, and the next index. The objects of CMA/SPDM and Secured CMA/SPDM (types 1 and 2) are commands of
their own. Any other protocol is answered as unsupported: an answer without contents (R399; DESIGN CHOICE, assumption 8). -/
def doeDiscovery (s : State) (p : Nat) (object : BitVec 32) (index : Nat) : State :=
  if !s.reached p then s
  else if object == 0x10001 || object == 0x20001 then s
  else if object != 1 then s.answerMsg []
  else if index ≤ 2 then s.answerMsg (leBytes 2 1 ++ leBytes 1 index ++ leBytes 1 ((index + 1) % 3))
  else s.answerMsg (leBytes 2 0xFFFF ++ [0, 0])

end State

/-- GET_VERSION (R539). -/
def execGetVersion (ep : Nat) (s : State) : Host.Outcome State Fault Refusal := .next (s.spdmVersion ep)

/-- GET_CAPABILITIES (R539). -/
def execGetCapabilities (ep : Nat) (s : State) : Host.Outcome State Fault Refusal := .next (s.spdmCapabilities ep)

/-- NEGOTIATE_ALGORITHMS (R539). -/
def execNegotiateAlgorithms (ep : Nat) (s : State) : Host.Outcome State Fault Refusal := .next (s.spdmAlgorithms ep)

/-- GET_DIGESTS (R539). -/
def execGetDigests (ep : Nat) (s : State) : Host.Outcome State Fault Refusal := .next (s.negotiated ep State.spdmDigests)

/-- GET_CERTIFICATE (R539). -/
def execGetCertificate (ep slot off len : Nat) (s : State) : Host.Outcome State Fault Refusal :=
  .next (s.negotiated ep (State.spdmCertificate slot off len))

/-- CHALLENGE (R539). -/
def execChallenge (ep slot : Nat) (nonce : List Byte) (s : State) : Host.Outcome State Fault Refusal :=
  .next (s.negotiated ep (State.spdmChallenge ep slot nonce))

/-- GET_MEASUREMENTS (R540). -/
def execGetMeasurements (ep index : Nat) (signed : Bool) (nonce : List Byte) (s : State) : Host.Outcome State Fault Refusal :=
  .next (s.negotiated ep (State.spdmMeasurements ep index signed nonce))

/-- KEY_EXCHANGE (R539). -/
def execKeyExchange (ep slot : Nat) (bytes : List Byte) (s : State) : Host.Outcome State Fault Refusal :=
  .next (s.negotiated ep (State.spdmKeyExchange ep slot bytes))

/-- FINISH (R539). -/
def execFinish (ep : Nat) (s : State) : Host.Outcome State Fault Refusal := .next (s.negotiated ep (State.spdmFinish ep))

/-- HEARTBEAT (R539). -/
def execHeartbeat (ep : Nat) (s : State) : Host.Outcome State Fault Refusal :=
  .next (s.inSession ep (fun s => s.spdmAnswer 0x68 []))

/-- KEY_UPDATE (R539). -/
def execKeyUpdate (ep : Nat) (s : State) : Host.Outcome State Fault Refusal :=
  .next (s.inSession ep (fun s => s.spdmAnswer 0x69 []))

/-- END_SESSION (R539). -/
def execEndSession (ep : Nat) (s : State) : Host.Outcome State Fault Refusal := .next (s.inSession ep (State.spdmEnd ep))

/-- VENDOR_DEFINED_REQUEST (R539). -/
def execVendorDefinedRequest (ep : Nat) (bytes : List Byte) (s : State) : Host.Outcome State Fault Refusal :=
  .next (s.inSession ep (State.ideQuery ep bytes))

/-- KEY_PROG (R541). -/
def execKeyProg (ep slot : Nat) (s : State) : Host.Outcome State Fault Refusal := .next (s.keyProg ep slot)

/-- K_SET_GO (R541). -/
def execKSetGo (ep slot : Nat) (s : State) : Host.Outcome State Fault Refusal := .next (s.keySetGo ep slot)

/-- DOE_DISCOVERY (R399). -/
def execDoeDiscovery (p : Nat) (object : BitVec 32) (index : Nat) (s : State) : Host.Outcome State Fault Refusal :=
  .next (s.doeDiscovery p object index)

end Sys2Proof.Machine
end

