-- ==== Sys2Proof/Machine/Mgmt.lean ====
section
/-! DEFINITION. MCTP control messages and I3C addressing on the management bus (R447, R448; assumption 8). -/
namespace Sys2Proof.Machine
namespace State

/-- Set Endpoint ID: IDs 0 and 0xFF are no endpoint's. -/
def setEid (s : State) (eid : Nat) : State :=
  if eid == 0 || eid == 0xFF then s.answerMsg [0x02]
  else ({ s with dict := { s.dict with endpointId := eid } }).answerMsg ([0, 0] ++ leBytes 1 eid ++ [0])

/-- Get Endpoint ID. -/
def getEid (s : State) : State := s.answerMsg ([0] ++ leBytes 1 s.dict.endpointId ++ [0, 0])

/-- Get MCTP Version Support: version 1.3. -/
def mctpVersion (s : State) : State := s.answerMsg [0, 1, 0xF1, 0xF3, 0xFF, 0x00]

/-- Get Message Type Support: control, SPDM, vendor-defined (PCI). -/
def mctpTypes (s : State) : State := s.answerMsg [0, 3, 0x00, 0x05, 0x7E]

/-- Get Vendor Defined Message Support: the device's PCI vendor ID, the last entry. -/
def mctpVendor (s : State) : State := s.answerMsg ([0, 0xFF, 0] ++ beBytes 2 Config.pciVendorId.toNat ++ [0, 0])

/-- The device has no dynamic address yet and takes one (R448). -/
def takeAddress (s : State) (addr : Nat) : State :=
  if 0x80 ≤ s.dict.i3cAddress then s else { s with dict := { s.dict with i3cAddress := 0x80 + addr } }

/-- The static address (R448). -/
def staticAddress (s : State) : Nat := 0x38 + s.start.addrPins % 8

end State

/-- SET_ENDPOINT_ID (R447). -/
def execSetEndpointId (eid : BitVec 8) (s : State) : Host.Outcome State Fault Refusal := .next (s.setEid eid.toNat)

/-- GET_ENDPOINT_ID (R447). -/
def execGetEndpointId (s : State) : Host.Outcome State Fault Refusal := .next s.getEid

/-- GET_MCTP_VERSION_SUPPORT (R447). -/
def execGetMctpVersionSupport (s : State) : Host.Outcome State Fault Refusal := .next s.mctpVersion

/-- GET_MESSAGE_TYPE_SUPPORT (R447). -/
def execGetMessageTypeSupport (s : State) : Host.Outcome State Fault Refusal := .next s.mctpTypes

/-- GET_VENDOR_DEFINED_MESSAGE_SUPPORT (R447). -/
def execGetVendorDefinedMessageSupport (s : State) : Host.Outcome State Fault Refusal := .next s.mctpVendor

/-- ENTDAA (R448). -/
def execEntdaa (addr : BitVec 7) (s : State) : Host.Outcome State Fault Refusal := .next (s.takeAddress addr.toNat)

/-- SETDASA (R448). -/
def execSetdasa (fixed addr : BitVec 7) (s : State) : Host.Outcome State Fault Refusal :=
  .next (if fixed.toNat == s.staticAddress then s.takeAddress addr.toNat else s)

end Sys2Proof.Machine
end

