-- ==== Sys2Proof/Machine/Move.lean ====
section
/-! DEFINITION. The MV operations (R72 to R76). -/
namespace Sys2Proof.Machine

/-- LDV (R73). -/
def execLdv (n : Nat) (f : MvM) (upset : Bool) (s : State) : Host.Outcome State Fault Refusal :=
  .next (s.onMvM n 0x01 f upset (fun k x => k.mvLdv x f))

/-- STV (R73). -/
def execStv (n : Nat) (f : MvM) (upset : Bool) (s : State) : Host.Outcome State Fault Refusal :=
  .next (s.onMvM n 0x02 f upset (fun k x => k.mvStv x f))

/-- LDS (R73). -/
def execLds (n : Nat) (f : MvM) (upset : Bool) (s : State) : Host.Outcome State Fault Refusal :=
  .next (s.onMvM n 0x03 f upset (fun k x => k.mvLds x f))

/-- STS (R73). -/
def execSts (n : Nat) (f : MvM) (upset : Bool) (s : State) : Host.Outcome State Fault Refusal :=
  .next (s.onMvM n 0x04 f upset (fun k x => k.mvSts x f))

/-- LDVX (R73). -/
def execLdvx (n : Nat) (f : MvX) (upset : Bool) (s : State) : Host.Outcome State Fault Refusal :=
  .next (s.onMvX n 0x05 f upset (fun k x => k.mvLdvx x f))

/-- STVX (R73). -/
def execStvx (n : Nat) (f : MvX) (upset : Bool) (s : State) : Host.Outcome State Fault Refusal :=
  .next (s.onMvX n 0x06 f upset (fun k x => k.mvStvx x f))

/-- GATH (R73). -/
def execGath (n : Nat) (f : MvG) (upset : Bool) (lanes : BitVec 16) (s : State) : Host.Outcome State Fault Refusal :=
  .next (s.onMvG n 0x07 f upset (fun k x => k.mvGath x f lanes))

/-- SCAT (R73). -/
def execScat (n : Nat) (f : MvG) (upset : Bool) (s : State) : Host.Outcome State Fault Refusal :=
  .next (s.onMvG n 0x08 f upset (fun k x => k.mvScat x f))

/-- TOUT (R74). -/
def execTout (n : Nat) (f : MvT) (upset : Bool) (s : State) : Host.Outcome State Fault Refusal :=
  .next (s.onMvT n 0x09 f upset (fun k x => k.mvTout x f))

/-- TPEEK (R75). -/
def execTpeek (n : Nat) (f : MvP) (upset : Bool) (s : State) : Host.Outcome State Fault Refusal :=
  .next (s.onMvP n 0x0A f upset (fun k x => k.mvTpeek x f))

/-- SADD (R73). -/
def execSadd (n : Nat) (f : MvA) (upset : Bool) (s : State) : Host.Outcome State Fault Refusal :=
  .next (s.onMvA n 0x10 f upset (fun k x => k.mvScalar x f (fun a b => a + b)))

/-- SSUB (R73). -/
def execSsub (n : Nat) (f : MvA) (upset : Bool) (s : State) : Host.Outcome State Fault Refusal :=
  .next (s.onMvA n 0x11 f upset (fun k x => k.mvScalar x f (fun a b => a - b)))

/-- SAND (R73). -/
def execSand (n : Nat) (f : MvA) (upset : Bool) (s : State) : Host.Outcome State Fault Refusal :=
  .next (s.onMvA n 0x12 f upset (fun k x => k.mvScalar x f (fun a b => a &&& b)))

/-- SOR (R73). -/
def execSor (n : Nat) (f : MvA) (upset : Bool) (s : State) : Host.Outcome State Fault Refusal :=
  .next (s.onMvA n 0x13 f upset (fun k x => k.mvScalar x f (fun a b => a ||| b)))

/-- SXOR (R73). -/
def execSxor (n : Nat) (f : MvA) (upset : Bool) (s : State) : Host.Outcome State Fault Refusal :=
  .next (s.onMvA n 0x14 f upset (fun k x => k.mvScalar x f (fun a b => a ^^^ b)))

/-- SSHL (R73). -/
def execSshl (n : Nat) (f : MvA) (upset : Bool) (s : State) : Host.Outcome State Fault Refusal :=
  .next (s.onMvA n 0x15 f upset (fun k x => k.mvScalar x f (fun a b => a <<< (b.toNat % 32))))

/-- SSHR (R73). -/
def execSshr (n : Nat) (f : MvA) (upset : Bool) (s : State) : Host.Outcome State Fault Refusal :=
  .next (s.onMvA n 0x16 f upset (fun k x => k.mvScalar x f (fun a b => a >>> (b.toNat % 32))))

/-- SADDI (R73). -/
def execSaddi (n : Nat) (f : MvA) (upset : Bool) (s : State) : Host.Outcome State Fault Refusal :=
  .next (s.onMvA n 0x17 f upset (fun k x => k.mvSaddi x f))

/-- AADDI (R73). -/
def execAaddi (n : Nat) (f : MvA) (upset : Bool) (s : State) : Host.Outcome State Fault Refusal :=
  .next (s.onMvA n 0x18 f upset (fun k x => k.mvAaddi x f))

/-- AFROMS (R73). -/
def execAfroms (n : Nat) (f : MvA) (upset : Bool) (s : State) : Host.Outcome State Fault Refusal :=
  .next (s.onMvA n 0x19 f upset (fun k x => k.mvAfroms x f))

/-- SFROMA (R73). -/
def execSfroma (n : Nat) (f : MvA) (upset : Bool) (s : State) : Host.Outcome State Fault Refusal :=
  .next (s.onMvA n 0x1A f upset (fun k x => k.mvSfroma x f))

/-- MOVVS (R73). -/
def execMovvs (n : Nat) (f : MvA) (upset : Bool) (s : State) : Host.Outcome State Fault Refusal :=
  .next (s.onMvA n 0x1B f upset (fun k x => k.mvMovvs x f))

/-- MOVSV (R73). -/
def execMovsv (n : Nat) (f : MvA) (upset : Bool) (s : State) : Host.Outcome State Fault Refusal :=
  .next (s.onMvA n 0x1C f upset (fun k x => k.mvMovsv x f))

end Sys2Proof.Machine
end

