-- ==== Sys2Proof/Machine/Network.lean ====
section
/-! DEFINITION. The NX operations and the memory slots (R77 to R79, R250 to R254). -/
namespace Sys2Proof.Machine

/-- SEND (R77). -/
def execSend (n : Nat) (f : NxReg) (upset : Bool) (s : State) : Host.Outcome State Fault Refusal :=
  .next (s.onNxReg n 0x1 f upset (fun k x => k.nxSend x f))

/-- RECV (R77). -/
def execRecv (n : Nat) (f : NxReg) (upset : Bool) (s : State) : Host.Outcome State Fault Refusal :=
  .next (s.onNxReg n 0x2 f upset (fun k x => k.nxRecv x f (s.ejected n 0) (s.ejected n 1)))

/-- SENDM (R77). -/
def execSendm (n : Nat) (f : NxMem) (upset : Bool) (s : State) : Host.Outcome State Fault Refusal :=
  .next (s.onNxMem n 0x3 f upset (fun k x => k.nxSendm x f))

/-- RECVM (R77). -/
def execRecvm (n : Nat) (f : NxMem) (upset : Bool) (s : State) : Host.Outcome State Fault Refusal :=
  .next (s.onNxMem n 0x4 f upset (fun k x => k.nxRecvm x f (s.ejected n 0) (s.ejected n 1)))

/-- MRD (R78). -/
def execMrd (n : Nat) (f : NxSlot) (upset : Bool) (s : State) : Host.Outcome State Fault Refusal :=
  .next (s.onNxSlot n 0x5 f upset (fun k x => k.nxMrd x f))

/-- MWR (R78). -/
def execMwr (n : Nat) (f : NxSlot) (upset : Bool) (s : State) : Host.Outcome State Fault Refusal :=
  .next (s.onNxSlot n 0x6 f upset (fun k x => k.nxMwr x f))

/-- MEMORY_SLOT_SEND (R252). -/
def execMemorySlotSend (n : Nat) (slot : Nat) (upset : Bool) (s : State) : Host.Outcome State Fault Refusal :=
  let d := s.free 512
  if upset then .next (d.2.onCore n (fun k x => k.memSend x n slot true d.1))
  else .next (s.onCore n (fun k x => k.memSend x n slot false 0))

/-- MEMORY_SLOT_RETURN (R252). -/
def execMemorySlotReturn (n : Nat) (slot : Nat) (s : State) : Host.Outcome State Fault Refusal :=
  .next (s.onCore n (fun k x => k.memReturn x slot (s.ejected n 0) (s.ejected n 1)))

end Sys2Proof.Machine
end

