-- ==== Sys2Proof/Machine/Object.lean ====
section
/-! DEFINITION. The meanings of the object family: accesses to objects that have a behaviour of their own, each under the
checks of R451. -/
namespace Sys2Proof.Machine

/-- The index of an object when its place in the group exists; else an index that names none (R449). -/
def among (ok : Bool) (i : Nat) : Nat := if ok then i else 0xFFFF

/-- HANDOVER (R395). -/
def execHandover (via : Path) (value : BitVec 8) (s : State) : Host.Outcome State Fault Refusal :=
  .next (s.accessWrite via 0x1210 2 (leBytes 1 value.toNat))

/-- TAKEOVER (R395). -/
def execTakeover (via : Path) (value : BitVec 8) (s : State) : Host.Outcome State Fault Refusal :=
  .next (s.accessWrite via 0x1210 3 (leBytes 1 value.toNat))

/-- TAKEOVER_DENY (R395). -/
def execTakeoverDeny (via : Path) (value : BitVec 8) (s : State) : Host.Outcome State Fault Refusal :=
  .next (s.accessWrite via 0x1210 4 (leBytes 1 value.toNat))

/-- SEED (R158). -/
def execSeed (via : Path) (k : Nat) (i : Nat) (bytes : List Byte) (s : State) : Host.Outcome State Fault Refusal :=
  .next (s.accessWrite via (among (k < 8 && i < 16) (0x4010 + k)) (i + 1) bytes)

/-- SEED_FROM_NOISE (R197). -/
def execSeedFromNoise (via : Path) (value : BitVec 8) (s : State) : Host.Outcome State Fault Refusal :=
  .next (s.accessWrite via 0x4018 1 (leBytes 1 value.toNat))

/-- STRICT (R311). -/
def execStrict (via : Path) (value : BitVec 8) (s : State) : Host.Outcome State Fault Refusal :=
  .next (s.accessWrite via 0x4000 1 (leBytes 1 value.toNat))

/-- STRICT_LOCK (R311). -/
def execStrictLock (via : Path) (value : BitVec 8) (s : State) : Host.Outcome State Fault Refusal :=
  .next (s.accessWrite via 0x4000 2 (leBytes 1 value.toNat))

/-- ORACLE_OUT (R168). -/
def execOracleOut (via : Path) (s : State) : Host.Outcome State Fault Refusal :=
  .next (s.accessRead via 0x4420 6)

/-- ENTROPY_PORT (R369). -/
def execEntropyPort (via : Path) (s : State) : Host.Outcome State Fault Refusal :=
  .next (s.accessRead via 0x4410 1)

/-- PROBE_GO (R331). -/
def execProbeGo (via : Path) (value : BitVec 8) (s : State) : Host.Outcome State Fault Refusal :=
  .next (s.accessWrite via 0x4040 3 (leBytes 1 value.toNat))

/-- ROOT_PLL_LOCK_LOST (R44). -/
def execRootPllLockLost (via : Path) (value : BitVec 8) (s : State) : Host.Outcome State Fault Refusal :=
  .next (s.accessWrite via 0x2200 4 (leBytes 1 value.toNat))

/-- DEVICE_RESET (R454). -/
def execDeviceReset (via : Path) (value : BitVec 8) (s : State) : Host.Outcome State Fault Refusal :=
  .next (s.accessWrite via 0x1000 0x0C (leBytes 1 value.toNat))

/-- DOMAIN_REQ (R461). -/
def execDomainReq (via : Path) (d : Nat) (value : BitVec 8) (s : State) : Host.Outcome State Fault Refusal :=
  .next (s.accessWrite via (among (d < 36) 0x2001) d (leBytes 1 value.toNat))

/-- PAD_RELEASE (R465). -/
def execPadRelease (via : Path) (value : BitVec 64) (s : State) : Host.Outcome State Fault Refusal :=
  .next (s.accessWrite via 0x2000 1 (leBytes 8 value.toNat))

/-- DRBG_RESEED (R370). -/
def execDrbgReseed (via : Path) (value : BitVec 8) (s : State) : Host.Outcome State Fault Refusal :=
  .next (s.accessWrite via 0x4400 0x0A (leBytes 1 value.toNat))

/-- MOGUL_STOP (R350). -/
def execMogulStop (via : Path) (value : BitVec 8) (s : State) : Host.Outcome State Fault Refusal :=
  .next (s.accessWrite via 0x4800 3 (leBytes 1 value.toNat))

/-- PROBLEM_ROW (R354). -/
def execProblemRow (via : Path) (lat : Nat) (row : Nat) (bytes : List Byte) (s : State) : Host.Outcome State Fault Refusal :=
  .next (s.accessWrite via (among (lat < 2 && row < 256) (0x4810 + lat)) row bytes)

/-- CLAIM (R487). -/
def execClaim (via : Path) (t : Nat) (s : State) : Host.Outcome State Fault Refusal :=
  .next (s.accessRead via (among (t < 3) (0x2410 + t)) 1)

/-- EOI (R488). -/
def execEoi (via : Path) (t : Nat) (value : BitVec 16) (s : State) : Host.Outcome State Fault Refusal :=
  .next (s.accessWrite via (among (t < 3) (0x2410 + t)) 2 (leBytes 2 value.toNat))

/-- SIGNAL (R496). -/
def execSignal (via : Path) (value : BitVec 16) (s : State) : Host.Outcome State Fault Refusal :=
  .next (s.accessWrite via 0x2420 1 (leBytes 2 value.toNat))

/-- SRC_STATE (R484). -/
def execSrcState (via : Path) (src : Nat) (value : BitVec 32) (s : State) : Host.Outcome State Fault Refusal :=
  .next (s.accessWrite via (among (src < 1024) (0x2404 + src / 256)) (src % 256) (leBytes 4 value.toNat))

/-- LOG_CLEAR (R498). -/
def execLogClear (via : Path) (value : BitVec 8) (s : State) : Host.Outcome State Fault Refusal :=
  .next (s.accessWrite via 0x2600 8 (leBytes 1 value.toNat))

/-- LOG_INTERVAL (R497). -/
def execLogInterval (via : Path) (value : BitVec 32) (s : State) : Host.Outcome State Fault Refusal :=
  .next (s.accessWrite via 0x2600 2 (leBytes 4 value.toNat))

/-- FW_STAGE (R538). -/
def execFwStage (via : Path) (bytes : List Byte) (s : State) : Host.Outcome State Fault Refusal :=
  .next (s.accessWrite via 0x5003 3 bytes)

/-- FW_COMMIT (R538). -/
def execFwCommit (via : Path) (s : State) : Host.Outcome State Fault Refusal :=
  .next (s.accessWrite via 0x5003 4 [0xC1])

/-- FW_SVN_RAISE (R538). -/
def execFwSvnRaise (via : Path) (s : State) : Host.Outcome State Fault Refusal :=
  .next (s.accessWrite via 0x5003 4 [0x5A])

/-- IMAGE_KEY (R536). -/
def execImageKey (via : Path) (i : Nat) (bytes : List Byte) (s : State) : Host.Outcome State Fault Refusal :=
  .next (s.accessWrite via (among (i < 8) 0x5002) i bytes)

/-- SIGNED_REQUIRED (R536). -/
def execSignedRequired (via : Path) (value : BitVec 8) (s : State) : Host.Outcome State Fault Refusal :=
  .next (s.accessWrite via 0x5001 1 (leBytes 1 value.toNat))

/-- SECURITY_LOCK (R536). -/
def execSecurityLock (via : Path) (value : BitVec 8) (s : State) : Host.Outcome State Fault Refusal :=
  .next (s.accessWrite via 0x5001 2 (leBytes 1 value.toNat))

/-- LINK_SECRET (R545). -/
def execLinkSecret (via : Path) (bytes : List Byte) (s : State) : Host.Outcome State Fault Refusal :=
  .next (s.accessWrite via 0x5005 1 bytes)

/-- LECEL_CRYPT (R545). -/
def execLecelCrypt (via : Path) (i : Nat) (value : BitVec 8) (s : State) : Host.Outcome State Fault Refusal :=
  .next (s.accessWrite via (among (i < 4) 0x5004) i (leBytes 1 value.toNat))

/-- SYNC_SHIFT (R575). -/
def execSyncShift (via : Path) (value : BitVec 8) (s : State) : Host.Outcome State Fault Refusal :=
  .next (s.accessWrite via 0x2200 7 (leBytes 1 value.toNat))

end Sys2Proof.Machine
end

