-- ==== Sys2Proof/Machine/PacketOps.lean ====
section
/-! DEFINITION. How a packet starts and what refuses it, and the parts of loads, data commands, launches, halts, seals and
unseals (R290 to R300, R315, R330, R331, R379 to R389, R398, R561, R564). -/
namespace Sys2Proof.Machine

/-! The packet (R381 to R383). -/

/-- A posted packet: its header's bytes, its payload, and the value its POST wrote. -/
structure Pkt where
  header : List Byte
  payload : List Byte
  post : Nat
  deriving DecidableEq, Repr

namespace Pkt
def opcode (q : Pkt) : Nat := fieldLE q.header 0 1
def quiet (q : Pkt) : Bool := bitOf (fieldLE q.header 1 1) 0 == 1
def slot (q : Pkt) : Nat := fieldLE q.header 2 1
def len (q : Pkt) : Nat := fieldLE q.header 4 4
def tag (q : Pkt) : Nat := fieldLE q.header 8 8
def arg0 (q : Pkt) : Nat := fieldLE q.header 16 8
def arg1 (q : Pkt) : Nat := fieldLE q.header 24 8
/-- ABANDON, and FINAL or LAST. -/
def abandon (q : Pkt) : Bool := bitOf q.arg1 62 == 1
def last (q : Pkt) : Bool := bitOf q.arg1 63 == 1
/-- ORIGIN of an IMAGE_LOAD. -/
def originRow (q : Pkt) : Nat := bitsOf q.arg1 13 7
def originCol (q : Pkt) : Nat := bitsOf q.arg1 6 0
/-- The payload that LENGTH announces. -/
def body (q : Pkt) : List Byte := sliceBytes q.payload 0 (min 65536 q.len)
end Pkt

/-- The opcodes of R383. -/
def opcodes : List Nat := [0x00, 0x01, 0x02, 0x10, 0x20, 0x21, 0x30, 0x31, 0x32, 0x33, 0x40, 0x50, 0x60]

/-- Opcodes that name a slot. -/
def namesSlot (op : Nat) : Bool := [0x10, 0x30, 0x31, 0x32, 0x33, 0x60].contains op

/-- Asynchronous opcodes (R384). -/
def asyncOp (op : Nat) : Bool := op == 0x30 || op == 0x32 || op == 0x40

namespace Pkt

/-- LENGTH keeps the payload rule of R383. -/
def lengthOk (q : Pkt) : Bool :=
  decide (q.len ≤ 65536) && (match q.opcode with
  | 0x02 => true
  | 0x10 | 0x33 => if q.abandon then q.len == 0 else decide (1 ≤ q.len)
  | 0x20 => q.len % 64 == 0 && decide (64 ≤ q.len)
  | 0x40 => true
  | 0x60 => q.len == 48
  | _ => q.len == 0)

/-- ARG0 and ARG1 keep to their fields and ranges (R383, R388). -/
def argsOk (q : Pkt) : Bool :=
  match q.opcode with
  | 0x01 | 0x02 => decide (q.arg0 < 2 ^ 24) && decide (q.arg1 < 2 ^ 32) && bitOf q.arg1 30 == 0 && bitsOf q.arg1 15 0 == 0
  | 0x10 => bitsOf q.arg1 61 14 == 0
  | 0x20 => q.arg1 == 0
  | 0x21 => decide (1 ≤ q.arg1) && decide (q.arg1 ≤ 1024)
  | 0x30 => decide (q.arg0 < 2 ^ 32) && q.arg1 == 0
  | 0x31 => decide (q.arg0 ≤ 1) && q.arg1 == 0
  | 0x32 => decide (q.arg0 ≤ 3) && q.arg1 == 0
  | 0x33 => bitsOf q.arg1 61 0 == 0
  | 0x50 => decide (q.arg0 ≤ 4095) && decide (1 ≤ q.arg1) && decide (q.arg1 ≤ 16)
  | _ => q.arg0 == 0 && q.arg1 == 0

/-- RSVD fields of the header are zero, and SLOT is one of eight, or RSVD. -/
def headerOk (q : Pkt) : Bool :=
  decide (fieldLE q.header 1 1 ≤ 1) && fieldLE q.header 3 1 == 0 && allZero (sliceBytes q.header 32 32)
  && (if namesSlot q.opcode then decide (q.slot ≤ 7) else q.slot == 0)

/-- The status that refuses a packet before any check of its own opcode (R382). -/
def refusal (q : Pkt) : Option Nat :=
  if q.post != q.tag then some stBAD_HEADER
  else if !opcodes.contains q.opcode then some stBAD_OPCODE
  else if !q.lengthOk then some stBAD_LENGTH
  else if !q.headerOk || !q.argsOk then some stBAD_HEADER
  else none

/-- The response to a packet with a status and nothing else; SLOT under R391. -/
def answer (q : Pkt) (status : Nat) : Response :=
  ⟨q.opcode, if namesSlot q.opcode then q.slot else 0xFF, q.tag, status, 0, 0, [], q.quiet, !asyncOp q.opcode, .none⟩

/-- The packet's ticket. -/
def ticket (q : Pkt) (p : Nat) : Ticket := ⟨p, q.tag, q.quiet⟩

end Pkt

/-- The path of a port's packets. -/
def portPath (p : Nat) : Path := if p == 0 then .portA else .portB

namespace State

/-! Starting (R379, R380, R384, R390, R398, R561). -/

/-- The packet at the head of port p's queue. -/
def headPacket (s : State) (p : Nat) : Option Pkt :=
  match (s.port p).posted with
  | [] => none
  | (w, v) :: _ => let x := Table.get ⟨[], []⟩ w (s.port p).windows; some ⟨x.header, x.payload, v⟩

/-- A packet of port p may start now: no other executes, the port has a return area, and its link stream is Secure when
IDE is required, and no stream of it has failed; before READY only NOP, DICT_READ and DICT_WRITE start. -/
def mayStartPacket (s : State) (p op : Nat) : Bool :=
  decide (p < 2) && s.porterOn && !s.portBusy p && (s.port p).hasReturn && s.portSends p && (s.port p).ideBroken.isEmpty
  && (s.start.st == 2 || op ≤ 2)

/-- The packet at the head starts: its buffer is released whole, and vector 1 is sent when it is the first free one. -/
def startPacket (s : State) (p : Nat) : State :=
  match (s.port p).posted with
  | [] => s
  | (w, _) :: rest =>
    let none := (s.port p).bufFree == 0
    let s := s.onPort p (fun q => { q with
      posted := rest, windows := Table.erase w q.windows, bufFree := q.bufFree ||| (1#32 <<< w), packets := satAdd 64 q.packets 1 })
    if none then s.msix p 1 else s

/-- Run the packet at the head of port p when it is of the kind asked for and may start. -/
def runPacket (s : State) (p : Nat) (kind : Pkt → Bool) (f : Pkt → State → State) : State :=
  match s.headPacket p with
  | none => s
  | some q =>
    if !kind q || !s.mayStartPacket p q.opcode then s
    else
      let s := s.startPacket p
      match q.refusal with
      | some st => s.respond p (q.answer st)
      | none => f q s

/-- Refuse a packet that has started. -/
def refusePacket (s : State) (p : Nat) (q : Pkt) (st : Nat) : State := s.respond p (q.answer st)

/-- Post a packet's response with a value. -/
def answerPacket (s : State) (p : Nat) (q : Pkt) (v0 : Nat) (payload : List Byte) : State :=
  s.respond p { q.answer stOK with value0 := v0, payload := payload }

/-- The checks of a command that names a slot: EMPTY, then the owner when the command is the owner's, then a probe
(R331, R385, R394). -/
def slotRefusal (s : State) (p k : Nat) (owner : Bool) : Option Nat :=
  if (s.slot k).st == .empty then some stNO_COURSE
  else if owner && !s.owns p k then some stNOT_OWNER
  else if s.probed k then some stPROBE_BUSY
  else none

/-- Binding refuses an IMAGE_LOAD or an UNSEAL (R425, R564). -/
def bindRefusal (s : State) : Option Nat :=
  if s.link.st ≤ 1 then some stNOT_BOUND else if s.quarantined then some stSTAND_DOWN else none

/-! Dictionary packets (R388, R444). -/

/-- The device that TARGET names, unless it is this one without REMOTE: the path, none when the request travels. -/
def targetPath (s : State) (p : Nat) (q : Pkt) : Option Path :=
  if bitOf q.arg1 31 == 0 then some (portPath p)
  else if s.bound && bitsOf q.arg1 29 23 * 128 + bitsOf q.arg1 22 16 == s.selfAddr then some .transom
  else none

/-- A request to another device, which waits for its answer. -/
def askRemote (s : State) (p : Nat) (q : Pkt) : State :=
  let x := s.dict.xidNext
  let r : RemoteReq := ⟨q.opcode, q.tag, q.quiet, s.now, x, bitsOf q.arg1 29 23 * 128 + bitsOf q.arg1 22 16,
    q.arg0 % 65536, q.arg0 / 65536, if q.opcode == 2 then q.body else [], 0, false⟩
  ({ s with dict := { s.dict with xidNext := (x + 1) % 65536 } }.onPort p (fun y => { y with remote := some r })).sendRemote r

/-- DICT_READ. -/
def packetRead (p : Nat) (q : Pkt) (s : State) : State :=
  let i := q.arg0 % 65536
  let sub := q.arg0 / 65536
  match s.targetPath p q with
  | none => s.askRemote p q
  | some v =>
    let r := s.readObject v i sub
    if r.1 != stOK then r.2.2.refusePacket p q r.1
    else r.2.2.answerPacket p q (dictValue0 (s.typeOf i sub) (accessOf i sub) r.2.1.length) r.2.1

/-- DICT_WRITE; a TAKEOVER that waits is answered when it resolves. -/
def packetWrite (p : Nat) (q : Pkt) (s : State) : State :=
  let i := q.arg0 % 65536
  let sub := q.arg0 / 65536
  match s.targetPath p q with
  | none => s.askRemote p q
  | some v =>
    let w := s.writeObject v i sub q.body (some (q.ticket p))
    match w.1 with
    | none => w.2
    | some st =>
      if st != stOK then w.2.refusePacket p q st
      else w.2.answerPacket p q (dictValue0 (s.typeOf i sub) (accessOf i sub) q.len) []

/-! Image loads (R281, R385). -/

/-- The bytes of slot k's load go to the loader; a failed check empties the slot. -/
def feedLoader (s : State) (p k : Nat) (q : Pkt) (j : LoadJob) : State :=
  let s := s.onSlot k (fun x => { x with loadJob := some j })
  let r := s.loadBytes k j q.last
  match r.1 with
  | some st => (r.2.emptySlot k).refusePacket p q st
  | none => r.2.answerPacket p q j.bytes.length []

/-- One chunk of an image. -/
def loadChunk (p : Nat) (q : Pkt) (s : State) : State :=
  let k := q.slot
  let x := s.slot k
  match s.bindRefusal with
  | some st => s.refusePacket p q st
  | none =>
    if s.probed k then s.refusePacket p q stPROBE_BUSY
    else if q.arg0 == 0 then
      if x.st != .empty then s.refusePacket p q (stCheck 1)
      else
        let s := s.setSlot k { Slot.fresh with st := .loading, owner := p + 1, confirmed := true }
        s.feedLoader p k q ⟨p, q.body, q.len, q.originRow, q.originCol⟩
    else match x.loadJob with
      | some j =>
        if x.st != .loading then s.refusePacket p q stLOAD_SEQUENCE
        else if !s.owns p k then s.refusePacket p q stNOT_OWNER
        else if q.arg0 != j.nextOffset || q.originRow != j.originRow || q.originCol != j.originCol then
          s.refusePacket p q stLOAD_SEQUENCE
        else s.feedLoader p k q { j with bytes := j.bytes ++ q.body, nextOffset := j.nextOffset + q.len }
      | none => s.refusePacket p q stLOAD_SEQUENCE

/-- ABANDON of a load. -/
def loadAbandon (p : Nat) (q : Pkt) (s : State) : State :=
  let x := s.slot q.slot
  match s.bindRefusal with
  | some st => s.refusePacket p q st
  | none =>
    if s.probed q.slot then s.refusePacket p q stPROBE_BUSY
    else if x.st != .loading then s.refusePacket p q stLOAD_SEQUENCE
    else if !s.owns p q.slot then s.refusePacket p q stNOT_OWNER
    else (s.emptySlot q.slot).answerPacket p q ((x.loadJob.map (fun j => j.nextOffset)).getD 0) []

/-! Data commands (R265, R293, R328, R386). -/

/-- The lines of a data command. -/
def dataLines (la c : Nat) : List Nat := (List.range c).map (fun i => la + i)

/-- The slots whose extents hold the lines, none for a line of no course. -/
def lineSlots (s : State) (la c : Nat) : List (Option Nat) := (dataLines la c).map (fun a => (s.extentAt a).map (fun e => e.1))

/-- The first status of R386 that refuses a data command of c lines from la on. -/
def dataRefusal (s : State) (p la c : Nat) (write : Bool) : Option Nat :=
  let lines := dataLines la c
  let owners := s.lineSlots la c
  let k := owners.head?.join
  if 479 < laSlice la || 349524 < laBlock la + c - 1 then some stBAD_ADDRESS
  else if lines.any laReserved || owners.any (fun o => o != k)
      || (write && lines.any (fun a => match s.extentAt a with | some (_, e) => e.cls != 4 | none => false)) then some stREGION_CLASS
  else
    let own := match k with
      | none => none
      | some k =>
        let st := (s.slot k).st
        if write && !s.owns p k then some stNOT_OWNER
        else if s.probed k then some stPROBE_BUSY
        else if !(st == .paused || (!write && st == .halted)) then some stCOURSE_RUNNING
        else none
    match own with
    | some st => some st
    | none =>
      if (s.sliceEnt (laSlice la)).st == 2 || (s.stack (sliceStack (laSlice la))).lost then some stMEMORY_LOST else none

/-- The service accesses of one line: both copies of a mirrored one for a write. -/
def lineAccesses (s : State) (id la : Nat) (write : Bool) (data : List Byte) : List ServiceReq :=
  let one (a : Nat) : ServiceReq := ⟨.host, a, write, lanesOfBytes data, 1, false, id, s.now⟩
  match write, s.extentAt la with
  | true, some (_, e) => if e.policy == 1 then [one la, one (otherCopy e la)] else [one la]
  | _, _ => [one la]

/-- A data command that nothing refuses waits for its service periods; a write into a course's extents goes into its
INPUT_DIGEST. -/
def startData (s : State) (p : Nat) (q : Pkt) (c : Nat) (write : Bool) : State :=
  let la := q.arg0
  let k := (s.lineSlots la c).head?.join
  let id := 2 * (s.port p).packets + p
  let l := (List.range c).flatMap (fun i => s.lineAccesses id (la + i) write (sliceBytes q.body (64 * i) 64))
  let s := { s with mem := { s.mem with service := s.mem.service ++ l } }
  let s := match write, k with
    | true, some k => s.onSlot k (fun x => { x with inputRecs := x.inputRecs ++ leBytes 8 la ++ leBytes 4 c ++ leBytes 4 0 ++ q.body })
    | _, _ => s
  s.onPort p (fun x => { x with job := some ⟨id, q.tag, q.quiet, write, la, c, k, List.replicate (if write then 0 else 64 * c) 0, l.length, stOK, false⟩ })

/-- The course whose extents hold every line of a data command. -/
def dataCourse (s : State) (la c : Nat) : Option Nat :=
  let l := s.lineSlots la c
  if laSlice la ≤ 479 && l.all (fun o => o == l.head?.join) then l.head?.join else none

/-- DATA_WRITE and DATA_READ; a DATA_READ of a course's extents carries its slot, refused or not (R386). -/
def dataCommand (write : Bool) (p : Nat) (q : Pkt) (s : State) : State :=
  let c := if write then q.len / 64 else q.arg1
  match s.dataRefusal p q.arg0 c write with
  | some st => s.respond p { q.answer st with slot := dataSlot write (s.dataCourse q.arg0 c) }
  | none => s.startData p q c write

/-! LAUNCH and HALT_AT_BOUNDARY (R290, R291, R315, R325). -/

/-- LAUNCH. -/
def launchRun (p : Nat) (q : Pkt) (s : State) : State :=
  let k := q.slot
  match s.slotRefusal p k true with
  | some st => s.refusePacket p q st
  | none =>
    if (s.slot k).st != .paused then s.refusePacket p q stNOT_PAUSED
    else if (s.slot k).lapNext == lapLimit then s.refusePacket p q stLAP_EXHAUSTED
    else
      let t := q.ticket p
      let s := s.onPort p (fun x => { x with async := x.async ++ [t] })
      (s.onSlot k (fun x => { x with
        st := .running, attempt := .first, lapsLeft := q.arg0, counted := q.arg0 != 0, launchTicket := some t
        attPending := false, freshRun := true })).resume k

/-- A halt takes effect at once when the slot stands at a boundary with no launch count committed. -/
def haltNow (s : State) (k : Nat) : Bool :=
  let x := s.slot k
  (x.stage == .waiting || x.stage == .idle) && x.attempt == .first && x.st == .running && !s.multi k

/-- HALT_AT_BOUNDARY, with or without RELEASE. -/
def haltCommand (p : Nat) (q : Pkt) (s : State) : State :=
  let k := q.slot
  let x := s.slot k
  match s.slotRefusal p k true with
  | some st => s.refusePacket p q st
  | none =>
    let l := [(q.ticket p, q.arg0 % 2 == 1)]
    match x.st with
    | .sealing | .unsealing => s.refusePacket p q stSEAL_ACTIVE
    | .loading => s.refusePacket p q stLOAD_SEQUENCE
    | .paused | .halted | .empty => (s.answerPacket p q x.lapNext []).releaseFor k l
    | .running | .replaying =>
      let s := s.onSlot k (fun x => { x with halt := x.halt ++ l })
      if s.haltNow k then s.pauseSlot k false else s

/-! Seals (R294 to R297, R387). -/

/-- Cut a list into pieces of n, at most fuel of them. -/
def pieces {α : Type} (n : Nat) : Nat → List α → List (List α)
  | 0, _ => []
  | _ + 1, [] => []
  | f + 1, a :: l => (a :: l).take n :: pieces n f ((a :: l).drop n)

/-- HEAD of a seal of slot k. -/
def sealHeadBytes (s : State) (k : Nat) (full : Bool) : List Byte :=
  let x := s.slot k
  let i := x.info
  sliceBytes i.imageDigest 0 48 ++ sliceBytes i.immDigest 0 48 ++ leBytes 8 i.courseId ++ leBytes 8 x.lapNext
  ++ leBytes 2 i.deviceIndex ++ leBytes 1 i.devRows ++ leBytes 1 i.devCols ++ leBytes 1 i.rows
  ++ leBytes 1 i.stripeFirst ++ leBytes 1 i.stripeWidth ++ leBytes 1 full.toNat ++ leBytes 8 0

/-- A stream entry as the STREAMS section declares it. -/
def declBytes (e : BitVec 128) : List Byte := leBytes 4 (bitsOf e.toNat 23 0 + 1) ++ (leBytes 12 (e.toNat / 2 ^ 32 % 2 ^ 88))

/-- STREAMS records. -/
def sealStreams (s : State) (k : Nat) : List (Nat × List Byte × List Nat) :=
  let i := (s.slot k).info
  (List.range ((i.streamCount + 4094) / 4095)).map (fun n =>
    let first := 4095 * n
    (3, leBytes 4 first ++ leBytes 4 0 ++ (List.range (min 4095 (i.streamCount - first))).flatMap (fun m =>
      declBytes (Table.get 0 (i.streamBase + first + m) s.det.streams)), []))

/-- ENTRIES records. -/
def sealEntries (s : State) (k : Nat) : List (Nat × List Byte × List Nat) :=
  let i := (s.slot k).info
  (pieces 16384 16 (stripeCores i.rows i.stripeFirst i.stripeWidth)).map (fun l =>
    (4, l.flatMap (fun n => leBytes 2 (s.core n).entryNext ++ leBytes 2 (s.router n).entryNext), []))

/-- BLOCKS records of the extents of the classes given, in ascending line address, each of at most 1,023 lines. -/
def sealBlocks (l : List Extent) (cls : List Nat) : List (Nat × List Byte × List Nat) :=
  (sortExtents (l.filter (fun e => cls.contains e.cls))).flatMap (fun e =>
    (List.range ((e.count + 1022) / 1023)).map (fun n => (5, [], [e.first + 1023 * n, min 1023 (e.count - 1023 * n)])))

/-- Everything a seal writes, in order (R296). -/
def sealTodo (s : State) (k : Nat) (full : Bool) : List (Nat × List Byte × List Nat) :=
  let e := (s.slot k).info.extents
  (1, s.sealHeadBytes k full, []) :: (2, seedBytes (seedList (s.slot k).seeds), []) :: (s.sealStreams k ++ s.sealEntries k
    ++ sealBlocks e [2, 4] ++ (if full then sealBlocks e [1] else []) ++ [(6, [], [])])

/-- SEAL. -/
def sealStart (p : Nat) (q : Pkt) (s : State) : State :=
  let k := q.slot
  let full := q.arg0 % 2 == 1
  let split := q.arg0 / 2 % 2 == 1
  match s.slotRefusal p k true with
  | some st => s.refusePacket p q st
  | none =>
    if (s.slot k).st != .paused then s.refusePacket p q stNOT_PAUSED
    else if s.sealLength p < 131072 || (split && s.sealLength (1 - p) < 131072) then s.refusePacket p q stNO_SEAL_AREA
    else
      let t := q.ticket p
      let rewind (s : State) (p : Nat) : State := s.onPort p (fun x => { x with sealHead := 0, sealTail := 0 })
      let s := if split then rewind (rewind s 0) 1 else rewind s p
      let s := s.onPort p (fun x => { x with async := x.async ++ [t] })
      let todo := s.sealTodo k full
      s.onSlot k (fun x => { x with
        st := .sealing, sealProgress := 0
        sealJob := some ⟨full, split, p, t, s.rink, 0, todo, [], 0, none, none⟩ })

/-- Read a line for a seal: the primary, else its mirror; none when neither can be used (R296). -/
def sealLine (errs : List BlockErr) (k la : Nat) (s : State) : Option (List Byte) × State :=
  let r := s.copyData errs la
  match r.1, extentIn (s.slot k).info la with
  | some d, _ => (some (lanesBytes d), r.2)
  | none, some e =>
    if e.policy == 1 then
      let m := r.2.copyData errs (otherCopy e la)
      (m.1.map lanesBytes, m.2)
    else (none, r.2)
  | none, none => (none, r.2)

/-- Read n lines from la on for a seal. -/
def sealLines (errs : List BlockErr) (k : Nat) : Nat → Nat → State → Option (List Byte) × State
  | 0, _, s => (some [], s)
  | n + 1, la, s =>
    let a := sealLine errs k la s
    match a.1 with
    | none => (none, a.2)
    | some b =>
      let r := sealLines errs k n (la + 1) a.2
      (r.1.map (fun l => b ++ l), r.2)

/-- Payload of the next record; none when a line of it is lost. -/
def sealPayload (s : State) (errs : List BlockErr) (k : Nat) (j : SealJob) (t : Nat × List Byte × List Nat) :
    Option (List Byte) × State :=
  match t.1, t.2.2 with
  | 5, [la, c] =>
    let r := sealLines errs k c la s
    (r.1.map (fun l => leBytes 8 la ++ leBytes 4 c ++ leBytes 4 0 ++ l), r.2)
  | 6, _ => (some (sha384 j.written ++ leBytes 8 j.seq), s)
  | _, _ => (some t.2.1, s)

/-- Bytes of the next record with its header. -/
def sealSize (t : Nat × List Byte × List Nat) : Nat :=
  64 + (match t.1, t.2.2 with | 5, [_, c] => 16 + 64 * c | 6, _ => 56 | _, _ => t.2.1.length)

/-- The ports a record goes to. -/
def sealPorts (j : SealJob) (type : Nat) : List Nat :=
  if !j.split then [j.owner]
  else match j.dead with
    | some d => [1 - d]
    | none => if type == 6 then [0, 1] else [j.seq % 2]

/-- Write the next record of slot k's seal, when every port it goes to has room; a lost line ends the seal with ABORT, and
the course with it (R297). -/
def sealNext (s : State) (k : Nat) (errs : List BlockErr) : State :=
  match (s.slot k).sealJob with
  | none => s
  | some j =>
    match j.todo with
    | [] => s.endSeal k (j.abort.getD stOK)
    | t :: rest =>
      let ps := sealPorts j t.1
      if !(ps.all (s.sealRoom (sealSize t))) then s
      else
        let p := s.sealPayload errs k j t
        match p.1 with
        | none => p.2.onSlot k (fun x => { x with
            sealJob := some { j with todo := [(0xFF, leBytes 2 stMEMORY_LOST, [])], abort := some stMEMORY_LOST } })
        | some pay =>
          let r := sealRecord j t.1 pay
          let s := ps.foldl (sealWrite r) p.2
          let j := { j with seq := j.seq + 1, todo := rest, written := j.written ++ r, bytes := j.bytes + r.length * ps.length }
          let s := s.onSlot k (fun x => { x with sealJob := some j, sealProgress := j.bytes })
          if !rest.isEmpty then s
          else
            let s := s.endSeal k (j.abort.getD stOK)
            if j.abort == some stMEMORY_LOST then s.loseMemory k else s

/-! Unseals (R299, R300, R387). -/

/-- The lines of a BLOCKS record that lie in sealed extents, written; a status for the first that does not, or differs
from an IMMUTABLE block already loaded. -/
def unsealLines (full : Bool) (k la : Nat) : List (List Byte) → State → Option Nat × State
  | [], s => (none, s)
  | b :: rest, s =>
    match (s.slot k).info.extents.find? (fun e => inPrimary e la) with
    | none => (some stSEAL_FORMAT, s)
    | some e =>
      if !(e.cls == 2 || e.cls == 4 || (full && e.cls == 1)) then (some stSEAL_FORMAT, s)
      else if e.cls == 1 && s.lineBytes la != b then (some stSEAL_MISMATCH, s)
      else unsealLines full k (la + 1) rest (s.writeCopies e la b)

/-- HEAD names this slot's course. -/
def headMatches (x : Slot) (b : List Byte) : Bool :=
  let i := x.info
  b.take 48 == sliceBytes i.imageDigest 0 48 && fieldLE b 96 8 == i.courseId && fieldLE b 112 2 == i.deviceIndex
  && fieldLE b 116 1 == i.rows && fieldLE b 117 1 == i.stripeFirst && fieldLE b 118 1 == i.stripeWidth
  && sliceBytes b 48 48 == sliceBytes i.immDigest 0 48

/-- Take one record of an unseal into account. -/
def unsealRecord (s : State) (k : Nat) (j : UnsealJob) (header payload : List Byte) : Option Nat × State :=
  let type := fieldLE header 0 2
  let put (j : UnsealJob) : State := s.onSlot k (fun x => { x with unsealJob := some j })
  let id := fieldLE header 16 8
  let j' := { j with seq := j.seq + 1, sealId := some id, hashed := j.hashed ++ header ++ payload }
  let i := (s.slot k).info
  if type == 1 && j.seq == 0 && payload.length == 128 && !headMatches (s.slot k) payload then (some stSEAL_MISMATCH, s)
  else if fieldLE header 2 2 != 0 || fieldLE header 8 8 != j.seq || (j.sealId.getD id) != id || !allZero (sliceBytes header 24 40)
      || j.trailer || (decide (type = 1) != (j.seq == 0)) then (some stSEAL_FORMAT, s)
  else match type with
    | 1 => if payload.length == 128 && fieldLE payload 119 1 ≤ 1 then (none, put { j' with head := payload }) else (some stSEAL_FORMAT, s)
    | 2 => if payload.length == 224 then (none, put { j' with seeds := payload }) else (some stSEAL_FORMAT, s)
    | 3 => if 8 ≤ payload.length && payload.length % 16 == 8 then (none, put j') else (some stSEAL_FORMAT, s)
    | 4 => if payload.length % 4 == 0 then (none, put { j' with entries := j.entries ++ payload }) else (some stSEAL_FORMAT, s)
    | 5 =>
      let c := fieldLE payload 8 4
      if c == 0 || 1023 < c || payload.length != 16 + 64 * c || fieldLE payload 12 4 != 0 then (some stSEAL_FORMAT, s)
      else unsealLines (fieldLE j.head 119 1 == 1) k (fieldLE payload 0 8) (chunksOf 64 c (payload.drop 16)) (put j')
    | 6 =>
      if payload.length != 56 || j.seeds.isEmpty || j.entries.length != 4 * (i.rows * i.stripeWidth) then (some stSEAL_FORMAT, s)
      else if payload.take 48 != sha384 j.hashed || fieldLE payload 48 8 != j.seq then (some stSEAL_DIGEST, s)
      else (none, put { j' with trailer := true })
    | 0xFF => (some stSEAL_INCOMPLETE, s)
    | _ => (some stSEAL_FORMAT, s)

/-- Take the whole records among the bytes received, at most n of them. -/
def unsealAll (k : Nat) : Nat → State → Option Nat × State
  | 0, s => (none, s)
  | n + 1, s =>
    match (s.slot k).unsealJob with
    | none => (none, s)
    | some j =>
      let len := fieldLE j.buf 4 4
      if j.buf.length < 64 then (none, s)
      else if 65536 < len then (some stSEAL_FORMAT, s)
      else if j.buf.length < 64 + len then (none, s)
      else
        let r := s.unsealRecord k { j with buf := j.buf.drop (64 + len) } (j.buf.take 64) ((j.buf.drop 64).take len)
        match r.1 with
        | some st => (some st, r.2)
        | none => unsealAll k n r.2

/-- A successful unseal (R300, R325). -/
def unsealDone (s : State) (k : Nat) (j : UnsealJob) : State :=
  let i := (s.slot k).info
  let cores := stripeCores i.rows i.stripeFirst i.stripeWidth
  let s := cores.zipIdx.foldl (fun s n =>
    let e := fieldLE j.entries (4 * n.2) 2
    let g := fieldLE j.entries (4 * n.2 + 2) 2
    (s.setCore n.1 { s.core n.1 with entry := e, entryNext := e }).setRouter n.1 { s.router n.1 with entry := g, entryNext := g }) s
  (((s.onSlot k (fun x => { x with
    st := .paused, unsealJob := none, lapNext := fieldLE j.head 104 8, seedsPending := 0
    seeds := (List.range 16).map (fun n => (n, BitVec.ofNat 112 (fieldLE j.seeds (14 * n) 14))) })).openWindow k .unseal).fireSlot k 4).fireSlot k 1

/-- The bytes of an UNSEAL packet join the stream; a refusal halts the slot. -/
def feedUnseal (s : State) (p k : Nat) (q : Pkt) (j : UnsealJob) : State :=
  let j := { j with buf := j.buf ++ q.body, nextOffset := j.nextOffset + q.len }
  let r := unsealAll k (j.buf.length / 64 + 1) (s.onSlot k (fun x => { x with unsealJob := some j }))
  let fail (s : State) (st : Nat) : State := (s.haltSlot k .unsealFailed).refusePacket p q st
  match r.1, (r.2.slot k).unsealJob with
  | some st, _ => fail r.2 st
  | none, some e =>
    if !q.last then r.2.answerPacket p q e.nextOffset []
    else if e.trailer && e.buf.isEmpty then (r.2.unsealDone k e).answerPacket p q e.nextOffset []
    else fail r.2 stSEAL_INCOMPLETE
  | none, none => r.2.answerPacket p q j.nextOffset []

/-- One packet of a seal stream. -/
def unsealChunk (p : Nat) (q : Pkt) (s : State) : State :=
  let k := q.slot
  let x := s.slot k
  match s.bindRefusal with
  | some st => s.refusePacket p q st
  | none => match s.slotRefusal p k true with
    | some st => s.refusePacket p q st
    | none => match x.st, x.unsealJob with
      | .unsealing, some j => if q.arg0 == j.nextOffset then s.feedUnseal p k q j else s.refusePacket p q stLOAD_SEQUENCE
      | _, _ =>
        if q.arg0 != 0 then s.refusePacket p q stLOAD_SEQUENCE
        else if x.st != .paused || x.lapsDone != 0 then s.refusePacket p q stNOT_FRESH
        else (s.onSlot k (fun x => { x with st := .unsealing })).feedUnseal p k q ⟨[], 0, 0, none, [], [], [], [], false⟩

/-- ABANDON of an unseal. -/
def unsealAbandon (p : Nat) (q : Pkt) (s : State) : State :=
  let k := q.slot
  let x := s.slot k
  match s.bindRefusal with
  | some st => s.refusePacket p q st
  | none => match s.slotRefusal p k true with
    | some st => s.refusePacket p q st
    | none =>
      if x.st != .unsealing then s.refusePacket p q stLOAD_SEQUENCE
      else (s.haltSlot k .unsealFailed).answerPacket p q ((x.unsealJob.map (fun j => j.nextOffset)).getD 0) []

/-! MOGUL_RUN, LOGBOOK_READ, ATTEST (R349, R350, R383, R389). -/

/-- MOGUL_RUN. -/
def mogulCommand (p : Nat) (q : Pkt) (s : State) : State :=
  match s.mogulRefusal q.body (stCheck 8) with
  | some st =>
    let s := { s with mogul := { s.mogul with refused := satAdd 32 s.mogul.refused 1 } }
    let s := if st == stSTRICT_REFUSED then
      { s with det := { s.det with strictRefusals := satAdd 32 s.det.strictRefusals 1 } } else s
    s.refusePacket p q st
  | none =>
    let t := q.ticket p
    (s.onPort p (fun x => { x with async := x.async ++ [t] })).startMogul q.body t

/-- LOGBOOK_READ. -/
def logbookCommand (p : Nat) (q : Pkt) (s : State) : State :=
  s.answerPacket p q 0 ((List.range (min q.arg1 (4096 - q.arg0))).flatMap (fun i => s.logbookRecord (q.arg0 + i)))

/-- ATTEST. -/
def attestCommand (p : Nat) (q : Pkt) (s : State) : State :=
  let k := q.slot
  match s.slotRefusal p k false with
  | some st => s.refusePacket p q st
  | none =>
    if (s.slot k).st == .loading then s.refusePacket p q stLOAD_SEQUENCE
    else
      let t := s.issueTrailer k q.body (2 ^ 64 - 1)
      t.2.respondSigned p (q.answer stOK) t.1

end State
end Sys2Proof.Machine
end

