-- ==== Sys2Proof/Machine/Packet.lean ====
section
/-! DEFINITION. The meanings of the host's command packets (R383): each takes the packet at the head of a port's queue when
it is of its opcode and may start, and applies the checks of R382 before its own. -/
namespace Sys2Proof.Machine

/-- NOP (R384), and the refusal of a packet of an unused opcode (R382). -/
def execNop (p : Nat) (s : State) : Host.Outcome State Fault Refusal :=
  .next (s.runPacket p (fun q => q.opcode == 0x00 || !opcodes.contains q.opcode) (fun q s => s.answerPacket p q 0 []))

/-- DICT_READ (R444). -/
def execDictRead (p : Nat) (s : State) : Host.Outcome State Fault Refusal :=
  .next (s.runPacket p (fun q => q.opcode == 0x01) (State.packetRead p))

/-- DICT_WRITE (R444). -/
def execDictWrite (p : Nat) (s : State) : Host.Outcome State Fault Refusal :=
  .next (s.runPacket p (fun q => q.opcode == 0x02) (State.packetWrite p))

/-- IMAGE_LOAD (R385). -/
def execImageLoad (p : Nat) (s : State) : Host.Outcome State Fault Refusal :=
  .next (s.runPacket p (fun q => q.opcode == 0x10 && !q.abandon && !q.last) (State.loadChunk p))

/-- IMAGE_LOAD_FINAL (R281). -/
def execImageLoadFinal (p : Nat) (s : State) : Host.Outcome State Fault Refusal :=
  .next (s.runPacket p (fun q => q.opcode == 0x10 && !q.abandon && q.last) (State.loadChunk p))

/-- IMAGE_LOAD_ABANDON (R385). -/
def execImageLoadAbandon (p : Nat) (s : State) : Host.Outcome State Fault Refusal :=
  .next (s.runPacket p (fun q => q.opcode == 0x10 && q.abandon) (State.loadAbandon p))

/-- DATA_WRITE (R386). -/
def execDataWrite (p : Nat) (s : State) : Host.Outcome State Fault Refusal :=
  .next (s.runPacket p (fun q => q.opcode == 0x20) (State.dataCommand true p))

/-- DATA_READ (R386). -/
def execDataRead (p : Nat) (s : State) : Host.Outcome State Fault Refusal :=
  .next (s.runPacket p (fun q => q.opcode == 0x21) (State.dataCommand false p))

/-- LAUNCH (R290). -/
def execLaunch (p : Nat) (s : State) : Host.Outcome State Fault Refusal :=
  .next (s.runPacket p (fun q => q.opcode == 0x30) (State.launchRun p))

/-- HALT_AT_BOUNDARY (R291). -/
def execHaltAtBoundary (p : Nat) (s : State) : Host.Outcome State Fault Refusal :=
  .next (s.runPacket p (fun q => q.opcode == 0x31 && q.arg0 % 2 == 0) (State.haltCommand p))

/-- HALT_AT_BOUNDARY_RELEASE (R291). -/
def execHaltAtBoundaryRelease (p : Nat) (s : State) : Host.Outcome State Fault Refusal :=
  .next (s.runPacket p (fun q => q.opcode == 0x31 && q.arg0 % 2 == 1) (State.haltCommand p))

/-- SEAL (R294). -/
def execSeal (p : Nat) (s : State) : Host.Outcome State Fault Refusal :=
  .next (s.runPacket p (fun q => q.opcode == 0x32) (State.sealStart p))

/-- SEAL_RECORD_WRITE (R296). -/
def execSealRecordWrite (k : Nat) (errs : List BlockErr) (s : State) : Host.Outcome State Fault Refusal :=
  .next (if k < 8 && s.porterOn then s.sealNext k errs else s)

/-- UNSEAL (R299). -/
def execUnseal (p : Nat) (s : State) : Host.Outcome State Fault Refusal :=
  .next (s.runPacket p (fun q => q.opcode == 0x33 && !q.abandon && !q.last) (State.unsealChunk p))

/-- UNSEAL_LAST (R300). -/
def execUnsealLast (p : Nat) (s : State) : Host.Outcome State Fault Refusal :=
  .next (s.runPacket p (fun q => q.opcode == 0x33 && !q.abandon && q.last) (State.unsealChunk p))

/-- UNSEAL_ABANDON (R387). -/
def execUnsealAbandon (p : Nat) (s : State) : Host.Outcome State Fault Refusal :=
  .next (s.runPacket p (fun q => q.opcode == 0x33 && q.abandon) (State.unsealAbandon p))

/-- MOGUL_RUN (R350). -/
def execMogulRun (p : Nat) (s : State) : Host.Outcome State Fault Refusal :=
  .next (s.runPacket p (fun q => q.opcode == 0x40) (State.mogulCommand p))

/-- LOGBOOK_READ (R383). -/
def execLogbookRead (p : Nat) (s : State) : Host.Outcome State Fault Refusal :=
  .next (s.runPacket p (fun q => q.opcode == 0x50) (State.logbookCommand p))

/-- ATTEST (R389). -/
def execAttest (p : Nat) (s : State) : Host.Outcome State Fault Refusal :=
  .next (s.runPacket p (fun q => q.opcode == 0x60) (State.attestCommand p))

end Sys2Proof.Machine
end

