-- ==== Sys2Proof/Machine/Pin.lean ====
section
/-! DEFINITION. The meanings of the pin family: boundary scan and the SYNC pins (R575, R576, R584). -/
namespace Sys2Proof.Machine

/-- EXTEST (R584): drives the pins only while RESET_N is held low, and behaves as BYPASS otherwise. -/
def execExtest (drive : BitVec 64) (s : State) : Host.Outcome State Fault Refusal :=
  .next { s with pins :=
    if s.start.resetN then { s.pins with jtag := 0, pinDrive := none }
    else { s.pins with jtag := 2, pinDrive := some drive, boundary := drive } }

/-- SAMPLE_PRELOAD (R584): the boundary register takes what is shifted in; the pins keep their function. -/
def execSamplePreload (shifted : BitVec 64) (s : State) : Host.Outcome State Fault Refusal :=
  .next { s with pins := { s.pins with jtag := 1, boundary := shifted, pinDrive := none } }

/-- BYPASS (R584). -/
def execBypass (s : State) : Host.Outcome State Fault Refusal :=
  .next { s with pins := { s.pins with jtag := 0, pinDrive := none } }

/-- SYNC_IN (R576): the edge is stamped with the RINK count, 0 while it is held. -/
def execSyncIn (s : State) : Host.Outcome State Fault Refusal :=
  .next (if !s.start.pwrOk then s else { s with pins := { s.pins with
    syncStamp := if s.rinkRun then s.rink else 0, syncCount := satAdd 32 s.pins.syncCount 1 } })

/-- A multiple of the SYNC_OUT period: a period written takes effect here, and the pin goes high for 64 cc from each
multiple of the period in effect (R575). -/
def State.syncOut (s : State) : State :=
  if !s.rinkRun || s.rink % 2 ^ s.pins.syncShift != 0 then s
  else
    let n := s.pins.syncShiftNext.getD s.pins.syncShift
    { s with pins := { s.pins with
      syncShift := n, syncShiftNext := none
      syncOutUntil := if s.rink % 2 ^ n == 0 then some (s.now + 64) else s.pins.syncOutUntil } }

/-- SYNC_OUT (R575). -/
def execSyncOut (s : State) : Host.Outcome State Fault Refusal := .next s.syncOut

end Sys2Proof.Machine
end

