-- ==== Sys2Proof/Machine/Power.lean ====
section
/-! DEFINITION. The meanings of the power family (R462 to R480). -/
namespace Sys2Proof.Machine

/-- DOMAIN_ENTRY_COMMIT (R462). -/
def execDomainEntryCommit (d : Nat) (s : State) : Host.Outcome State Fault Refusal := .next (s.commitEntry d)

/-- WAKE_ARM (R464). -/
def execWakeArm (d : Nat) (s : State) : Host.Outcome State Fault Refusal := .next (s.armWake d)

/-- DOMAIN_WAKE_COMPLETE (R466). -/
def execDomainWakeComplete (d : Nat) (s : State) : Host.Outcome State Fault Refusal := .next (s.wakeComplete d)

/-- COMPARATOR_EVENT (R467). -/
def execComparatorEvent (n uv : Nat) (s : State) : Host.Outcome State Fault Refusal := .next (s.comparatorEvent n uv)

/-- COMPARATOR_DEASSERT (R467). -/
def execComparatorDeassert (n uv : Nat) (s : State) : Host.Outcome State Fault Refusal := .next (s.comparatorClear n uv)

/-- METER_SAMPLE (R471). -/
def execMeterSample (energy : List Nat) (rails : List RailReading) (s : State) : Host.Outcome State Fault Refusal :=
  .next (s.meterSample energy rails)

/-- THERMAL_SAMPLE (R478). -/
def execThermalSample (temps : List Int) (s : State) : Host.Outcome State Fault Refusal := .next (s.thermalSample temps)

/-- A slot that has waited longer than STARVE_LIMIT blocks every slot of lower priority until it is admitted (R475). -/
def State.starve (s : State) (k : Nat) : State :=
  let x := s.slot k
  if x.stage == .waiting && !x.admitted && s.louvre.starveLimit * 1600 < s.now - x.waitSince then
    s.onSlot k (fun x => { x with starved := true })
  else s

/-- STARVE_LIMIT_EXPIRY (R475). -/
def execStarveLimitExpiry (k : Nat) (s : State) : Host.Outcome State Fault Refusal := .next (s.starve k)

/-- The start-up hold ends 100 ms after PORTER first reached ON (R477). -/
def State.endHold (s : State) : State :=
  match s.louvre.holdFrom with
  | some t => if s.now == t + 160000000 && s.louvre.hold then { s with louvre := { s.louvre with hold := false } } else s
  | none => s

/-- STARTUP_HOLD_END (R477). -/
def execStartupHoldEnd (s : State) : Host.Outcome State Fault Refusal := .next s.endHold

end Sys2Proof.Machine
end

