-- ==== Sys2Proof/Machine/Report.lean ====
section
/-! DEFINITION. What the mesh reports to the Porter, staging, reloads and dead sites (R84, R226, R234, R510, R511, R514,
R515, R527). -/
namespace Sys2Proof.Machine
namespace State

/-- A report is this one. -/
def isReport (src : Nat) (router : Bool) (seq : Nat) (r : TrapReport) : Bool :=
  r.src == src && r.router == router && r.seq == seq

/-- Replace a report. -/
def setReport (s : State) (src : Nat) (router : Bool) (seq : Nat) (f : TrapReport → TrapReport) : State :=
  { s with grid := { s.grid with reports := s.grid.reports.map (fun r => if isReport src router seq r then f r else r) } }

/-- Drop a report. -/
def dropReport (s : State) (src : Nat) (router : Bool) (seq : Nat) : State :=
  { s with grid := { s.grid with reports := s.grid.reports.filter (fun r => !isReport src router seq r) } }

/-- A message whose header is of a type, from a source, with a sequence number (R225). -/
def isMessage (type src seq : Nat) (m : List (BitVec 120)) : Bool :=
  hdrType (m.headD 0) == type && hdrSrc (m.headD 0) == src && hdrSeq (m.headD 0) == seq

/-- The channel as given. -/
def setTransom (s : State) (t : Transom) : State := { s with grid := { s.grid with transom := t } }

/-- An URGENT message of one flit enters the channel at node n. -/
def urgent (s : State) (n dest src type seq : Nat) : State :=
  s.setTransom (s.grid.transom.inject n (headerFlit dest src type 1 seq 0) [])

/-- A report has reached the Porter, which acknowledges it and enters it once, as its payload says it (R84, R226). A report
of a router of no course is counted alone (R229). -/
def takeReport (s : State) (src : Nat) (router : Bool) (seq : Nat) : State :=
  match s.grid.transom.takePorter (isMessage tyTRAP_REPORT src seq) with
  | none => s
  | some (m, t) =>
    if s.grid.reports.any (isReport src (!router) seq) then s
    else
      let p := hdrPayload (m.headD 0)
      let s := (s.setTransom t).urgent (0x4000 + coreY src) src destPorter tyTRAP_ACK seq
      match s.grid.reports.find? (isReport src router seq) with
      | none => s
      | some r =>
        if r.received then s
        else
          let s := s.setReport src router seq (fun r => { r with received := true })
          let s := { s with grid := { s.grid with trapReports := satAdd 32 s.grid.trapReports 1 } }
          let k := bitsOf p 63 60
          if 8 ≤ k then s else s.enterFirst k r.attempt ⟨src, bitsOf p 71 64, bitsOf p 59 42, bitsOf p 41 31⟩

/-- A report is sent again, 1,024 cc after the last time (R226); a core's is dropped at a set fence latch of the site that
it trapped at, and counted (R230). -/
def resendReport (s : State) (src : Nat) (router : Bool) (seq : Nat) : State :=
  match s.grid.reports.find? (isReport src router seq) with
  | some r =>
    if s.now != r.sent + 1024 then s
    else
      let s := s.setReport src router seq (fun r => { r with sent := s.now })
      if !router && (s.site r.site).fence then
        { s with grid := { s.grid with fenceDrops := satAdd 64 s.grid.fenceDrops 1 } }
      else s.setTransom (s.grid.transom.inject src (reportFlit r) [])
  | none => s

/-- The acknowledgement of a report has reached its sender, which sends it no more. -/
def ackReport (s : State) (src : Nat) (router : Bool) (seq : Nat) : State :=
  match s.grid.transom.takeAt src (isMessage tyTRAP_ACK destPorter seq) with
  | none => s
  | some (_, t) =>
    if s.grid.reports.any (isReport src router seq) then (s.setTransom t).dropReport src router seq else s

/-- A STAGE message is the one that says this of a site. -/
def isStage (site : Nat) (fence bypass : Bool) (n m : Int) (g : StageMsg) : Bool :=
  g.site == site && g.fence == fence && g.bypass == bypass && g.nsteer == n && g.ssteer == m

/-- The router of a site keeps the values of STAGE message g until a COMMIT. -/
def keepStage (s : State) (g : StageMsg) : State :=
  let s := { s with grid := { s.grid with
    stages := s.grid.stages.map (fun (h : StageMsg) => if h == g then { h with applied := true } else h) } }
  s.setSite g.site { s.site g.site with staged := some (g.fence, g.bypass, g.nsteer, g.ssteer) }

/-- A STAGE message has reached its router, which acknowledges it with its sequence number (R234). -/
def stageSite (s : State) (site : Nat) (fence bypass : Bool) (n m : Int) : State :=
  match s.grid.stages.find? (isStage site fence bypass n m) with
  | none => s
  | some g =>
    match s.coreAt site with
    | none => s.keepStage g
    | some c =>
      match s.grid.transom.takeAt c (isMessage tySTAGE destPorter g.seq) with
      | none => s
      | some (_, t) => ((s.setTransom t).keepStage g).urgent c destPorter c tySTAGE_ACK g.seq

/-- STAGE message g is acknowledged; the last one lets COMMIT be driven (R234). -/
def endStage (s : State) (g : StageMsg) : State :=
  { s with grid := { s.grid with stages := s.grid.stages.filter (fun h => h.site != g.site) } }.driveCommit

/-- A STAGE_ACK has reached the Porter (R234). -/
def ackStage (s : State) (site : Nat) : State :=
  match s.grid.stages.find? (fun g => g.site == site && g.applied) with
  | none => s
  | some g =>
    match s.coreAt site with
    | none => s.endStage g
    | some c =>
      match s.grid.transom.takePorter (isMessage tySTAGE_ACK c g.seq) with
      | none => s
      | some (_, t) => (s.setTransom t).endStage g

/-- A GATE_LOAD header of the Porter's to router n (R225). -/
def isGateLoad (n : Nat) (h : BitVec 120) : Bool :=
  hdrDest h == n && hdrSrc h == destPorter && hdrType h == tyGATE_LOAD

/-- Gate-table contents reach router n between laps (R210, R225); each entry is stored with its check bytes. The manual gives
the payload's layout nowhere, so that the entries come as they are (assumption 34). -/
def loadGates (s : State) (n : Nat) (header : BitVec 120) (first : Nat) (entries : List (BitVec 128)) : State :=
  let r := s.router n
  if !isGateLoad n header || !Table.has n s.grid.routers || s.attemptOpen r.slot || 512 < first + entries.length then s
  else s.setRouter n { r with table := entries.zipIdx.foldl (fun t e => Table.put (first + e.2) (rsWord e.1) t) r.table }

/-- The reload of slot k's moved or faulted cores is complete (R510, R511). -/
def completeReload (s : State) (k : Nat) : State :=
  let l := (s.slot k).reloads
  if l.isEmpty || s.attemptOpen k || s.heldBySites k then s
  else ((s.reloadAll l).onSlot k (fun x => { x with reloads := [], reloadFrom := none })).resume k

/-- The monitor of a site trips: a fault of the slot that owns the site, or DEVICE for a site of no course, and the site has
failed (R223, R514, R515). -/
def deadSite (s : State) (site : Nat) : State :=
  let s := match s.coreAt site, s.ownerOf site with
    | some c, some k => s.raiseNow k c 0x3A
    | _, _ => { s with grid := { s.grid with deviceDrives := s.now :: s.grid.deviceDrives } }
  (s.decideFailed site).startSites

end State

/-- TRAP_REPORT (R226). -/
def execTrapReport (src : Nat) (router : Bool) (seq : Nat) (s : State) : Host.Outcome State Fault Refusal :=
  .next (s.takeReport src router seq)

/-- TRAP_REPORT_RESEND (R226). -/
def execTrapReportResend (src : Nat) (router : Bool) (seq : Nat) (s : State) : Host.Outcome State Fault Refusal :=
  .next (s.resendReport src router seq)

/-- TRAP_ACK (R226). -/
def execTrapAck (src : Nat) (router : Bool) (seq : Nat) (s : State) : Host.Outcome State Fault Refusal :=
  .next (s.ackReport src router seq)

/-- STAGE (R234). -/
def execStage (site : Nat) (fence bypass : Bool) (nsteer ssteer : BitVec 3) (s : State) : Host.Outcome State Fault Refusal :=
  .next (s.stageSite site fence bypass nsteer.toInt ssteer.toInt)

/-- STAGE_ACK (R234). -/
def execStageAck (site : Nat) (s : State) : Host.Outcome State Fault Refusal := .next (s.ackStage site)

/-- GATE_LOAD (R225). -/
def execGateLoad (n : Nat) (header : BitVec 120) (first : Nat) (entries : List (BitVec 128)) (s : State) : Host.Outcome State Fault Refusal :=
  .next (s.loadGates n header first entries)

/-- RELOAD_COMPLETE (R511). -/
def execReloadComplete (k : Nat) (s : State) : Host.Outcome State Fault Refusal := .next (s.completeReload k)

/-- SITE_DEAD (R515). -/
def execSiteDead (site : Nat) (s : State) : Host.Outcome State Fault Refusal := .next (s.deadSite site)

/-- PORTER_MISMATCH (R527). -/
def execPorterMismatch (s : State) : Host.Outcome State Fault Refusal := .next (s.loseDevice 4)

end Sys2Proof.Machine
end

