-- ==== Sys2Proof/Machine/Vector.lean ====
section
/-! DEFINITION. The VX operations (R69, R70, R89 to R120). -/
namespace Sys2Proof.Machine

/-- FADD (R104). -/
def execFadd (n : Nat) (f : VxFields) (upset : Bool) (s : State) : Host.Outcome State Fault Refusal :=
  .next (s.onVx n 0x01 f upset (fun k x => k.vx2 x f 4 fpAdd))

/-- FSUB (R104). -/
def execFsub (n : Nat) (f : VxFields) (upset : Bool) (s : State) : Host.Outcome State Fault Refusal :=
  .next (s.onVx n 0x02 f upset (fun k x => k.vx2 x f 4 fpSub))

/-- FMUL (R104). -/
def execFmul (n : Nat) (f : VxFields) (upset : Bool) (s : State) : Host.Outcome State Fault Refusal :=
  .next (s.onVx n 0x03 f upset (fun k x => k.vx2 x f 4 fpMul))

/-- FMA (R104). -/
def execFma (n : Nat) (f : VxFields) (upset : Bool) (s : State) : Host.Outcome State Fault Refusal :=
  .next (s.onVx n 0x04 f upset (fun k x => k.vxLanes x f 4 (fun k i =>
    fpFma (lane (k.rv f.va.toNat) i) (lane (k.rv f.vb.toNat) i) (lane (k.rv f.vc.toNat) i))))

/-- FMIN (R105). -/
def execFmin (n : Nat) (f : VxFields) (upset : Bool) (s : State) : Host.Outcome State Fault Refusal :=
  .next (s.onVx n 0x05 f upset (fun k x => k.vx2 x f 2 (fun a b => (fpMin a b, 0))))

/-- FMAX (R105). -/
def execFmax (n : Nat) (f : VxFields) (upset : Bool) (s : State) : Host.Outcome State Fault Refusal :=
  .next (s.onVx n 0x06 f upset (fun k x => k.vx2 x f 2 (fun a b => (fpMax a b, 0))))

/-- FCMPLT (R69). -/
def execFcmplt (n : Nat) (f : VxFields) (upset : Bool) (s : State) : Host.Outcome State Fault Refusal :=
  .next (s.onVx n 0x07 f upset (fun k x => k.vxCompare x f 2 (fun a b => (fp32 a).lt (fp32 b))))

/-- FCMPEQ (R69). -/
def execFcmpeq (n : Nat) (f : VxFields) (upset : Bool) (s : State) : Host.Outcome State Fault Refusal :=
  .next (s.onVx n 0x08 f upset (fun k x => k.vxCompare x f 2 (fun a b => (fp32 a).eqv (fp32 b))))

/-- SEL (R69). -/
def execSel (n : Nat) (f : VxFields) (upset : Bool) (s : State) : Host.Outcome State Fault Refusal :=
  .next (s.onVx n 0x09 f upset (fun k x => k.vxSel x f))

/-- IADD (R69). -/
def execIadd (n : Nat) (f : VxFields) (upset : Bool) (s : State) : Host.Outcome State Fault Refusal :=
  .next (s.onVx n 0x0A f upset (fun k x => k.vx2 x f 1 (fun a b => (a + b, 0))))

/-- ISUB (R69). -/
def execIsub (n : Nat) (f : VxFields) (upset : Bool) (s : State) : Host.Outcome State Fault Refusal :=
  .next (s.onVx n 0x0B f upset (fun k x => k.vx2 x f 1 (fun a b => (a - b, 0))))

/-- AND (R69). -/
def execAnd (n : Nat) (f : VxFields) (upset : Bool) (s : State) : Host.Outcome State Fault Refusal :=
  .next (s.onVx n 0x0C f upset (fun k x => k.vx2 x f 1 (fun a b => (a &&& b, 0))))

/-- OR (R69). -/
def execOr (n : Nat) (f : VxFields) (upset : Bool) (s : State) : Host.Outcome State Fault Refusal :=
  .next (s.onVx n 0x0D f upset (fun k x => k.vx2 x f 1 (fun a b => (a ||| b, 0))))

/-- XOR (R69). -/
def execXor (n : Nat) (f : VxFields) (upset : Bool) (s : State) : Host.Outcome State Fault Refusal :=
  .next (s.onVx n 0x0E f upset (fun k x => k.vx2 x f 1 (fun a b => (a ^^^ b, 0))))

/-- SHL (R69). -/
def execShl (n : Nat) (f : VxFields) (upset : Bool) (s : State) : Host.Outcome State Fault Refusal :=
  .next (s.onVx n 0x0F f upset (fun k x => k.vx2 x f 1 (fun a b => (a <<< (b.toNat % 32), 0))))

/-- SHR (R69). -/
def execShr (n : Nat) (f : VxFields) (upset : Bool) (s : State) : Host.Outcome State Fault Refusal :=
  .next (s.onVx n 0x10 f upset (fun k x => k.vx2 x f 1 (fun a b => (a >>> (b.toNat % 32), 0))))

/-- IMAX (R69). -/
def execImax (n : Nat) (f : VxFields) (upset : Bool) (s : State) : Host.Outcome State Fault Refusal :=
  .next (s.onVx n 0x11 f upset (fun k x => k.vx2 x f 1 (fun a b => (if a.slt b then b else a, 0))))

/-- ICMPLT (R69). -/
def execIcmplt (n : Nat) (f : VxFields) (upset : Bool) (s : State) : Host.Outcome State Fault Refusal :=
  .next (s.onVx n 0x12 f upset (fun k x => k.vxCompare x f 1 (fun a b => a.slt b)))

/-- EXP2 (R107). -/
def execExp2 (n : Nat) (f : VxFields) (upset : Bool) (s : State) : Host.Outcome State Fault Refusal :=
  .next (s.onVx n 0x13 f upset (fun k x => k.vx1 x f 8 fpExp2))

/-- LOG2 (R107). -/
def execLog2 (n : Nat) (f : VxFields) (upset : Bool) (s : State) : Host.Outcome State Fault Refusal :=
  .next (s.onVx n 0x14 f upset (fun k x => k.vx1 x f 8 fpLog2))

/-- RSQRT (R107). -/
def execRsqrt (n : Nat) (f : VxFields) (upset : Bool) (s : State) : Host.Outcome State Fault Refusal :=
  .next (s.onVx n 0x15 f upset (fun k x => k.vx1 x f 10 fpRsqrt))

/-- RCP (R107). -/
def execRcp (n : Nat) (f : VxFields) (upset : Bool) (s : State) : Host.Outcome State Fault Refusal :=
  .next (s.onVx n 0x16 f upset (fun k x => k.vx1 x f 8 fpRcp))

/-- CVTN_RNE (R111). -/
def execCvtnRne (n : Nat) (f : VxFields) (upset : Bool) (s : State) : Host.Outcome State Fault Refusal :=
  .next (s.onVx n 0x17 f upset (fun k x => k.vxNarrow x f (fun _ _ => .rne)))

/-- CVTN_RTZ (R111). -/
def execCvtnRtz (n : Nat) (f : VxFields) (upset : Bool) (s : State) : Host.Outcome State Fault Refusal :=
  .next (s.onVx n 0x18 f upset (fun k x => k.vxNarrow x f (fun _ _ => .rtz)))

/-- CVTN_SR (R116). -/
def execCvtnSr (n : Nat) (f : VxFields) (upset : Bool) (s : State) : Host.Outcome State Fault Refusal :=
  .next (s.onVx n 0x19 f upset (fun k x => k.vxNarrow x f (fun k i => .sr 16 ((lane (k.rv f.vb.toNat) i).toNat % 2 ^ 16))))

/-- CVTW (R119). -/
def execCvtw (n : Nat) (f : VxFields) (upset : Bool) (s : State) : Host.Outcome State Fault Refusal :=
  .next (s.onVx n 0x1A f upset (fun k x => k.vxWiden x f))

/-- VSCALE (R94). -/
def execVscale (n : Nat) (f : VxFields) (upset : Bool) (s : State) : Host.Outcome State Fault Refusal :=
  .next (s.onVx n 0x1B f upset (fun k x => k.vxScale x f))

/-- SHUF (R69). -/
def execShuf (n : Nat) (f : VxFields) (upset : Bool) (s : State) : Host.Outcome State Fault Refusal :=
  .next (s.onVx n 0x1C f upset (fun k x => k.vxShuf x f))

/-- BCAST (R69). -/
def execBcast (n : Nat) (f : VxFields) (upset : Bool) (s : State) : Host.Outcome State Fault Refusal :=
  .next (s.onVx n 0x1D f upset (fun k x => k.vxBcast x f))

/-- VMAXI (R70). -/
def execVmaxi (n : Nat) (f : VxFields) (upset : Bool) (s : State) : Host.Outcome State Fault Refusal :=
  .next (s.onVx n 0x1E f upset (fun k x => k.vxPick x f higher))

/-- VMINI (R70). -/
def execVmini (n : Nat) (f : VxFields) (upset : Bool) (s : State) : Host.Outcome State Fault Refusal :=
  .next (s.onVx n 0x1F f upset (fun k x => k.vxPick x f lower))

/-- VSUM (R70). -/
def execVsum (n : Nat) (f : VxFields) (upset : Bool) (s : State) : Host.Outcome State Fault Refusal :=
  .next (s.onVx n 0x20 f upset (fun k x => k.vxSum x f))

/-- LPADD (R100). -/
def execLpadd (n : Nat) (f : VxFields) (upset : Bool) (s : State) : Host.Outcome State Fault Refusal :=
  .next (s.onVx n 0x21 f upset (fun k x => k.vxLp x f 6 lpAdd))

/-- LPMUL (R99). -/
def execLpmul (n : Nat) (f : VxFields) (upset : Bool) (s : State) : Host.Outcome State Fault Refusal :=
  .next (s.onVx n 0x22 f upset (fun k x => k.vxLp x f 1 lpMul))

end Sys2Proof.Machine
end

