-- ==== Sys2Proof/Machine/Dispatch.lean ====
section
/-! DEFINITION. One arm per command. -/
namespace Sys2Proof.Machine

/-- The effect of a command on everything but the queue. -/
def exec (i : Instr) (s : State) : Host.Outcome State Fault Refusal :=
  match i with
  | .loop n arg upset => Sys2Proof.Machine.execLoop n arg upset s
  | .endl n arg upset => Sys2Proof.Machine.execEndl n arg upset s
  | .wait n arg upset => Sys2Proof.Machine.execWait n arg upset s
  | .endLap n arg upset => Sys2Proof.Machine.execEndLap n arg upset s
  | .rdflag n arg upset => Sys2Proof.Machine.execRdflag n arg upset s
  | .rdcc n arg upset => Sys2Proof.Machine.execRdcc n arg upset s
  | .rdlap n arg upset => Sys2Proof.Machine.execRdlap n arg upset s
  | .mma n f upset => Sys2Proof.Machine.execMma n f upset s
  | .mmal n f upset => Sys2Proof.Machine.execMmal n f upset s
  | .mmaRetire n err upset => Sys2Proof.Machine.execMmaRetire n err upset s
  | .fadd n f upset => Sys2Proof.Machine.execFadd n f upset s
  | .fsub n f upset => Sys2Proof.Machine.execFsub n f upset s
  | .fmul n f upset => Sys2Proof.Machine.execFmul n f upset s
  | .fma n f upset => Sys2Proof.Machine.execFma n f upset s
  | .fmin n f upset => Sys2Proof.Machine.execFmin n f upset s
  | .fmax n f upset => Sys2Proof.Machine.execFmax n f upset s
  | .fcmplt n f upset => Sys2Proof.Machine.execFcmplt n f upset s
  | .fcmpeq n f upset => Sys2Proof.Machine.execFcmpeq n f upset s
  | .sel n f upset => Sys2Proof.Machine.execSel n f upset s
  | .iadd n f upset => Sys2Proof.Machine.execIadd n f upset s
  | .isub n f upset => Sys2Proof.Machine.execIsub n f upset s
  | .and n f upset => Sys2Proof.Machine.execAnd n f upset s
  | .or n f upset => Sys2Proof.Machine.execOr n f upset s
  | .xor n f upset => Sys2Proof.Machine.execXor n f upset s
  | .shl n f upset => Sys2Proof.Machine.execShl n f upset s
  | .shr n f upset => Sys2Proof.Machine.execShr n f upset s
  | .imax n f upset => Sys2Proof.Machine.execImax n f upset s
  | .icmplt n f upset => Sys2Proof.Machine.execIcmplt n f upset s
  | .exp2 n f upset => Sys2Proof.Machine.execExp2 n f upset s
  | .log2 n f upset => Sys2Proof.Machine.execLog2 n f upset s
  | .rsqrt n f upset => Sys2Proof.Machine.execRsqrt n f upset s
  | .rcp n f upset => Sys2Proof.Machine.execRcp n f upset s
  | .cvtnRne n f upset => Sys2Proof.Machine.execCvtnRne n f upset s
  | .cvtnRtz n f upset => Sys2Proof.Machine.execCvtnRtz n f upset s
  | .cvtnSr n f upset => Sys2Proof.Machine.execCvtnSr n f upset s
  | .cvtw n f upset => Sys2Proof.Machine.execCvtw n f upset s
  | .vscale n f upset => Sys2Proof.Machine.execVscale n f upset s
  | .shuf n f upset => Sys2Proof.Machine.execShuf n f upset s
  | .bcast n f upset => Sys2Proof.Machine.execBcast n f upset s
  | .vmaxi n f upset => Sys2Proof.Machine.execVmaxi n f upset s
  | .vmini n f upset => Sys2Proof.Machine.execVmini n f upset s
  | .vsum n f upset => Sys2Proof.Machine.execVsum n f upset s
  | .lpadd n f upset => Sys2Proof.Machine.execLpadd n f upset s
  | .lpmul n f upset => Sys2Proof.Machine.execLpmul n f upset s
  | .raw n f upset => Sys2Proof.Machine.execRaw n f upset s
  | .norm32 n f upset => Sys2Proof.Machine.execNorm32 n f upset s
  | .norm16 n f upset => Sys2Proof.Machine.execNorm16 n f upset s
  | .gumb n f upset => Sys2Proof.Machine.execGumb n f upset s
  | .bernp n f upset => Sys2Proof.Machine.execBernp n f upset s
  | .bernl n f upset => Sys2Proof.Machine.execBernl n f upset s
  | .ldv n f upset => Sys2Proof.Machine.execLdv n f upset s
  | .stv n f upset => Sys2Proof.Machine.execStv n f upset s
  | .lds n f upset => Sys2Proof.Machine.execLds n f upset s
  | .sts n f upset => Sys2Proof.Machine.execSts n f upset s
  | .ldvx n f upset => Sys2Proof.Machine.execLdvx n f upset s
  | .stvx n f upset => Sys2Proof.Machine.execStvx n f upset s
  | .gath n f upset lanes => Sys2Proof.Machine.execGath n f upset lanes s
  | .scat n f upset => Sys2Proof.Machine.execScat n f upset s
  | .tout n f upset => Sys2Proof.Machine.execTout n f upset s
  | .tpeek n f upset => Sys2Proof.Machine.execTpeek n f upset s
  | .sadd n f upset => Sys2Proof.Machine.execSadd n f upset s
  | .ssub n f upset => Sys2Proof.Machine.execSsub n f upset s
  | .sand n f upset => Sys2Proof.Machine.execSand n f upset s
  | .sor n f upset => Sys2Proof.Machine.execSor n f upset s
  | .sxor n f upset => Sys2Proof.Machine.execSxor n f upset s
  | .sshl n f upset => Sys2Proof.Machine.execSshl n f upset s
  | .sshr n f upset => Sys2Proof.Machine.execSshr n f upset s
  | .saddi n f upset => Sys2Proof.Machine.execSaddi n f upset s
  | .aaddi n f upset => Sys2Proof.Machine.execAaddi n f upset s
  | .afroms n f upset => Sys2Proof.Machine.execAfroms n f upset s
  | .sfroma n f upset => Sys2Proof.Machine.execSfroma n f upset s
  | .movvs n f upset => Sys2Proof.Machine.execMovvs n f upset s
  | .movsv n f upset => Sys2Proof.Machine.execMovsv n f upset s
  | .send n f upset => Sys2Proof.Machine.execSend n f upset s
  | .recv n f upset => Sys2Proof.Machine.execRecv n f upset s
  | .sendm n f upset => Sys2Proof.Machine.execSendm n f upset s
  | .recvm n f upset => Sys2Proof.Machine.execRecvm n f upset s
  | .mrd n f upset => Sys2Proof.Machine.execMrd n f upset s
  | .mwr n f upset => Sys2Proof.Machine.execMwr n f upset s
  | .memorySlotSend n slot upset => Sys2Proof.Machine.execMemorySlotSend n slot upset s
  | .memorySlotReturn n slot => Sys2Proof.Machine.execMemorySlotReturn n slot s
  | .lapEnd k => Sys2Proof.Machine.execLapEnd k s
  | .gateNext n err holds => Sys2Proof.Machine.execGateNext n err holds s
  | .gateEnda n err holds => Sys2Proof.Machine.execGateEnda n err holds s
  | .gateEndb n err holds => Sys2Proof.Machine.execGateEndb n err holds s
  | .gateStop n err holds => Sys2Proof.Machine.execGateStop n err holds s
  | .add n mismatch holds => Sys2Proof.Machine.execAdd n mismatch holds s
  | .maxIdx n mismatch holds => Sys2Proof.Machine.execMaxIdx n mismatch holds s
  | .minIdx n mismatch holds => Sys2Proof.Machine.execMinIdx n mismatch holds s
  | .top8First n mismatch holds => Sys2Proof.Machine.execTop8First n mismatch holds s
  | .top8Second n mismatch holds => Sys2Proof.Machine.execTop8Second n mismatch holds s
  | .linkTransfer n dir t err holds => Sys2Proof.Machine.execLinkTransfer n dir t err holds s
  | .launchDrive k => Sys2Proof.Machine.execLaunchDrive k s
  | .schussLaunch k word errs => Sys2Proof.Machine.execSchussLaunch k word errs s
  | .schussAbort k word => Sys2Proof.Machine.execSchussAbort k word s
  | .schussCommit word => Sys2Proof.Machine.execSchussCommit word s
  | .tick word => Sys2Proof.Machine.execTick word s
  | .faultLine k => Sys2Proof.Machine.execFaultLine k s
  | .lapBoundary k errs => Sys2Proof.Machine.execLapBoundary k errs s
  | .lapDigestReady k => Sys2Proof.Machine.execLapDigestReady k s
  | .trapReport src router seq => Sys2Proof.Machine.execTrapReport src router seq s
  | .trapReportResend src router seq => Sys2Proof.Machine.execTrapReportResend src router seq s
  | .trapAck src router seq => Sys2Proof.Machine.execTrapAck src router seq s
  | .stage site fence bypass nsteer ssteer => Sys2Proof.Machine.execStage site fence bypass nsteer ssteer s
  | .stageAck site => Sys2Proof.Machine.execStageAck site s
  | .gateLoad n header first entries => Sys2Proof.Machine.execGateLoad n header first entries s
  | .reloadComplete k => Sys2Proof.Machine.execReloadComplete k s
  | .siteDead site => Sys2Proof.Machine.execSiteDead site s
  | .memoryRequest j period => Sys2Proof.Machine.execMemoryRequest j period s
  | .edgeTransfer stack link t err => Sys2Proof.Machine.execEdgeTransfer stack link t err s
  | .slicePeriod j errs => Sys2Proof.Machine.execSlicePeriod j errs s
  | .readDataReady j => Sys2Proof.Machine.execReadDataReady j s
  | .scrub j errs => Sys2Proof.Machine.execScrub j errs s
  | .serviceAccess j errs => Sys2Proof.Machine.execServiceAccess j errs s
  | .slicePhyFault j => Sys2Proof.Machine.execSlicePhyFault j s
  | .rebuildComplete j errs => Sys2Proof.Machine.execRebuildComplete j errs s
  | .stackInterfaceFailure stack => Sys2Proof.Machine.execStackInterfaceFailure stack s
  | .apertureWrite p off bytes via => Sys2Proof.Machine.execApertureWrite p off bytes via s
  | .post p w value via => Sys2Proof.Machine.execPost p w value via s
  | .returnAreaWrite p size value => Sys2Proof.Machine.execReturnAreaWrite p size value s
  | .returnHead p value => Sys2Proof.Machine.execReturnHead p value s
  | .sealHead p value => Sys2Proof.Machine.execSealHead p value s
  | .responsePost p => Sys2Proof.Machine.execResponsePost p s
  | .nop p => Sys2Proof.Machine.execNop p s
  | .dictRead p => Sys2Proof.Machine.execDictRead p s
  | .dictWrite p => Sys2Proof.Machine.execDictWrite p s
  | .imageLoad p => Sys2Proof.Machine.execImageLoad p s
  | .imageLoadFinal p => Sys2Proof.Machine.execImageLoadFinal p s
  | .imageLoadAbandon p => Sys2Proof.Machine.execImageLoadAbandon p s
  | .dataWrite p => Sys2Proof.Machine.execDataWrite p s
  | .dataRead p => Sys2Proof.Machine.execDataRead p s
  | .launch p => Sys2Proof.Machine.execLaunch p s
  | .haltAtBoundary p => Sys2Proof.Machine.execHaltAtBoundary p s
  | .haltAtBoundaryRelease p => Sys2Proof.Machine.execHaltAtBoundaryRelease p s
  | .seal p => Sys2Proof.Machine.execSeal p s
  | .sealRecordWrite k errs => Sys2Proof.Machine.execSealRecordWrite k errs s
  | .unseal p => Sys2Proof.Machine.execUnseal p s
  | .unsealLast p => Sys2Proof.Machine.execUnsealLast p s
  | .unsealAbandon p => Sys2Proof.Machine.execUnsealAbandon p s
  | .mogulRun p => Sys2Proof.Machine.execMogulRun p s
  | .logbookRead p => Sys2Proof.Machine.execLogbookRead p s
  | .attest p => Sys2Proof.Machine.execAttest p s
  | .flr p => Sys2Proof.Machine.execFlr p s
  | .pcieLinkLoss p => Sys2Proof.Machine.execPcieLinkLoss p s
  | .perstN p => Sys2Proof.Machine.execPerstN p s
  | .pcieLinkUp p width => Sys2Proof.Machine.execPcieLinkUp p width s
  | .configSpaceLoaded p payload => Sys2Proof.Machine.execConfigSpaceLoaded p payload s
  | .ideIntegrityFailure p stream => Sys2Proof.Machine.execIdeIntegrityFailure p stream s
  | .handover via value => Sys2Proof.Machine.execHandover via value s
  | .takeover via value => Sys2Proof.Machine.execTakeover via value s
  | .takeoverDeny via value => Sys2Proof.Machine.execTakeoverDeny via value s
  | .takeoverGraceExpiry k => Sys2Proof.Machine.execTakeoverGraceExpiry k s
  | .seed via k x bytes => Sys2Proof.Machine.execSeed via k x bytes s
  | .seedFromNoise via value => Sys2Proof.Machine.execSeedFromNoise via value s
  | .strict via value => Sys2Proof.Machine.execStrict via value s
  | .strictLock via value => Sys2Proof.Machine.execStrictLock via value s
  | .oracleOut via => Sys2Proof.Machine.execOracleOut via s
  | .entropyPort via => Sys2Proof.Machine.execEntropyPort via s
  | .probeGo via value => Sys2Proof.Machine.execProbeGo via value s
  | .rootPllLockLost via value => Sys2Proof.Machine.execRootPllLockLost via value s
  | .deviceReset via value => Sys2Proof.Machine.execDeviceReset via value s
  | .domainReq via d value => Sys2Proof.Machine.execDomainReq via d value s
  | .domainEntryCommit d => Sys2Proof.Machine.execDomainEntryCommit d s
  | .wakeArm d => Sys2Proof.Machine.execWakeArm d s
  | .domainWakeComplete d => Sys2Proof.Machine.execDomainWakeComplete d s
  | .padRelease via value => Sys2Proof.Machine.execPadRelease via value s
  | .comparatorEvent n uv => Sys2Proof.Machine.execComparatorEvent n uv s
  | .meterSample energy rails => Sys2Proof.Machine.execMeterSample energy rails s
  | .thermalSample temps => Sys2Proof.Machine.execThermalSample temps s
  | .starveLimitExpiry k => Sys2Proof.Machine.execStarveLimitExpiry k s
  | .startupHoldEnd => Sys2Proof.Machine.execStartupHoldEnd s
  | .settlingEnd n => Sys2Proof.Machine.execSettlingEnd n s
  | .blockPass n raw => Sys2Proof.Machine.execBlockPass n raw s
  | .blockFail n raw => Sys2Proof.Machine.execBlockFail n raw s
  | .drbgGenerate => Sys2Proof.Machine.execDrbgGenerate s
  | .drbgReseed via value => Sys2Proof.Machine.execDrbgReseed via value s
  | .keyInstall => Sys2Proof.Machine.execKeyInstall s
  | .signatureComplete => Sys2Proof.Machine.execSignatureComplete s
  | .mogulStop via value => Sys2Proof.Machine.execMogulStop via value s
  | .problemRow via lat row bytes => Sys2Proof.Machine.execProblemRow via lat row bytes s
  | .energyReady lat => Sys2Proof.Machine.execEnergyReady lat s
  | .drainEnd lat => Sys2Proof.Machine.execDrainEnd lat s
  | .mogulRunEnd lat => Sys2Proof.Machine.execMogulRunEnd lat s
  | .claim via t => Sys2Proof.Machine.execClaim via t s
  | .eoi via t value => Sys2Proof.Machine.execEoi via t value s
  | .signal via value => Sys2Proof.Machine.execSignal via value s
  | .srcState via src value => Sys2Proof.Machine.execSrcState via src value s
  | .logClear via value => Sys2Proof.Machine.execLogClear via value s
  | .logInterval via value => Sys2Proof.Machine.execLogInterval via value s
  | .logIntervalEnd => Sys2Proof.Machine.execLogIntervalEnd s
  | .logMsTick => Sys2Proof.Machine.execLogMsTick s
  | .logRecordWrite => Sys2Proof.Machine.execLogRecordWrite s
  | .fwStage via bytes => Sys2Proof.Machine.execFwStage via bytes s
  | .fwCommit via => Sys2Proof.Machine.execFwCommit via s
  | .fwSvnRaise via => Sys2Proof.Machine.execFwSvnRaise via s
  | .imageKey via x bytes => Sys2Proof.Machine.execImageKey via x bytes s
  | .signedRequired via value => Sys2Proof.Machine.execSignedRequired via value s
  | .securityLock via value => Sys2Proof.Machine.execSecurityLock via value s
  | .linkSecret via bytes => Sys2Proof.Machine.execLinkSecret via bytes s
  | .lecelCrypt via x value => Sys2Proof.Machine.execLecelCrypt via x value s
  | .syncShift via value => Sys2Proof.Machine.execSyncShift via value s
  | .dictReqRead m => Sys2Proof.Machine.execDictReqRead m s
  | .dictReqWrite m => Sys2Proof.Machine.execDictReqWrite m s
  | .dictReqWriteLast m => Sys2Proof.Machine.execDictReqWriteLast m s
  | .dictResp p r payload => Sys2Proof.Machine.execDictResp p r payload s
  | .dictExchangeTimeout via who xid => Sys2Proof.Machine.execDictExchangeTimeout via who xid s
  | .remoteTimeout p => Sys2Proof.Machine.execRemoteTimeout p s
  | .lecelCapture p j bad => Sys2Proof.Machine.execLecelCapture p j bad s
  | .lecelFrame p fate frame origin => Sys2Proof.Machine.execLecelFrame p fate frame origin s
  | .lecelDelivery p => Sys2Proof.Machine.execLecelDelivery p s
  | .lecelPortUp p peerState => Sys2Proof.Machine.execLecelPortUp p peerState s
  | .lecelDown p => Sys2Proof.Machine.execLecelDown p s
  | .lecelAbsent p => Sys2Proof.Machine.execLecelAbsent p s
  | .pairDigest p r ctag lap evidence digest => Sys2Proof.Machine.execPairDigest p r ctag lap evidence digest s
  | .pairDigestResend k => Sys2Proof.Machine.execPairDigestResend k s
  | .pairDigestTimeout k => Sys2Proof.Machine.execPairDigestTimeout k s
  | .propose p r q taken => Sys2Proof.Machine.execPropose p r q taken s
  | .tally p r t => Sys2Proof.Machine.execTally p r t s
  | .tallyTimeout origin => Sys2Proof.Machine.execTallyTimeout origin s
  | .commit p r q taken => Sys2Proof.Machine.execCommit p r q taken s
  | .repropose k => Sys2Proof.Machine.execRepropose k s
  | .coordinatorTakeover k => Sys2Proof.Machine.execCoordinatorTakeover k s
  | .lost p r ctag lap addr gen taken => Sys2Proof.Machine.execLost p r ctag lap addr gen taken s
  | .countEw p r value mine => Sys2Proof.Machine.execCountEw p r value mine s
  | .countNs p r value mine => Sys2Proof.Machine.execCountNs p r value mine s
  | .closeEw p r value => Sys2Proof.Machine.execCloseEw p r value s
  | .closeNs p r value => Sys2Proof.Machine.execCloseNs p r value s
  | .join p r addr gen size => Sys2Proof.Machine.execJoin p r addr gen size s
  | .joinWaitExpiry p => Sys2Proof.Machine.execJoinWaitExpiry p s
  | .countResend ns => Sys2Proof.Machine.execCountResend ns s
  | .standDown p r addr stale current => Sys2Proof.Machine.execStandDown p r addr stale current s
  | .genUpdate p r addr gen taken => Sys2Proof.Machine.execGenUpdate p r addr gen taken s
  | .rinkSyncProbe p r ta => Sys2Proof.Machine.execRinkSyncProbe p r ta s
  | .rinkSyncEcho p r ta tb tc => Sys2Proof.Machine.execRinkSyncEcho p r ta tb tc s
  | .rinkSyncPeriod => Sys2Proof.Machine.execRinkSyncPeriod s
  | .getVersion ep => Sys2Proof.Machine.execGetVersion ep s
  | .getCapabilities ep => Sys2Proof.Machine.execGetCapabilities ep s
  | .negotiateAlgorithms ep => Sys2Proof.Machine.execNegotiateAlgorithms ep s
  | .getDigests ep => Sys2Proof.Machine.execGetDigests ep s
  | .getCertificate ep slot off len => Sys2Proof.Machine.execGetCertificate ep slot off len s
  | .challenge ep slot nonce => Sys2Proof.Machine.execChallenge ep slot nonce s
  | .getMeasurements ep index signed nonce => Sys2Proof.Machine.execGetMeasurements ep index signed nonce s
  | .keyExchange ep slot bytes => Sys2Proof.Machine.execKeyExchange ep slot bytes s
  | .finish ep => Sys2Proof.Machine.execFinish ep s
  | .heartbeat ep => Sys2Proof.Machine.execHeartbeat ep s
  | .keyUpdate ep => Sys2Proof.Machine.execKeyUpdate ep s
  | .endSession ep => Sys2Proof.Machine.execEndSession ep s
  | .vendorDefinedRequest ep bytes => Sys2Proof.Machine.execVendorDefinedRequest ep bytes s
  | .keyProg ep slot => Sys2Proof.Machine.execKeyProg ep slot s
  | .kSetGo ep slot => Sys2Proof.Machine.execKSetGo ep slot s
  | .doeDiscovery p object index => Sys2Proof.Machine.execDoeDiscovery p object index s
  | .setEndpointId eid => Sys2Proof.Machine.execSetEndpointId eid s
  | .getEndpointId => Sys2Proof.Machine.execGetEndpointId s
  | .getMctpVersionSupport => Sys2Proof.Machine.execGetMctpVersionSupport s
  | .getMessageTypeSupport => Sys2Proof.Machine.execGetMessageTypeSupport s
  | .getVendorDefinedMessageSupport => Sys2Proof.Machine.execGetVendorDefinedMessageSupport s
  | .entdaa addr => Sys2Proof.Machine.execEntdaa addr s
  | .setdasa fixed addr => Sys2Proof.Machine.execSetdasa fixed addr s
  | .extest drive => Sys2Proof.Machine.execExtest drive s
  | .samplePreload shifted => Sys2Proof.Machine.execSamplePreload shifted s
  | .bypass => Sys2Proof.Machine.execBypass s
  | .pwrOkRise straps addr => Sys2Proof.Machine.execPwrOkRise straps addr s
  | .pwrOkFall => Sys2Proof.Machine.execPwrOkFall s
  | .resetNFall => Sys2Proof.Machine.execResetNFall s
  | .resetNRise straps addr => Sys2Proof.Machine.execResetNRise straps addr s
  | .deviceResetRelease => Sys2Proof.Machine.execDeviceResetRelease s
  | .refclkStart => Sys2Proof.Machine.execRefclkStart s
  | .refclkLoss => Sys2Proof.Machine.execRefclkLoss s
  | .rootPllLock => Sys2Proof.Machine.execRootPllLock s
  | .pllLockTimeout => Sys2Proof.Machine.execPllLockTimeout s
  | .rootPllLockLoss die => Sys2Proof.Machine.execRootPllLockLoss die s
  | .hbmTrainingComplete stack failed => Sys2Proof.Machine.execHbmTrainingComplete stack failed s
  | .zeroFillComplete stack => Sys2Proof.Machine.execZeroFillComplete stack s
  | .reservedWriteComplete => Sys2Proof.Machine.execReservedWriteComplete s
  | .syncIn => Sys2Proof.Machine.execSyncIn s
  | .syncOut => Sys2Proof.Machine.execSyncOut s
  | .sweep lat => Sys2Proof.Machine.execSweep lat s
  | .startUpFailure firmware => Sys2Proof.Machine.execStartUpFailure firmware s
  | .identityDerivation => Sys2Proof.Machine.execIdentityDerivation s
  | .porterMismatch => Sys2Proof.Machine.execPorterMismatch s
  | .perstNRelease p => Sys2Proof.Machine.execPerstNRelease p s
  | .comparatorDeassert n uv => Sys2Proof.Machine.execComparatorDeassert n uv s
  | .schussParityError => Sys2Proof.Machine.execSchussParityError s
  | .d3hotTransition p enter => Sys2Proof.Machine.execD3hotTransition p enter s
  | .replayReadyDeadline k addr => Sys2Proof.Machine.execReplayReadyDeadline k addr s

end Sys2Proof.Machine
end

