-- ==== Sys2Proof/Machine/Idle.lean ====
section
/-! DEFINITION. What passes when no command waits: one cc (assumption 9). -/
namespace Sys2Proof.Machine
namespace State

/-- A DEVICE_RESET write begins the reset 1 ms after its arrival, or at once when no packet's response waits (R454). -/
def resetDue (s : State) : Bool :=
  match s.start.resetAsked with
  | some (t, p) => 2 ≤ p || t + 1600000 ≤ s.now
  | none => false

/-- What the Porter takes up by itself at the end of a cycle: changes of sites that wait for their slots (R234). -/
def porterTurn (s : State) : State := if s.grid.unsettled || !s.grid.failing.isEmpty then s.startSites else s

/-- One cc with no command: time advances, a decision of the Louvre that falls in the new cycle is made, and a device reset
that is due begins. -/
def idle (s : State) : State :=
  let s := s.porterTurn.tick.decideAsked
  if s.resetDue then s.beginDeviceReset else s

end State
end Sys2Proof.Machine
end

