-- ==== Sys2Proof/Safety.lean ====
section
/-! DEFINITION. What a safe run is and when commands act, in the terms statements use. -/
namespace Sys2Proof.Machine

/-- A step answers a next state. -/
def Completes (s : State) : Prop := ∃ t, step s = .next t

/-- A command answers a next state. -/
def CommandCompletes (c : Instr) (s : State) : Prop := ∃ t, exec c s = .next t

/-! Cores (R54 to R65). -/

/-- Core n issues a bundle in this cycle, has raised no trap in it, and the operation of slot sl is still to come. -/
def Issues (s : State) (n : Nat) (sl : OpSlot) : Prop :=
  Table.has n s.grid.cores = true ∧ (s.core n).canIssue (s.ctxOf n) sl = true

/-- An access d cycles after the issue cycle still falls in the lap (R65). -/
def Fits (x : LapCtx) (d : Nat) : Prop := x.c + d < x.len

/-- What an operation of slot sl does d cycles after its issue cycle. -/
def dueAt (x : LapCtx) (sl : OpSlot) (d : Nat) (act : CoreAct) : Micro := ⟨x.c, x.c + d, sl.rank, true, act⟩

/-- Sticky flags raised d cycles after the issue cycle, when there are any. -/
def flagsAt (x : LapCtx) (sl : OpSlot) (d : Nat) (f : BitVec 16) : List Micro :=
  if f == 0 then [] else [dueAt x sl d (.flags f)]

/-- The core once slot sl of its bundle has been given, with the actions ms still to come: nothing else has changed. -/
def Core.gave (k : Core) (sl : OpSlot) (ms : List Micro) : Core :=
  { k with issued := sl :: k.issued, inflight := k.inflight ++ ms }

/-- The core once slot sl of its bundle has raised the first trap of the cycle. -/
def Core.trapped (k : Core) (sl : OpSlot) (code : Nat) : Core :=
  { k with issued := sl :: k.issued, trapNow := some code }

/-- The core once a word that the operation reads could not be corrected (upset): the first trap of the cycle stands (R51,
R85). -/
def Core.struck (k : Core) (upset : Bool) : Core :=
  if upset then { k with trapNow := some (k.trapNow.getD 0x20) } else k

/-- Issue in a slot that has an interval, past the end of the last one (R58). -/
def FreeSlot (s : State) (n : Nat) (sl : OpSlot) : Prop :=
  Issues s n sl ∧ (match sl with
    | .mx => (s.core n).mxFree ≤ (s.ctxOf n).c
    | .sx => (s.core n).sxFree ≤ (s.ctxOf n).c
    | .mv => (s.core n).mvFree ≤ (s.ctxOf n).c
    | _ => True)

/-- The operation of a bundle that a command is: its core, its slot, and which bundles carry it (R54). -/
def bundleOp : Instr → Option (Nat × OpSlot × (Nat → Bool))
  | .loop n f _ => some (n, .ct, fun b => cutCt b == (0x1, f))
  | .endl n f _ => some (n, .ct, fun b => cutCt b == (0x2, f))
  | .wait n f _ => some (n, .ct, fun b => cutCt b == (0x3, f))
  | .endLap n f _ => some (n, .ct, fun b => cutCt b == (0x4, f))
  | .rdflag n f _ => some (n, .ct, fun b => cutCt b == (0x5, f))
  | .rdcc n f _ => some (n, .ct, fun b => cutCt b == (0x6, f))
  | .rdlap n f _ => some (n, .ct, fun b => cutCt b == (0x7, f))
  | .mma n f _ => some (n, .mx, fun b => cutMx b == (1, f))
  | .mmal n f _ => some (n, .mx, fun b => cutMx b == (2, f))
  | .fadd n f _ => some (n, .vx, fun b => cutVx b == (0x01, f))
  | .fsub n f _ => some (n, .vx, fun b => cutVx b == (0x02, f))
  | .fmul n f _ => some (n, .vx, fun b => cutVx b == (0x03, f))
  | .fma n f _ => some (n, .vx, fun b => cutVx b == (0x04, f))
  | .fmin n f _ => some (n, .vx, fun b => cutVx b == (0x05, f))
  | .fmax n f _ => some (n, .vx, fun b => cutVx b == (0x06, f))
  | .fcmplt n f _ => some (n, .vx, fun b => cutVx b == (0x07, f))
  | .fcmpeq n f _ => some (n, .vx, fun b => cutVx b == (0x08, f))
  | .sel n f _ => some (n, .vx, fun b => cutVx b == (0x09, f))
  | .iadd n f _ => some (n, .vx, fun b => cutVx b == (0x0A, f))
  | .isub n f _ => some (n, .vx, fun b => cutVx b == (0x0B, f))
  | .and n f _ => some (n, .vx, fun b => cutVx b == (0x0C, f))
  | .or n f _ => some (n, .vx, fun b => cutVx b == (0x0D, f))
  | .xor n f _ => some (n, .vx, fun b => cutVx b == (0x0E, f))
  | .shl n f _ => some (n, .vx, fun b => cutVx b == (0x0F, f))
  | .shr n f _ => some (n, .vx, fun b => cutVx b == (0x10, f))
  | .imax n f _ => some (n, .vx, fun b => cutVx b == (0x11, f))
  | .icmplt n f _ => some (n, .vx, fun b => cutVx b == (0x12, f))
  | .exp2 n f _ => some (n, .vx, fun b => cutVx b == (0x13, f))
  | .log2 n f _ => some (n, .vx, fun b => cutVx b == (0x14, f))
  | .rsqrt n f _ => some (n, .vx, fun b => cutVx b == (0x15, f))
  | .rcp n f _ => some (n, .vx, fun b => cutVx b == (0x16, f))
  | .cvtnRne n f _ => some (n, .vx, fun b => cutVx b == (0x17, f))
  | .cvtnRtz n f _ => some (n, .vx, fun b => cutVx b == (0x18, f))
  | .cvtnSr n f _ => some (n, .vx, fun b => cutVx b == (0x19, f))
  | .cvtw n f _ => some (n, .vx, fun b => cutVx b == (0x1A, f))
  | .vscale n f _ => some (n, .vx, fun b => cutVx b == (0x1B, f))
  | .shuf n f _ => some (n, .vx, fun b => cutVx b == (0x1C, f))
  | .bcast n f _ => some (n, .vx, fun b => cutVx b == (0x1D, f))
  | .vmaxi n f _ => some (n, .vx, fun b => cutVx b == (0x1E, f))
  | .vmini n f _ => some (n, .vx, fun b => cutVx b == (0x1F, f))
  | .vsum n f _ => some (n, .vx, fun b => cutVx b == (0x20, f))
  | .lpadd n f _ => some (n, .vx, fun b => cutVx b == (0x21, f))
  | .lpmul n f _ => some (n, .vx, fun b => cutVx b == (0x22, f))
  | .raw n f _ => some (n, .sx, fun b => cutSx b == (0x1, f))
  | .norm32 n f _ => some (n, .sx, fun b => cutSx b == (0x2, f))
  | .norm16 n f _ => some (n, .sx, fun b => cutSx b == (0x3, f))
  | .gumb n f _ => some (n, .sx, fun b => cutSx b == (0x4, f))
  | .bernp n f _ => some (n, .sx, fun b => cutSx b == (0x5, f))
  | .bernl n f _ => some (n, .sx, fun b => cutSx b == (0x6, f))
  | .ldv n f _ => some (n, .mv, fun b => cutMv b == 0x01 && cutMvM b == f)
  | .stv n f _ => some (n, .mv, fun b => cutMv b == 0x02 && cutMvM b == f)
  | .lds n f _ => some (n, .mv, fun b => cutMv b == 0x03 && cutMvM b == f)
  | .sts n f _ => some (n, .mv, fun b => cutMv b == 0x04 && cutMvM b == f)
  | .ldvx n f _ => some (n, .mv, fun b => cutMv b == 0x05 && cutMvX b == f)
  | .stvx n f _ => some (n, .mv, fun b => cutMv b == 0x06 && cutMvX b == f)
  | .gath n f _ _ => some (n, .mv, fun b => cutMv b == 0x07 && cutMvG b == f)
  | .scat n f _ => some (n, .mv, fun b => cutMv b == 0x08 && cutMvG b == f)
  | .tout n f _ => some (n, .mv, fun b => cutMv b == 0x09 && cutMvT b == f)
  | .tpeek n f _ => some (n, .mv, fun b => cutMv b == 0x0A && cutMvP b == f)
  | .sadd n f _ => some (n, .mv, fun b => cutMv b == 0x10 && cutMvA b == f)
  | .ssub n f _ => some (n, .mv, fun b => cutMv b == 0x11 && cutMvA b == f)
  | .sand n f _ => some (n, .mv, fun b => cutMv b == 0x12 && cutMvA b == f)
  | .sor n f _ => some (n, .mv, fun b => cutMv b == 0x13 && cutMvA b == f)
  | .sxor n f _ => some (n, .mv, fun b => cutMv b == 0x14 && cutMvA b == f)
  | .sshl n f _ => some (n, .mv, fun b => cutMv b == 0x15 && cutMvA b == f)
  | .sshr n f _ => some (n, .mv, fun b => cutMv b == 0x16 && cutMvA b == f)
  | .saddi n f _ => some (n, .mv, fun b => cutMv b == 0x17 && cutMvA b == f)
  | .aaddi n f _ => some (n, .mv, fun b => cutMv b == 0x18 && cutMvA b == f)
  | .afroms n f _ => some (n, .mv, fun b => cutMv b == 0x19 && cutMvA b == f)
  | .sfroma n f _ => some (n, .mv, fun b => cutMv b == 0x1A && cutMvA b == f)
  | .movvs n f _ => some (n, .mv, fun b => cutMv b == 0x1B && cutMvA b == f)
  | .movsv n f _ => some (n, .mv, fun b => cutMv b == 0x1C && cutMvA b == f)
  | .send n f _ => some (n, .nx, fun b => cutNx b == 0x1 && cutNxReg b == f)
  | .recv n f _ => some (n, .nx, fun b => cutNx b == 0x2 && cutNxReg b == f)
  | .sendm n f _ => some (n, .nx, fun b => cutNx b == 0x3 && cutNxMem b == f)
  | .recvm n f _ => some (n, .nx, fun b => cutNx b == 0x4 && cutNxMem b == f)
  | .mrd n f _ => some (n, .nx, fun b => cutNx b == 0x5 && cutNxSlot b == f)
  | .mwr n f _ => some (n, .nx, fun b => cutNx b == 0x6 && cutNxSlot b == f)
  | _ => none

/-- The core whose bundle a command is an operation of. -/
def coreOperand (c : Instr) : Option Nat := (bundleOp c).map (fun o => o.1)

/-- The bundle that the command's core issues now carries the operation. -/
def carries (s : State) (c : Instr) : Bool :=
  match bundleOp c with
  | some (n, _, p) => p (s.core n).bundle
  | none => false

/-- Every residue check of an MMA's sums passes under the physical errors err (R137). -/
def residuesPass (m : MmaOp) (err : List Int) : Bool := (Core.mmaOuts m err).all (fun o => o.ok)

/-- What stands outside slot k, the grid and the Louvre when a lap command of slot k acts. -/
def SameBut (k : Nat) (s t : State) : Prop :=
  (∀ j, j ≠ k → t.slot j = s.slot j) ∧ t.now = s.now ∧ t.rink = s.rink ∧ t.mem.hbm = s.mem.hbm ∧ t.mem.meta_ = s.mem.meta_
    ∧ t.ports = s.ports ∧ t.link = s.link ∧ t.mogul = s.mogul ∧ t.ent = s.ent ∧ t.power = s.power ∧ t.sec = s.sec
    ∧ t.flash = s.flash ∧ t.det = s.det

/-- What stands outside slot k, the ports and the answer to an access when ownership of slot k moves. -/
def SameButSlot (k : Nat) (s t : State) : Prop :=
  (∀ j, j ≠ k → t.slot j = s.slot j) ∧ t.now = s.now ∧ t.rink = s.rink ∧ t.mem = s.mem ∧ t.grid = s.grid
    ∧ t.link = s.link ∧ t.mogul = s.mogul ∧ t.power = s.power ∧ t.sec = s.sec ∧ t.flash = s.flash ∧ t.det = s.det

/-- The packet q stands at the head of port p's queue, may start, and nothing refuses it before its own checks (R379,
R382, R384, R390). -/
def PacketReady (s : State) (p : Nat) (q : Pkt) : Prop :=
  s.headPacket p = some q ∧ s.mayStartPacket p q.opcode = true ∧ q.refusal = none

/-! Accesses and messages (R395, R418, R442, R451). -/

/-- A write of an object over a path passes every check that stands before the object's own (R451). -/
def State.accepts (s : State) (v : Path) (i sub : Nat) (b : List Byte) : Bool :=
  match s.objDesc i sub with
  | none => false
  | some o => reaches v o.acc i sub true && (i != 0x5005 || s.secureOn v) && o.acc.writable && sizeOk o b && encodingOk o b
      && !s.asleep o.home && (s.writeHeld v o i sub).isNone

/-- A read of an object over a path passes every check that stands before the object's own (R451). -/
def State.readable (s : State) (v : Path) (i sub : Nat) : Bool :=
  match s.objDesc i sub with
  | none => false
  | some o => reaches v o.acc i sub false && o.acc != .wo && !s.asleep o.home

/-- The answer to an access stands in the state. -/
def State.answered (s : State) (status : Nat) (data : List Byte) : State :=
  { s with dict := { s.dict with answer := some ⟨status, data⟩ } }

/-- A message with route r arrives on a port that takes messages, its originator at the generation recorded (R422, R423,
R425). -/
def Admitted (s : State) (p : Nat) (r : Route) : Prop :=
  p < 4 ∧ s.canSend p = true ∧ s.quarantined = false ∧ (s.genEntry r.source).gen = r.sgen.toNat

/-- What the Porter hands to port p for a message: its SEQ is the next (R225, R416). -/
def State.handed (s : State) (p : Nat) (r : Route) (body : Msg) : OutMsg :=
  ⟨p, r, body, 0, false, lecelFlits r body s.link.seqNext⟩

/-- From s to t the Porter has handed one message to port p, and none else has come or gone. -/
def Hands (s t : State) (p : Nat) (r : Route) (body : Msg) : Prop :=
  t.link.outbox = s.link.outbox ++ [s.handed p r body] ∧ t.link.seqNext = (s.link.seqNext + 1) % 256

/-- The state once a message has been taken from the input of port p into the Porter's delivery buffer (R430). -/
def State.took (s : State) (p : Nat) (r : Route) (body : Msg) : State := (s.takeRx p r body).deliverMsg body

/-! What every step keeps (assumption 5 names the memory's unlisted value; R242, R311, R493). -/

/-- A grid's cores are listed by rising number, each with its memories in canonical form. -/
def CoresSound (l : Table Core) : Prop :=
  Table.sorted l = true ∧ ∀ c ∈ l, c.2.data.wf = true ∧ c.2.instr.wf = true

/-- Memory is in its canonical form, STRICT_LOCK implies STRICT, and the pin ALERT_N is low exactly under ALERT. -/
structure Sound (s : State) : Prop where
  hbm : s.mem.hbm.wf = true
  cores : CoresSound s.grid.cores
  strict : s.det.strictLock = true → s.det.strict = true
  alert : s.pins.alertN = !s.irq.alert

end Sys2Proof.Machine
end

