-- ==== Sys2Proof/Certificates/Slice0/Obligations.lean ====
section
/-! DEFINITION. Statements about the device, for the provers. Each docstring names the rules of the specification it
formalises; assumption numbers name the model's own choices. -/

open Sys2Proof Sys2Proof.Machine

/-- A step with a command at the front of the queue is that command on the state with the queue's rest (the order of
arrival of R442; the queue is the model's, assumption 9). -/
def Obligations.StepRunsFrontCommand : Prop :=
  ∀ (c : Instr) (q : List Instr) (s : State),
    step { s with pending := c :: q } = exec c { s with pending := q }

/-- No command of the table ends in a fault or a refusal, whatever the state and the operands (the model's choice,
assumption 1), and none touches the queue of the commands that wait (R384, R442). -/
def Obligations.EveryCommandCompletes : Prop :=
  ∀ (c : Instr) (s : State), ∃ t, exec c s = .next t ∧ t.pending = s.pending

/-- VX operations that compute lane by lane: each result, its latency, its flags and its predication, and nothing else
(R56, R66, R69, R104, R105, R107). Compares, SEL and BCAST in their legal forms (R69). -/
def Obligations.VxLaneAndMaskOperations : Prop :=
  (∀ (s : State) (n : Nat) (f : VxFields), Issues s n .vx →
        let k := s.core n
        let x := s.ctxOf n
        let runs := fun (c : Bool → Instr) (k' : Core) =>
          ∀ u, carries s (c u) = true → exec (c u) s = Host.Outcome.next (s.setCore n (k'.struck u))
        let en := k.enabled f.pm
        let a := fun i => lane (k.rv f.va.toNat) i
        let b := fun i => lane (k.rv f.vb.toNat) i
        let c := fun i => lane (k.rv f.vc.toNat) i
        let writes := fun (lat : Nat) (r : Nat → BitVec 32 × BitVec 16) =>
          k.gave .vx
            (dueAt x .vx (lat - 1) (.wV f.vd.toNat (laneMask en) (mkLanes (fun i => (r i).1)))
              :: flagsAt x .vx (lat - 1) (laneFlags en r 16))
        (Fits x 3 →
          runs (.fadd n f) (writes 4 (fun i => fpAdd (a i) (b i)))
          ∧ runs (.fsub n f) (writes 4 (fun i => fpSub (a i) (b i)))
          ∧ runs (.fmul n f) (writes 4 (fun i => fpMul (a i) (b i)))
          ∧ runs (.fma n f) (writes 4 (fun i => fpFma (a i) (b i) (c i))))
        ∧ (Fits x 1 →
          runs (.fmin n f) (writes 2 (fun i => (fpMin (a i) (b i), 0)))
          ∧ runs (.fmax n f) (writes 2 (fun i => (fpMax (a i) (b i), 0)))
          ∧ runs (.shuf n f) (writes 2 (fun i => (lane (k.rv f.va.toNat) ((b i).toNat % 16), 0))))
        ∧ (Fits x 0 →
          runs (.iadd n f) (writes 1 (fun i => (a i + b i, 0)))
          ∧ runs (.isub n f) (writes 1 (fun i => (a i - b i, 0)))
          ∧ runs (.and n f) (writes 1 (fun i => (a i &&& b i, 0)))
          ∧ runs (.or n f) (writes 1 (fun i => (a i ||| b i, 0)))
          ∧ runs (.xor n f) (writes 1 (fun i => (a i ^^^ b i, 0)))
          ∧ runs (.shl n f) (writes 1 (fun i => (a i <<< ((b i).toNat % 32), 0)))
          ∧ runs (.shr n f) (writes 1 (fun i => (a i >>> ((b i).toNat % 32), 0)))
          ∧ runs (.imax n f) (writes 1 (fun i => (if (a i).toInt < (b i).toInt then b i else a i, 0))))
        ∧ (Fits x 7 →
          runs (.exp2 n f) (writes 8 (fun i => fpExp2 (a i)))
          ∧ runs (.log2 n f) (writes 8 (fun i => fpLog2 (a i)))
          ∧ runs (.rcp n f) (writes 8 (fun i => fpRcp (a i))))
        ∧ (Fits x 9 → runs (.rsqrt n f) (writes 10 (fun i => fpRsqrt (a i)))))
  ∧ (∀ (s : State) (n : Nat) (f : VxFields), Issues s n .vx →
        let k := s.core n
        let x := s.ctxOf n
        let runs := fun (c : Bool → Instr) (k' : Core) =>
          ∀ u, carries s (c u) = true → exec (c u) s = Host.Outcome.next (s.setCore n (k'.struck u))
        let a := fun i => lane (k.rv f.va.toNat) i
        let b := fun i => lane (k.rv f.vb.toNat) i
        let ends := fun (ms : List Micro) => k.gave .vx ms
        (f.vd.toNat < 16 → f.pm = 0 →
          (Fits x 1 →
            runs (.fcmplt n f) (ends [dueAt x .vx 1 (.wS f.vd.toNat (laneBits (fun i => (fp32 (a i)).lt (fp32 (b i)))))])
            ∧ runs (.fcmpeq n f) (ends [dueAt x .vx 1 (.wS f.vd.toNat (laneBits (fun i => (fp32 (a i)).eqv (fp32 (b i)))))]))
          ∧ (Fits x 0 → runs (.icmplt n f) (ends [dueAt x .vx 0 (.wS f.vd.toNat (laneBits (fun i => decide ((a i).toInt < (b i).toInt))))])))
        ∧ (f.vc.toNat < 16 → f.pm = 0 → Fits x 0 →
          runs (.sel n f) (ends [dueAt x .vx 0 (.wV f.vd.toNat allLanes
            (mkLanes (fun i => if (k.rs f.vc.toNat).getLsbD i then a i else b i)))]))
        ∧ (f.va.toNat < 16 → Fits x 0 →
          runs (.bcast n f) (ends [dueAt x .vx 0 (.wV f.vd.toNat (laneMask (k.enabled f.pm))
            (mkLanes (fun _ => k.rs f.va.toNat)))])))

/-- Narrowing, widening and the block scale in their legal forms (R94, R111, R116, R119). The tree reductions and the
LP16 operations (R70, R99, R100, R105). -/
def Obligations.VxConversionsAndReductions : Prop :=
  (∀ (s : State) (n : Nat) (f : VxFields), Issues s n .vx → f.vc.toNat < 16 →
        let k := s.core n
        let x := s.ctxOf n
        let runs := fun (c : Bool → Instr) (k' : Core) =>
          ∀ u, carries s (c u) = true → exec (c u) s = Host.Outcome.next (s.setCore n (k'.struck u))
        let en := k.enabled f.pm
        let code := f.vc.toNat
        let w := fmtWidth code
        let a := fun i => lane (k.rv f.va.toNat) i
        let b := fun i => lane (k.rv f.vb.toNat) i
        let narrows := fun (rnd : Nat → Rnd) => k.gave .vx
          (dueAt x .vx 2 (.wV f.vd.toNat (packedMask w en)
              (packedLanes w (fun i => (narrow code (rnd i) (fp32 (a i))).1)))
            :: flagsAt x .vx 2 (laneFlags en (fun i => (0, (narrow code (rnd i) (fp32 (a i))).2)) 16))
        (narrowTarget code = true → Fits x 2 →
          runs (.cvtnRne n f) (narrows (fun _ => .rne))
          ∧ runs (.cvtnRtz n f) (narrows (fun _ => .rtz))
          ∧ runs (.cvtnSr n f) (narrows (fun i => .sr 16 ((b i).toNat % 2 ^ 16))))
        ∧ (f.vb.toNat < 4 → widenSource code f.vb.toNat = true → Fits x 2 →
          runs (.cvtw n f) (k.gave .vx [dueAt x .vx 2 (.wV f.vd.toNat (laneMask en)
            (mkLanes (fun i => widen code (packed w (16 * f.vb.toNat + i) (k.rv f.va.toNat)))))]))
        ∧ (3 ≤ code → code ≤ 7 → f.vb = 0 → f.va.toNat % 2 = 0 → Fits x 3 →
          let r := vscale code ((laneList (k.rv f.va.toNat) ++ laneList (k.rv (f.va.toNat + 1))).map fp32)
          runs (.vscale n f) (k.gave .vx
            (dueAt x .vx 3 (.wV f.vd.toNat (laneMask en) (lanesOf [BitVec.ofNat 32 r.1]))
              :: flagsAt x .vx 3 (if en 0 then r.2 else 0)))))
  ∧ (∀ (s : State) (n : Nat) (f : VxFields), Issues s n .vx →
        let k := s.core n
        let x := s.ctxOf n
        let runs := fun (c : Bool → Instr) (k' : Core) =>
          ∀ u, carries s (c u) = true → exec (c u) s = Host.Outcome.next (s.setCore n (k'.struck u))
        let en := k.enabled f.pm
        let writes := fun (lat : Nat) (v : Lanes) (fl : BitVec 16) =>
          k.gave .vx
            (dueAt x .vx (lat - 1) (.wV f.vd.toNat (laneMask en) v) :: flagsAt x .vx (lat - 1) fl)
        let pairs := (laneList (k.rv f.va.toNat)).zip (laneList (k.rv f.vb.toNat))
        let best := fun (pick : Scored → Scored → Scored) => (tree16 pick pairs).headD (0, 0)
        let lp := fun (g : Nat → Nat → Nat × BitVec 16) (j : Nat) =>
          g (packed 16 j (k.rv f.va.toNat)) (packed 16 j (k.rv f.vb.toNat))
        let lpLane := fun (g : Nat → Nat → Nat × BitVec 16) (i : Nat) =>
          (BitVec.ofNat 32 ((lp g (2 * i)).1 + 2 ^ 16 * (lp g (2 * i + 1)).1), (lp g (2 * i)).2 ||| (lp g (2 * i + 1)).2)
        (Fits x 4 →
          runs (.vmaxi n f) (writes 5 (lanesOf [canonScore (best higher).1, (best higher).2]) 0)
          ∧ runs (.vmini n f) (writes 5 (lanesOf [canonScore (best lower).1, (best lower).2]) 0))
        ∧ (Fits x 5 →
          let sum := (tree16 (fun (p q : BitVec 32 × BitVec 16) =>
            ((fpAdd p.1 q.1).1, p.2 ||| q.2 ||| (fpAdd p.1 q.1).2)) ((laneList (k.rv f.va.toNat)).map (fun a => (a, 0)))).headD (0, 0)
          runs (.vsum n f) (writes 6 (lanesOf [sum.1]) (if en 0 then sum.2 else 0))
          ∧ runs (.lpadd n f) (writes 6 (mkLanes (fun i => (lpLane lpAdd i).1)) (laneFlags en (lpLane lpAdd) 16)))
        ∧ (Fits x 0 →
          runs (.lpmul n f) (writes 1 (mkLanes (fun i => (lpLane lpMul i).1)) (laneFlags en (lpLane lpMul) 16))))

/-- The SX operations in their legal forms, with the interval each holds the slot for (R58, R71, R148, R162, R164,
R172, R173, R177). -/
def Obligations.SxOperations : Prop :=
  ∀ (s : State) (n : Nat) (f : SxFields), FreeSlot s n .sx →
    let k := s.core n
    let x := s.ctxOf n
    let runs := fun (c : Bool → Instr) (k' : Core) =>
      ∀ u, carries s (c u) = true → exec (c u) s = Host.Outcome.next (s.setCore n (k'.struck u))
    let gives := fun (interval : Nat) (ms : List Micro) =>
      { k.gave .sx ms with sxFree := x.c + interval }
    let key := s.streamKey k.slot ((k.rs f.ss.toNat).toNat % 2 ^ 16)
    let ctr := fun (i : Nat) =>
      carveCtr key.2 (k.ra (2 * f.ap.toNat) ++ lane (k.rv f.ve.toNat) i) (k.ra (2 * f.ap.toNat + 1))
    let word := fun (j : Nat) => mkLanes (fun i => (carveBlock key.1 (ctr i)).get j)
    let bern := fun (t : Nat → Nat × BitVec 16) => (BitVec.ofNat 512 (packFrom 1 (fun j =>
      if k.pair16 (Core.vuReg f) j < (t (k.pair16 f.ve.toNat j)).1 then 1 else 0) 64))
    (f.vd.toNat % 4 = 0 → Fits x 23 →
      runs (.raw n f) (gives 8 ((List.range 4).map (fun j => dueAt x .sx 23 (.wV (f.vd.toNat + j) allLanes (word j))))))
    ∧ (f.ss = 0 → f.ap = 0 → Fits x 11 →
      runs (.norm32 n f) (gives 4 [dueAt x .sx 11 (.wV f.vd.toNat allLanes
        (mkLanes (fun i => BitVec.ofNat 32 (k.normalLane f .fp32 i))))])
      ∧ runs (.norm16 n f) (gives 4 [dueAt x .sx 11 (.wV f.vd.toNat allLanes
        (BitVec.ofNat 512 (packFrom 16 (k.normalLane f .bf16) 16)))]))
    ∧ (f.ss = 0 → f.ap = 0 → Fits x 9 →
      runs (.gumb n f) (gives 1 [dueAt x .sx 9 (.wV f.vd.toNat allLanes
        (mkLanes (fun i => gumbelKey (lane (k.rv f.ve.toNat) i).toNat)))]))
    ∧ (f.ap = 0 → f.ve.toNat % 2 = 0 → Fits x 2 →
      runs (.bernp n f) (gives 1 [dueAt x .sx 2 (.wV f.vd.toNat allLanes (bern (fun q => (q, 0))))]))
    ∧ (f.ap = 0 → f.ve.toNat % 2 = 0 → Fits x 4 →
      runs (.bernl n f) (gives 1 (dueAt x .sx 4 (.wV f.vd.toNat allLanes (bern bernlThreshold))
        :: flagsAt x .sx 4 (Core.bernFlags (fun j => bernlThreshold (k.pair16 f.ve.toNat j)) 64))))

/-- The CT operations in their legal forms (R61, R62, R64). -/
def Obligations.CtOperations : Prop :=
  ∀ (s : State) (n : Nat) (arg : BitVec 12), Issues s n .ct →
    let k := s.core n
    let x := s.ctxOf n
    let runs := fun (c : Bool → Instr) (k' : Core) =>
      ∀ u, carries s (c u) = true → exec (c u) s = Host.Outcome.next (s.setCore n (k'.struck u))
    let gives := fun (act : CoreAct) =>
      k.gave .ct [dueAt x .ct 0 act]
    let c := arg.toNat / 1024
    ((k.rl c).count = 0 → runs (.loop n arg) (gives (.ctLoop c (arg.toNat % 1024 + 1))))
    ∧ ((k.rl c).count ≠ 0 → arg.toNat % 1024 = 0 → runs (.endl n arg) (gives (.ctEndl c)))
    ∧ (arg.toNat < 1024 → runs (.wait n arg) (gives (.ctWait (arg.toNat + 1))))
    ∧ (arg.toNat < 2048 → runs (.endLap n arg) (gives (.ctEnd arg.toNat)))
    ∧ (Fits x 0 → arg.toNat < 16 →
      runs (.rdflag n arg) (gives (.wS arg.toNat (k.flags.zeroExtend 32)))
      ∧ runs (.rdcc n arg) (gives (.wS arg.toNat (BitVec.ofNat 32 x.c))))
    ∧ (Fits x 0 → arg.toNat < 32 →
      runs (.rdlap n arg) (gives (.wS (arg.toNat % 16)
        (BitVec.ofNat 32 (if 16 ≤ arg.toNat then x.lap / 2 ^ 32 % 2 ^ 16 else x.lap)))))

/-- An MMA or MMAL that may issue holds its tile, row and operands until it retires, 6 cycles after its issue, or 9 in
the slow formats, which keep MX busy for 4 (R67, R68). The oldest MMA retires in its cycle: with every residue check
passed, its sums go into the 16 entries of its row; with one failed, none does and RESIDUE_FAIL is raised (R131, R133,
R137); a stored word of the row that cannot be corrected raises WORD_UNCORRECTABLE, and no entry of another row changes
(R51). -/
def Obligations.MmaIssueAndRetirement : Prop :=
  (∀ (s : State) (n : Nat) (f : MxFields), FreeSlot s n .mx →
        let k := s.core n
        let x := s.ctxOf n
        let runs := fun (c : Bool → Instr) (k' : Core) =>
          ∀ u, carries s (c u) = true → exec (c u) s = Host.Outcome.next (s.setCore n (k'.struck u))
        let fmt := f.fmt.toNat
        let lat := if mmaSlow fmt then 9 else 6
        mmaFormat fmt = true → mmaPart fmt f.part.toNat = true → k.heldByDrain x.c f.tile.toNat = false → Fits x lat →
        let gives := fun (row : Nat) => { k.gave .mx [] with
          mxFree := x.c + (if mmaSlow fmt then 4 else 1)
          mmas := k.mmas ++ [⟨x.c, x.c + lat, fmt, f.tile.toNat, row, decide (f.acc = 1), f.part.toNat, k.rv f.va.toNat,
            k.columnGroup f.bg.toNat⟩] }
        runs (.mma n f) (gives f.row.toNat)
        ∧ runs (.mmal n f) (gives ((f.row.toNat + (k.rl 0).count % 16) % 16)))
  ∧ (∀ (s : State) (n : Nat) (err : List Int) (m : MmaOp) (ms : List MmaOp), Table.has n s.grid.cores = true →
        (s.core n).mmas = m :: ms → (s.ctxOf n).live = true → m.retire = (s.ctxOf n).c →
        (residuesPass m err = true →
          exec (.mmaRetire n err false) s =
            .next (s.setCore n (Core.insertOuts m { s.core n with mmas := ms } 0 (Core.mmaOuts m err)))
          ∧ ((s.core n).trapNow = none → ∃ t k, exec (.mmaRetire n err true) s = .next t ∧ t = { s.setCore n k with fresh := s.fresh + 1 }
            ∧ k.mmas = ms ∧ k.trapNow = some 0x20 ∧ k.v = (s.core n).v ∧ k.s = (s.core n).s ∧ k.data = (s.core n).data
            ∧ ∀ tile row col, col < 16 → (tile ≠ m.tile ∨ row ≠ m.row) → row < 16 → m.row < 16 →
                k.entryAt tile row col = (s.core n).entryAt tile row col))
        ∧ (residuesPass m err = false → (s.core n).trapNow = none →
          ∀ u, ∃ f, exec (.mmaRetire n err u) s =
            .next { s.setCore n { s.core n with mmas := ms, trapNow := some 0x21 } with fresh := f }))

/-- Loads and stores of the data SRAM that may issue: address, bank, bytes, predication and timing (R48, R49, R52, R66,
R73). A store or scatter whose address lies in the golden region raises GOLDEN_WRITE and stores nothing; an access
outside the data SRAM raises ADDRESS_RANGE (R49, R52). Gather and scatter: lane i is read in cycle t + i, and written
in cycle t + 1 + i (R66, R73). -/
def Obligations.MvMemoryAccess : Prop :=
  (∀ (s : State) (n : Nat) (m : MvM) (i : MvX), FreeSlot s n .mv → i.rsvd = 0 →
        let k := s.core n
        let x := s.ctxOf n
        let runs := fun (c : Bool → Instr) (k' : Core) =>
          ∀ u, carries s (c u) = true → exec (c u) s = Host.Outcome.next (s.setCore n (k'.struck u))
        let gives := fun (ms : List Micro) => { k.gave .mv ms with mvFree := x.c + 1 }
        let av := Core.addrOf (k.ra m.ab.toNat) (64 * m.off.toInt) 64
        let as := Core.addrOf (k.ra m.ab.toNat) (4 * m.off.toInt) 4
        let ax := k.indexedAddr i
        (av < 0x30000 → Fits x 2 →
          runs (.ldv n m) (gives [dueAt x .mv 0 (.readBank (av / 0x4000)),
            dueAt x .mv 2 (.wV m.d.toNat (laneMask (k.enabled m.pm)) (BitVec.ofNat 512 (k.dataNum av 64)))]))
        ∧ (ax < 0x30000 → Fits x 2 →
          runs (.ldvx n i) (gives [dueAt x .mv 0 (.readBank (ax / 0x4000)),
            dueAt x .mv 2 (.wV i.d.toNat (laneMask (k.enabled i.pm)) (BitVec.ofNat 512 (k.dataNum ax 64)))]))
        ∧ (as < 0x30000 → Fits x 2 → m.d.toNat < 16 →
          runs (.lds n m) (gives (dueAt x .mv 0 (.readBank (as / 0x4000)) ::
            if k.enabled m.pm 0 then [dueAt x .mv 2 (.wS m.d.toNat (BitVec.ofNat 32 (k.dataNum as 4)))] else [])))
        ∧ (k.dtop ≤ av → av < 0x30000 → Fits x 1 →
          runs (.stv n m) (gives [dueAt x .mv 1
            (Core.storeAct av 64 (Core.byteMask (k.enabled m.pm) 16) (k.rv m.d.toNat).toNat)]))
        ∧ (k.dtop ≤ ax → ax < 0x30000 → Fits x 1 →
          runs (.stvx n i) (gives [dueAt x .mv 1
            (Core.storeAct ax 64 (Core.byteMask (k.enabled i.pm) 16) (k.rv i.d.toNat).toNat)]))
        ∧ (k.dtop ≤ as → as < 0x30000 → Fits x 1 → m.d.toNat < 16 →
          runs (.sts n m) (gives [dueAt x .mv 1
            (Core.storeAct as 4 (if k.enabled m.pm 0 then 0xF else 0) (k.rs m.d.toNat).toNat)])))
  ∧ (∀ (s : State) (n : Nat) (m : MvM), FreeSlot s n .mv →
        let k := s.core n
        let x := s.ctxOf n
        let runs := fun (c : Bool → Instr) (k' : Core) =>
          ∀ u, carries s (c u) = true → exec (c u) s = Host.Outcome.next (s.setCore n (k'.struck u))
        let traps := fun (code : Nat) => { k.trapped .mv code with mvFree := x.c + 1 }
        let a := Core.addrOf (k.ra m.ab.toNat) (64 * m.off.toInt) 64
        (a < 0x30000 → a < k.dtop → runs (.stv n m) (traps 0x06))
        ∧ (0x30000 ≤ a → runs (.stv n m) (traps 0x05) ∧ runs (.ldv n m) (traps 0x05)))
  ∧ (∀ (s : State) (n : Nat) (f : MvG), FreeSlot s n .mv → f.rsvd = 0 →
        let k := s.core n
        let x := s.ctxOf n
        let runs := fun (c : Bool → Instr) (k' : Core) =>
          ∀ u, carries s (c u) = true → exec (c u) s = Host.Outcome.next (s.setCore n (k'.struck u))
        let a := k.gatherAddr f
        let gives := fun (ms : List Micro) => { k.gave .mv ms with mvFree := x.c + 16 }
        (∀ i < 16, a i < 0x30000) →
        (Fits x 17 → runs (fun u => .gath n f u 0) (gives
          (dueAt x .mv 17 (.wV f.d.toNat (laneMask (k.enabled f.pm)) 0) ::
            (List.range 16).flatMap (fun i =>
              [dueAt x .mv i (.readBank (a i / 0x4000)), dueAt x .mv i (.gather f.d.toNat i (a i))]))))
        ∧ ((∀ i < 16, k.dtop ≤ a i) → Fits x 16 → runs (.scat n f) (gives
          ((List.range 16).map (fun i => dueAt x .mv (1 + i)
            (Core.storeAct (a i) 4 (if k.enabled f.pm i then 0xF else 0) (lane (k.rv f.d.toNat) i).toNat))))))

/-- The scalar and address operations of MV in their legal forms (R73). TOUT and TPEEK that may issue (R74, R75, R76).
-/
def Obligations.MvScalarAndTileOperations : Prop :=
  (∀ (s : State) (n : Nat) (f : MvA), FreeSlot s n .mv → f.rsvd = 0 →
        let k := s.core n
        let x := s.ctxOf n
        let runs := fun (c : Bool → Instr) (k' : Core) =>
          ∀ u, carries s (c u) = true → exec (c u) s = Host.Outcome.next (s.setCore n (k'.struck u))
        let gives := fun (lat : Nat) (act : CoreAct) => { k.gave .mv [dueAt x .mv (lat - 1) act] with mvFree := x.c + 1 }
        let sx := k.rs f.x.toNat
        let sy := k.rs f.y.toNat
        let toS := fun (v : BitVec 32) => gives 1 (.wS f.d.toNat v)
        (Fits x 0 →
          (f.d.toNat < 16 → f.x.toNat < 16 → f.y.toNat < 16 →
            runs (.sadd n f) (toS (sx + sy)) ∧ runs (.ssub n f) (toS (sx - sy))
            ∧ runs (.sand n f) (toS (sx &&& sy)) ∧ runs (.sor n f) (toS (sx ||| sy))
            ∧ runs (.sxor n f) (toS (sx ^^^ sy)) ∧ runs (.sshl n f) (toS (sx <<< (sy.toNat % 32)))
            ∧ runs (.sshr n f) (toS (sx >>> (sy.toNat % 32))))
          ∧ (f.d.toNat < 16 → f.x.toNat < 16 → runs (.saddi n f) (toS (sx + f.y.signExtend 32)))
          ∧ (f.d.toNat < 8 → f.x.toNat < 8 →
            runs (.aaddi n f) (gives 1 (.wA f.d.toNat (k.ra f.x.toNat + 64 * f.y.signExtend 24))))
          ∧ (f.d.toNat < 8 → f.x.toNat < 16 → f.y = 0 →
            runs (.afroms n f) (gives 1 (.wA f.d.toNat (sx.extractLsb' 0 24))))
          ∧ (f.d.toNat < 16 → f.x.toNat < 8 → f.y = 0 →
            runs (.sfroma n f) (toS ((k.ra f.x.toNat).zeroExtend 32)))
          ∧ (f.x.toNat < 16 → f.y.toNat < 16 → runs (.movsv n f) (gives 1
            (.wV f.d.toNat (laneMask (fun i => i == f.y.toNat)) (mkLanes (fun _ => sx))))))
        ∧ (Fits x 1 → f.d.toNat < 16 → f.y.toNat < 16 →
          runs (.movvs n f) (gives 2 (.wS f.d.toNat (lane (k.rv f.x.toNat) f.y.toNat)))))
  ∧ (∀ (s : State) (n : Nat), FreeSlot s n .mv →
        let k := s.core n
        let x := s.ctxOf n
        let runs := fun (c : Bool → Instr) (k' : Core) =>
          ∀ u, carries s (c u) = true → exec (c u) s = Host.Outcome.next (s.setCore n (k'.struck u))
        (∀ f : MvT, f.rsvd = 0 → f.fmt.toNat < 5 → f.rnd ≠ 3 → f.vr.toNat % 4 = 0 →
          (∀ r < 16, k.dtop ≤ Core.toutAddr (k.ra f.ab.toNat) f.fmt.toNat r
            ∧ Core.toutAddr (k.ra f.ab.toNat) f.fmt.toNat r < 0x30000) →
          k.heldByMma x.c f.tile.toNat = false → k.heldByDrain x.c f.tile.toNat = false → Fits x 21 →
          runs (.tout n f) ({ k.gave .mv
            [dueAt x .mv 1 (.drain f.tile.toNat f.fmt.toNat f.rnd.toNat (k.ra f.ab.toNat).toNat
              ((List.range 4).map (fun i => k.rv (f.vr.toNat + i))))] with
            mvFree := x.c + 16, held := k.held ++ [⟨f.tile.toNat, x.c, x.c + 20⟩] }))
        ∧ (∀ f : MvP, f.rsvd = 0 → f.rsvd0 = 0 → f.vd.toNat % 2 = 0 →
          (s.dict.debugEnable = false →
            runs (.tpeek n f) ({ k.trapped .mv 0x09 with mvFree := x.c + 1 }))
          ∧ (s.dict.debugEnable = true → k.heldByMma x.c f.tile.toNat = false → k.heldByDrain x.c f.tile.toNat = false →
            Fits x 2 →
            let e := k.entryAt f.tile.toNat f.row.toNat f.col.toNat
            runs (.tpeek n f) ({ k.gave .mv
              [dueAt x .mv 2 (.wV f.vd.toNat allLanes
                (lanesOf (e.values.map (fun v => v.extractLsb' 0 32) ++ [e.occ.zeroExtend 32]))),
               dueAt x .mv 2 (.wV (f.vd.toNat + 1) allLanes
                (lanesOf (e.values.map (fun v => (v.extractLsb' 32 8).zeroExtend 32))))] with
              mvFree := x.c + 1, held := k.held ++ [⟨f.tile.toNat, x.c, x.c + 2⟩] }))))

/-- SEND, SENDM, RECV and RECVM that may issue, and what a memory flit in their port does to them (R77, R209, R253).
MRD and MWR that may issue leave a request with their slot (R52, R78). A memory slot's send cycle sends the latest
request made before it, and a write's line with it; its return cycle deposits the four flits of a read (R78, R79,
R252). A word of the line that cannot be corrected raises WORD_UNCORRECTABLE (R51). -/
def Obligations.NxFlitsAndMemorySlots : Prop :=
  (∀ (s : State) (n : Nat) (f : NxReg) (g : NxMem), Issues s n .nx → f.rsvd = 0 → g.rsvd = 0 →
        let k := s.core n
        let x := s.ctxOf n
        let runs := fun (c : Bool → Instr) (k' : Core) =>
          ∀ u, carries s (c u) = true → exec (c u) s = Host.Outcome.next (s.setCore n (k'.struck u))
        let gives := fun (ms : List Micro) =>
          k.gave .nx ms
        let busy := k.trapped .nx 0x03
        let pair := fun (v : Nat) => [dueAt x .nx 1 (.inject 0 (BitVec.ofNat 128 v) false),
          dueAt x .nx 1 (.inject 1 (BitVec.ofNat 128 (v >>> 128)) false)]
        let a := Core.addrOf (k.ra g.ab.toNat) (32 * g.off.toInt) 32
        let got := (s.ejected n 0).toNat + (s.ejected n 1).toNat * 2 ^ 128
        (k.memInjectAt (x.c + 1) = false →
          runs (.send n f) (gives (pair ((k.rv f.v.toNat).toNat >>> (256 * f.h.toNat))))
          ∧ (a < 0x30000 → runs (.sendm n g) (gives (dueAt x .nx 0 (.readBank (a / 0x4000)) :: pair (k.dataNum a 32)))))
        ∧ (k.memInjectAt (x.c + 1) = true → runs (.send n f) busy ∧ runs (.sendm n g) busy)
        ∧ (k.memEjectAt x.c = false →
          (Fits x 0 → runs (.recv n f) (gives [dueAt x .nx 0 (.wV f.v.toNat
            (BitVec.ofNat 512 ((2 ^ 256 - 1) <<< (256 * f.h.toNat))) (BitVec.ofNat 512 (got <<< (256 * f.h.toNat))))]))
          ∧ (k.dtop ≤ a → a < 0x30000 → Fits x 1 →
            runs (.recvm n g) (gives [dueAt x .nx 1 (Core.storeAct a 32 (2 ^ 32 - 1) got)])))
        ∧ (k.memEjectAt x.c = true → runs (.recv n f) busy ∧ runs (.recvm n g) busy))
  ∧ (∀ (s : State) (n : Nat) (f : NxSlot), Issues s n .nx → f.rsvd = 0 → f.slot ≠ 3 →
        let k := s.core n
        let x := s.ctxOf n
        let runs := fun (c : Bool → Instr) (k' : Core) =>
          ∀ u, carries s (c u) = true → exec (c u) s = Host.Outcome.next (s.setCore n (k'.struck u))
        let a := Core.addrOf (k.ra f.ab.toNat) 0 64
        let asks := fun (write : Bool) => k.gave .nx [dueAt x .nx 0 (.request f.slot.toNat ⟨write, k.rs f.ss.toNat, a, x.c⟩)]
        (k.dtop ≤ a → (a < 0x30000 ∨ (0x80000 + 16 * k.itop ≤ a ∧ a < 0x88000)) →
          k.returnCycle f.slot.toNat x.c < x.len → runs (.mrd n f) (asks false))
        ∧ (a < 0x30000 → k.sendCycle f.slot.toNat (k.servingFrame f.slot.toNat x.c) < x.len → runs (.mwr n f) (asks true)))
  ∧ (∀ (s : State) (n slot : Nat), Table.has n s.grid.cores = true →
        let k := s.core n
        let x := s.ctxOf n
        x.live = true →
        (∀ r : MemReq, Table.get none slot (k.reqs.map (fun r => (r.1, some r.2))) = some r → r.issue < x.c →
          x.fenced = false → k.sendCycle slot (x.c / 256) = x.c →
          let w := k.windowAt slot (x.c / 256)
          let flit := Core.requestFlit r.write w (Core.windowBlock w r.line x.lap) n
          let mem := fun (d : Nat) (act : CoreAct) => (⟨x.c, x.c + d, 0, false, act⟩ : Micro)
          let sends := fun (line : Nat) (trap : Option Nat) => s.setCore n { k with
            reqs := Table.erase slot k.reqs
            inflight := k.inflight ++ [mem 1 (.inject 0 flit true), mem 0 (.readBank (r.addr / 0x4000)),
              mem 1 (.inject 1 (Core.lineFlit line 0) true), mem 3 (.inject 0 (Core.lineFlit line 1) true),
              mem 3 (.inject 1 (Core.lineFlit line 2) true), mem 5 (.inject 0 (Core.lineFlit line 3) true)]
            trapNow := trap }
          (r.write = false → ∀ u, ∃ f, exec (.memorySlotSend n slot u) s = .next { s.setCore n { k with
            reqs := Table.erase slot k.reqs
            inflight := k.inflight ++ [mem 1 (.inject 0 flit true)]
            returns := k.returns ++ [⟨slot, x.c + Core.winField w 9 0, x.c, r.addr, none⟩] } with fresh := f })
          ∧ (r.write = true → exec (.memorySlotSend n slot false) s = .next (sends (k.dataNum r.addr 64) k.trapNow)
            ∧ (k.trapNow = none → ∃ v : Lanes, exec (.memorySlotSend n slot true) s =
                .next { sends v.toNat (some 0x20) with fresh := s.fresh + 1 })))
        ∧ (∀ r : MemReturn, k.returns.find? (fun r => r.slot == slot && r.ret == x.c) = some r →
          let line := (r.r01.getD (0, 0)).1.toNat + 2 ^ 128 * (r.r01.getD (0, 0)).2.toNat
            + 2 ^ 256 * (s.ejected n 0).toNat + 2 ^ 384 * (s.ejected n 1).toNat
          let act := if 0x80000 ≤ r.addr ∧ r.addr < 0x88000 then CoreAct.deposit (r.addr - 0x80000) (BitVec.ofNat 512 line)
            else .store r.addr (BitVec.allOnes 64) (BitVec.ofNat 512 line)
          exec (.memorySlotReturn n slot) s = .next (s.setCore n { k with
            returns := k.returns.filter (fun r => !(r.slot == slot && r.ret == x.c))
            inflight := k.inflight ++ [⟨x.c, x.c, 0, false, act⟩] })))

/-- A bundle's operation never does anything outside its own core, and what it does there is to come: registers, SRAM,
tiles and flags are as before when it has been given; one that the core's bundle does not carry, or that comes while
the core issues no bundle, does nothing (R54, R55, R87). -/
def Obligations.CoreOperationFrame : Prop :=
  ∀ (c : Instr) (n : Nat) (sl : OpSlot) (p : Nat → Bool) (s t : State), bundleOp c = some (n, sl, p) → exec c s = .next t →
    ∃ k : Core, t = (if Table.has n s.grid.cores then s.setCore n k else s)
      ∧ (((s.core n).canIssue (s.ctxOf n) sl = false ∨ carries s c = false) → k = s.core n)
      ∧ k.v = (s.core n).v ∧ k.s = (s.core n).s ∧ k.a = (s.core n).a ∧ k.loops = (s.core n).loops
      ∧ k.data = (s.core n).data ∧ k.instr = (s.core n).instr ∧ k.flags = (s.core n).flags
      ∧ k.fp = (s.core n).fp ∧ k.tiles = (s.core n).tiles ∧ k.windows = (s.core n).windows
      ∧ k.phase = (s.core n).phase ∧ k.pc = (s.core n).pc ∧ k.trapCode = (s.core n).trapCode

/-- LAUNCH is driven 24 cc before its count: the launch's seeds are the ones written before that cycle, and no other
slot, core or byte of memory changes (R289, R158). LAUNCH arrives in the cycle of its count: that cycle is lap cycle 0,
every core and router of the slot starts at the entry it latched, and cores of other slots do not change (R53, R64,
R130, R212, R222, R289). A word on the schuss lines that is not this LAUNCH has none of its effect (R222). A core at
lap cycle 0: its registers and tiles are zero, its data SRAM above the golden region is zero, the golden region stands,
and its first bundle issues in that cycle, but behind a fence (R53, R55, R64, R130, R230). -/
def Obligations.LapLaunch : Prop :=
  (∀ (s : State) (k l : Nat), (s.slot k).stage = .committed l → (s.slot k).attempt = .first → (s.slot k).pledged = false →
        s.rinkRun = true → s.rink + 24 = l → ∃ t, exec (.launchDrive k) s = .next t
          ∧ (t.slot k).stage = .driven l
          ∧ ((s.slot k).seedsAt ≠ some s.now → (t.slot k).latched = (s.slot k).seeds ∧ (t.slot k).seedsPending = 0)
          ∧ ((s.slot k).seedsAt = some s.now →
              (t.slot k).latched = (s.slot k).seedsBefore ∧ (t.slot k).seedsPending = (s.slot k).seedsNew)
          ∧ (t.slot k).launched = true ∧ (t.slot k).lapNext = (s.slot k).lapNext
          ∧ t.grid.cores = s.grid.cores ∧ t.grid.routers = s.grid.routers ∧ SameBut k s t)
  ∧ (∀ (s : State) (k l : Nat) (errs : List (Nat × BitVec 160)), (s.slot k).stage = .driven l → s.rinkRun = true → s.rink = l →
        ((s.slot k).attempt = .first → (∀ n, (Router.entryRead (Table.get 0 n errs)).isSome = true) →
          ∃ t, exec (.schussLaunch k (State.schussWord 1 k 0) errs) s = .next t
          ∧ (t.slot k).stage = .running s.now ∧ (t.slot k).lastLaunch = s.rink
          ∧ (t.slot k).attemptNo = (s.slot k).attemptNo + 1 ∧ (t.slot k).faults = [] ∧ (t.slot k).abortAt = none
          ∧ (∀ n, Table.has n s.grid.cores = true → t.core n = (if (s.core n).slot = k
              then Core.launch { s.core n with entry := (s.core n).entryNext } (s.fenced n) else s.core n))
          ∧ (∀ n, Table.has n s.grid.routers = true → t.router n = (if (s.router n).slot = k
              then Router.launch { s.router n with entry := (s.router n).entryNext } (Table.get 0 n errs) else s.router n))
          ∧ SameBut k s t)
        ∧ (∀ w : BitVec 16, State.evenParity w = true → w ≠ State.schussWord 1 k 0 → exec (.schussLaunch k w errs) s = .next s))
  ∧ (∀ (k : Core) (fence : Bool) (r a : Nat),
        let z := k.launch fence
        z.rv r = 0 ∧ z.rs r = 0 ∧ z.ra r = 0 ∧ (z.rl r).count = 0 ∧ z.flags = 0
        ∧ (∀ tile row col, z.entryAt tile row col = TileEntry.empty)
        ∧ (a < k.dtop → z.data.read a = k.data.read a)
        ∧ (k.dtop ≤ a → a < 0x30000 → z.data.read a = 0)
        ∧ z.instr = k.instr ∧ z.issueAt = 0
        ∧ (k.idleRec = false → z.phase = .running ∧ (fence = false → z.pc = k.entry) ∧ (fence = true → z.trapNow = none))
        ∧ (k.idleRec = true → z.phase = .ended))

/-- FAULT seen 24 cc after its first drive makes an ABORT arrive 25 cc later, unless an earlier one is on its way
(R223); a site of the course that has failed adds FENCE_ABORT to the attempt's faults (R588, assumption 13). The schuss
return line acts in one cycle of an attempt alone (R223). ABORT in its arrival cycle stops the slot's cores and
routers: nothing they had in flight is done, and what their registers, SRAM and tiles hold stays (R222). A probe's
ABORT ends the probe: its fingerprints are captured, and the slot stands where it stood (R330, R333). An ABORT that is
not this slot's, in this cycle, of a lap that runs, does nothing (R222). In a lap's last cycle a core that has not
issued END raises LAP_OVERRUN, and one that has is not touched (R65); a router that has reached no STOP raises
GATE_OVERRUN and applies no further entry (R213). LAP_END acts in a lap's last cycle (R65). TICK with the argument that
the routers' RINK count asks for changes nothing; any other TICK, and a word of odd parity on the schuss lines, is
counted once as a schuss error, and drives the FAULT of every slot whose lap runs (R222, R223, R229). A digest that is
due is logged at position LAP mod 64 as the SHA-384 of its lap's bytes, and nothing else changes, in a course outside
pairs mode or when the completion has been withdrawn; in pairs mode it is sent to the partner as well, a member alone
confirms its lap, and so does one that holds an equal digest of its partner (R319, R320, R322, R324). -/
def Obligations.LapLinesAndEnd : Prop :=
  (∀ (s : State) (k a t : Nat), (s.slot k).stage = .running a → (s.slot k).faultDrive = some t → s.now = t + 24 →
        ∃ u, exec (.faultLine k) s = .next u
          ∧ (u.slot k).abortAt = some (min (t + 49) ((s.slot k).abortAt.getD (t + 49)))
          ∧ (u.slot k).stage = .running a ∧ (u.slot k).lapNext = (s.slot k).lapNext
          ∧ ((∀ n ∈ s.grid.failing, s.ownerOf n ≠ some k) → (u.slot k).faults = (s.slot k).faults)
          ∧ ((∃ n ∈ s.grid.failing, s.ownerOf n = some k) → s.porterMay k = true →
              (u.slot k).faults = (s.slot k).faults ++ [⟨0xC000, 0x62, s.faultCycle k, 0⟩])
          ∧ u.grid = s.grid ∧ SameBut k s u)
  ∧ (∀ (s : State) (k : Nat), ((∀ a, (s.slot k).stage ≠ .running a) ∨ (s.slot k).faultDrive.elim True (fun t => s.now ≠ t + 24)) →
        exec (.faultLine k) s = .next s)
  ∧ (∀ (s : State) (k a : Nat), (s.slot k).stage = .running a → (s.slot k).abortAt = some s.now →
        ((s.slot k).attempt ≠ .probe → s.now < a + s.lapLen k → ∃ t, exec (.schussAbort k (State.schussWord 2 k 0)) s = .next t
          ∧ (t.slot k).stage = .aborted a s.now
          ∧ (∀ n, Table.has n s.grid.cores = true → t.core n = (if (s.core n).slot = k then (s.core n).stop else s.core n))
          ∧ (∀ n, Table.has n s.grid.routers = true →
              t.router n = (if (s.router n).slot = k then (s.router n).stop else s.router n))
          ∧ SameBut k s t)
        ∧ ((s.slot k).attempt = .probe → ∃ t, exec (.schussAbort k (State.schussWord 2 k 0)) s = .next t
          ∧ (t.slot k).stage = .idle ∧ (t.slot k).attempt = .first ∧ (t.slot k).abortAt = none ∧ (t.slot k).faults = []
          ∧ (t.slot k).lapNext = (s.slot k).lapNext
          ∧ t.det.probe.state = (if State.hasLapFault (s.slot k).faults then 3 else 2)
          ∧ t.det.probe.lap = (s.slot k).lapNext ∧ t.det.probe.endAt = s.now - a - 1
          ∧ t.det.probe.cores = (s.grid.cores.filter (fun c => c.2.slot == k)).map (fun c => (c.1, c.2.fp))
          ∧ t.det.probe.slices = (s.slotSlices k).map (fun j => (j, (s.ctl j).fp)) ∧ t.mem.hbm = s.mem.hbm))
  ∧ (∀ (s : State) (k : Nat), ((s.slot k).abortAt ≠ some s.now ∨ ∀ a, (s.slot k).stage ≠ .running a) →
        exec (.schussAbort k (State.schussWord 2 k 0)) s = .next s)
  ∧ (∀ (s : State) (k : Nat), Table.sorted s.grid.cores = true → s.lapCycle k = some (s.lapLen k - 1) →
        ∃ t, exec (.lapEnd k) s = .next t
        ∧ (∀ n, Table.has n s.grid.routers = true → (s.router n).slot = k → State.routerStopped (s.router n) = false →
            s.lapGoing k = true → (⟨n, 0x38, s.faultCycle k, 0⟩ : FaultRec) ∈ (t.slot k).faults ∧ (t.slot k).faultDrive.isSome = true)
        ∧ (∀ n, Table.has n s.grid.cores = true → t.core n =
            (if (s.core n).slot = k ∧ s.fenced n = false ∧ State.coreEnded (s.core n) (s.lapLen k - 1) = false
              then (s.core n).trap 0x0A else s.core n))
        ∧ (∀ n, Table.has n s.grid.routers = true → t.router n =
            (if (s.router n).slot = k ∧ State.routerStopped (s.router n) = false
              then { s.router n with seqNext := some { (s.router n).seq with phase := .faulted } } else s.router n))
        ∧ (t.slot k).stage = (s.slot k).stage ∧ (t.slot k).lapNext = (s.slot k).lapNext
        ∧ (∀ j, j ≠ k → t.slot j = s.slot j) ∧ t.mem = s.mem ∧ t.now = s.now ∧ t.ports = s.ports)
  ∧ (∀ (s : State) (k : Nat), s.lapCycle k ≠ some (s.lapLen k - 1) → exec (.lapEnd k) s = .next s)
  ∧ (∀ (s : State),
        let errs := fun (c : Instr) => ∃ t, exec c s = .next t ∧ t.grid.schussErrors = satAdd 32 s.grid.schussErrors 1
          ∧ (∀ n k, Table.has n s.grid.routers = true → (s.router n).slot = k → (s.lapCycle k).isSome = true →
              (t.slot k).faultDrive.isSome = true ∧ (s.slot k).faults.length < (t.slot k).faults.length)
          ∧ t.grid.cores = s.grid.cores ∧ t.mem = s.mem ∧ t.now = s.now ∧ t.ports = s.ports
        (∀ arg, arg < 256 → s.grid.routerRink % 256 = 0 → s.grid.routerRink / 256 % 256 = arg →
          exec (.tick (State.schussWord 4 0 arg)) s = .next s)
        ∧ (∀ arg, arg < 256 → (s.grid.routerRink % 256 ≠ 0 ∨ s.grid.routerRink / 256 % 256 ≠ arg) →
          errs (.tick (State.schussWord 4 0 arg)))
        ∧ errs .schussParityError
        ∧ (∀ w : BitVec 16, State.evenParity w = false →
          errs (.tick w) ∧ ∀ k, errs (.schussAbort k w) ∧ ∀ l, errs (.schussLaunch k w l)))
  ∧ (∀ (s : State) (k : Nat) (job : DigestJob) (rest : List DigestJob), (s.slot k).digestDue = job :: rest →
        job.due = s.now →
        let d := sha384 job.input
        let logged := fun (x : Slot) => ({ x with
          lapDigest := (job.lap, d), digestLog := Table.put (job.lap % 64) (job.lap, d) x.digestLog, digestDue := rest } : Slot)
        ((s.slot k).info.pairs = false ∨ (s.slot k).provisional = none → exec (.lapDigestReady k) s = .next (s.onSlot k logged))
        ∧ ((s.slot k).info.pairs = true → (s.slot k).provisional ≠ none → (s.slot k).pairState = 2 →
          ∃ t, exec (.lapDigestReady k) s = .next t ∧ (t.slot k).confirmed = true ∧ (t.slot k).lapDigest = (job.lap, d)
            ∧ (t.slot k).pairSent = (s.slot k).pairSent)
        ∧ (∀ ev', (s.slot k).info.pairs = true → (s.slot k).provisional ≠ none → (s.slot k).pairState ≠ 2 →
          job.lap = (s.slot k).lapNext - 1 → (s.slot k).confirmed = false → (s.slot k).pairIn = some (job.lap, d, ev') →
          ∃ t, exec (.lapDigestReady k) s = .next t ∧ (t.slot k).confirmed = true ∧ (t.slot k).lapDigest = (job.lap, d)
            ∧ (t.slot k).pairSent = some (job.lap, s.now, d, (s.slot k).evidence))
        ∧ ((s.slot k).info.pairs = true → (s.slot k).provisional ≠ none → (s.slot k).pairState ≠ 2 → (s.slot k).pairIn = none →
          ∃ t, exec (.lapDigestReady k) s = .next t
            ∧ t.slot k = { logged (s.slot k) with pairSent := some (job.lap, s.now, d, (s.slot k).evidence) }
            ∧ (∀ j, j ≠ k → t.slot j = s.slot j) ∧ t.grid = s.grid ∧ t.mem = s.mem ∧ t.ports = s.ports))

/-- The boundary of a lap without a fault: LAP_NEXT and LAPS_DONE go up by 1, its cores stand at the boundary, its
digest is due 6,144 cc later, and memory is not changed; after the last lap of a counted run, and after the last lap
number, the slot is PAUSED and its run over, and else it runs on (R287, R290, R292, R315, R320). The boundary of an
attempt with program faults alone halts the slot with PROGRAM_FAULT: LAP_NEXT stands, and the run is over (R88, R285,
R287). One with a lap fault has the lap replayed: the slot is REPLAYING at the same LAP_NEXT (R88, R287, R510). Both
count in LAP_FAULTS. A slot that has halted only comes to rest, and no boundary falls in another cycle (R287, R291). -/
def Obligations.LapBoundaries : Prop :=
  (∀ (s : State) (k a : Nat) (errs : List BlockErr), k < 8 → (s.slot k).stage = .running a → s.now = a + s.lapLen k + 24 →
        (s.slot k).st ≠ .halted → (s.slot k).faults = [] → (s.slot k).abortAt = none →
        (s.slot k).halt = [] → s.grid.failing = [] → s.grid.plan = none →
        s.grid.unsettled = false → s.mem.failing = [] → s.mem.losing = [] →
        let left := if (s.slot k).counted = true then (s.slot k).lapsLeft - 1 else 0
        let ends := ((s.slot k).counted = true ∧ left = 0) ∨ (s.slot k).lapNext + 1 = 2 ^ 48
        ∃ t, exec (.lapBoundary k errs) s = .next t
          ∧ (ends → (t.slot k).st = .paused ∧ (t.slot k).lapsLeft = 0 ∧ (t.slot k).launchTicket = none ∧ (t.slot k).stage = .idle)
          ∧ (¬ ends → (t.slot k).st = .running ∧ (t.slot k).lapsLeft = left ∧ (t.slot k).launchTicket = (s.slot k).launchTicket
            ∧ (∀ a, (t.slot k).stage ≠ .running a) ∧ (s.multi k = false → (s.slot k).info.pairs = false →
              (s.slot k).reloads = [] → (s.slot k).rebuilding = [] → (t.slot k).stage = .waiting))
          ∧ (t.slot k).lapNext = (s.slot k).lapNext + 1
          ∧ (t.slot k).lapsDone = (s.slot k).lapsDone + 1 ∧ (t.slot k).boundaryAt = s.now
          ∧ (t.slot k).digestDue = (s.slot k).digestDue ++ [⟨s.now + 6144, (s.slot k).lapNext, s.digestInput k⟩]
          ∧ (∀ n, Table.has n s.grid.cores = true → (s.core n).slot = k → (t.core n).phase = .boundary
              ∧ (t.core n).data = (s.core n).data)
          ∧ t.mem.hbm = s.mem.hbm ∧ t.now = s.now)
  ∧ (∀ (s : State) (k : Nat) (errs : List BlockErr), k < 8 →
        (s.boundaryDue k ≠ some s.now → exec (.lapBoundary k errs) s = .next s)
        ∧ (s.boundaryDue k = some s.now → (s.slot k).halt = [] →
          s.grid.failing = [] → s.grid.plan = none → s.grid.unsettled = false → s.mem.failing = [] → s.mem.losing = [] →
          ((s.slot k).st = .halted → ∃ t, exec (.lapBoundary k errs) s = .next t ∧ (t.slot k).st = .halted
            ∧ (t.slot k).stage = .idle ∧ (t.slot k).boundaryAt = s.now ∧ (t.slot k).reason = (s.slot k).reason
            ∧ (t.slot k).lapNext = (s.slot k).lapNext ∧ t.grid.lapFaults = s.grid.lapFaults)
          ∧ ((s.slot k).st ≠ .halted → (s.slot k).st ≠ .empty → (s.slot k).faults ≠ [] →
            (State.hasLapFault (s.slot k).faults = false → ∃ t, exec (.lapBoundary k errs) s = .next t
              ∧ (t.slot k).st = .halted ∧ (t.slot k).reason = .programFault ∧ (t.slot k).lapNext = (s.slot k).lapNext
              ∧ (t.slot k).launchTicket = none ∧ (t.slot k).stage = .idle
              ∧ t.grid.lapFaults = satAdd 64 s.grid.lapFaults 1
              ∧ ((∀ j < 8, j ≠ k → ¬((s.slot j).stage = .idle ∧ ((s.slot j).st = .running ∨ (s.slot j).st = .replaying))) →
                  t.mem.hbm = s.mem.hbm))
            ∧ (∀ r, State.hasLapFault (s.slot k).faults = true → State.firstRec (s.slot k).faults = some r →
              (s.slot k).run = [] → (s.slot k).blocksBad = [] → ∃ t, exec (.lapBoundary k errs) s = .next t
              ∧ (t.slot k).st = .replaying ∧ (t.slot k).attempt = .replay ∧ (t.slot k).lapNext = (s.slot k).lapNext
              ∧ (State.passedOver r = false → (t.slot k).run = [r]) ∧ (t.slot k).faultBoundaryAt = some s.now
              ∧ t.grid.lapFaults = satAdd 64 s.grid.lapFaults 1 ∧ t.mem.hbm = s.mem.hbm
              ∧ (s.multi k = false → (s.slot k).info.pairs = false → (s.slot k).reloads = [] → (s.slot k).rebuilding = [] →
                  State.reloadsOf (s.slot k).faults = [] → (t.slot k).stage = .waiting)))))

/-- COMMIT, 24 cc after it was driven and with no slot it names in a lap, makes the change planned for the site decided
as failed: rows are mapped as R38 has them, every core stands at the site the mapping gives it, every site of the plan
has its new status, with its latches as they were staged, and the failure is counted (R38, R234, R239, R514). A STAGE
message that has reached its router leaves its values there and is answered with a STAGE_ACK, which takes it off the
Porter's list: with the last one COMMIT is driven in the next cycle (R225, R234, R511). The router of a site that
carries no core is reached directly (assumption 34). Gate-table contents land at their entries between laps, each with
its check bytes, and no other entry or router changes; under a header that is not a GATE_LOAD of the Porter's to that
router, none lands (R210, R225; the payload's layout is assumption 34's). The end of a reload leaves each core of it
with its golden region, bundles and windows, and its router with its gate table and the check bytes, as its golden
record in HBM has them (R210, R278, R510, R511). -/
def Obligations.SiteRemedyAndReload : Prop :=
  (∀ (s : State) (p : SitePlan) (at_ mask n : Nat), Table.sorted s.grid.cores = true → Table.sorted p.sites = true →
        s.grid.commit = some (at_, mask) → s.now = at_ + 24 → s.grid.plan = some p → p.failed = some n →
        s.failedSites.contains n = false →
        (∀ k < 8, bitOf mask k = 1 → s.betweenLaps k = true) → (∀ x ∈ p.sites, State.commitNames p mask x.1 = true) →
        s.grid.failing = [n] → s.grid.unsettled = false → (∀ k < 8, (s.slot k).halt = [] ∧ s.multi k = false) →
        ∃ t, exec (.schussCommit (State.schussWord 3 0 mask)) s = .next t
          ∧ t.grid.commit = none ∧ t.grid.plan = none ∧ t.grid.failing = [] ∧ t.grid.rowMap = p.rowMap
          ∧ n ∈ t.grid.failedService ∧ t.grid.siteFailures = satAdd 32 s.grid.siteFailures 1
          ∧ t.grid.rowShifts = satAdd 32 s.grid.rowShifts p.shifts ∧ t.grid.rowRemaps = satAdd 32 s.grid.rowRemaps p.remaps
          ∧ (∀ c, Table.has c s.grid.cores = true → (t.core c).site = t.siteFor c)
          ∧ (∀ q x, (q, x) ∈ p.sites → (t.site q).state = x.state ∧ (t.site q).lx = x.lx ∧ (t.site q).ly = x.ly
              ∧ (t.site q).staged = none
              ∧ (∀ f b i j, (s.site q).staged = some (f, b, i, j) →
                  (t.site q).fence = f ∧ (t.site q).bypass = b ∧ (t.site q).nsteer = i ∧ (t.site q).ssteer = j))
          ∧ (∀ q, Table.has q p.sites = false → t.site q = s.site q) ∧ t.mem.hbm = s.mem.hbm)
  ∧ (∀ (s : State) (site : Nat) (g : StageMsg),
        (∀ (fence bypass : Bool) (n m : BitVec 3), s.grid.stages.find? (State.isStage site fence bypass n.toInt m.toInt) = some g →
          g.applied = false →
          let kept := fun (t : State) => (t.site site).staged = some (fence, bypass, n.toInt, m.toInt)
            ∧ (∀ q, q ≠ site → t.site q = s.site q)
            ∧ t.grid.stages = s.grid.stages.map (fun (h : StageMsg) => if h == g then { h with applied := true } else h)
            ∧ t.grid.cores = s.grid.cores ∧ t.slots = s.slots ∧ t.mem = s.mem
          (s.coreAt site = none → ∃ t, exec (.stage site fence bypass n m) s = .next t ∧ kept t ∧ t.grid.transom = s.grid.transom)
          ∧ (∀ c l tr, s.coreAt site = some c → s.grid.transom.takeAt c (State.isMessage 3 0xFFF0 g.seq) = some (l, tr) →
            ∃ t, exec (.stage site fence bypass n m) s = .next t ∧ kept t
              ∧ t.grid.transom = tr.inject c (headerFlit 0xFFF0 c 4 1 g.seq 0) []))
        ∧ (s.grid.stages.find? (fun h => h.site == site && h.applied) = some g →
          let rest := s.grid.stages.filter (fun h => h.site != site)
          let acked := fun (tr : Transom) =>
            (rest ≠ [] → exec (.stageAck site) s = .next { s with grid := { s.grid with transom := tr, stages := rest } })
            ∧ (∀ p, rest = [] → s.grid.commit = none → s.grid.plan = some p → (∀ k ∈ State.planSlots p, s.betweenLaps k = true) →
              exec (.stageAck site) s = .next { s with grid := { s.grid with
                transom := tr, stages := [], commit := some (s.now + 1, State.slotMask (State.planSlots p)) } })
          (s.coreAt site = none → acked s.grid.transom)
          ∧ (∀ c l tr, s.coreAt site = some c → s.grid.transom.takePorter (State.isMessage 4 c g.seq) = some (l, tr) → acked tr)))
  ∧ (∀ (s : State) (n first : Nat) (h : BitVec 120) (l : List (BitVec 128)), Table.has n s.grid.routers = true →
        s.attemptOpen (s.router n).slot = false → first + l.length ≤ 512 →
        (State.isGateLoad n h = true → ∃ r, exec (.gateLoad n h first l) s = .next (s.setRouter n r)
          ∧ (∀ i, (h : i < l.length) → Table.get 0 (first + i) r.table = rsWord l[i])
          ∧ (∀ e, e < first ∨ first + l.length ≤ e → Table.get 0 e r.table = Table.get 0 e (s.router n).table)
          ∧ r = { s.router n with table := r.table })
        ∧ (State.isGateLoad n h = false → exec (.gateLoad n h first l) s = .next s))
  ∧ (∀ (s : State) (k : Nat), (s.slot k).reloads ≠ [] → s.attemptOpen k = false → s.heldBySites k = false →
        (s.slot k).halt = [] → s.multi k = false →
        ∃ t, exec (.reloadComplete k) s = .next t ∧ (t.slot k).reloads = []
          ∧ (∀ n ∈ (s.slot k).reloads,
            let c := s.core n
            (t.core n).data = Memory.ofBytes 0 (s.runBytes c.golden 0 c.dtop)
            ∧ (t.core n).instr = Memory.ofBytes 0 (s.runBytes c.golden c.dtop (16 * c.itop))
            ∧ (t.core n).windows = State.wordTable 64 8 (s.runBytes c.golden (c.dtop + 16 * c.itop) 384)
            ∧ (t.router n).table = List.map (fun x => (x.1, rsWord x.2))
                (State.wordTable 128 16 (s.runBytes c.golden (c.dtop + 16 * c.itop + 384) (16 * c.gateCount))))
          ∧ (∀ n, n ∉ (s.slot k).reloads → t.core n = s.core n ∧ t.router n = s.router n)
          ∧ t.mem.hbm = s.mem.hbm)

/-- A trap report that reaches the Porter is acknowledged, and entered once however often it comes; a core's or
router's report is sent again after 1,024 cc, but not past a set fence latch, and is dropped by its sender when the
acknowledgement reaches it (R84, R226, R230). A site whose monitor trips in an open lap raises SITE_DEAD for the slot
that owns it and counts as failed, and one of no course drives DEVICE; two Porters that disagree make the device treat
itself as lost, which halts every course (R223, R514, R515, R516, R527). -/
def Obligations.ReportsAndFailures : Prop :=
  (∀ (s : State) (src seq : Nat) (router : Bool) (r : TrapReport),
        s.grid.reports.find? (State.isReport src router seq) = some r → s.grid.reports.any (State.isReport src (!router) seq) = false →
        let mine := State.isReport src router seq
        (∀ m tr, s.grid.transom.takePorter (State.isMessage 1 src seq) = some (m, tr) →
          let acked := tr.inject (0x4000 + coreY src) (headerFlit src 0xFFF0 2 1 seq 0) []
          let p := hdrPayload (m.headD 0)
          (r.received = true → exec (.trapReport src router seq) s = .next { s with grid := { s.grid with transom := acked } })
          ∧ (r.received = false → ∃ t, exec (.trapReport src router seq) s = .next t
            ∧ t.grid.transom = acked ∧ t.grid.trapReports = satAdd 32 s.grid.trapReports 1
            ∧ t.grid.reports = s.grid.reports.map (fun q => if mine q then { q with received := true } else q)
            ∧ (bitsOf p 63 60 < 8 → (s.slot (bitsOf p 63 60)).firstTrap = 0 → (t.slot (bitsOf p 63 60)).firstTrap
                = State.trapWord (bitsOf p 63 60) ⟨src, bitsOf p 71 64, bitsOf p 59 42, bitsOf p 41 31⟩)
            ∧ SameBut (bitsOf p 63 60) s t ∧ t.grid.cores = s.grid.cores))
        ∧ (s.now = r.sent + 1024 →
          let again := { s with grid := { s.grid with reports := s.grid.reports.map (fun q => if mine q then { q with sent := s.now } else q) } }
          ((router = true ∨ (s.site r.site).fence = false) → exec (.trapReportResend src router seq) s = .next { again with grid := { again.grid with
              transom := s.grid.transom.inject src (headerFlit 0xFFF0 r.src 1 1 r.seq (trapPayload r.code r.slot r.cc r.pc)) [] } })
          ∧ (router = false → (s.site r.site).fence = true → exec (.trapReportResend src router seq) s =
              .next { again with grid := { again.grid with fenceDrops := satAdd 64 s.grid.fenceDrops 1 } }))
        ∧ (∀ m tr, s.grid.transom.takeAt src (State.isMessage 2 0xFFF0 seq) = some (m, tr) →
          exec (.trapAck src router seq) s = .next { s with grid := { s.grid with
            transom := tr, reports := s.grid.reports.filter (fun q => !mine q) } }))
  ∧ (∀ (s : State),
        (∀ site, site < 10560 →
          (∀ c k, s.coreAt site = some c → s.ownerOf site = some k → s.lapGoing k = true → ∃ t, exec (.siteDead site) s = .next t
            ∧ (t.slot k).faults = (s.slot k).faults ++ [⟨c, 0x3A, s.faultCycle k, 0⟩] ∧ (t.slot k).faultDrive.isSome = true
            ∧ (site ∈ t.grid.failing ∨ site ∈ s.failedSites) ∧ SameBut k s t ∧ t.grid.cores = s.grid.cores)
          ∧ (s.ownerOf site = none → ∃ t, exec (.siteDead site) s = .next t
            ∧ t.grid.deviceDrives = s.now :: s.grid.deviceDrives ∧ (site ∈ t.grid.failing ∨ site ∈ s.failedSites)
            ∧ t.slots = s.slots ∧ t.grid.cores = s.grid.cores ∧ t.mem = s.mem))
        ∧ (s.grid.deviceLost = 0 → (∀ k < 8, (s.slot k).halt = []) → ∃ t, exec .porterMismatch s = .next t
            ∧ t.grid.deviceLost = 4
            ∧ (∀ k < 8, (s.slot k).st ≠ .empty → (t.slot k).st = .halted ∧ (t.slot k).reason = .deviceLost)
            ∧ t.mem.hbm = s.mem.hbm ∧ t.grid.cores = s.grid.cores)
        ∧ (s.grid.deviceLost ≠ 0 → exec .porterMismatch s = .next s))

/-- A request flit taken for a period is accepted for it when it names this slice and period, a write to a read-only
window raises WRITE_DENIED, and one that names another slice or period raises REQUEST_MISROUTED; neither is served. OP
0 asks for nothing, and a stack whose clocks are off takes nothing (R254, R257, R267). An edge transfer that its edge
table assigns to a slice is kept for the coming period of its entry, corrected where its code can; one that its code
cannot correct is counted and raises EDGE_UNCORRECTABLE. A transom transfer carries nothing to a stack; one that cannot
be corrected is counted in TRANSOM_DROPS (R201, R224, R255, R256, R257, R267). A scheduled write puts the four flits of
its period into its block, with its META, and into no other byte of memory (R246, R257). A scheduled read takes the
copy its slice still holds, counted as merged, or reads its block: the 64 bytes leave after 64 cc, and no byte of
memory changes. A block that cannot be corrected leaves unknown bytes that fault the lap when they leave, and is
remembered for its repair (R245, R247, R257, R259, R267, R268). Read data leaves when it is ready: the controller no
longer holds it, and a read that could not be corrected raises BLOCK_UNCORRECTABLE (R257, R267). -/
def Obligations.SliceTraffic : Prop :=
  (∀ (s : State) (j p : Nat),
        (s.stackLive (sliceStack j) = false → exec (.memoryRequest j p) s = .next s)
        ∧ (∀ (k : Nat) (i : InFlit), s.stackLive (sliceStack j) = true → s.ownerOfStack (sliceStack j) = some k → k < 8 →
          s.lapGoing k = true → (s.ctl j).inbound.find? (fun i => i.role == 0 && i.period == p && i.at_ == s.now) = some i →
          ∃ t, exec (.memoryRequest j p) s = .next t
          ∧ (t.ctl j).inbound = (s.ctl j).inbound.filter (fun i => !(i.role == 0 && i.period == p && i.at_ == s.now))
          ∧ (∀ q, q ≠ j → t.ctl q = s.ctl q) ∧ t.mem.hbm = s.mem.hbm ∧ t.grid.cores = s.grid.cores
          ∧ (State.reqOp i.flit = 0 → t.slots = s.slots ∧ (t.ctl j).reqs = (s.ctl j).reqs)
          ∧ (State.reqOp i.flit = 1 ∨ State.reqOp i.flit = 2 →
            (State.reqSlice i.flit = j → State.reqPeriod i.flit = p → State.reqNowr i.flit = false →
              t.slots = s.slots
              ∧ (t.ctl j).reqs = (s.ctl j).reqs ++ [⟨i.start, p, decide (State.reqOp i.flit = 2), State.reqBlock i.flit⟩])
            ∧ (State.reqSlice i.flit ≠ j ∨ State.reqPeriod i.flit ≠ p → (t.ctl j).reqs = (s.ctl j).reqs
              ∧ (t.slot k).faults = (s.slot k).faults ++ [⟨0x8000 + j, 0x42, s.faultCycle k, 0⟩])
            ∧ (State.reqSlice i.flit = j → State.reqPeriod i.flit = p → State.reqNowr i.flit = true →
              (t.ctl j).reqs = (s.ctl j).reqs
              ∧ (t.slot k).faults = (s.slot k).faults ++ [⟨0x8000 + j, 0x43, s.faultCycle k, 0⟩]))))
  ∧ (∀ (s : State) (st l u : Nat) (err : BitVec 160), s.stackLive st = true →
        (s.edgeReserved u = true → ∃ t, exec (.edgeTransfer st l u err) s = .next t
          ∧ t.mem = s.mem ∧ t.grid.cores = s.grid.cores ∧ t.grid.linkUncorrectable = s.grid.linkUncorrectable
          ∧ t.grid.transomDrops = (if rsDecode (errSymbols err) = .failed then satAdd 32 s.grid.transomDrops 1
              else s.grid.transomDrops))
        ∧ (∀ (k c : Nat) (tb : EdgeTable), s.edgeReserved u = false → s.ownerOfStack st = some k → k < 8 →
          s.lapCycle k = some c → s.edgeTable k st = some tb →
          let e := State.edgeEntry tb c l u 0
          let j := 30 * st + State.edgeSlice e
          (State.edgeValid e = false → exec (.edgeTransfer st l u err) s = .next s)
          ∧ (State.edgeValid e = true → ¬(u = 1 ∧ c % 8 = 5) → ∃ t f, exec (.edgeTransfer st l u err) s = .next t
            ∧ (t.ctl j).inbound = (s.ctl j).inbound ++
              [⟨s.now, s.now + (State.periodStart c (State.edgePeriod e) - c), State.edgePeriod e, State.edgeRole e, f⟩]
            ∧ (∀ q, q ≠ j → t.ctl q = s.ctl q) ∧ t.mem.hbm = s.mem.hbm ∧ t.grid.cores = s.grid.cores
            ∧ (∀ x, rsDecode (errSymbols err) = .clean x → f = s.edgeFlit st l u ^^^ residualFlit x ∧ t.slots = s.slots
              ∧ t.grid = s.grid)
            ∧ (∀ x, rsDecode (errSymbols err) = .corrected x → f = s.edgeFlit st l u ^^^ residualFlit x ∧ t.slots = s.slots
              ∧ t.grid.linkCorrected = satAdd 64 s.grid.linkCorrected 1)
            ∧ (rsDecode (errSymbols err) = .failed → t.grid.linkUncorrectable = satAdd 64 s.grid.linkUncorrectable 1
              ∧ (t.slot k).faults = (s.slot k).faults ++ [⟨0x8000 + j, 0x41, s.faultCycle k, 0⟩]))))
  ∧ (∀ (s : State) (j k c : Nat) (errs : List BlockErr) (r : SliceReq), s.stackLive (sliceStack j) = true →
        s.ownerOfStack (sliceStack j) = some k → s.lapCycle k = some c →
        (s.ctl j).reqs.find? (fun r => r.start == s.now) = some r → r.write = true → ∃ t,
          exec (.slicePeriod j errs) s = .next t
          ∧ (let la := lineOf j r.period r.block
            let flit := fun (q : Nat) => (s.inboundFlit (s.ctl j) r.period (q + 1)).toNat
            let line : BitVec 512 := BitVec.ofNat 512 (flit 0 + 2 ^ 128 * flit 1 + 2 ^ 256 * flit 2 + 2 ^ 384 * flit 3)
            (∀ i < 64, t.mem.hbm.read (64 * s.placeOf la + i) = line.extractLsb' (8 * i) 8)
            ∧ (∀ a, a < 64 * s.placeOf la ∨ 64 * s.placeOf la + 64 ≤ a → t.mem.hbm.read a = s.mem.hbm.read a)
            ∧ t.metaAt la = s.metaOf la 2 false
            ∧ (t.ctl j).reqs = (s.ctl j).reqs.filter (fun r => r.start != s.now)
            ∧ t.grid = s.grid ∧ t.slots = s.slots ∧ t.ports = s.ports))
  ∧ (∀ (s : State) (j k c : Nat) (errs : List BlockErr) (r : SliceReq), s.stackLive (sliceStack j) = true →
        s.ownerOfStack (sliceStack j) = some k → k < 8 → s.lapCycle k = some c →
        (s.ctl j).reqs.find? (fun r => r.start == s.now) = some r → r.write = false →
        let la := lineOf j r.period r.block
        let copy := ((s.ctl j).held.filter (fun h => s.now ≤ h.at_ + 2048)).find?
          (fun h => h.bankset == laSet la && h.block == laBlock la)
        ∃ t d, exec (.slicePeriod j errs) s = .next t
          ∧ (t.ctl j).reads = (s.ctl j).reads ++
              [⟨s.now + 64, r.period, la, d, decide (copy = none ∧ (s.readBlock errs la).1 = none)⟩]
          ∧ t.mem.hbm = s.mem.hbm ∧ t.grid = s.grid ∧ t.ports = s.ports
          ∧ (∀ h, copy = some h → d = h.data ∧ t.slots = s.slots ∧ t.mem.merged = satAdd 64 s.mem.merged 1)
          ∧ (∀ e, copy = none → (s.readBlock errs la).1 = some e → d = e.1 ∧ t.slots = s.slots ∧ t.mem.merged = s.mem.merged)
          ∧ (copy = none → errs = [] → (s.metaAt la).extractLsb' 8 24 = (s.metaOf la 0 false).extractLsb' 8 24 → d = s.lineAt la)
          ∧ (copy = none → (s.readBlock errs la).1 = none → t.mem.uncorrectable = satAdd 64 s.mem.uncorrectable 1
              ∧ la ∈ (t.slot k).blocksBad))
  ∧ (∀ (s : State) (j k : Nat) (r : ReadOut), s.stackLive (sliceStack j) = true → s.ownerOfStack (sliceStack j) = some k → k < 8 →
        s.lapGoing k = true → (s.ctl j).reads.find? (fun r => r.ready == s.now) = some r →
        ∃ t, exec (.readDataReady j) s = .next t
          ∧ (t.ctl j).reads = (s.ctl j).reads.filter (fun r => r.ready != s.now)
          ∧ t.mem.hbm = s.mem.hbm ∧ t.grid.cores = s.grid.cores
          ∧ (r.bad = false → t.slots = s.slots)
          ∧ (r.bad = true → (t.slot k).faults = (s.slot k).faults ++ [⟨0x8000 + j, 0x40, s.faultCycle k, 0⟩]))

/-- Once in a frame a slice scrubs: a block read clean makes the next one due; a corrected one is written back in the
next frame, its META as it was; one that R291 clears is written with zero. A slice that has scrubbed in the frame does
nothing (R246, R260, R291). A service write in a free period of its bank set stores its 64 bytes and no other, with its
META; it leaves the queue, and its slice serves no other access in the period. A period booked by a lap serves none
(R246, R248, R263, R265). A failed slice with a standby pseudo-channel is substituted: the map points at the standby, a
rebuild begins, and its end, a block in each period later, makes the slice ACTIVE; its RESERVED blocks are those of the
partner stack (R244, R269, R270, R273). A standby pseudo-channel that fails is no standby any more (R269). A stack
whose interface fails is lost, and a course whose stripe reaches it halts with MEMORY_LOST, or loses its device in
pairs mode; a halt that a HALT_AT_BOUNDARY with RELEASE waits for empties the slot (R271, R291). -/
def Obligations.MemoryUpkeep : Prop :=
  (∀ (s : State) (j : Nat) (errs : List BlockErr),
        let i := (s.ctl j).scrubNext
        let la := State.scrubLine j i
        let cleared := s.mem.clearing.any (fun r => State.inRun r.1 r.2 la)
        (s.scrubDue j = false → exec (.scrub j errs) s = .next s)
        ∧ (s.scrubDue j = true → (s.ctl j).scrubWb = none → i + 1 < 11184800 →
          (∀ d, cleared = false → (s.readBlock errs la).1 = some d → ∃ t, exec (.scrub j errs) s = .next t
            ∧ (t.ctl j).scrubNext = i + 1 ∧ t.scrubDue j = false ∧ t.mem.hbm = s.mem.hbm ∧ t.mem.meta_ = s.mem.meta_
            ∧ (t.ctl j).scrubWb = (if (s.readBlock errs la).2.1 then some (i, d.1) else none))
          ∧ (cleared = true → ∃ t, exec (.scrub j errs) s = .next t ∧ (t.ctl j).scrubNext = i + 1
            ∧ (∀ b < 64, t.mem.hbm.read (64 * s.placeOf la + b) = 0)
            ∧ (∀ a, a < 64 * s.placeOf la ∨ 64 * s.placeOf la + 64 ≤ a → t.mem.hbm.read a = s.mem.hbm.read a)))
        ∧ (∀ w d, s.scrubDue j = true → (s.ctl j).scrubWb = some (w, d) → ∃ t, exec (.scrub j errs) s = .next t
          ∧ (t.ctl j).scrubWb = none ∧ (t.ctl j).scrubNext = i ∧ t.mem.meta_ = s.mem.meta_
          ∧ (∀ b < 64, t.mem.hbm.read (64 * s.placeOf (State.scrubLine j w) + b) = d.extractLsb' (8 * b) 8)
          ∧ (∀ a, a < 64 * s.placeOf (State.scrubLine j w) ∨ 64 * s.placeOf (State.scrubLine j w) + 64 ≤ a →
              t.mem.hbm.read a = s.mem.hbm.read a)))
  ∧ (∀ (s : State) (j p : Nat) (errs : List BlockErr), s.periodNow = some p →
        (s.booked j p = true → exec (.serviceAccess j errs) s = .next s)
        ∧ ((s.ctl j).servedAt = some s.now → exec (.serviceAccess j errs) s = .next s)
        ∧ (∀ r : ServiceReq, s.booked j p = false → s.stackLive (sliceStack j) = true → (s.ctl j).servedAt ≠ some s.now →
          (s.sliceEnt j).st ≠ 2 → s.nextService j p = some r → r.write = true → ∃ t,
          exec (.serviceAccess j errs) s = .next t
          ∧ (∀ i < 64, t.mem.hbm.read (64 * s.placeOf r.la + i) = r.data.extractLsb' (8 * i) 8)
          ∧ (∀ a, a < 64 * s.placeOf r.la ∨ 64 * s.placeOf r.la + 64 ≤ a → t.mem.hbm.read a = s.mem.hbm.read a)
          ∧ t.metaAt r.la = s.metaOf r.la r.wsrc r.poison ∧ (t.ctl j).servedAt = some s.now
          ∧ t.mem.service = s.mem.service.erase r ∧ t.grid = s.grid))
  ∧ (∀ (s : State) (j : Nat),
        (∀ c rest, j < 480 → (s.stack (sliceStack j)).standby = c :: rest → (s.sliceEnt j).st ≠ 2 → j ∉ s.mem.failing →
          (s.sliceEnt j).phys ∉ c :: rest → s.ownerOfStack (sliceStack j) = none → ∃ t, exec (.slicePhyFault j) s = .next t
            ∧ t.sliceEnt j = ⟨1, c⟩ ∧ (t.stack (sliceStack j)).standby = rest
            ∧ t.mem.substitutions = satAdd 32 s.mem.substitutions 1
            ∧ t.mem.rebuilds = s.mem.rebuilds.filter (fun r => r.slice != j) ++ [⟨j, none, s.now, 4096⟩]
            ∧ t.mem.hbm = s.mem.hbm ∧ t.slots = s.slots)
        ∧ (∀ c, c < 512 → c ∈ (s.stack (c / 32)).standby → ∃ t, exec (.slicePhyFault (512 + c)) s = .next t
            ∧ (t.stack (c / 32)).standby = (s.stack (c / 32)).standby.filter (fun i => i != c)
            ∧ (t.stack (c / 32)).failed.getLsbD (c % 32) = true ∧ t.mem.hbm = s.mem.hbm ∧ t.slots = s.slots)
        ∧ (∀ r errs, s.mem.rebuilds.find? (fun r => r.slice == j) = some r →
          (s.now < r.since + 4 * r.blocks → exec (.rebuildComplete j errs) s = .next s)
          ∧ (r.since + 4 * r.blocks ≤ s.now → s.stackAtBoundary (sliceStack j) = true → r.slot = none →
            ∃ t, exec (.rebuildComplete j errs) s = .next t
            ∧ (t.sliceEnt j).st = 0 ∧ (t.sliceEnt j).phys = (s.sliceEnt j).phys ∧ t.slots = s.slots
            ∧ t.mem.rebuilds = s.mem.rebuilds.filter (fun r => r.slice != j)
            ∧ (j < 480 → ∀ a, a / 2 ^ 30 ≠ (s.sliceEnt j).phys → t.mem.hbm.read a = s.mem.hbm.read a))))
  ∧ (∀ (s : State) (st : Nat), (s.stack st).lost = false → s.mem.losing = [] →
        (s.ownerOfStack st = none → ∃ t, exec (.stackInterfaceFailure st) s = .next t
          ∧ (t.stack st).lost = true ∧ (∀ i < 30, (t.sliceEnt (30 * st + i)).st = 2) ∧ t.mem.losing = []
          ∧ t.mem.hbm = s.mem.hbm ∧ t.slots = s.slots)
        ∧ (∀ k, s.ownerOfStack st = some k → k < 8 → (s.slot k).st ≠ .empty → ∃ t, exec (.stackInterfaceFailure st) s = .next t
            ∧ t.mem.hbm = s.mem.hbm
            ∧ ((s.slot k).halt.any (fun h => h.2) = true → (s.slot k).info.pairs = false → (t.slot k).st = .empty)
            ∧ ((s.slot k).halt.any (fun h => h.2) = false →
              ((s.slot k).info.pairs = false → (t.slot k).st = .halted ∧ (t.slot k).reason = .memoryLost)
              ∧ ((s.slot k).info.pairs = true → s.grid.deviceLost = 0 → t.grid.deviceLost = 7
                ∧ (t.slot k).st = .halted ∧ (t.slot k).reason = .deviceLost))))

/-- The end of a run takes the router to the entry that CTL names, as its read gives it: the next one, the start of an
open loop that has laps left, or rest; past entry 511 it raises GATE_OVERRUN, and an entry that cannot be corrected
raises GATE_UNCORRECTABLE and is not applied. A run that does not end now goes on (R210, R212, R213, R229). ENDA with
LA at 0, and ENDB with LB at 0, raise GATE_LOOP: the router applies no further entry, its slot's FAULT is driven, and a
report is opened (R213, R226, R229). A hold register that cannot be corrected raises FLIT_UNCORRECTABLE, and what it
then holds is not known (R229). -/
def Obligations.GateEntries : Prop :=
  (∀ (s : State) (n c : Nat) (err : BitVec 160) (holds : BitVec 3), s.lapCycle (s.router n).slot = some c → s.routerLive n = true →
        (s.router n).running = true → (s.router n).seqNext = none →
        let r := s.router n
        let q := r.seq
        let ends := fun (s' : State) => Host.Outcome.next (φ := Fault) (ρ := Refusal) (s'.holdUpsets n holds)
        let set := fun (q' : GateSeq) => s.setRouter n { r with seqNext := some q' }
        let goes := fun (q' : GateSeq) => ends (if q'.phase = .faulted then (set q').routerFault n 0x38 else set q')
        let entry := fun (q : GateSeq) (e : Nat) (back : GateBack) (x : BitVec 128) => Router.enter r.table q e (c + 1) back x
        (q.runEnd = c → (∀ x, Router.entryRead err = some x →
            (gateCtl r.current = 0 → exec (.gateNext n err holds) s = goes (entry q (q.e + 1) .none x))
            ∧ (gateCtl r.current = 1 →
              (1 < q.la → exec (.gateEnda n err holds) s = goes (entry { q with la := q.la - 1 } q.startA .a x))
              ∧ (q.la = 1 → exec (.gateEnda n err holds) s = goes (entry { q with la := 0 } (q.e + 1) .none x)))
            ∧ (gateCtl r.current = 2 →
              (1 < q.lb → exec (.gateEndb n err holds) s = goes (entry { q with lb := q.lb - 1 } q.startB .b x))
              ∧ (q.lb = 1 → exec (.gateEndb n err holds) s = goes (entry { q with lb := 0 } (q.e + 1) .none x))))
          ∧ (Router.entryRead err = none → gateCtl r.current = 0 → q.e < 511 → exec (.gateNext n err holds) s
              = ends ((set { entry q (q.e + 1) .none 0 with phase := .stopped }).routerFault n 0x31))
          ∧ (gateCtl r.current = 3 → exec (.gateStop n err holds) s = ends (s.setRouter n { r with
              seqNext := some { q with phase := .stopped }, entryNext := gateField r.current 120 112 })))
        ∧ (q.runEnd ≠ c → exec (.gateNext n err holds) s = ends s ∧ exec (.gateEnda n err holds) s = ends s
            ∧ exec (.gateEndb n err holds) s = ends s ∧ exec (.gateStop n err holds) s = ends s))
  ∧ (∀ (s : State) (n c : Nat) (err : BitVec 160), s.lapCycle (s.router n).slot = some c → s.routerLive n = true →
        let r := s.router n
        let s' := s.setRouter n { r with seqNext := some { r.seq with phase := .faulted } }
        (r.running = true → r.seq.runEnd = c → r.seqNext = none →
          (gateCtl r.current = 1 → r.seq.la = 0 → exec (.gateEnda n err 0) s = .next (s'.routerFault n 0x39))
          ∧ (gateCtl r.current = 2 → r.seq.lb = 0 → exec (.gateEndb n err 0) s = .next (s'.routerFault n 0x39)))
        ∧ (r.seq.runEnd ≠ c →
          (∃ f : Flit, exec (.gateNext n err 1) s
            = .next (({ s with fresh := s.fresh + 1 }.setRouter n { r with h0 := f }).routerFault n 0x30))
          ∧ (∃ f : Flit, exec (.gateNext n err 2) s
            = .next (({ s with fresh := s.fresh + 1 }.setRouter n { r with h1 := f }).routerFault n 0x30))
          ∧ (∃ f : Flit, exec (.gateNext n err 4) s
            = .next (({ s with fresh := s.fresh + 1 }.setRouter n { r with h2 := f }).routerFault n 0x30)))
        ∧ (r.slot < 8 → ∀ code, ((s.routerFault n code).slot r.slot).faults = (s.slot r.slot).faults ++ [⟨n, code, s.faultCycle r.slot, 0⟩]
          ∧ ((s.routerFault n code).slot r.slot).faultDrive = some ((s.slot r.slot).faultDrive.getD s.now)))

/-- The reduction ALU's operations, when the entry names them: what the ALU registers get, and when. Where the two
copies disagree the lap faults with REDUCE_MISMATCH, and the registers get values not known. An operation that the
entry does not name does nothing (R215 to R220, R229). -/
def Obligations.ReductionAlu : Prop :=
  ∀ (s : State) (n : Nat) (holds : BitVec 3), s.routerLive n = true →
    let r := s.router n
    let o := fun (i : Nat) => (r.operands (s.injected n 0) (s.injected n 1)).getD i 0
    let wid := fun (b : Nat) => decide (gateField r.current b b = 1)
    let ends := fun (s' : State) => Host.Outcome.next (φ := Fault) (ρ := Refusal) (s'.holdUpsets n holds)
    let put := fun (r' : Router) => ends (s.setRouter n r')
    let bad := fun (r' : Router) => ends (({ s with fresh := s.fresh + 2 }.setRouter n r').routerFault n 0x32)
    let alu := fun (x y : Flit) => put { r with aluNext := some (x, y) }
    (r.aopNow = 1 → exec (.add n false holds) s =
        alu (Router.aluAdd (wid 28) (wid 26) (o 0) (o 2)) (Router.aluAdd (wid 27) (wid 25) (o 1) (o 3))
      ∧ ∃ f g, exec (.add n true holds) s = bad { r with aluNext := some (f, g) })
    ∧ (r.aopNow = 2 → exec (.maxIdx n false holds) s =
        alu (Router.aluPick higher (o 0) (o 2)) (Router.aluPick higher (o 1) (o 3))
      ∧ ∃ f g, exec (.maxIdx n true holds) s = bad { r with aluNext := some (f, g) })
    ∧ (r.aopNow = 3 → exec (.minIdx n false holds) s =
        alu (Router.aluPick lower (o 0) (o 2)) (Router.aluPick lower (o 1) (o 3))
      ∧ ∃ f g, exec (.minIdx n true holds) s = bad { r with aluNext := some (f, g) })
    ∧ (r.aopNow = 4 →
      exec (.top8First n false holds) s = put { r with top8Next := some (r.operands (s.injected n 0) (s.injected n 1)) }
      ∧ exec (.top8First n true holds) s = bad { r with top8Next := some (r.operands (s.injected n 0) (s.injected n 1)) })
    ∧ (∀ f0 f1 f2 f3, r.aopNow = 5 → r.top8.getD [0, 0, 0, 0] = [f0, f1, f2, f3] →
      let m := Router.mergeTop 8 (Router.pairsOf [f0, f1, o 0, o 1]) (Router.pairsOf [f2, f3, o 2, o 3])
      let p := fun (q : Nat) => Router.pairFlit (m.getD (2 * q) (0, 0)) (m.getD (2 * q + 1) (0, 0))
      exec (.top8Second n false holds) s = put { r with aluNext := some (p 0, p 1), top8LateNext := some (p 2, p 3) }
      ∧ ∃ f g f' g', exec (.top8Second n true holds) s = bad { r with aluNext := some (f, g), top8LateNext := some (f', g') })
    ∧ (∀ x, (r.aopNow ≠ 1 → exec (.add n x holds) s = ends s) ∧ (r.aopNow ≠ 2 → exec (.maxIdx n x holds) s = ends s)
      ∧ (r.aopNow ≠ 3 → exec (.minIdx n x holds) s = ends s) ∧ (r.aopNow ≠ 4 → exec (.top8First n x holds) s = ends s)
      ∧ (r.aopNow ≠ 5 → exec (.top8Second n x holds) s = ends s))

/-- The merge of two lists of eight in falling order gives the eight that rank highest of the sixteen, in falling order
(R220, R221). -/
def Obligations.Top8MergeKeepsHighest : Prop :=
  ∀ (a b : List Scored), a.length = 8 → b.length = 8 →
    a.Pairwise (fun p q => Router.atOrAbove p q = true) → b.Pairwise (fun p q => Router.atOrAbove p q = true) →
    let m := Router.mergeTop 8 a b
    m.length = 8 ∧ m.Pairwise (fun p q => Router.atOrAbove p q = true)
      ∧ (∃ rest : List Scored, (m ++ rest).Perm (a ++ b) ∧ ∀ p ∈ m, ∀ q ∈ rest, Router.atOrAbove p q = true)

/-- A scheduled transfer within a stripe puts its flit at the input port of a router in a lap, as its code leaves it:
clean, corrected and counted, or, uncorrectable, a value not known that counts and raises FLIT_UNCORRECTABLE. Across a
stripe boundary it is not decoded. A router of no course whose transfer cannot be corrected drives DEVICE. A transom
transfer passes; one that cannot be corrected takes its whole message with it, and is counted (R200, R201, R203, R224,
R229, R236). -/
def Obligations.LinkTransferReceived : Prop :=
  ∀ (s : State) (n d t : Nat) (err : BitVec 160) (holds : BitVec 3), n < 0x2800 → coreY n < s.grid.activeRows →
    let r := s.router n
    let ends := fun (s' : State) => Host.Outcome.next (φ := Fault) (ρ := Refusal) (s'.holdUpsets n holds)
    let flit := match r.arriving.find? (fun a => a.due == s.now && a.port == 2 * d + t) with | some a => a.flit | none => 0
    let put := fun (s : State) (f : Flit) => s.setRouter n { r with inputs := Table.put (2 * d + t) f r.inputs }
    let corrected := { s with grid := { s.grid with linkCorrected := satAdd 64 s.grid.linkCorrected 1 } }
    (s.transomTransfer n d t = false → s.leavesStripe n d = true → exec (.linkTransfer n d t err holds) s = ends s)
    ∧ (s.transomTransfer n d t = false → s.leavesStripe n d = false → Table.has n s.grid.routers = true → s.routerLive n = true →
      (∀ x, rsDecode (errSymbols err) = .clean x → exec (.linkTransfer n d t err holds) s = ends (put s (flit ^^^ residualFlit x)))
      ∧ (∀ x, rsDecode (errSymbols err) = .corrected x →
          exec (.linkTransfer n d t err holds) s = ends (put corrected (flit ^^^ residualFlit x)))
      ∧ (rsDecode (errSymbols err) = .failed → ∃ f : Flit, exec (.linkTransfer n d t err holds) s =
          ends ((put { s with fresh := s.fresh + 1, grid := { s.grid with
            linkUncorrectable := satAdd 64 s.grid.linkUncorrectable 1 } } f).routerFault n 0x30)))
    ∧ (s.transomTransfer n d t = true → ∃ u, exec (.linkTransfer n d t err 0) s = .next u
      ∧ u.grid.routers = s.grid.routers ∧ u.grid.cores = s.grid.cores ∧ u.mem = s.mem
      ∧ u.grid.transomDrops = (if rsDecode (errSymbols err) = .failed then satAdd 32 s.grid.transomDrops 1
          else s.grid.transomDrops)
      ∧ (rsDecode (errSymbols err) = .failed → u.grid.transom = s.grid.transom.drop s.now n d)
      ∧ (∀ x, (rsDecode (errSymbols err) = .clean x ∨ rsDecode (errSymbols err) = .corrected x) →
          u.grid.transom = s.grid.transom.receive s.now n d (residualFlit x)))
    ∧ (s.transomTransfer n d t = false → s.leavesStripe n d = false → Table.has n s.grid.routers = false →
      (∀ x ∈ s.grid.idleFaults, x.1 ≠ s.siteFor n) → rsDecode (errSymbols err) = .failed →
      ∃ u, exec (.linkTransfer n d t err 0) s = .next u ∧ u.grid.linkUncorrectable = satAdd 64 s.grid.linkUncorrectable 1
      ∧ u.grid.deviceDrives = s.now :: s.grid.deviceDrives ∧ u.grid.idleFaults = (s.siteFor n, s.now) :: s.grid.idleFaults
      ∧ u.slots = s.slots ∧ u.mem = s.mem)

/-- Writes that reach a port: into a free window, a POST of it, and of its control registers; nothing outside the port
changes. A write outside a Secure stream, where IDE is required, is dropped and counted, as is one of a window that is
not free; a port that is not reached takes nothing (R375, R377, R378, R380, R387, R398). -/
def Obligations.PortWrites : Prop :=
  ∀ (s : State) (p : Nat),
    let q := s.port p
    let sets := fun (q' : Port) => Host.Outcome.next (φ := Fault) (ρ := Refusal) (s.setPort p q')
    let dropped := sets { q with drops := satAdd 32 q.drops 1 }
    (∀ w o bytes via, w < 32 → bytes ≠ [] → o < 0x20000 → (o = 0x1FFF8 → bytes.length ≠ 8) →
      (s.reached p = false → exec (.apertureWrite p (0x20000 * w + o) bytes via) s = .next s)
      ∧ (s.reached p = true → (s.notSecure p via = true ∨ q.bufFree.getLsbD w = false) →
        exec (.apertureWrite p (0x20000 * w + o) bytes via) s = dropped)
      ∧ (s.reached p = true → s.notSecure p via = false → q.bufFree.getLsbD w = true →
        exec (.apertureWrite p (0x20000 * w + o) bytes via) s =
          sets { q with windows := Table.put w (State.windowWrite (Table.get ⟨[], []⟩ w q.windows) o bytes) q.windows }))
    ∧ (∀ w (v : BitVec 64) via, w < 32 →
      (s.reached p = false → exec (.post p w v via) s = .next s)
      ∧ (s.reached p = true → s.notSecure p via = false → q.bufFree.getLsbD w = true → exec (.post p w v via) s =
        sets { q with bufFree := q.bufFree &&& ~~~(1#32 <<< w), posted := q.posted ++ [(w, v.toNat)] })
      ∧ (s.reached p = true → (s.notSecure p via = true ∨ q.bufFree.getLsbD w = false) → exec (.post p w v via) s = dropped))
    ∧ (∀ v : BitVec 64, s.reached p = true →
      (s.notSecure p .link = true → exec (.returnHead p v) s = dropped ∧ exec (.sealHead p v) s = dropped
        ∧ ∀ size, exec (.returnAreaWrite p size v) s = dropped)
      ∧ (s.notSecure p .link = false →
        exec (.returnHead p v) s = sets { q with returnHead := v.toNat }
        ∧ exec (.sealHead p v) s = sets { q with sealHead := v.toNat }
        ∧ (s.quiescent p = true →
          exec (.returnAreaWrite p false v) s = sets { q with returnBase := v.toNat, returnHead := 0, returnTail := 0 }
          ∧ exec (.returnAreaWrite p true v) s = sets { q with returnSize := v.toNat, returnHead := 0, returnTail := 0 })
        ∧ (s.quiescent p = false → ∀ size, exec (.returnAreaWrite p size v) s = dropped)))

/-- A response that is ready and fits is written at RETURN_TAIL, what follows its header before the header, and the
tail moves past it; the response leaves the queue. One that would cross the end of the area is preceded by a PAD
record, which fills the area to its end and takes an RSEQ of its own. Memory writes of the device keep to
Max_Payload_Size. A port that may not send, or has no return area, waits, as one without a response does (R375, R376,
R380, R390, R391, R392, R398). A response that does not fit sets RETURN_WAIT, once, and stays (R390, R392). The
response to a DEVICE_RESET write begins the reset when it is posted (R454). -/
def Obligations.PortResponses : Prop :=
  (∀ (s : State) (p : Nat), p < 2 → s.porterOn = true →
        let q := s.port p
        ((∀ r ∈ q.responses, r.postable = false) ∨ q.hasReturn = false ∨ s.portSends p = false → s.answersReset p = false →
          exec (.responsePost p) s = .next s)
        ∧ (∀ r : Response, q.responses.find? Response.postable = some r → q.hasReturn = true → s.portSends p = true →
          q.hasRoom r.size = true → q.returnTail % 64 = 0 → s.answersReset p = false →
          let pad := q.padFor r.size
          let at_ := q.returnBase + q.returnTail % q.returnSize
          let next := q.returnBase + (q.returnTail + pad) % q.returnSize
          let writes := fun (a : Nat) (l : List Byte) => State.hostWrites q (l.length + 1) a l
          ∃ t, exec (.responsePost p) s = .next t
          ∧ (t.port p).returnTail = q.returnTail + pad + r.size
          ∧ (t.port p).rseqLast = q.rseqLast + (if pad = 0 then 1 else 2)
          ∧ (t.port p).responses = q.responses.erase r ∧ (t.port p).returnWait = false
          ∧ (∃ first header later, (t.port p).sent = q.sent
              ++ (if pad = 0 then [] else writes (at_ + 64) (List.replicate (pad - 64) 0) ++ writes at_ first)
              ++ writes (next + 64) r.body ++ writes next header ++ later
              ∧ first.length = 64 ∧ first.take 1 = [0xFF] ∧ header.length = 64 ∧ header.take 1 = leBytes 1 r.opcode
              ∧ sliceBytes header 8 8 = leBytes 8 r.tag ∧ sliceBytes header 16 2 = leBytes 2 r.status ∧ (r.quiet = true → later = []))
          ∧ (∀ o, o ≠ p → t.port o = s.port o) ∧ t.slots = s.slots ∧ t.grid = s.grid ∧ t.mem = s.mem))
  ∧ (∀ (s : State) (p : Nat) (r : Response), p < 2 → s.porterOn = true →
        (s.port p).responses.find? Response.postable = some r → (s.port p).hasReturn = true → s.portSends p = true →
        ((s.port p).hasRoom r.size = false → ∃ t, exec (.responsePost p) s = .next t
          ∧ (t.port p).returnWait = true ∧ (t.port p).responses = (s.port p).responses
          ∧ (t.port p).returnTail = (s.port p).returnTail ∧ (t.port p).rseqLast = (s.port p).rseqLast
          ∧ ((s.port p).returnWait = true → t = s))
        ∧ ((s.port p).hasRoom r.size = true → s.answersReset p = true →
          exec (.responsePost p) s = .next (s.postResponse p).beginDeviceReset))

/-- What happens to a port and its link: L0, the configuration space with its Max_Payload_Size, D3hot, an integrity
failure of an IDE stream, and PERST_N (R375, R398, R560, R565). FLR, the loss of the link and PERST_N reset a port and
that port alone: its packets, responses and return area are gone and FLRS counts; what it has at work goes on, its
response discarded; a loss takes the link down, FLR does not (R397, R565). -/
def Obligations.PortLinkEventsAndResets : Prop :=
  (∀ (s : State) (p : Nat), p < 2 →
        let q := s.port p
        let sets := fun (q' : Port) => Host.Outcome.next (φ := Fault) (ρ := Refusal) (s.setPort p q')
        (∀ width, q.linkUp = false → s.portTrains p = true → (width = 4 ∨ width = 8 ∨ width = 16) →
          exec (.pcieLinkUp p width) s = sets { q with linkUp := true, linkWidth := width, configLoaded := false })
        ∧ (q.linkUp = true → s.porterOn = true →
          exec (.configSpaceLoaded p 0) s = sets { q with configLoaded := true, msixEnable := true, maxPayload := 128 }
          ∧ exec (.configSpaceLoaded p 1) s = sets { q with configLoaded := true, msixEnable := true, maxPayload := 256 }
          ∧ exec (.configSpaceLoaded p 2) s = sets { q with configLoaded := true, msixEnable := true, maxPayload := 512 }
          ∧ exec (.configSpaceLoaded p 3) s = sets { q with configLoaded := true, msixEnable := true })
        ∧ (∀ enter, q.linkUp = true → q.configLoaded = true →
          exec (.d3hotTransition p enter) s = sets { q with d3hot := enter })
        ∧ exec (.perstNRelease p) s = sets { q with perst := false }
        ∧ (∀ n, State.streamSecure q n = true → ∃ t, exec (.ideIntegrityFailure p n) s = .next t
          ∧ State.streamSecure (t.port p) n = false ∧ n ∈ (t.port p).ideBroken
          ∧ (∀ m, m ≠ n → State.streamSecure (t.port p) m = State.streamSecure q m)
          ∧ (t.port p).ideFails = satAdd 32 q.ideFails 1 ∧ t.slots = s.slots ∧ t.grid = s.grid ∧ t.mem = s.mem))
  ∧ (∀ (s : State) (p : Nat), p < 2 →
        let cleared := fun (t : State) => (t.port p).posted = [] ∧ (t.port p).responses = [] ∧ (t.port p).async = []
          ∧ (t.port p).bufFree = 0xFFFFFFFF ∧ (t.port p).returnSize = 0 ∧ (t.port p).returnTail = 0
          ∧ (∀ j, (t.port p).job = some j → j.discard = true) ∧ (t.port p).job.isSome = (s.port p).job.isSome
          ∧ (∀ r, (t.port p).remote = some r → r.discard = true) ∧ (t.port p).remote.isSome = (s.port p).remote.isSome
          ∧ (t.port p).flrs = satAdd 32 (s.port p).flrs 1 ∧ (t.port p).linkWidth = (if (t.port p).linkUp then (s.port p).linkWidth else 0)
          ∧ t.now = s.now ∧ t.link.st = s.link.st
        ((s.port p).linkUp = true → (s.port p).configLoaded = true →
          ∃ t, exec (.flr p) s = .next t ∧ cleared t ∧ (t.port p).linkUp = true)
        ∧ ((s.port p).linkUp = true → ∃ t, exec (.pcieLinkLoss p) s = .next t ∧ cleared t ∧ (t.port p).linkUp = false)
        ∧ ((s.port p).perst = false → ∃ t, exec (.perstN p) s = .next t ∧ cleared t ∧ (t.port p).linkUp = false
          ∧ (t.port p).perst = true))

/-- A takeover that nobody denies moves ownership when its grace has passed, and with it a LAUNCH response, waiting for
its run or for a place to be posted (R395, R396). HANDOVER, TAKEOVER and TAKEOVER_DENY of a course slot: ownership
moves at once, or a takeover waits for its grace, or the takeover that waits is answered TAKEOVER_DENIED (R395). -/
def Obligations.Ownership : Prop :=
  (∀ (s : State) (k since : Nat) (t : Ticket), k < 8 → t.port < 2 → (s.slot k).takeover = some (t, since) →
        since + 1600000 * s.takeoverGrace ≤ s.now → ∃ u, exec (.takeoverGraceExpiry k) s = .next u
          ∧ (u.slot k).owner = t.port + 1 ∧ (u.slot k).takeover = none
          ∧ (∀ l, (s.slot k).launchTicket = some l → (u.slot k).launchTicket = some { l with port := t.port })
          ∧ (∀ r ∈ (s.port (1 - t.port)).responses, State.launchResponse k r = true →
              r ∈ (u.port t.port).responses ∧ r ∉ (u.port (1 - t.port)).responses)
          ∧ SameButSlot k s u)
  ∧ (∀ (s : State) (p : Nat) (x : BitVec 8), p < 2 →
        let v := portPath p
        let k := x.toNat % 8
        (s.accepts v 0x1210 2 (leBytes 1 x.toNat) = true → (s.slot k).st ≠ .empty → (s.slot k).owner = p + 1 → s.probed k = false →
          (s.port (1 - p)).linkUp = true → (s.port (1 - p)).hasReturn = true →
          ∃ t, exec (.handover v x) s = .next t ∧ (t.slot k).owner = 2 - p ∧ t.dict.answer = some ⟨0, []⟩ ∧ SameButSlot k s t)
        ∧ (s.accepts v 0x1210 3 (leBytes 1 x.toNat) = true → (s.slot k).owner = 2 - p → (s.slot k).takeover = none →
          s.probed k = false → ((s.slot k).st = .running ∨ (s.slot k).st = .paused ∨ (s.slot k).st = .halted ∨ (s.slot k).st = .replaying) →
          (((s.port (1 - p)).linkUp = false ∨ (s.port (1 - p)).d3hot = true) →
            ∃ t, exec (.takeover v x) s = .next t ∧ (t.slot k).owner = p + 1 ∧ t.dict.answer = some ⟨0, []⟩ ∧ SameButSlot k s t)
          ∧ ((s.port (1 - p)).linkUp = true → (s.port (1 - p)).d3hot = false →
            ∃ t, exec (.takeover v x) s = .next t ∧ (t.slot k).takeover = some (⟨p, 2 ^ 64, false⟩, s.now)
              ∧ (t.slot k).owner = 2 - p ∧ t.dict.answer = none ∧ (t.source (0x30 + k)).pending = true))
        ∧ (∀ w since, s.accepts v 0x1210 4 (leBytes 1 x.toNat) = true → (s.slot k).st ≠ .empty → (s.slot k).owner = p + 1 →
          s.probed k = false → (s.slot k).takeover = some (w, since) → w.tag < 2 ^ 64 → w.port < 2 →
          ∃ t, exec (.takeoverDeny v x) s = .next t ∧ (t.slot k).takeover = none ∧ (t.slot k).owner = p + 1
            ∧ t.dict.answer = some ⟨0, []⟩
            ∧ (t.port w.port).responses = (s.port w.port).responses ++ [⟨0x02, 0xFF, w.tag, 0x1B, 0, 0, [], w.quiet, true, .none⟩]))

/-- A packet that may start and breaks a rule of every packet is refused with that rule's status and nothing more
(R382, R383). -/
def Obligations.PacketRefusals : Prop :=
  ∀ (s : State) (p st : Nat) (q : Pkt), s.headPacket p = some q → s.mayStartPacket p q.opcode = true →
    q.refusal = some st →
    let refused := Host.Outcome.next (φ := Fault) (ρ := Refusal) ((s.startPacket p).respond p (q.answer st))
    (q.opcode = 0x00 ∨ ¬ q.opcode ∈ opcodes → exec (.nop p) s = refused)
    ∧ (q.opcode = 0x01 → exec (.dictRead p) s = refused) ∧ (q.opcode = 0x02 → exec (.dictWrite p) s = refused)
    ∧ (q.opcode = 0x10 → q.abandon = false → q.last = false → exec (.imageLoad p) s = refused)
    ∧ (q.opcode = 0x10 → q.abandon = false → q.last = true → exec (.imageLoadFinal p) s = refused)
    ∧ (q.opcode = 0x10 → q.abandon = true → exec (.imageLoadAbandon p) s = refused)
    ∧ (q.opcode = 0x20 → exec (.dataWrite p) s = refused) ∧ (q.opcode = 0x21 → exec (.dataRead p) s = refused)
    ∧ (q.opcode = 0x30 → exec (.launch p) s = refused)
    ∧ (q.opcode = 0x31 → q.arg0 % 2 = 0 → exec (.haltAtBoundary p) s = refused)
    ∧ (q.opcode = 0x31 → q.arg0 % 2 = 1 → exec (.haltAtBoundaryRelease p) s = refused)
    ∧ (q.opcode = 0x32 → exec (.seal p) s = refused)
    ∧ (q.opcode = 0x33 → q.abandon = false → q.last = false → exec (.unseal p) s = refused)
    ∧ (q.opcode = 0x33 → q.abandon = false → q.last = true → exec (.unsealLast p) s = refused)
    ∧ (q.opcode = 0x33 → q.abandon = true → exec (.unsealAbandon p) s = refused)
    ∧ (q.opcode = 0x40 → exec (.mogulRun p) s = refused) ∧ (q.opcode = 0x50 → exec (.logbookRead p) s = refused)
    ∧ (q.opcode = 0x60 → exec (.attest p) s = refused)

/-- NOP, LOGBOOK_READ and the accesses to this device's own objects are answered at once with TAG and the value, or
with the status that refuses the access; an access to another device's objects travels (R383, R384, R388, R391, R444,
R497). -/
def Obligations.PacketsAnsweredAtOnce : Prop :=
  ∀ (s : State) (p : Nat) (q : Pkt), PacketReady s p q →
    let u := s.startPacket p
    let i := q.arg0 % 65536
    let sub := q.arg0 / 65536
    let ok := fun (v0 : Nat) (payload : List Byte) (t : State) =>
      t.respond p ⟨q.opcode, 0xFF, q.tag, 0, v0, 0, payload, q.quiet, true, .none⟩
    (q.opcode = 0x00 → exec (.nop p) s = .next (ok 0 [] u))
    ∧ (q.opcode = 0x50 → exec (.logbookRead p) s =
        .next (ok 0 ((List.range (min q.arg1 (4096 - q.arg0))).flatMap (fun j => u.logbookRecord (q.arg0 + j))) u))
    ∧ (q.opcode = 0x01 → u.targetPath p q = none → exec (.dictRead p) s = .next (u.askRemote p q))
    ∧ (∀ v, q.opcode = 0x01 → u.targetPath p q = some v →
      let r := u.readObject v i sub
      (r.1 = 0 → exec (.dictRead p) s = .next (ok (State.dictValue0 (u.typeOf i sub) (State.accessOf i sub) r.2.1.length) r.2.1 r.2.2))
      ∧ (r.1 ≠ 0 → exec (.dictRead p) s = .next (r.2.2.respond p (q.answer r.1))))
    ∧ (q.opcode = 0x02 → u.targetPath p q = none → exec (.dictWrite p) s = .next (u.askRemote p q))
    ∧ (∀ v, q.opcode = 0x02 → u.targetPath p q = some v →
      let w := u.writeObject v i sub q.body (some (q.ticket p))
      (w.1 = some 0 → exec (.dictWrite p) s = .next (ok (State.dictValue0 (u.typeOf i sub) (State.accessOf i sub) q.len) [] w.2))
      ∧ (w.1 = none → exec (.dictWrite p) s = .next w.2)
      ∧ (∀ st, w.1 = some st → st ≠ 0 → exec (.dictWrite p) s = .next (w.2.respond p (q.answer st))))

/-- The first chunk of an image into an EMPTY slot makes it LOADING under its port, with the bytes kept; ABANDON of a
load empties the slot and says how many bytes had come (R281, R385, R394). The last chunk of an image that passes every
check leaves its slot PAUSED (HALTED on a device that treats itself as lost), and answers with the bytes received; one
that fails a check leaves the slot EMPTY with that check's status (R281, R284, R385). -/
def Obligations.ImageLoads : Prop :=
  (∀ (s : State) (p : Nat) (q : Pkt), PacketReady s p q → q.opcode = 0x10 → s.link.st = 2 →
        s.probed q.slot = false → (q.abandon = false → q.last = false → (s.slot q.slot).st = .empty → q.arg0 = 0 → q.body.length < 128 →
          ∃ t, exec (.imageLoad p) s = .next t
            ∧ (t.slot q.slot).st = .loading ∧ (t.slot q.slot).owner = p + 1
            ∧ (t.slot q.slot).loadJob = some ⟨p, q.body, q.len, q.originRow, q.originCol⟩
            ∧ (t.port p).responses = (s.port p).responses ++
                [⟨0x10, q.slot, q.tag, 0, q.body.length, 0, [], q.quiet, true, .none⟩]
            ∧ t.grid = s.grid ∧ t.mem = s.mem)
        ∧ (q.abandon = true → (s.slot q.slot).st = .loading → (s.slot q.slot).owner = p + 1 → ∀ j, (s.slot q.slot).loadJob = some j →
          ∃ t, exec (.imageLoadAbandon p) s = .next t ∧ (t.slot q.slot).st = .empty
            ∧ (∃ l, (t.port p).responses = l ++ [⟨0x10, q.slot, q.tag, 0, j.nextOffset, 0, [], q.quiet, true, .none⟩])))
  ∧ (∀ (s : State) (p : Nat) (q : Pkt) (j : LoadJob), PacketReady s p q → q.opcode = 0x10 → s.link.st = 2 → s.probed q.slot = false →
        q.abandon = false → q.last = true → (s.slot q.slot).st = .loading → (s.slot q.slot).owner = p + 1 →
        (s.slot q.slot).loadJob = some j → q.arg0 = j.nextOffset → q.arg0 ≠ 0 → q.originRow = j.originRow →
        q.originCol = j.originCol →
        let j' : LoadJob := { j with bytes := j.bytes ++ q.body, nextOffset := j.nextOffset + q.len }
        let u := ((s.startPacket p).onSlot q.slot (fun x => { x with loadJob := some j' })).loadBytes q.slot j' true
        (u.1 = none → s.grid.deviceLost = 0 → ∃ t, exec (.imageLoadFinal p) s = .next t ∧ (t.slot q.slot).st = .paused
          ∧ (t.slot q.slot).loadJob = none ∧ (t.slot q.slot).owner = p + 1
          ∧ (∃ l, (t.port p).responses = l ++ [⟨0x10, q.slot, q.tag, 0, j'.bytes.length, 0, [], q.quiet, true, .none⟩]))
        ∧ (∀ st, u.1 = some st → ∃ t, exec (.imageLoadFinal p) s = .next t ∧ (t.slot q.slot).st = .empty
          ∧ (∃ l, (t.port p).responses = l ++ [⟨0x10, q.slot, q.tag, st, 0, 0, [], q.quiet, true, .none⟩])))

/-- A data command that nothing refuses becomes the port's job, and each of its lines a service access, both copies of
a mirrored one for a write; no byte of memory has changed yet. A refused DATA_READ of a course's lines carries its slot
(R265, R386, R391). -/
def Obligations.DataCommandsStart : Prop :=
  ∀ (s : State) (p : Nat) (q : Pkt), PacketReady s p q →
    let u := s.startPacket p
    let id := 2 * (u.port p).packets + p
    let accesses := fun (c : Nat) (write : Bool) => (List.range c).flatMap (fun i =>
      u.lineAccesses id (q.arg0 + i) write (sliceBytes q.body (64 * i) 64))
    let begun := fun (c : Nat) (write : Bool) (t : State) =>
      t.mem.service = s.mem.service ++ accesses c write ∧ t.mem.hbm = s.mem.hbm ∧ t.grid = s.grid
      ∧ (∃ job, (t.port p).job = some job ∧ job.id = id ∧ job.tag = q.tag ∧ job.write = write ∧ job.la = q.arg0
          ∧ job.count = c ∧ job.left = (accesses c write).length ∧ job.status = 0)
    (∀ st, q.opcode = 0x20 → u.dataRefusal p q.arg0 (q.len / 64) true = some st →
      exec (.dataWrite p) s = .next (u.respond p (q.answer st)))
    ∧ (∀ st, q.opcode = 0x21 → u.dataRefusal p q.arg0 q.arg1 false = some st →
      exec (.dataRead p) s = .next (u.respond p { q.answer st with slot := (u.dataCourse q.arg0 q.arg1).getD 0xFF }))
    ∧ (q.opcode = 0x20 → u.dataRefusal p q.arg0 (q.len / 64) true = none →
      ∃ t, exec (.dataWrite p) s = .next t ∧ begun (q.len / 64) true t)
    ∧ (q.opcode = 0x21 → u.dataRefusal p q.arg0 q.arg1 false = none →
      ∃ t, exec (.dataRead p) s = .next t ∧ begun q.arg1 false t)

/-- LAUNCH of a PAUSED slot by its owner starts a run of ARG0 laps whose response waits; HALT_AT_BOUNDARY of a slot
that runs waits with its boundary, or pauses it at once where it stands at one; of a PAUSED or HALTED one it is
answered at once, after which RELEASE empties the slot (R284, R290, R291, R384, R394). -/
def Obligations.LaunchAndHaltCommands : Prop :=
  ∀ (s : State) (p : Nat) (q : Pkt), PacketReady s p q → (s.slot q.slot).owner = p + 1 → s.probed q.slot = false →
    let k := q.slot
    let answer : Response := ⟨0x31, k, q.tag, 0, (s.slot k).lapNext, 0, [], q.quiet, true, .none⟩
    let waits := fun (release : Bool) => Host.Outcome.next (φ := Fault) (ρ := Refusal)
      ((s.startPacket p).onSlot k (fun x => { x with halt := x.halt ++ [(⟨p, q.tag, q.quiet⟩, release)] }))
    (q.opcode = 0x30 → (s.slot k).st = .paused → (s.slot k).lapNext ≠ 2 ^ 48 → (s.slot k).halt = [] → ∃ t, exec (.launch p) s = .next t
      ∧ (t.slot k).st = .running ∧ (t.slot k).lapsLeft = q.arg0 ∧ (t.slot k).counted = decide (q.arg0 ≠ 0)
      ∧ (t.slot k).launchTicket = some ⟨p, q.tag, q.quiet⟩ ∧ (t.slot k).lapNext = (s.slot k).lapNext
      ∧ t.mem.hbm = s.mem.hbm ∧ t.grid.cores = s.grid.cores)
    ∧ (q.opcode = 0x31 → q.arg0 = 0 → ((s.slot k).st = .paused ∨ (s.slot k).st = .halted) →
        exec (.haltAtBoundary p) s = .next ((s.startPacket p).respond p answer))
    ∧ (q.opcode = 0x31 → ((s.slot k).st = .running ∨ (s.slot k).st = .replaying) → s.haltNow k = false →
      (q.arg0 = 0 → exec (.haltAtBoundary p) s = waits false)
      ∧ (q.arg0 = 1 → exec (.haltAtBoundaryRelease p) s = waits true))
    ∧ (q.opcode = 0x31 → s.haltNow k = true → (s.slot k).halt = [] →
      (q.arg0 = 0 → ∃ t, exec (.haltAtBoundary p) s = .next t ∧ (t.slot k).st = .paused ∧ (t.slot k).halt = [])
      ∧ (q.arg0 = 1 → ∃ t, exec (.haltAtBoundaryRelease p) s = .next t ∧ (t.slot k).st = .empty))
    ∧ (q.opcode = 0x31 → q.arg0 = 1 → ((s.slot k).st = .paused ∨ (s.slot k).st = .halted) →
      ∃ t, exec (.haltAtBoundaryRelease p) s = .next t
        ∧ (t.slot k).st = .empty ∧ (∀ c ∈ t.grid.cores, c.2.slot ≠ k)
        ∧ (∃ later, (t.port p).responses = (s.port p).responses ++ [answer] ++ later))

/-- SEAL of a PAUSED slot with room for it makes it SEALING, its response waiting and its records still to write; each
record is numbered and goes to its port's seal area, or in turn to both; the last one makes the slot PAUSED and
answers. A record of a line that is lost becomes an ABORT (R294, R295, R296, R297, R387). -/
def Obligations.SealWritesRecords : Prop :=
  ∀ (s : State) (p : Nat),
    (∀ q : Pkt, PacketReady s p q → q.opcode = 0x32 → (s.slot q.slot).owner = p + 1 → s.probed q.slot = false →
      (s.slot q.slot).st = .paused → 131072 ≤ s.sealLength p → (2 ≤ q.arg0 → 131072 ≤ s.sealLength (1 - p)) →
      ∃ t, exec (.seal p) s = .next t
        ∧ (t.slot q.slot).st = .sealing ∧ (t.port p).sealTail = 0
        ∧ (∃ j, (t.slot q.slot).sealJob = some j ∧ j.seq = 0 ∧ j.owner = p ∧ j.full = decide (q.arg0 % 2 = 1)
          ∧ j.split = decide (2 ≤ q.arg0) ∧ j.ticket = ⟨p, q.tag, q.quiet⟩
          ∧ j.todo = (s.startPacket p).sealTodo q.slot (decide (q.arg0 % 2 = 1)))
        ∧ t.mem = s.mem ∧ t.grid = s.grid)
    ∧ (∀ k j rec rest errs, k < 8 → s.porterOn = true → (s.slot k).sealJob = some j → j.todo = rec :: rest →
      (State.sealPorts j rec.1).all (s.sealRoom (State.sealSize rec)) = true →
      (∀ pay, (s.sealPayload errs k j rec).1 = some pay →
        let record := State.sealRecord j rec.1 pay
        ∃ t, exec (.sealRecordWrite k errs) s = .next t
        ∧ (∀ o ∈ State.sealPorts j rec.1, o < 2 → (t.port o).sealTail = (s.port o).sealTail + record.length)
        ∧ t.mem.hbm = s.mem.hbm
        ∧ (rest ≠ [] → t.grid = s.grid ∧ (∃ j', (t.slot k).sealJob = some j' ∧ j'.seq = j.seq + 1 ∧ j'.todo = rest
          ∧ j'.written = j.written ++ record))
        ∧ (rest = [] → j.abort = none → (s.slot k).st = .sealing → (t.slot k).st = .paused ∧ (t.slot k).sealJob = none
          ∧ t.grid = s.grid
          ∧ (j.ticket.port < 2 → (t.port j.ticket.port).responses = (s.port j.ticket.port).responses ++
            [⟨0x32, k, j.ticket.tag, 0, j.seq + 1, j.bytes + record.length * (State.sealPorts j rec.1).length, [],
              j.ticket.quiet, false, .none⟩])))
      ∧ ((s.sealPayload errs k j rec).1 = none → ∃ t, exec (.sealRecordWrite k errs) s = .next t
        ∧ (∃ j', (t.slot k).sealJob = some j' ∧ j'.seq = j.seq ∧ j'.todo.map (fun x => x.1) = [0xFF]
          ∧ j'.abort = some stMEMORY_LOST) ∧ t.ports = s.ports ∧ t.mem.hbm = s.mem.hbm))
    ∧ (∀ k j rec rest errs, (s.slot k).sealJob = some j → j.todo = rec :: rest →
      (State.sealPorts j rec.1).all (s.sealRoom (State.sealSize rec)) = false → exec (.sealRecordWrite k errs) s = .next s)

/-- An unseal begins on a freshly loaded PAUSED slot, keeps bytes until a record is whole, and ends: with its TRAILER
accepted the slot is PAUSED at HEAD's lap, without it, or when abandoned, it is HALTED with UNSEAL_FAILED (R285, R299,
R300, R387). -/
def Obligations.UnsealSequence : Prop :=
  ∀ (s : State) (p : Nat) (q : Pkt), PacketReady s p q → q.opcode = 0x33 → s.link.st = 2 →
    (s.slot q.slot).owner = p + 1 → s.probed q.slot = false →
    let k := q.slot
    (q.abandon = false → q.last = false → q.arg0 = 0 → (s.slot k).st = .paused → (s.slot k).lapsDone = 0 →
      q.body.length < 64 → ∃ t, exec (.unseal p) s = .next t
        ∧ (t.slot k).st = .unsealing ∧ (∃ j, (t.slot k).unsealJob = some j ∧ j.buf = q.body ∧ j.nextOffset = q.len)
        ∧ t.mem = s.mem ∧ t.grid = s.grid)
    ∧ (∀ j, q.abandon = false → q.last = true → (s.slot k).st = .unsealing → (s.slot k).unsealJob = some j →
      q.arg0 = j.nextOffset →
      let j' : UnsealJob := { j with buf := j.buf ++ q.body, nextOffset := j.nextOffset + q.len }
      let u := State.unsealAll k (j'.buf.length / 64 + 1) ((s.startPacket p).onSlot k (fun x => { x with unsealJob := some j' }))
      (∀ e, u.1 = none → (u.2.slot k).unsealJob = some e → e.trailer = true → e.buf = [] →
        ∃ t, exec (.unsealLast p) s = .next t ∧ (t.slot k).st = .paused ∧ (t.slot k).lapNext = fieldLE e.head 104 8
          ∧ (t.slot k).unsealJob = none ∧ (t.slot k).seedsPending = 0)
      ∧ (∀ e, u.1 = none → (u.2.slot k).unsealJob = some e → e.trailer = false → (u.2.slot k).halt = [] →
        (u.2.slot k).st = .unsealing →
        ∃ t, exec (.unsealLast p) s = .next t ∧ (t.slot k).st = .halted ∧ (t.slot k).reason = .unsealFailed))
    ∧ (q.abandon = true → (s.slot k).st = .unsealing → (s.slot k).halt = [] → ∃ t, exec (.unsealAbandon p) s = .next t
      ∧ (t.slot k).st = .halted ∧ (t.slot k).reason = .unsealFailed)

/-- MOGUL_RUN that nothing refuses starts a run on its lattices, its response waiting; ATTEST has its trailer carry the
next ATT_SEQ (R326, R327, R350, R384, R389). -/
def Obligations.MogulRunAndAttest : Prop :=
  ∀ (s : State) (p : Nat) (q : Pkt), PacketReady s p q →
    (q.opcode = 0x40 → (s.startPacket p).mogulRefusal q.body (stCheck 8) = none → ∃ t, exec (.mogulRun p) s = .next t
      ∧ t.mogul.runs = satAdd 32 s.mogul.runs 1 ∧ t.mogul.refused = s.mogul.refused
      ∧ (fieldLE q.body 0 1 ≠ 1 → t.mogul.latW = 1) ∧ (fieldLE q.body 0 1 ≠ 0 → t.mogul.latE = 1)
      ∧ t.slots = s.slots ∧ t.mem = s.mem ∧ t.grid = s.grid)
    ∧ (q.opcode = 0x60 → (s.slot q.slot).st ≠ .empty → (s.slot q.slot).st ≠ .loading → s.probed q.slot = false →
      ∃ t, exec (.attest p) s = .next t ∧ (t.slot q.slot).attSeq = (s.slot q.slot).attSeq + 1
        ∧ (t.slot q.slot).inputRecs = [] ∧ (t.slot q.slot).seedRecs = []
        ∧ (t.slot q.slot).lapNext = (s.slot q.slot).lapNext ∧ t.mem = s.mem ∧ t.grid = s.grid)

/-- Writing a seed, drawing one from noise, STRICT and its lock. A launch driven in the cycle of a write still takes
the seeds before it (R158, R197, R289, R311). -/
def Obligations.SeedAndStrictObjects : Prop :=
  ∀ (s : State) (v : Path),
    let done := fun (t : State) => Host.Outcome.next (φ := Fault) (ρ := Refusal) (t.answered 0 [])
    let seeded := fun (i : Nat) (b : List Byte) (x : Slot) => { x with
      seeds := Table.put i (BitVec.ofNat 112 (ofLE b)) x.seeds, seedsPending := x.seedsPending ||| (1 <<< i)
      seedsAt := some s.now
      seedsBefore := (if x.seedsAt = some s.now then x.seedsBefore else x.seeds)
      seedsNew := (if x.seedsAt = some s.now then x.seedsNew else 0) ||| (1 <<< i) }
    (∀ k i b, k < 8 → i < 16 → s.accepts v (0x4010 + k) (i + 1) b = true → s.probed k = false →
      exec (.seed v k i b) s = done (s.onSlot k (seeded i b)))
    ∧ (∀ x : BitVec 8, s.accepts v 0x4018 1 (leBytes 1 x.toNat) = true → x.toNat / 8 % 2 = 0 →
      let k := x.toNat % 8
      (s.slot k).st ≠ .empty → s.ownedBy v k = true →
      (s.det.strict = true → exec (.seedFromNoise v x) s = .next ({ s with det := { s.det with
        strictRefusals := satAdd 32 s.det.strictRefusals 1 } }.answered 0x300 []))
      ∧ (s.det.strict = false → s.ent.st ≠ .fatal → 64 ≤ s.ent.pool.length → s.probed k = false →
        exec (.seedFromNoise v x) s = done ({ s with ent := { s.ent with pool := s.ent.pool.drop 14 } }.onSlot k
          (seeded (x.toNat / 16) (s.ent.pool.take 14))))
      ∧ (s.det.strict = false → s.ent.st = .fatal → exec (.seedFromNoise v x) s = .next (s.answered 0x309 []))
      ∧ (s.det.strict = false → s.ent.st ≠ .fatal → s.ent.pool.length < 64 →
        exec (.seedFromNoise v x) s = .next (s.answered 0x308 [])))
    ∧ (s.accepts v 0x4000 1 [1] = true → s.mogul.runW = none → s.mogul.runE = none →
      exec (.strict v 1) s = done { s with det := { s.det with strict := true } })
    ∧ (s.accepts v 0x4000 1 [0] = true →
      (s.det.strictLock = false → exec (.strict v 0) s = done { s with det := { s.det with strict := false } })
      ∧ (s.det.strictLock = true → exec (.strict v 0) s = .next (s.answered 0x30A [])))
    ∧ (s.accepts v 0x4000 2 [1] = true → s.det.strict = true →
      exec (.strictLock v 1) s = done { s with det := { s.det with strictLock := true } })

/-- The oracle, the entropy port, DRBG_RESEED and PROBE_GO (R168, R169, R330, R331, R369, R370). -/
def Obligations.DrawObjects : Prop :=
  ∀ (s : State) (v : Path),
    (s.readable v 0x4420 6 = true →
      let o := s.oracleOf v
      let key := BitVec.ofNat 128 (ofLE (o.key.take 16))
      let ctr := BitVec.ofNat 128 (ofLE (o.ctr.take 16))
      (o.mode = 0 → exec (.oracleOut v) s = .next (s.answered 0 (State.quadBytes (carveBlock key ctr))))
      ∧ (o.mode = 1 → exec (.oracleOut v) s = .next (s.answered 0 (State.normalBytes .fp32 o.u)))
      ∧ (o.mode = 2 → exec (.oracleOut v) s = .next (s.answered 0 (State.normalBytes .bf16 o.u)))
      ∧ (o.mode = 4 → exec (.oracleOut v) s = .next (s.answered (s.oracleCourse v o.req).1 (s.oracleCourse v o.req).2))
      ∧ (o.mode = 3 → exec (.oracleOut v) s = .next (s.answered 0 ((carveTrace key ctr).flatMap State.quadBytes))))
    ∧ (s.readable v 0x4410 1 = true → s.ent.st = .fatal → exec (.entropyPort v) s = .next (s.answered 0x309 []))
    ∧ (s.readable v 0x4410 1 = true → s.ent.st ≠ .fatal →
      (64 ≤ s.ent.pool.length → exec (.entropyPort v) s =
        .next ({ s with ent := { s.ent with pool := s.ent.pool.drop 64 } }.answered 0 (s.ent.pool.take 64)))
      ∧ (s.ent.pool.length < 64 → exec (.entropyPort v) s = .next (s.answered 0x308 [])))
    ∧ (s.accepts v 0x4400 0x0A [1] = true → s.ent.st ≠ .fatal → exec (.drbgReseed v 1) s =
        .next ({ s with ent := { s.ent with reseedWaits := true, keyWaits := true } }.answered 0 []))
    ∧ (s.accepts v 0x4040 3 [1] = true →
      let k := s.det.probe.slotSet
      ((s.slot k).st = .paused ∨ ((s.slot k).st = .halted ∧ ((s.slot k).reason = .programFault ∨ (s.slot k).reason = .diverged))) →
      s.det.probe.cycleSet < s.lapLen k → s.ownedBy v k = true → s.det.probe.state ≠ 1 →
      (s.slot k).stage = .idle → ∃ t, exec (.probeGo v 1) s = .next t ∧ t.det.probe.state = 1 ∧ t.det.probe.slot = k
        ∧ t.det.probe.cycle = s.det.probe.cycleSet ∧ t.det.probe.lap = (s.slot k).lapNext ∧ (t.slot k).attempt = .probe
        ∧ t.dict.answer = some ⟨0, []⟩ ∧ t.mem.hbm = s.mem.hbm ∧ t.grid.cores = s.grid.cores)

/-- CLAIM takes the first deliverable source of its target and stacks it, EOI ends it, SIGNAL fires a host source, and
SRC_STATE clears PENDING (R484 to R488, R496). -/
def Obligations.InterruptObjects : Prop :=
  ∀ (s : State) (v : Path),
    (∀ t n x, t < 3 → s.readable v (0x2410 + t) 1 = true → s.firstDeliverable t = some (n, x) →
      ∃ u, exec (.claim v t) s = .next u ∧ u.dict.answer = some ⟨0, leBytes 8 (s.claimWord t)⟩
        ∧ u.source n = { x with pending := false, active := true }
        ∧ u.target t = ⟨some x.prio, ((s.target t).run, n) :: (s.target t).stack⟩
        ∧ (∀ m, m ≠ n → u.source m = s.source m) ∧ (∀ q, q ≠ t → u.target q = s.target q))
    ∧ (∀ t, t < 3 → s.readable v (0x2410 + t) 1 = true → s.firstDeliverable t = none →
      ∃ u, exec (.claim v t) s = .next u ∧ u.dict.answer = some ⟨0, leBytes 8 (s.claimWord t)⟩ ∧ u.irq = s.irq)
    ∧ (∀ t (x : BitVec 16) run n rest, t < 3 → s.accepts v (0x2410 + t) 2 (leBytes 2 x.toNat) = true →
      (s.target t).stack = (run, n) :: rest → x.toNat % 1024 = n →
      ∃ u, exec (.eoi v t x) s = .next u ∧ u.dict.answer = some ⟨0, []⟩
        ∧ u.source n = { s.source n with active := false, offerFrom := s.now + 1 } ∧ u.target t = ⟨run, rest⟩
        ∧ (∀ m, m ≠ n → u.source m = s.source m))
    ∧ (∀ x : BitVec 16, s.accepts v 0x2420 1 (leBytes 2 x.toNat) = true → 0x2E0 ≤ x.toNat % 1024 →
      ∃ u, exec (.signal v x) s = .next u ∧ u.dict.answer = some ⟨0, []⟩
        ∧ (u.source (x.toNat % 1024)).pending = true
        ∧ (u.source (x.toNat % 1024)).fires = satAdd 32 (s.source (x.toNat % 1024)).fires 1
        ∧ (∀ m, m ≠ x.toNat % 1024 → u.source m = s.source m))
    ∧ (∀ n (x : BitVec 32), n < 1024 → s.accepts v (0x2404 + n / 256) (n % 256) (leBytes 4 x.toNat) = true →
      x.getLsbD 31 = true → ∃ u, exec (.srcState v n x) s = .next u ∧ u.dict.answer = some ⟨0, []⟩
        ∧ u.source n = { s.source n with pending := false } ∧ (∀ m, m ≠ n → u.source m = s.source m))

/-- A write of LOG_INTERVAL in its range, LOG_CLEAR, and the Logbook's events: the end of an interval, the
millisecond's tick and a record written whole (R497, R498, R502, R503). -/
def Obligations.Logbook : Prop :=
  ∀ (s : State),
    (∀ v (x : BitVec 32), s.accepts v 0x2600 2 (leBytes 4 x.toNat) = true → 10 ≤ x.toNat → x.toNat ≤ 3600000 →
      exec (.logInterval v x) s = .next ({ s with log := { s.log with interval := x.toNat } }.answered 0 []))
    ∧ (∀ v, s.accepts v 0x2600 8 [0xC1] = true → ∃ t, exec (.logClear v 0xC1) s = .next t ∧ t.log.count = 0
      ∧ t.log.full = false ∧ t.log.seqFirst = 0 ∧ t.log.current = s.log.current ∧ t.dict.answer = some ⟨0, []⟩)
    ∧ (∀ start ms whole, s.rinkRun = true → s.log.current = some (start, ms, whole) → s.rink = start + 1600000 * ms →
      ∃ t, exec .logIntervalEnd s = .next t
        ∧ t.log.current = some (s.rink, s.log.interval, s.log.enable && s.porterOn) ∧ t.log.metrics = []
        ∧ ((whole && s.porterOn && decide (s.log.count + s.writingNow < 4096) && s.logArea) = true →
            t.log.writing = s.log.writing ++ [⟨s.log.count + s.writingNow, s.log.seqNext,
              s.recordBytes (s.log.count + s.writingNow) start ms, s.now⟩] ∧ t.log.lost = s.log.lost)
        ∧ ((whole && s.porterOn && decide (s.log.count + s.writingNow < 4096) && s.logArea) = false →
            t.log.writing = s.log.writing ∧ t.log.lost = satAdd 32 s.log.lost 1))
    ∧ (s.rinkRun = true → s.rink % 1600000 = 0 → ∃ t, exec .logMsTick s = .next t ∧ t = { s with log := t.log }
        ∧ t.log.lastMs = s.rink ∧ t.log.current = s.log.current ∧ t.log.writing = s.log.writing)
    ∧ (∀ w rest, s.log.writing = w :: rest → s.porterOn = true → w.record < 4095 →
      ∃ t, exec .logRecordWrite s = .next t ∧ t.log.writing = rest ∧ t.log.count = s.log.count + 1 ∧ t.log.seqLast = w.seq
        ∧ Table.get [] w.record t.log.records
            = leBytes 4 w.seq ++ sliceBytes w.bytes 4 20 ++ leBytes 4 (s.rink % 2 ^ 32) ++ w.bytes.drop 28
        ∧ (∀ r, r ≠ w.record → Table.get [] r t.log.records = Table.get [] r s.log.records)
        ∧ t.mem = (s.writeLog w.record 0 1 ((Table.get [] w.record t.log.records).take 64)).mem
        ∧ (t.source 7).pending = true)

/-- Firmware, image keys, their policies and locks, and the secrets of the links (R536, R537, R538, R545). -/
def Obligations.SecurityObjects : Prop :=
  ∀ (s : State) (v : Path),
    let done := fun (t : State) => Host.Outcome.next (φ := Fault) (ρ := Refusal) (t.answered 0 [])
    let no := fun (st : Nat) => Host.Outcome.next (φ := Fault) (ρ := Refusal) (s.answered st [])
    (∀ b, s.accepts v 0x5003 3 b = true →
      exec (.fwStage v b) s = done { s with sec := { s.sec with fwStage := s.sec.fwStage ++ b } })
    ∧ (s.accepts v 0x5003 4 [0xC1] = true → exec (.fwCommit v) s = (match Config.bankSvn s.sec.fwStage with
        | none => no 0x504
        | some n => if n.toNat < s.flash.fwSvnMin then no 0x505
          else done { s with flash := { s.flash with fwNext := some n.toNat }, sec := { s.sec with fwStage := [] } }))
    ∧ (s.accepts v 0x5003 4 [0x5A] = true →
      exec (.fwSvnRaise v) s = done { s with flash := { s.flash with fwSvnMin := max s.flash.fwSvnMin s.flash.fwSvn } })
    ∧ (∀ k b, k < 8 → s.accepts v 0x5002 k b = true →
      ((s.flash.securityLock = false ∨ Table.get [] k s.flash.imageKeys = []) →
        exec (.imageKey v k b) s = done { s with flash := { s.flash with imageKeys := Table.put k b s.flash.imageKeys } })
      ∧ (s.flash.securityLock = true → allZero (Table.get [] k s.flash.imageKeys) = false →
        exec (.imageKey v k b) s = no 0x506))
    ∧ (s.accepts v 0x5001 1 [1] = true →
      exec (.signedRequired v 1) s = done { s with flash := { s.flash with signedRequired := true } })
    ∧ (s.accepts v 0x5001 1 [0] = true → s.flash.securityLock = false →
      exec (.signedRequired v 0) s = done { s with flash := { s.flash with signedRequired := false } })
    ∧ (s.accepts v 0x5001 2 [1] = true →
      exec (.securityLock v 1) s = done { s with flash := { s.flash with securityLock := true } })
    ∧ (∀ b, s.accepts v 0x5005 1 b = true → exec (.linkSecret v b) s = done { s with sec := { s.sec with linkSecret := b } })
    ∧ (∀ p (x : BitVec 8), p < 4 → s.accepts v 0x5004 p (leBytes 1 x.toNat) = true → x.toNat ≤ 1 → (s.lport p).usedBy = 0xFF →
      exec (.lecelCrypt v p x) s = done (s.onLport p (fun q => { q with crypt := x.toNat })))

/-- MOGUL_STOP, PROBLEM_ROW, and the annealer's own events: a sweep, the energy of its state, the end of a drain and of
a run, on one lattice or on both as one (R335, R343 to R347, R350, R354, R355). -/
def Obligations.Annealer : Prop :=
  ∀ (s : State),
    (∀ v (x : BitVec 8), s.accepts v 0x4800 3 (leBytes 1 x.toNat) = true → ∃ t, exec (.mogulStop v x) s = .next t
      ∧ (let stopped := fun (r : MogulRun) =>
          if ((x.getLsbD 0 = true ∧ r.geom ≠ 1) ∨ (x.getLsbD 1 = true ∧ r.geom ≠ 0)) ∧ r.ended = false
          then { r with stopping := some (r.stopping.getD 0x305) } else r
        t.mogul.runW = s.mogul.runW.map stopped ∧ t.mogul.runE = s.mogul.runE.map stopped)
      ∧ (x = 0 → t = s.answered 0 []) ∧ t.slots = s.slots ∧ t.mem = s.mem ∧ t.grid = s.grid)
    ∧ (∀ v lat row b, lat < 2 → row < 256 → s.accepts v (0x4810 + lat) row b = true →
      (if lat = 0 then s.mogul.latW else s.mogul.latE) = 0 → ∃ t, exec (.problemRow v lat row b) s = .next t
        ∧ (∀ u < 256, t.problem lat (256 * row + u) = BitVec.ofNat 32 (fieldLE b (4 * u) 4))
        ∧ (∀ l i, l < 2 → i < 65536 → (l ≠ lat ∨ i / 256 ≠ row) → t.problem l i = s.problem l i)
        ∧ t.mogul.prevJ = none ∧ t.dict.answer = some ⟨0, []⟩ ∧ t.slots = s.slots ∧ t.mem = s.mem)
    ∧ (∀ lat r, s.runOf lat = some r → lat < 2 → (r.geom = lat ∨ r.geom = 2) →
      (r.ended = false → s.clockOn 0 = true → s.sweepDue r = true → ∃ t r', exec (.sweep lat) s = .next t ∧ t.runOf lat = some r'
        ∧ r'.done = r.done + 1 ∧ r'.lastEnd = s.now
        ∧ r'.pending = r.pending ++ [⟨r.done, s.now + 40, r'.spinsW, r'.spinsE⟩]
        ∧ (∃ n : SweepNoise, (⟨r'.spinsW, r'.spinsE⟩ : Spins)
            = sweepSpins s.problem r.geom r.mode (curveTemp r.curve r.done) n ⟨r.spinsW, r.spinsE⟩)
        ∧ r'.ended = (r.done == r.sweepsM1 || r.stopping.isSome) ∧ t.mogul.cells = s.mogul.cells ∧ t.mem = s.mem)
      ∧ (s.clockOn 0 = false → exec (.sweep lat) s = .next s)
      ∧ (∀ p rest, r.pending = p :: rest → p.ready = s.now → s.clockOn 0 = true → ∃ t r', exec (.energyReady lat) s = .next t
        ∧ t.runOf lat = some r' ∧ r'.pending = rest ∧ r'.eFinal = energyOf s.problem ⟨p.w, p.e⟩ r.geom ∧ r'.done = r.done)
      ∧ (r.drainUntil = some s.now → s.clockOn 0 = true → ∃ t, exec (.drainEnd lat) s = .next t
        ∧ t.runOf lat = some { r with drainUntil := none } ∧ t.mem = s.mem)
      ∧ (r.ended = true → r.pending = [] → r.drainUntil = none → s.porterOn = true → ∃ t, exec (.mogulRunEnd lat) s = .next t
        ∧ (if r.geom = 1 then t.mogul.runE else t.mogul.runW) = none
        ∧ (r.geom ≠ 1 → t.mogul.latW = 0) ∧ (r.geom ≠ 0 → t.mogul.latE = 0)
        ∧ (if r.geom = 1 then t.mogul.set1 else t.mogul.set0) = some (State.runResult r) ∧ t.mem = s.mem))

/-- Segments of a dictionary exchange on the management bus and over Lecel, the answer that ends a remote request, and
the ends by time (R388, R418, R444 to R447). -/
def Obligations.DictionaryExchanges : Prop :=
  ∀ (s : State),
    (∀ who packets b, mcMessage packets = some b → b.take 3 = mcVendor Config.pciVendorId.toNat → dictFormed (b.drop 3) = true →
      let g := dictSegOf (b.drop 3)
      g.op.toNat ≤ 2 → g.offset = 0 → s.mayStart .mgmt who g.xid.toNat = true →
      (let r := s.readObject .mgmt g.index.toNat g.sub.toNat
      r.1 = 0 → r.2.1.length ≤ 96 → ∃ t, exec (.dictReqRead (.bus who packets)) s = .next t
        ∧ t.dict.answer = some ⟨0, r.2.1⟩ ∧ t.slots = r.2.2.slots ∧ t.grid = r.2.2.grid ∧ t.mem = r.2.2.mem
        ∧ t.dict.reply = mcVendor Config.pciVendorId.toNat ++ leBytes 2 0 ++ leBytes 1 r.2.1.length ++ [0, 0]
            ++ leBytes 1 (s.typeOf g.index.toNat g.sub.toNat)
            ++ leBytes 2 g.xid.toNat ++ leBytes 4 0 ++ leBytes 4 r.2.1.length ++ r.2.1
        ∧ t.dict.busOut = mcPackets t.dict.reply ∧ (∀ e ∈ t.dict.exchanges, e.named .mgmt who g.xid.toNat = false))
      ∧ (g.data.length ≤ g.total.toNat → s.totalWrong .mgmt g = false →
        (∃ t, exec (.dictReqWrite (.bus who packets)) s = .next t ∧ t.dict.answer = some ⟨0, []⟩ ∧ t = { s with dict := t.dict }
          ∧ t.exchangeOf .mgmt who g.xid.toNat =
            some ⟨.mgmt, who, g.xid.toNat, false, g.index.toNat, g.sub.toNat, g.total.toNat, g.data, s.now⟩)
        ∧ (let w := (s.endExchange .mgmt who g.xid.toNat).writeObject .mgmt g.index.toNat g.sub.toNat g.data none
          w.1 = some 0 → ∃ t, exec (.dictReqWriteLast (.bus who packets)) s = .next t ∧ t.dict.answer = some ⟨0, []⟩
            ∧ t = { w.2 with dict := t.dict })))
    ∧ (∀ who packets, (∀ b, mcMessage packets = some b → b.take 3 ≠ mcVendor Config.pciVendorId.toNat) →
      exec (.dictReqRead (.bus who packets)) s = .next s ∧ exec (.dictReqWrite (.bus who packets)) s = .next s
        ∧ exec (.dictReqWriteLast (.bus who packets)) s = .next s)
    ∧ (∀ p (r : Route) b, p < 4 → s.canSend p = true → dictFormed b = true →
      let g := dictSegOf b
      let u := (s.takeRx p r (.dictReq g)).deliverMsg (.dictReq g)
      (s.forSelf r = true →
        exec (.dictReqRead (.link p r b)) s = .next (u.segRead .transom r.source g)
        ∧ exec (.dictReqWrite (.link p r b)) s = .next (u.segWrite .transom r.source g false)
        ∧ exec (.dictReqWriteLast (.link p r b)) s = .next (u.segWrite .transom r.source g true))
      ∧ (s.forSelf r = false → exec (.dictReqRead (.link p r b)) s =
          .next ((s.takeRx p r (.dictReq g)).forward p r (.dictReq g) (s.rxFlits p r (.dictReq g)))))
    ∧ (∀ p k (r : Route) b (q : RemoteReq), p < 4 → s.canSend p = true → s.forSelf r = true → k < 2 →
      let a := dictAnsOf b
      (s.port k).remote = some q → q.xid = a.xid → q.addr = r.source →
      (k = 1 → ∀ q0, (s.port 0).remote = some q0 → ¬(q0.xid = a.xid ∧ q0.addr = r.source)) →
      s.now < q.since + 16000000 → a.status = 0 →
      let answered := fun (t : State) (data : List Byte) (v0 : Nat) => (t.port k).remote = none
        ∧ (t.port k).responses = (s.port k).responses ++ (if q.discard then []
            else [⟨q.opcode, 0xFF, q.tag, 0, v0, 0, data, q.quiet, true, .none⟩])
      (q.opcode = 1 → a.offset = q.data.length → a.total ≤ (q.data ++ a.data).length → ∃ t, exec (.dictResp p r b) s = .next t
        ∧ answered t (q.data ++ a.data) (State.dictValue0 a.type (State.accessOf q.index q.sub) a.total))
      ∧ (q.opcode = 2 → a.offset = q.done → q.data.length ≤ q.done + 96 → ∃ t, exec (.dictResp p r b) s = .next t
        ∧ answered t [] (State.dictValue0 a.type (State.accessOf q.index q.sub) q.data.length)))
    ∧ (∀ v who xid, exec (.dictExchangeTimeout v who xid) s = .next { s with dict := { s.dict with
        exchanges := s.dict.exchanges.filter (fun e => !(e.named v who xid && decide (e.last + 16000000 ≤ s.now))) } })
    ∧ (∀ p (q : RemoteReq), p < 2 → (s.port p).remote = some q →
      (s.now < q.since + 16000000 → exec (.remoteTimeout p) s = .next s)
      ∧ (q.since + 16000000 ≤ s.now → ∃ t, exec (.remoteTimeout p) s = .next t
        ∧ (t.port p).remote = none
        ∧ (t.port p).responses = (s.port p).responses ++ (if q.discard then []
            else [⟨q.opcode, 0xFF, q.tag, 0x19, 0, 0, [], q.quiet, true, .none⟩])))

/-- DOMAIN_REQ of an ON domain begins its entry; the entry commits, arms its wake logic, wakes on a request, and
reaches ON (R459 to R466). -/
def Obligations.DomainEntryAndWake : Prop :=
  ∀ (s : State) (d : Nat), d < 36 →
    let x := s.domain d
    let sets := fun (y : Domain) => Host.Outcome.next (φ := Fault) (ρ := Refusal) (s.setDomain d y)
    let req := fun (y : Domain) => Host.Outcome.next (φ := Fault) (ρ := Refusal) ((s.setDomain d y).answered 0 [])
    (∀ v (w : BitVec 8), s.accepts v 0x2001 d (leBytes 1 w.toNat) = true → s.held = false →
      ((w = 1 ∨ w = 2) → x.st = 0 → s.dependentOn d = false → s.domainInUse d w.toNat = false → s.mogulUses d = false →
        exec (.domainReq v d w) s = req { x with
          st := 3, req := w.toNat, target := w.toNat, since := s.now, fromRet := false, armed := false, latched := false })
      ∧ (w = 0 → (x.st = 1 ∨ x.st = 2) → x.armed = true → s.requiredOn d = true →
        exec (.domainReq v d w) s = req { x with
          st := 4, req := 0, since := s.now, fromRet := (x.st == 1), armed := false, latched := false }))
    ∧ (x.st = 3 → s.now = x.since + 64 → ∃ t, exec (.domainEntryCommit d) s = .next t
      ∧ t.domain d = { x with st := x.target, padsHeld := x.padsHeld || sashLocked d }
      ∧ (∀ e, e ≠ d → t.domain e = s.domain e) ∧ t.now = s.now)
    ∧ (x.st = 3 → s.now ≠ x.since + 64 → exec (.domainEntryCommit d) s = .next s)
    ∧ ((x.st = 1 ∨ x.st = 2) → x.armed = false → s.now = x.since + 208 → s.held = false → x.latched = false →
      s.power.comparators = [] → exec (.wakeArm d) s = sets { x with armed := true, latched := false })
    ∧ ((x.st ≠ 4 ∨ s.requiredOn d = false ∨ s.stackReady d = false ∨ (d = 0 ∧ s.bootAccepts = false)) →
      exec (.domainWakeComplete d) s = .next s)
    ∧ (x.st = 4 → s.requiredOn d = true → s.stackReady d = true → (d = 0 → s.bootAccepts = true) →
      (2 ≤ s.start.st → d ≠ 1 → exec (.domainWakeComplete d) s = sets { x with st := 0 })
      ∧ (s.start.st ≤ 1 → ∃ t, exec (.domainWakeComplete d) s = .next t ∧ t.domain d = { x with st := 0, padsHeld := false })
      ∧ (d = 1 → ∃ t, exec (.domainWakeComplete 1) s = .next t ∧ (t.domain 1).st = 0
        ∧ t.ent.st = (if s.ent.st = .fatal then .fatal else .starting)
        ∧ (∀ n < 16, (s.cell n).st ≠ .retired →
          (t.cell n).st = .settling ∧ (t.cell n).on = true ∧ (t.cell n).since = s.now ∧ (t.cell n).warm = 0)
        ∧ (∀ n < 16, (s.cell n).st = .retired → (t.cell n).st = .retired)))
    ∧ (∀ v (w : BitVec 64), s.accepts v 0x2000 1 (leBytes 8 w.toNat) = true → s.start.st = 2 →
      ∃ t, exec (.padRelease v w) s = .next t ∧ t.dict.answer = some ⟨0, []⟩
        ∧ t.domain d = (if w.getLsbD d = true ∧ s.isOn d = true ∧ x.padsHeld = true then { x with padsHeld := false } else x)
        ∧ t.grid = s.grid ∧ t.mem = s.mem)

/-- Comparators, the meter's and the sensors' samples, the Louvre's starve limit and the start-up hold (R467 to R471,
R475, R477 to R479). -/
def Obligations.ComparatorsAndSamples : Prop :=
  ∀ (s : State),
    (∀ n uv, n < 6 →
      let c := s.comparator n
      let wakes := c.asserts uv = true ∨ (c.asserted = true ∧ c.releases uv = false)
      (c.enabled = true → (c.edgeMode && c.asserted) = false → wakes →
        ∃ t, exec (.comparatorEvent n uv) s = .next t
          ∧ t.comparator n = { c with config := c.config ||| 0x10000000 }
          ∧ (t.source (0x10 + n)).pending = true)
      ∧ (c.enabled = false ∨ (c.edgeMode && c.asserted) = true ∨ ¬ wakes → exec (.comparatorEvent n uv) s = .next s)
      ∧ (c.releases uv = true → exec (.comparatorDeassert n uv) s =
          .next (s.setComparator n { c with config := c.config &&& 0xEFFFFFFF }))
      ∧ (c.releases uv = false → exec (.comparatorDeassert n uv) s = .next s))
    ∧ (∀ energy rails, s.held = false → s.start.time0 ≠ none → (s.now - s.louvre.lastSample) % 1600 = 0 →
      (∀ k < 8, (s.slot k).stage ≠ .waiting) → s.porterOn = true → ∃ t, exec (.meterSample energy rails) s = .next t
        ∧ t.louvre.lastSample = s.now ∧ t.louvre.account = s.accountAt energy.sum
        ∧ (∀ d < 36, (t.domain d).energy = (s.domain d).energy + energy.getD d 0 ∧ (t.domain d).st = (s.domain d).st)
        ∧ t.power.aonEnergy = s.power.aonEnergy + energy.getD 36 0
        ∧ t.power.supplyAlarms = (if State.alarmedDomains rails = [] then s.power.supplyAlarms
            else satAdd 32 s.power.supplyAlarms (State.alarmedDomains rails).length)
        ∧ t.mem.hbm = s.mem.hbm)
    ∧ (∀ (v : Int) (l : List Int), s.held = false → s.start.time0 ≠ none →
      let tj := l.foldl max v
      let limit : Int := 16 * (s.thermal.tjLimit : Int)
      (s.thermal.state = 0 → limit + 80 ≤ tj → tj < 1920 → ∃ t, exec (.thermalSample (v :: l)) s = .next t
        ∧ t.thermal.state = 1 ∧ t.thermal.tjNow = tj ∧ t.thermal.events = satAdd 32 s.thermal.events 1 ∧ t.pins.thermN = false)
      ∧ (s.thermal.state = 1 → tj < limit → tj < 1920 → ∃ t, exec (.thermalSample (v :: l)) s = .next t
        ∧ t.thermal.state = 0 ∧ t.thermal.tjNow = tj ∧ t.pins.thermN = true ∧ t.slots = s.slots)
      ∧ (s.thermal.state ≠ 2 → 1920 ≤ tj → ∃ t, exec (.thermalSample (v :: l)) s = .next t
        ∧ t.thermal.state = 2 ∧ t.pins.thermN = false ∧ t.grid.deviceLost ≠ 0
        ∧ (∀ d < 36, (t.domain d).st = 2 ∨ ((t.domain d).st = 3 ∧ (t.domain d).target = 2)))
      ∧ (s.thermal.state = 0 → tj < limit + 80 → tj < 1920 → ∃ t, exec (.thermalSample (v :: l)) s = .next t
        ∧ t.thermal.state = 0 ∧ t.thermal.tjNow = tj ∧ t.slots = s.slots ∧ t.power = s.power))
    ∧ (∀ k, (s.slot k).stage = .waiting → (s.slot k).admitted = false →
      s.louvre.starveLimit * 1600 < s.now - (s.slot k).waitSince →
      exec (.starveLimitExpiry k) s = .next (s.onSlot k (fun x => { x with starved := true })))
    ∧ (∀ h, s.louvre.holdFrom = some h → s.now = h + 160000000 → s.louvre.hold = true →
      exec .startupHoldEnd s = .next { s with louvre := { s.louvre with hold := false } })

/-- The resets: PWR_OK's, RESET_N's and DEVICE_RESET's beginning and end, and what each leaves (R454, R456, R550,
R551). A device reset that was asked for begins with a cc in which no command waits (R454, R551, assumption 9). -/
def Obligations.Resets : Prop :=
  (∀ (s : State) (straps : BitVec 2) (addr : BitVec 3),
        (s.start.pwrOk = false → ∃ t, exec (.pwrOkRise straps addr) s = .next t ∧ t.start.pwrOk = true
          ∧ t.start.strapPins = straps.toNat ∧ t.start.addrPins = addr.toNat ∧ t.slots = [] ∧ t.ent = Entropy.reset
          ∧ t.power = Power.reset ∧ t.dict = Dict.reset ∧ t.thermal = Thermal.reset ∧ t.grid = Grid.reset ∧ t.mem = MemState.reset
          ∧ t.irq = Irq.reset ∧ t.log = Logbook.reset ∧ t.det = Det.reset ∧ t.link = LinkState.reset ∧ t.sec = Security.reset
          ∧ t.rinkRun = false ∧ t.flash.imageKeys = s.flash.imageKeys ∧ t.flash.fwSvnMin = s.flash.fwSvnMin)
        ∧ (∃ t, exec .pwrOkFall s = .next t ∧ t.start.pwrOk = false ∧ t.slots = [] ∧ t.power = Power.reset ∧ t.grid = Grid.reset
          ∧ t.mem = MemState.reset ∧ t.now = s.now ∧ t.held = true)
        ∧ (s.start.resetN = true → s.start.pwrOk = true → ∃ t, exec .resetNFall s = .next t ∧ t.start.resetN = false ∧ t.held = true
          ∧ t.slots = [] ∧ t.mem = MemState.reset ∧ t.grid = Grid.reset ∧ t.irq = Irq.reset ∧ t.det = Det.reset
          ∧ t.dict.resets = s.dict.resets ∧ t.dict.i3cAddress = s.dict.i3cAddress
          ∧ (∀ d < 36, (t.domain d).energy = (s.domain d).energy
            ∧ ((s.domain d).st ≠ 2 → (t.domain d).st = 3 ∧ (t.domain d).target = 2)))
        ∧ (s.start.resetN = false → s.start.pwrOk = true → ∃ t, exec (.resetNRise straps addr) s = .next t ∧ t.start.resetN = true
          ∧ t.dict.lastReset = 1 ∧ t.dict.resets = satAdd 32 s.dict.resets 1 ∧ t.thermal = Thermal.reset ∧ t.pins.pinDrive = none
          ∧ (∀ d < 36, (t.domain d).st = (if (s.domain d).st = 3 then 2 else (s.domain d).st)))
        ∧ (∀ v, s.accepts v 0x1000 0x0C [0xA5] = true → s.start.resetAsked = none → exec (.deviceReset v 0xA5) s =
            .next ({ s with start := { s.start with resetAsked := some (s.now, 2) } }.answered 0 []))
        ∧ (∀ a, s.start.resetHeld = some a → s.now = a + 16000 → ∃ t, exec .deviceResetRelease s = .next t
          ∧ t.start.resetHeld = none ∧ t.dict.lastReset = 2 ∧ t.dict.resets = satAdd 32 s.dict.resets 1
          ∧ t.thermal = s.thermal ∧ t.slots = s.slots))
  ∧ (∀ (s : State) (at_ p : Nat), s.pending = [] → s.start.resetAsked = some (at_, p) → (2 ≤ p ∨ at_ + 1600000 ≤ s.now + 1) →
        ∃ t, step s = .next t ∧ t.now = s.now + 1 ∧ t.start.resetHeld = some (s.now + 1) ∧ t.start.resetAsked = none ∧ t.slots = []
          ∧ t.grid = Grid.reset ∧ t.mem = MemState.reset ∧ t.flash.imageKeys = s.flash.imageKeys ∧ t.rinkRun = false)

/-- Start-up: REFCLK, the root PLLs and their loss, training and zero fill of a stack, the RESERVED areas, its
failures, and the identity key (R43, R44, R530 to R532, R550, R554 to R558, R574). -/
def Obligations.StartUpSequence : Prop :=
  ∀ (s : State),
    (s.start.pwrOk = true → s.start.resetN = true → s.start.resetHeld = none → s.start.time0 = none →
      ∃ t, exec .refclkStart s = .next t ∧ t.start.refclk = true ∧ t.start.refclkOk = true ∧ t.start.time0 = some s.now
        ∧ t.start.st = 0 ∧ (s.dict.lastReset ≠ 2 → t.start.straps = s.start.strapPins))
    ∧ exec .refclkLoss s = .next { s with start := { s.start with refclk := false, refclkOk := false } }
    ∧ (∀ e, s.sinceZero = some e → s.start.st = 0 → s.start.pllLock ≠ 3 →
      (e ≤ 1600000 → ∃ t, exec .rootPllLock s = .next t ∧ t.start.pllLock = 3 ∧ t.start.pllSince = some s.now
        ∧ t.start.toWake = (List.range 34).filter (fun d => decide (2 ≤ d)) ∧ (t.domain 0).st = 4 ∧ (t.domain 1).st = 4
        ∧ (∀ d, 2 ≤ d → t.domain d = s.domain d))
      ∧ (1600000 ≤ e → exec .pllLockTimeout s = .next { s with start := { s.start with st := 3, fault := 1 } }))
    ∧ (∀ die, die < 2 → bitOf s.start.pllLock die = 1 → ∃ t, exec (.rootPllLockLoss die) s = .next t ∧ t.rinkRun = (s.rinkRun && die != 0)
      ∧ t.start.pllLock = s.start.pllLock - 2 ^ die ∧ t.start.pllLost = s.start.pllLost ||| 2 ^ die ∧ t.grid.deviceLost ≠ 0)
    ∧ (∀ v (x : BitVec 8), s.accepts v 0x2200 4 (leBytes 1 x.toNat) = true → exec (.rootPllLockLost v x) s =
        .next ({ s with start := { s.start with
          pllLost := s.start.pllLost % 4 - (s.start.pllLost &&& x.toNat) % 4 } }.answered 0 []))
    ∧ (∀ st (failed : BitVec 32), st < 16 → (s.domain (12 + st)).st = 4 → (s.domain (12 + st)).fromRet = false →
      s.requiredOn (12 + st) = true → (s.stack st).trained = false → (s.stack st).lost = false →
      let bad := failed ||| Table.get 0 st s.flash.pcFailed ||| (s.stack st).failed
      let good := (List.range 32).filter (fun pc => !bad.getLsbD pc)
      ∃ t, exec (.hbmTrainingComplete st failed) s = .next t
        ∧ (30 ≤ good.length → t.stack st = ⟨false, (good.drop 30).map (fun pc => 32 * st + pc), bad, true, false⟩
          ∧ (∀ i < 30, t.sliceEnt (30 * st + i) = ⟨0, 32 * st + good.getD i i⟩))
        ∧ (good.length < 30 → t.stack st = ⟨true, [], bad, true, false⟩ ∧ (∀ i < 30, (t.sliceEnt (30 * st + i)).st = 2))
        ∧ (∀ o, o ≠ st → t.stack o = s.stack o) ∧ t.mem.hbm = s.mem.hbm)
    ∧ (∀ st failed, st < 16 → (s.domain (12 + st)).st = 4 → (s.domain (12 + st)).fromRet = false →
      s.requiredOn (12 + st) = true → (s.stack st).trained = false → (s.stack st).lost = true →
      exec (.hbmTrainingComplete st failed) s = .next (s.setStack st
        ⟨true, [], failed ||| Table.get 0 st s.flash.pcFailed ||| (s.stack st).failed, true, false⟩))
    ∧ (∀ st, st < 16 → (s.stack st).trained = true → (s.stack st).filled = false → (s.domain (12 + st)).st = 4 →
      ∃ t, exec (.zeroFillComplete st) s = .next t ∧ t.stack st = { s.stack st with filled := true }
        ∧ (∀ i < 30, t.ctl (30 * st + i) = State.SliceCtl.cleared (s.ctl (30 * st + i))) ∧ t.mem.hbm = s.mem.hbm)
    ∧ (s.start.st = 1 → (∀ i < 16, s.isOn (12 + i) = true) → ∃ t, exec .reservedWriteComplete s = .next t
      ∧ t.start.reservedDone = true ∧ ((∀ d < 34, s.isOn d = true ∧ (s.domain d).padsHeld = false) → t.start.st = 2))
    ∧ (s.start.st = 0 → (s.domain 0).st = 4 →
      (s.flash.recordGood = false → exec (.startUpFailure false) s = .next { s with start := { s.start with st := 3, fault := 2 } }
        ∧ exec (.startUpFailure true) s = .next s)
      ∧ (s.flash.recordGood = true → exec (.startUpFailure false) s = .next s
        ∧ (s.flash.bankGood = false → exec (.startUpFailure true) s =
            .next { s with start := { s.start with st := 3, fault := 3 } })
        ∧ (s.flash.bankGood = true → exec (.startUpFailure true) s = .next s)))
    ∧ (s.isOn 1 = true → s.sec.identity = 0 →
      (s.flash.pufGood = true → ∃ t, exec .identityDerivation s = .next t ∧ t.sec.identity = 1
        ∧ t.sec.pubkey = encodePoint (Jac.base.mul 384 State.identitySecret))
      ∧ (s.flash.pufGood = false → exec .identityDerivation s = .next { s with sec := { s.sec with identity := 2 } }))

/-- SYNC_IN, SYNC_OUT and its period, and boundary scan (R575, R576, R584). -/
def Obligations.PinEvents : Prop :=
  ∀ (s : State),
    (s.start.pwrOk = true → exec .syncIn s = .next { s with pins := { s.pins with
      syncStamp := if s.rinkRun then s.rink else 0, syncCount := satAdd 32 s.pins.syncCount 1 } })
    ∧ (s.rinkRun = true → s.rink % 2 ^ s.pins.syncShift = 0 → s.pins.syncShiftNext = none →
      exec .syncOut s = .next { s with pins := { s.pins with syncOutUntil := some (s.now + 64) } })
    ∧ (∀ n, s.rinkRun = true → s.rink % 2 ^ s.pins.syncShift = 0 → s.pins.syncShiftNext = some n →
      ∃ t, exec .syncOut s = .next t ∧ t.pins.syncShift = n ∧ t.pins.syncShiftNext = none)
    ∧ (∀ v (x : BitVec 8), s.accepts v 0x2200 7 (leBytes 1 x.toNat) = true → 16 ≤ x.toNat → x.toNat ≤ 40 →
      exec (.syncShift v x) s = .next ({ s with pins := { s.pins with syncShiftNext := some x.toNat } }.answered 0 []))
    ∧ (∀ b, s.start.resetN = false → exec (.extest b) s =
        .next { s with pins := { s.pins with jtag := 2, pinDrive := some b, boundary := b } })
    ∧ (∀ b, s.start.resetN = true → exec (.extest b) s = .next { s with pins := { s.pins with jtag := 0, pinDrive := none } })
    ∧ (∀ b, exec (.samplePreload b) s = .next { s with pins := { s.pins with jtag := 1, boundary := b, pinDrive := none } })
    ∧ exec .bypass s = .next { s with pins := { s.pins with jtag := 0, pinDrive := none } }

/-- The entropy source's cells: settling, a block passed, and a block failed; what a passed block of a READY cell
becomes (R359 to R366). What uses the noise: the DRBG's requests, the install of a key, and the key block's signature
(R370, R371, R533, R534, R547, R548). -/
def Obligations.EntropyAndKeys : Prop :=
  (∀ (s : State) (n : Nat), n < 16 → s.secureRuns = true →
        let c := s.cell n
        (c.on = true → c.st = .settling → s.now = c.since + 102400 →
          exec (.settlingEnd n) s = .next (s.setCell n { c with st := .warming, since := s.now, run := 0 }))
        ∧ (∀ raw : BitVec 2048,
          let r := rctScan raw 2048 0 c.run c.last
          c.on = true → s.now = c.since + 131072 → r.1 = none → aptFail raw = none →
          (c.st = .warming → c.warm < 3 → ∃ t, exec (.blockPass n raw) s = .next t
            ∧ t.cell n = { c with warm := c.warm + 1, failRun := 0, since := s.now, run := r.2.1, last := r.2.2 }
            ∧ t.ent.passed = satAdd 64 s.ent.passed 1 ∧ t.ent.pool = s.ent.pool)
          ∧ (c.st = .warming → 3 ≤ c.warm → ∃ t, exec (.blockPass n raw) s = .next t ∧ (t.cell n).st = .ready
            ∧ t.ent.pool = s.ent.pool)
          ∧ (c.st = .ready → s.ent.st = .ready → ∃ t, exec (.blockPass n raw) s = .next t
            ∧ (s.ent.keyWaits = true → t.ent.drbgLive = true ∧ t.ent.drbgCount = 0
                ∧ t.ent.drbgSeeds = satAdd 32 s.ent.drbgSeeds 1 ∧ t.ent.pool = s.ent.pool ∧ t.ent.reserve = s.ent.reserve
                ∧ t.ent.drbg = (if s.ent.drbgLive = true then drbgReseed s.ent.drbg (conditioned raw)
                    else drbgInstantiate (conditioned raw) (leBytes 8 s.rink ++ leBytes 8 Config.serial.toNat))
                ∧ t.ent.keyWaits = (!s.ent.drbgLive && s.ent.reseedWaits))
            ∧ (s.ent.keyWaits = false → s.ent.cipherWaits = true → t.ent.reserve = conditioned raw ∧ t.ent.cipherWaits = false
                ∧ t.ent.pool = s.ent.pool ∧ t.ent.drbg = s.ent.drbg)
            ∧ (s.ent.keyWaits = false → s.ent.cipherWaits = false → s.ent.pool.length ≤ 1920 →
                t.ent.pool = s.ent.pool ++ conditioned raw ∧ t.ent.spilled = s.ent.spilled)
            ∧ (s.ent.keyWaits = false → s.ent.cipherWaits = false → 1920 < s.ent.pool.length →
                t.ent.pool = s.ent.pool ∧ t.ent.spilled = satAdd 64 s.ent.spilled 1)))
        ∧ (∀ (raw : BitVec 2048),
          let r := (rctScan raw 2048 0 c.run c.last).1
          let a := aptFail raw
          let bit := min (r.getD 2048) (a.getD 2048)
          s.cellRuns c = true → bit < 2048 → c.since + 64 * bit ≤ s.now → s.now ≤ c.since + 64 * (bit + 1) →
          ∃ t, exec (.blockFail n raw) s = .next t ∧ t.ent.failed = satAdd 64 s.ent.failed 1
            ∧ (t.cell n).fails = satAdd 16 c.fails 1
            ∧ t.ent.rctFails = (if r = some bit then satAdd 32 s.ent.rctFails 1 else s.ent.rctFails)
            ∧ t.ent.aptFails = (if a = some bit then satAdd 32 s.ent.aptFails 1 else s.ent.aptFails)
            ∧ (c.failRun < 2 → (t.cell n).st = .settling ∧ (t.cell n).failRun = c.failRun + 1 ∧ (t.cell n).since = s.now)
            ∧ (2 ≤ c.failRun → (t.cell n).st = .retired)))
  ∧ (∀ (s : State), s.isOn 1 = true →
        (∀ q rest, s.ent.drbgQueue = q :: rest → s.ent.st ≠ .fatal → s.ent.drbgLive = true → s.ent.reseedWaits = false →
          let g := drbgBytes s.ent.drbg (if q.kind = 1 then 56 else 32)
          let out := q.head ++ (if q.kind = 1 then (encodePoint (Jac.base.mul 384 (ofBE g.1 % (n384 - 1) + 1))).drop 1 else g.1) ++ q.tail
          ∃ t, exec .drbgGenerate s = .next t ∧ t.ent.drbgQueue = rest ∧ t.ent.drbg = g.2
            ∧ t.ent.drbgCount = s.ent.drbgCount + 1 ∧ t.ent.drbgServed = s.ent.drbgServed + 1
            ∧ t.ent.reseedWaits = decide (2 ^ 20 ≤ s.ent.drbgCount + 1) ∧ t.ent.keyWaits = decide (2 ^ 20 ≤ s.ent.drbgCount + 1)
            ∧ (q.signed = false → t.dict.reply = out)
            ∧ (q.signed = true → t.dict.reply = s.dict.reply ∧
                (SigJob.spdm out ∈ t.sec.sigQueue ∨ t.sec.signing = some (.spdm out, s.now)))
            ∧ t.ent.pool = s.ent.pool ∧ t.ent.reserve = s.ent.reserve ∧ t.slots = s.slots ∧ t.mem = s.mem)
        ∧ (s.ent.drbgQueue = [] ∨ s.ent.st = .fatal ∨ s.ent.drbgLive = false ∨ s.ent.reseedWaits = true →
          exec .drbgGenerate s = .next s)
        ∧ (∀ k rest, s.sec.installs = k :: rest →
          (8 ≤ s.ent.reserve.length → exec .keyInstall s = .next { s with
            sec := { s.sec with
              installs := rest, installed := if s.sec.installed.contains k then s.sec.installed else s.sec.installed ++ [k]
              masks := Table.put k (s.ent.reserve.take 8) s.sec.masks }
            ent := { s.ent with
              reserve := s.ent.reserve.drop 8
              cipherWaits := s.ent.cipherWaits || (decide (s.ent.reserve.length < 16) && s.ent.st != .fatal) } })
          ∧ (s.ent.reserve.length < 8 → s.ent.st ≠ .fatal →
            exec .keyInstall s = .next { s with ent := { s.ent with cipherWaits := true } })
          ∧ (s.ent.reserve.length < 8 → s.ent.st = .fatal → ∃ t, exec .keyInstall s = .next t ∧ t.sec.installs = rest
            ∧ t.sec.installed = s.sec.installed ∧ t.ent = s.ent ∧ (2 ≤ k → k ≤ 5 → (t.lport (k - 2)).st = 3)
            ∧ (∀ p n, p < 2 → n ≤ 4 → k = State.ideKey p n →
                t.dict.reply = [0x7E, 0x03, 0x04] ∧ n ∉ (t.ideKeys p).programmed)))
        ∧ (∀ m b, s.sec.signing = some (.spdm m, b) → s.now ≤ b + 192000 →
          ∃ t, exec .signatureComplete s = .next t ∧ t.sec.signatures = satAdd 64 s.sec.signatures 1
            ∧ t.dict.reply = m ++ leBytes 96 (Config.freeBits s.fresh 768).toNat ∧ t.ports = s.ports ∧ t.mem = s.mem)
        ∧ (∀ p m b r, p < 2 → s.sec.signing = some (.trailer p m, b) → s.now ≤ b + 192000 → (s.port p).responses = [r] → r.postable = false →
          let g := ecdsaSign State.identitySecret m
          ∃ t, exec .signatureComplete s = .next t ∧ t.sec.signatures = satAdd 64 s.sec.signatures 1
            ∧ (t.port p).responses = [{ r with trailer := .ready (m ++ beBytes 48 g.1 ++ beBytes 48 g.2) }]
            ∧ t.slots = s.slots ∧ t.mem = s.mem))

/-- The responder: a connection, its chain, its measurements, a challenge, a session, and the keys of a link stream, on
a device that responds (R399, R532, R539 to R541, R547, R548; the message codes are assumption 8's). MCTP control
messages and the device's addresses on the management bus (R447, R448; contents of assumption 8). -/
def Obligations.ResponderAndManagementBus : Prop :=
  (∀ (s : State) (ep : Nat), s.respondsAt ep = true →
        let e := s.endpoint ep
        let gives := fun (t : State) (b : List Byte) =>
          Host.Outcome.next (φ := Fault) (ρ := Refusal) { t with dict := { t.dict with reply := b } }
        exec (.getVersion ep) s = gives (s.setEndpoint ep { Spdm.fresh with version := 1 }) [0x04, 0x12, 0x13]
        ∧ (e.version ≠ 0 → exec (.getCapabilities ep) s = gives (s.setEndpoint ep { e with capsDone := true }) [0x61, 0xD6, 0x62, 0, 0])
        ∧ (e.capsDone = true → exec (.negotiateAlgorithms ep) s =
            gives (s.setEndpoint ep { e with algsDone := true }) [0x63, 0x80, 0x02, 0x10, 0x02])
        ∧ (e.algsDone = true →
          exec (.getDigests ep) s = gives s ([0x01, 0x01] ++ sha384 State.certChain)
          ∧ (∀ off len, exec (.getCertificate ep 0 off len) s =
            (if State.certChain.length ≤ off then gives s [0x7F, 1]
            else
              let b := (State.certChain.drop off).take len
              gives s ([0x02] ++ (leBytes 2 b.length ++ leBytes 2 (State.certChain.length - off - b.length) ++ b))))
          ∧ (∀ nonce,
            exec (.getMeasurements ep 0 false nonce) s = gives s [0x60, 13]
            ∧ exec (.getMeasurements ep 0xFF false nonce) s = gives s ([0x60] ++ State.measurementList.flatMap s.measurementBlock)
            ∧ (∀ n, 0 < n → n < 0xFF →
              (s.measurement n = none → exec (.getMeasurements ep n false nonce) s = gives s [0x7F, 1])
              ∧ (∀ b, s.measurement n = some b →
                exec (.getMeasurements ep n false nonce) s = gives s ([0x60] ++ (leBytes 1 n ++ leBytes 2 b.length ++ b))
                ∧ (s.sec.identity ≠ 2 → s.ent.st ≠ .fatal → exec (.getMeasurements ep n true nonce) s =
                    .next { s with ent := { s.ent with drbgQueue := s.ent.drbgQueue
                      ++ [⟨0, ep, [0x60] ++ (leBytes 1 n ++ leBytes 2 b.length ++ b), nonce, true⟩] } }))))
          ∧ (s.sec.identity ≠ 2 → s.ent.st ≠ .fatal →
            (∀ nonce, exec (.challenge ep 0 nonce) s = .next { s with ent := { s.ent with
              drbgQueue := s.ent.drbgQueue ++ [⟨0, ep, [0x03] ++ sha384 State.certChain, nonce, true⟩] } })
            ∧ (∀ bytes, ∃ t, exec (.keyExchange ep 0 bytes) s = .next t ∧ (t.endpoint ep).handshake = true
              ∧ (t.endpoint ep).session = false ∧ t.ent.drbgQueue = s.ent.drbgQueue ++ [⟨1, ep, [0x64], bytes, true⟩]))
          ∧ (s.sec.identity = 2 → ∀ nonce, exec (.challenge ep 0 nonce) s = gives s [0x7F, 5])
          ∧ (e.handshake = true → exec (.finish ep) s = gives (s.setEndpoint ep { e with handshake := false, session := true }) [0x65]))
        ∧ (e.session = true →
          exec (.heartbeat ep) s = gives s [0x68] ∧ exec (.keyUpdate ep) s = gives s [0x69]
          ∧ exec (.endSession ep) s = gives (s.setEndpoint ep { e with session := false }) [0x6C]
          ∧ (∀ b, ep < 2 → b.head? = some 0 → ∃ t, exec (.vendorDefinedRequest ep b) s = .next t
            ∧ t.dict.reply.take 2 = [0x7E, 0x01] ∧ t.dict.reply.length = 10 ∧ t.ports = s.ports ∧ t.sec = s.sec)
          ∧ (∀ k, ep < 2 → k ≤ 4 → ∃ t, exec (.keyProg ep k) s = .next t ∧ k ∈ (t.ideKeys ep).programmed
            ∧ State.ideKey ep k ∈ t.sec.installs ∧ t.ports = s.ports ∧ t.dict.reply = [0x7E, 0x03, 0x00])
          ∧ (∀ k, ep < 2 → (s.ideKeys ep).programmed.contains k = true → s.sec.installed.contains (State.ideKey ep k) = true →
            ∃ t, exec (.kSetGo ep k) s = .next t ∧ k ∈ (t.ideKeys ep).active ∧ k ∉ (t.port ep).ideBroken
              ∧ (k = 0 → (t.port ep).ideSecure = true) ∧ (k ≠ 0 → (t.port ep).selSecure.contains k = true)
              ∧ t.dict.reply = [0x7E, 0x06, 0x00])
          ∧ (∀ k, ep < 2 → ((s.ideKeys ep).programmed.contains k = false ∨ s.sec.installed.contains (State.ideKey ep k) = false) →
            exec (.kSetGo ep k) s = gives s [0x7E, 0x06, 0x01]))
        ∧ (∀ k, 2 ≤ ep ∨ e.session = false ∨ 4 < k → exec (.keyProg ep k) s = gives s [0x7E, 0x03, 0x03])
        ∧ (ep < 2 →
          (∀ i, (i ≤ 2 → exec (.doeDiscovery ep 1 i) s = gives s (leBytes 2 1 ++ leBytes 1 i ++ leBytes 1 ((i + 1) % 3)))
            ∧ (2 < i → exec (.doeDiscovery ep 1 i) s = gives s (leBytes 2 0xFFFF ++ [0, 0])))
          ∧ (∀ o i, o ≠ 1 → o ≠ 0x10001 → o ≠ 0x20001 → exec (.doeDiscovery ep o i) s = gives s [])))
  ∧ (∀ (s : State),
        let gives := fun (t : State) (b : List Byte) =>
          Host.Outcome.next (φ := Fault) (ρ := Refusal) { t with dict := { t.dict with reply := b } }
        (∀ x : BitVec 8, x ≠ 0 → x ≠ 0xFF →
          exec (.setEndpointId x) s = gives { s with dict := { s.dict with endpointId := x.toNat } } ([0, 0] ++ leBytes 1 x.toNat ++ [0]))
        ∧ exec .getEndpointId s = gives s ([0] ++ leBytes 1 s.dict.endpointId ++ [0, 0])
        ∧ exec .getMctpVersionSupport s = gives s [0, 1, 0xF1, 0xF3, 0xFF, 0x00]
        ∧ exec .getMessageTypeSupport s = gives s [0, 3, 0x00, 0x05, 0x7E]
        ∧ exec .getVendorDefinedMessageSupport s = gives s ([0, 0xFF, 0] ++ beBytes 2 Config.pciVendorId.toNat ++ [0, 0])
        ∧ (s.dict.i3cAddress < 0x80 → ∀ a : BitVec 7,
          exec (.entdaa a) s = .next { s with dict := { s.dict with i3cAddress := 0x80 + a.toNat } }
          ∧ (∀ f : BitVec 7, f.toNat = 0x38 + s.start.addrPins % 8 →
            exec (.setdasa f a) s = .next { s with dict := { s.dict with i3cAddress := 0x80 + a.toNat } })
          ∧ (∀ f : BitVec 7, f.toNat ≠ 0x38 + s.start.addrPins % 8 → exec (.setdasa f a) s = .next s)))

/-- A port's frame is formed in its capture cycle, with the flits its egress entries name while it is UP in a lap, and
the flit of a transom message that may leave: URGENT before NORMAL, within the far buffer's free places (R227, R405 to
R408, R415). A captured flit whose check bytes cannot be decoded raises LECEL_UNCORRECTABLE (R408, R410). A frame that
could not be corrected, or that fails authentication, is lost whole; one that is decoded continues the sequence of
LFNs; its transom transfer joins a message; and the scheduled slots of one that fits the running lap are held for
delivery 512 cc after their capture (R405, R407 to R410, R415, R422, R546). Flits held for delivery reach their edge
router in their cycle; a port is UP after 64 frames in order, but not with a FLIGHT found above 160 cc, goes DOWN
without a frame for 176 cc, and is ABSENT 2 s after its pads were released (R401, R403 to R405, R408, R507, R547,
R562). -/
def Obligations.LecelPorts : Prop :=
  (∀ (s : State) (p j : Nat), p < 4 → j < 50 → s.isOn (30 + p) = true → (s.domain (30 + p)).padsHeld = false →
        (s.frameCount + 16) % 256 = lecelStart j →
        let g := if s.canSend p = true then s.sendFlit p else (0, s)
        let frame := (s.frameCount + 16) / 256
        let formed := fun (slots : Table Flit) =>
          let f := lecelBits j frame (s.txHeader p) slots g.1
          Host.Outcome.next (φ := Fault) (ρ := Refusal) (g.2.onLport p (fun x => { x with
            tx := some ⟨j, frame, s.now, s.txHeader p, slots, g.1, if x.cryptLive = 1 then sealFrame x.key frame j f else f⟩
            fwd := [] }))
        (∀ bad, (s.lport p).st ≠ 2 → exec (.lecelCapture p j bad) s = formed [])
        ∧ (∀ k c, (s.lport p).st = 2 → s.grid.deviceLost = 0 → s.quarantined = false → s.portLap p = some (k, c) →
          ((s.lport p).fwd = [] → ∃ slots, exec (.lecelCapture p j 0) s = formed slots
            ∧ (∀ n f, 1 ≤ n → n ≤ 38 → s.egressFlit p k c j n = some f → Table.get 0 n slots = f)
            ∧ (∀ n, 1 ≤ n → n ≤ 38 → s.egressFlit p k c j n = none → Table.has n slots = false))
          ∧ (∀ (bad : BitVec 38) n, 1 ≤ n → n ≤ 38 → bad.getLsbD (n - 1) = true → (s.egressFlit p k c j n).isSome = true →
            bitOf s.grid.coverPorts p = 0 → ∃ t, exec (.lecelCapture p j bad) s = .next t
              ∧ (⟨0xA000 + p, 0x50, s.faultCycle k, 0⟩ : FaultRec) ∈ (t.slot k).faults ∧ (t.slot k).faultDrive.isSome = true))
        ∧ (s.nextFlit p = none → g = (0, s))
        ∧ (∀ m, s.canSend p = true → s.nextFlit p = some m →
          let l := (s.stampMsg m).flits
          m ∈ s.link.outbox ∧ m.port = p ∧ s.creditFor p m.body.urgent = true
            ∧ (m.body.urgent = false → s.creditFor p true = false ∨ s.pickMsg p true = none)
            ∧ g.1 = lecelWord m.body.urgent (!m.started) (decide (l.length ≤ 1)) (l.headD 0)
            ∧ (l.length ≤ 1 → g.2.link.outbox = s.link.outbox.erase m)))
  ∧ (∀ (s : State) (p origin : Nat) (f : BitVec 5140), p < 4 → s.isOn (30 + p) = true → (s.domain (30 + p)).padsHeld = false →
        let x := s.lport p
        let seen := fun (t : State) (h : BitVec 5140) => (t.lport p).lastLfn = frameLfn h ∧ (t.lport p).lastFrame = s.now
          ∧ (t.lport p).authRun = 0 ∧ (t.lport p).inOrder = (if frameLfn h = (x.lastLfn + 1) % 50 then x.inOrder + 1 else 1)
          ∧ (t.lport p).peerState = hdrField (frameHeader h) 95 94
        (∃ t, exec (.lecelFrame p .failed f origin) s = .next t
          ∧ (t.lport p).cwUncorrectable = satAdd 64 x.cwUncorrectable 1 ∧ (t.lport p).inOrder = 0
          ∧ (t.lport p).lastLfn = (x.lastLfn + 1) % 50
          ∧ (t.lport p).rxUrgent = [] ∧ (t.lport p).rxNormal = [] ∧ t.mem.hbm = s.mem.hbm
          ∧ (∀ k c, s.expects p = true → s.portLap p = some (k, c) → bitOf s.grid.coverPorts p = 0 →
              (⟨0xA000 + p, 0x50, s.faultCycle k, 0⟩ : FaultRec) ∈ (t.slot k).faults))
        ∧ (s.canSend p = true → s.opened p f = none → ∃ t, exec (.lecelFrame p .clean f origin) s = .next t
          ∧ (t.lport p).authFails = satAdd 32 x.authFails 1 ∧ (t.lport p).inOrder = 0 ∧ t.mem.hbm = s.mem.hbm
          ∧ (x.authRun + 1 < 64 → (t.lport p).authRun = x.authRun + 1 ∧ (t.lport p).st = x.st)
          ∧ (64 ≤ x.authRun + 1 → (t.lport p).st = 3))
        ∧ (s.canSend p = false → ∀ fate, fate ≠ .failed → ∃ t, exec (.lecelFrame p fate f origin) s = .next t
            ∧ seen t f ∧ (t.lport p).st = x.st ∧ t.slots = s.slots ∧ t.link.outbox = s.link.outbox
            ∧ (t.lport p).cwCorrected = (if fate = .corrected then satAdd 64 x.cwCorrected 1 else x.cwCorrected))
        ∧ (∀ g, s.canSend p = true → s.opened p f = some g → s.link.aligned = true → (s.portLap p).isNone = true →
          (∀ k, (s.slot k).info.pairs = false) → ∃ t, exec (.lecelFrame p .clean f origin) s = .next t ∧ seen t g
            ∧ t.slots = s.slots
            ∧ (let w := frameSlot g 39
              (w.getLsbD 127 = false → (t.lport p).rxHeld = x.rxHeld)
              ∧ (w.getLsbD 127 = true → w.getLsbD 125 = true → w.getLsbD 124 = true →
                (t.lport p).rxHeld = x.rxHeld ++ [⟨BitVec.ofNat 64 s.halfCount, [w]⟩])
              ∧ (w.getLsbD 127 = true → w.getLsbD 126 = true → w.getLsbD 125 = false → x.rxUrgent ≠ [] →
                (w.getLsbD 124 = true → (t.lport p).rxUrgent = []
                  ∧ (t.lport p).rxHeld = x.rxHeld ++ [⟨x.rxStartU, x.rxUrgent ++ [w]⟩])
                ∧ (w.getLsbD 124 = false → (t.lport p).rxUrgent = x.rxUrgent ++ [w] ∧ (t.lport p).rxHeld = x.rxHeld)))
            ∧ (hdrField (frameHeader g) 97 96 ≠ (p + 2) % 4 → x.st ≠ 5 →
                (t.lport p).st = 5 ∧ t.link.bindSkews = satAdd 32 s.link.bindSkews 1))
        ∧ (∀ k c g, s.portLap p = some (k, c) → (∀ k, (s.slot k).info.pairs = false) → bitOf s.grid.coverPorts p = 0 →
          s.link.aligned = true → s.bound = true → s.opened p f = some g →
          let h := frameHeader g
          let start := s.frameStart (frameFrc g) (frameLfn g)
          let cap := start - 16 - (s.slot k).lastLaunch
          x.st = 2 → hdrField h 95 94 = 2 → hdrField h 127 121 * 128 + hdrField h 120 114 = s.acrossAddr p →
          hdrField h 97 96 = (p + 2) % 4 → hdrField h 113 98 = (s.genEntry (s.acrossAddr p)).gen → hdrField h 93 78 = s.pid →
          hdrField h 77 77 = 1 → hdrField h 76 61 = State.ctagOf (s.slot k).info → hdrField h 60 13 = (s.slot k).lapNext →
          (s.slot k).lastLaunch + 16 ≤ start → start < (s.slot k).lastLaunch + s.lapLen k + 16 →
          ∃ t, exec (.lecelFrame p .clean f origin) s = .next t
            ∧ (t.lport p).due = x.due ++ ((List.range 38).map (fun n => n + 1)).filterMap (fun n =>
                let e := lapEntry (s.slot k).info.lecel p ((cap + 16) / 256) 1 (frameLfn g) n
                if lecelValid e then some ⟨s.now - c + cap + 512, lecelRow e, lecelTr e, frameSlot g n⟩ else none)
            ∧ (t.lport p).st = 2 ∧ t.slots = s.slots))
  ∧ (∀ (s : State) (p : Nat), p < 4 →
        let x := s.lport p
        (∀ d, x.due = [d] → d.due = s.now → Table.has (edgePlace p d.row).1 s.grid.routers = true →
          exec (.lecelDelivery p) s = .next ((s.setLport p { x with due := [] }).addArrival (edgePlace p d.row).1
            ⟨s.now, 2 * (edgePlace p d.row).2 + d.transfer, d.flit⟩))
        ∧ (∀ peer : BitVec 2, (x.st = 0 ∨ x.st = 1 ∨ x.st = 3) → s.isOn (30 + p) = true → (s.domain (30 + p)).padsHeld = false →
          64 ≤ x.inOrder → (x.cryptLive = 1 → s.sec.installed.contains (2 + p) = true) →
          (x.tooLong = true → exec (.lecelPortUp p peer) s = .next s)
          ∧ (x.tooLong = false → ∃ t, exec (.lecelPortUp p peer) s = .next t ∧ (t.lport p).st = 2
            ∧ (t.lport p).lastFrame = s.now ∧ (∀ q, q ≠ p → (t.lport q).st = (s.lport q).st)
            ∧ t.slots = s.slots ∧ t.mem = s.mem ∧ t.grid = s.grid))
        ∧ (s.canSend p = true → x.lastFrame + 176 ≤ s.now → ∃ t, exec (.lecelDown p) s = .next t ∧ (t.lport p).st = 3
          ∧ (t.lport p).inOrder = 0 ∧ (t.lport p).due = [] ∧ (t.lport p).tx = none ∧ (t.lport p).ebufFixed = false
          ∧ (t.lport p).transomLost = satAdd 32 x.transomLost x.inPart ∧ (∀ q, q ≠ p → t.lport q = s.lport q) ∧ t.mem = s.mem)
        ∧ (s.now < x.lastFrame + 176 → exec (.lecelDown p) s = .next s)
        ∧ (∀ a, x.released = some a → x.st = 1 → a + 3200000000 ≤ s.now → ∃ t, exec (.lecelAbsent p) s = .next t
          ∧ (t.lport p).st = 0 ∧ t.mem = s.mem
          ∧ ((s.lport ((p + 2) % 4)).st = 0 → s.ringBinds = true → s.axisClosed p = false →
              (p % 2 = 1 → t.link.closedEW = true ∧ t.link.cols = 1) ∧ (p % 2 = 0 → t.link.closedNS = true ∧ t.link.rows = 1))))

/-- COUNT passes through a device and comes round to the head of its axis, which closes it; CLOSE gives each device its
place; a COUNT that is no count of this ring's is discarded and counted; the head sends COUNT again after 100 ms (R417,
R419, R562). -/
def Obligations.RingBinding : Prop :=
  ∀ (s : State) (r : Route), s.ringBinds = true → s.quarantined = false →
    let sends := fun (t : State) (p kind v : Nat) =>
      Hands s t p { s.routeTo 0 with drow := 0, dcol := 0 } (.bind kind v 0 0 0)
    let skews := fun (c : Instr) => ∃ t, exec c s = .next t ∧ t.link.bindSkews = satAdd 32 s.link.bindSkews 1
      ∧ t.link.outbox = s.link.outbox ∧ t.link.cols = s.link.cols ∧ t.link.rows = s.link.rows
    (s.canSend 1 = true → s.axisClosed 3 = false → Admitted s 3 r →
      (∀ v : BitVec 8, s.headsAxis 3 = false → v.toNat < 128 → ∃ t, exec (.countEw 3 r v false) s = .next t
        ∧ t.link.provCol = some v.toNat ∧ t.link.st = 1 ∧ sends t 1 0 (v.toNat + 1) ∧ t.link.cols = s.link.cols)
      ∧ (∀ v : BitVec 8, s.headsAxis 3 = true → 0 < v.toNat → v.toNat ≤ 128 → s.link.closedNS = false →
        ∃ t, exec (.countEw 3 r v true) s = .next t ∧ t.link.closedEW = true ∧ t.link.cols = v.toNat ∧ t.link.col = 0
          ∧ sends t 1 2 (v.toNat - 1))
      ∧ (∀ (v : BitVec 8) mine, 128 < v.toNat ∨ (s.headsAxis 3 = true ∧ mine = false) ∨ (s.headsAxis 3 = false ∧ v.toNat = 128) →
        skews (.countEw 3 r v mine))
      ∧ (∀ (v : BitVec 8) c, s.headsAxis 3 = false → s.link.provCol = some c → s.link.closedNS = false →
        ∃ t, exec (.closeEw 3 r v) s = .next t ∧ t.link.closedEW = true ∧ t.link.cols = v.toNat + 1 ∧ t.link.col = c
          ∧ sends t 1 2 v.toNat))
    ∧ (∀ a, s.canSend 1 = true → s.headsAxis 1 = true → s.axisClosed 1 = false → s.link.countEW = some a →
        a + 160000000 ≤ s.now → ∃ t, exec (.countResend false) s = .next t ∧ t.link.countEW = some s.now ∧ sends t 1 0 1)
    ∧ (∀ a, s.canSend 2 = true → s.headsAxis 2 = true → s.axisClosed 2 = false → s.link.countNS = some a →
        a + 160000000 ≤ s.now → ∃ t, exec (.countResend true) s = .next t ∧ t.link.countNS = some s.now ∧ sends t 2 1 1)
    ∧ (s.canSend 2 = true → s.axisClosed 0 = false → Admitted s 0 r →
      (∀ v : BitVec 8, s.headsAxis 0 = false → v.toNat < 128 → ∃ t, exec (.countNs 0 r v false) s = .next t
        ∧ t.link.provRow = some v.toNat ∧ t.link.st = 1 ∧ sends t 2 1 (v.toNat + 1) ∧ t.link.rows = s.link.rows)
      ∧ (∀ v : BitVec 8, s.headsAxis 0 = true → 0 < v.toNat → v.toNat ≤ 128 → s.link.closedEW = false →
        ∃ t, exec (.countNs 0 r v true) s = .next t ∧ t.link.closedNS = true ∧ t.link.rows = v.toNat ∧ t.link.row = 0
          ∧ sends t 2 3 (v.toNat - 1))
      ∧ (∀ (v : BitVec 8) mine, 128 < v.toNat ∨ (s.headsAxis 0 = true ∧ mine = false) ∨ (s.headsAxis 0 = false ∧ v.toNat = 128) →
        skews (.countNs 0 r v mine))
      ∧ (∀ (v : BitVec 8) c, s.headsAxis 0 = false → s.link.provRow = some c → s.link.closedEW = false →
        ∃ t, exec (.closeNs 0 r v) s = .next t ∧ t.link.closedNS = true ∧ t.link.rows = v.toNat + 1 ∧ t.link.row = c
          ∧ sends t 2 3 v.toNat))

/-- Joining a torus that is BOUND, standing down, a generation told to all, and the alignment of RINK (R404, R408,
R417, R418, R420, R421, R423 to R427). -/
def Obligations.JoiningAndAlignment : Prop :=
  ∀ (s : State) (p : Nat) (r : Route), p < 4 →
    (∀ addr gen size : BitVec 16, Admitted s p r → s.link.offer = none → s.bound = false →
      (s.lport p).joinWait ≠ none → ∃ t, exec (.join p r addr gen size) s = .next t
        ∧ t.link.row = addr.toNat / 128 % 128 ∧ t.link.col = addr.toNat % 128
        ∧ t.link.rows = size.toNat / 128 % 128 + 1 ∧ t.link.cols = size.toNat % 128 + 1
        ∧ t.link.offer = some (addr.toNat, size.toNat, gen.toNat, p) ∧ (t.lport p).joinWait = none ∧ t.slots = s.slots)
    ∧ (∀ a, (s.lport p).joinWait = some a → a + 1600000 ≤ s.now →
      exec (.joinWaitExpiry p) s = .next (s.setLport p { s.lport p with joinWait := none }))
    ∧ (∀ addr stale cur : BitVec 16, Admitted s p r →
      let c := exec (.standDown p r addr stale cur) s
      let b := Msg.standDown addr.toNat stale.toNat cur.toNat
      (r.dest = s.selfAddr → addr.toNat = s.selfAddr → stale.toNat = s.link.gen → s.bound = true →
        (∀ k < 8, (s.slot k).halt = []) → ∃ t, c = .next t ∧ t.link.st = 3
          ∧ (∀ k < 8, (s.slot k).st ≠ .empty → (t.slot k).st = .halted ∧ (t.slot k).reason = .standDown))
      ∧ (r.dest = s.selfAddr → (addr.toNat ≠ s.selfAddr ∨ stale.toNat ≠ s.link.gen) → c = .next (s.took p r b))
      ∧ (∀ q, r.dest ≠ s.selfAddr → s.portTowards r.dest = some q → s.canSend q = true → ∃ t, c = .next t
          ∧ t.link.outbox = s.link.outbox ++ [⟨q, r, b, p + 1, false, s.rxFlits p r b⟩] ∧ t.slots = s.slots))
    ∧ (∀ (addr gen : BitVec 16) taken, Admitted s p r → r.bcast = false → r.dest = s.selfAddr →
      (r.bseq = 0 ∨ Table.get 0 r.source s.link.lastBseq ≠ r.bseq.toNat) →
      ∃ t, exec (.genUpdate p r addr gen taken) s = .next t
        ∧ (t.genEntry addr.toNat).gen = (if genVerdict (s.genEntry addr.toNat).gen gen.toNat = .accepted then gen.toNat
            else (s.genEntry addr.toNat).gen)
        ∧ (∀ a, a ≠ addr.toNat → t.genEntry a = s.genEntry a) ∧ t.slots = s.slots)
    ∧ (∀ ta : BitVec 64, Admitted s p r → s.bound = true → s.link.aligned = true →
      ∃ t, exec (.rinkSyncProbe p r ta) s = .next t
        ∧ Hands s t p (s.routeTo (s.acrossAddr p)) (.rinkSync 1 ta (s.rxStart p r (.rinkSync 0 ta 0 0)) 0) ∧ t.slots = s.slots)
    ∧ (∀ ta tb tc : BitVec 64, Admitted s p r → s.parentPort = some p → (s.lport p).probeTa = some ta →
      let td := s.rxStart p r (.rinkSync 1 ta tb tc)
      let off := ((tb - ta).toInt - (td - tc).toInt) / 2
      let flight := (((td - ta).toInt - (tc - tb).toInt + 3) / 4).toNat
      ∃ t, exec (.rinkSyncEcho p r ta tb tc) s = .next t ∧ (t.lport p).flight = flight
        ∧ (t.lport p).tooLong = decide (160 < flight)
        ∧ (160 < flight → (t.lport p).st = 3 ∧ t.rink = s.rink)
        ∧ (flight ≤ 160 → s.link.aligned = true → off.natAbs < 2 → (t.lport p).st = (s.lport p).st ∧ t.rink = s.rink
          ∧ (t.lport p).ebuf = (if (s.lport p).ebufFixed = true then (s.lport p).ebuf else 352 - flight)
          ∧ (t.lport p).probeTa = none)
        ∧ (flight ≤ 160 → s.link.aligned = true → 2 ≤ off.natAbs →
          (t.lport p).st = 3 ∧ t.link.aligned = false ∧ t.link.rinkDrifts = satAdd 32 s.link.rinkDrifts 1)
        ∧ (flight ≤ 160 → s.link.aligned = false → off ≠ 0 →
          t.rinkRun = true ∧ (t.halfCount : Int) = ((s.halfCount : Int) + off).emod (2 ^ 65) ∧ t.link.aligned = false))
    ∧ (s.parentPort = some p → s.bound = true → s.link.aligned = true → s.canSend p = true → (s.lport p).syncAt + 2 ^ 20 ≤ s.now →
      ∃ t, exec .rinkSyncPeriod s = .next t ∧ (t.lport p).syncAt = s.now ∧ (t.lport p).probeTa.isSome = true
        ∧ Hands s t p (s.routeTo (s.acrossAddr p)) (.rinkSync 0 0 0 0))

/-- The messages of launch agreement: a proposal of a course unknown here is answered NOT READY to the parent, and one
that finds the delivery buffer full is missed; a COMMIT commits its count; a tally is merged, and a child's silence
makes it missed (R417, R429 to R431, R433, R434). Pairs mode: the partner's digest is held and compared with this
member's: equal, the lap is confirmed; unequal, it is replayed once, and then the member on whose side alone there is
evidence is the lost one; this member's own is sent again after 1,024 cc, and without the partner's by 10,240 cc after
the boundary the member goes on SOLO (R322 to R324, R417). -/
def Obligations.AgreementAndPairs : Prop :=
  (∀ (s : State) (p : Nat) (r : Route) (q : Proposal), Admitted s p r →
        (∀ taken, r.bcast = true → Table.get 0 r.source s.link.lastBseq ≠ r.bseq.toNat →
          (s.childPorts r.source r.scope (some p)).1 = [] →
          let answers := fun (t : State) (b : TallyBody) => Hands s t p (s.routeTo (s.acrossAddr p)) (.tally b)
            ∧ b.bseq = r.bseq ∧ b.devices = 0 ∧ b.lost = [] ∧ t.slots = s.slots
          ((s.link.delivery.drop taken).length < 16 → s.slotOfTag q.ctag.toNat = none → s.grid.deviceLost = 0 →
            ∃ t b, exec (.propose p r q taken) s = .next t ∧ answers t b ∧ b.earliest = 2 ^ 64 - 1 ∧ b.missed = []
              ∧ Table.get 0 r.source t.link.lastBseq = r.bseq.toNat ∧ t.link.bcastMissed = s.link.bcastMissed)
          ∧ (16 ≤ (s.link.delivery.drop taken).length →
            ∃ t b, exec (.propose p r q taken) s = .next t ∧ answers t b ∧ b.missed = [s.selfAddr]
              ∧ t.link.lastBseq = s.link.lastBseq ∧ t.link.bcastMissed = satAdd 32 s.link.bcastMissed 1))
        ∧ (∀ k taken, r.bcast = false → r.dest = s.selfAddr → (r.bseq = 0 ∨ Table.get 0 r.source s.link.lastBseq ≠ r.bseq.toNat) →
          s.slotOfTag q.ctag.toNat = some k → s.grid.deviceLost = 0 → q.lap.toNat = (s.slot k).lapNext →
          ((s.slot k).stage = .idle ∨ (s.slot k).stage = .waiting) → ((s.slot k).st = .running ∨ (s.slot k).st = .replaying) →
          (q.action ≠ 1 → s.rink + 24 ≤ q.count.toNat → ∃ t, exec (.commit p r q taken) s = .next t
            ∧ (t.slot k).stage = .committed q.count.toNat ∧ ((s.slot k).attempt ≠ .probe → (t.slot k).provisional = none)
            ∧ (∀ j, j ≠ k → t.slot j = s.slot j) ∧ t.mem = s.mem ∧ t.grid = s.grid)
          ∧ (q.action ≠ 1 → q.count.toNat < s.rink + 24 → ∃ t, exec (.commit p r q taken) s = .next t ∧ t.slots = s.slots)
          ∧ (q.action = 1 → (s.slot k).halt = [] → ∃ t, exec (.commit p r q taken) s = .next t ∧ (t.slot k).st = .paused
            ∧ (t.slot k).stage = .idle))
        ∧ (∀ o a w (b : TallyBody), r.dest = s.selfAddr → s.link.own = some o → o.bseq = b.bseq.toNat → o.waiting = [(p, a), w] →
          w.1 ≠ p →
          let t := s.took p r (.tally b)
          exec (.tally p r b) s =
            .next { t with link := { t.link with own := some { o with tally := o.tally.merge b, waiting := [w] } } })
        ∧ (∀ h, h.origin ≠ s.selfAddr → s.link.heard = [h] → h.deadline ≤ s.now → s.canSend h.parent = true →
          ∃ t, exec (.tallyTimeout h.origin) s = .next t ∧ t.link.heard = [] ∧ t.slots = s.slots
            ∧ Hands s t h.parent (s.routeTo (s.acrossAddr h.parent))
                (.tally ((h.waiting.map (fun c => c.2)).foldl TallyBody.miss h.tally))))
  ∧ (∀ (s : State) (k : Nat), k < 8 → (s.slot k).info.pairs = true →
        (∀ p (r : Route) (ctag : BitVec 16) (lap : BitVec 48) ev d, Admitted s p r → r.dest = s.selfAddr →
          s.slotOfTag ctag.toNat = some k → (s.slot k).pairState ≠ 2 → (s.slot k).pairIn = none →
          let c := exec (.pairDigest p r ctag lap ev d) s
          ((s.slot k).pairSent = none → c = .next ((s.took p r (.pairDigest ctag lap.toNat ev d)).onSlot k (fun x =>
              { x with pairIn := some (lap.toNat, d, ev) })))
          ∧ (∀ sent mine ev' v, (s.slot k).pairSent = some (lap.toNat, sent, mine, ev') → (s.slot k).provisional = some v →
            (s.slot k).confirmed = false → lap.toNat = (s.slot k).lapNext - 1 → (s.slot k).halt = [] → s.grid.failing = [] →
            s.grid.plan = none → s.grid.unsettled = false → s.mem.failing = [] → s.mem.losing = [] →
            let a := (s.slot k).pairEvidence.1 || ev'
            let b := (s.slot k).pairEvidence.2 || ev
            (mine = d → ∃ t, c = .next t ∧ (t.slot k).confirmed = true ∧ (t.slot k).pairMiss = 0 ∧ t.mem.hbm = s.mem.hbm)
            ∧ (mine ≠ d → ∃ t, c = .next t ∧ (t.slot k).pairMismatches = satAdd 32 (s.slot k).pairMismatches 1
              ∧ ((s.slot k).pairMiss = 0 → (t.slot k).st = .replaying ∧ (t.slot k).lapNext = v.lap ∧ (t.slot k).pairMiss = 1)
              ∧ ((s.slot k).pairMiss ≠ 0 →
                (a = true → b = false → t.grid.deviceLost ≠ 0)
                ∧ (a = false → b = true → (t.slot k).pairState = 2 ∧ (t.slot k).confirmed = true)
                ∧ (a = b → (t.slot k).st = .halted ∧ (t.slot k).reason = .diverged ∧ (t.slot k).lapNext = v.lap)))))
        ∧ (∀ lap sent d ev, (s.slot k).pairSent = some (lap, sent, d, ev) → sent + 1024 ≤ s.now →
          s.now < (s.slot k).boundaryAt + 10240 → (s.slot k).pairIn = none → (s.slot k).pairState = 1 → s.quarantined = false →
          s.canSend (s.partnerPort k) = true → ∃ t, exec (.pairDigestResend k) s = .next t
            ∧ (t.slot k).pairSent = some (lap, s.now, d, ev)
            ∧ Hands s t (s.partnerPort k) (s.routeTo (s.acrossAddr (s.partnerPort k)))
                (.pairDigest (BitVec.ofNat 16 (State.ctagOf (s.slot k).info)) lap ev d))
        ∧ (let a := s.acrossAddr (s.partnerPort k)
          (s.slot k).pairState = 1 → (s.slot k).provisional ≠ none → (s.slot k).confirmed = false → (s.slot k).pairIn = none →
          (s.slot k).boundaryAt + 10240 ≤ s.now → (s.slot k).lostAddrs.contains a = false →
          (s.onSlot k (fun x => { x with lostAddrs := x.lostAddrs ++ [a] })).uncoverable k = false →
          ∃ t, exec (.pairDigestTimeout k) s = .next t ∧ (t.slot k).pairState = 2 ∧ (t.slot k).confirmed = true
            ∧ (t.slot k).lostAddrs = (s.slot k).lostAddrs ++ [a]))

/-- The coordinator's fresh proposal, and the next device that takes its role; a loss that is told, and one that a
deadline brings (R432, R434, R517 to R519, R523). -/
def Obligations.CoordinatorAndLosses : Prop :=
  ∀ (s : State) (k : Nat), k < 8 → s.quarantined = false →
    (∀ a, (s.slot k).reproposeAt = some a → a ≤ s.rink → s.coordinates k = true → s.link.own = none → s.link.queue = [] →
      s.wantedAction k ≠ none → ∃ t, exec (.repropose k) s = .next t ∧ (t.slot k).reproposeAt = none
        ∧ (t.slot k).proposed = some ((s.slot k).lapNext, roundUpTo 256 (s.rink + s.agreeSpan k)) ∧ t.link.own.isSome = true)
    ∧ (∀ a, (s.slot k).faultBoundaryAt = some a → (s.slot k).st = .replaying → s.coordinates k = false → s.nextInLine k = true →
      a + 2 * s.agreeSpan k ≤ s.now → s.link.own = none → ∃ t, exec (.coordinatorTakeover k) s = .next t
        ∧ (t.slot k).acting = true ∧ (t.slot k).faultBoundaryAt = none ∧ t.link.own.isSome = true)
    ∧ (∀ p (r : Route) (ctag : BitVec 16) (lap : BitVec 48) (addr gen : BitVec 16) taken, Admitted s p r → r.bcast = false →
      r.dest = s.selfAddr → (r.bseq = 0 ∨ Table.get 0 r.source s.link.lastBseq ≠ r.bseq.toNat) →
      ((addr.toNat ≠ s.selfAddr ∨ gen.toNat ≠ s.link.gen) → s.slotOfTag ctag.toNat = some k →
        (s.slot k).lostAddrs.contains addr.toNat = false → (s.slot k).info.pairs = false → (s.slot k).halt = [] →
        ∃ t, exec (.lost p r ctag lap addr gen taken) s = .next t ∧ (t.slot k).lostAddrs = (s.slot k).lostAddrs ++ [addr.toNat]
          ∧ (t.slot k).st = .halted ∧ (t.slot k).reason = .deviceLost)
      ∧ (addr.toNat = s.selfAddr → gen.toNat = s.link.gen → ∃ t, exec (.lost p r ctag lap addr gen taken) s = .next t
          ∧ t.link.st = 3 ∧ t.grid.deviceLost ≠ 0))
    ∧ (∀ addr, (s.slot k).info.pairs = true → (s.slot k).st = .replaying → (s.slot k).stage = .idle →
      (s.slot k).boundaryAt + 480000 ≤ s.now → s.coordinates k = true → s.inLayout k addr = true → addr ≠ s.selfAddr →
      (s.slot k).lostAddrs.contains addr = false → (s.slot k).halt = [] → ∃ t, exec (.replayReadyDeadline k addr) s = .next t
        ∧ (t.slot k).lostAddrs = (s.slot k).lostAddrs ++ [addr] ∧ t.grid.lossesDeclared = satAdd 32 s.grid.lossesDeclared 1)

/-- Every step, of a command or of time, keeps memories canonical, STRICT_LOCK above STRICT, and ALERT_N in line with
ALERT. -/
def Obligations.StepKeepsSound : Prop :=
  ∀ s t : State, Sound s → step s = .next t → Sound t

/-- The state after a power-on reset: it is sound, no course is resident, every domain but AON is OFF, and settings are
at their defaults (R44, R311, R435, R456, R481, R550, R563; that an unlisted byte reads zero is assumption 5's). -/
def Obligations.PowerOnResetState : Prop :=
  let s := State.reset
  Sound s ∧ s.pending = [] ∧ (∀ k, (s.slot k).st = .empty) ∧ (∀ d < 36, (s.domain d).st = 2)
    ∧ (∀ d < 36, (s.domain d).req = if d < 34 then 0 else 2) ∧ s.det.strict = false ∧ s.det.strictLock = false
    ∧ s.dict.debugEnable = false ∧ s.dict.debugLock = false ∧ s.dict.lastReset = 0 ∧ s.dict.resets = 0 ∧ s.start.st = 0
    ∧ s.link.st = 0 ∧ s.rinkRun = false ∧ s.rink = 0 ∧ s.grid.activeRows = 0 ∧ s.grid.deviceLost = 0
    ∧ (∀ a, s.mem.hbm.read a = 0) ∧ s.thermal.state = 0 ∧ s.irq.alert = false ∧ s.pins.thermN = true
    ∧ (∀ n, (s.source n).pending = false ∧ (s.source n).active = false) ∧ s.log.count = 0

/-- R62: LOOP on a counter that is not zero, and ENDL on one that is, raise LOOP_FAULT; a bundle's CT operation names
one of four counters. -/
def Obligations.LoopFaults : Prop :=
  ∀ (s : State) (n : Nat) (arg : BitVec 12), Issues s n .ct →
    let k := s.core n
    let faults := fun (u : Bool) => Host.Outcome.next (φ := Fault) (ρ := Refusal) (s.setCore n ((k.trapped .ct 0x07).struck u))
    let c := arg.toNat / 1024
    c < 4 ∧ (∀ u, (k.rl c).count ≠ 0 → carries s (.loop n arg u) = true → exec (.loop n arg u) s = faults u)
    ∧ (∀ u, (k.rl c).count = 0 → arg.toNat % 1024 = 0 → carries s (.endl n arg u) = true → exec (.endl n arg u) s = faults u)

/-- R488: EOI is accepted only for the source on top of its target's stack, which it pops. -/
def Obligations.EoiEndsTopSource : Prop :=
  ∀ (s : State) (v : Path) (t : Nat) (x : BitVec 16), t < 3 → s.accepts v (0x2410 + t) 2 (leBytes 2 x.toNat) = true →
    (∀ run rest, (s.target t).stack = (run, x.toNat % 1024) :: rest → ∃ u, exec (.eoi v t x) s = .next u
      ∧ u.dict.answer = some ⟨0, []⟩ ∧ (u.target t).stack = rest ∧ (u.target t).run = run
      ∧ (u.source (x.toNat % 1024)).active = false)
    ∧ (((s.target t).stack = [] ∨ ∃ run n rest, (s.target t).stack = (run, n) :: rest ∧ n ≠ x.toNat % 1024) →
      exec (.eoi v t x) s = .next (s.answered 0x15 []))

/-- R501: the bin of an observed value, and what its observation adds. -/
def Obligations.LogbookBins : Prop :=
  ∀ (v : Int),
    (v ≤ 0 → State.logBin v = 0) ∧ (0 < v → State.logBin v = min 15 (Nat.log2 v.toNat + 1))
    ∧ (∀ k : Nat, 1 ≤ k → k ≤ 14 → (State.logBin v = k ↔ 2 ^ (k - 1) ≤ v ∧ v ≤ 2 ^ k - 1))
    ∧ (State.logBin v = 15 ↔ 2 ^ 14 ≤ v)
    ∧ (∀ (s : State) (m : Nat), s.log.current ≠ none → ∀ b,
      Table.get 0 b (Table.get Metric.zero m (s.observe m v).log.metrics).bins =
        (if b = State.logBin v then satAdd 32 (Table.get 0 b (Table.get Metric.zero m s.log.metrics).bins) 1
         else Table.get 0 b (Table.get Metric.zero m s.log.metrics).bins))

/-- R564: before binding is done IMAGE_LOAD and UNSEAL, in every form, are refused with NOT_BOUND, and nothing else
happens. -/
def Obligations.NotBoundRefusal : Prop :=
  ∀ (s : State) (p : Nat) (q : Pkt), PacketReady s p q → s.link.st ≤ 1 →
    let refused := Host.Outcome.next (φ := Fault) (ρ := Refusal) ((s.startPacket p).respond p (q.answer 0x1D))
    (q.opcode = 0x10 → (q.abandon = false → q.last = false → exec (.imageLoad p) s = refused)
      ∧ (q.abandon = false → q.last = true → exec (.imageLoadFinal p) s = refused)
      ∧ (q.abandon = true → exec (.imageLoadAbandon p) s = refused))
    ∧ (q.opcode = 0x33 → (q.abandon = false → q.last = false → exec (.unseal p) s = refused)
      ∧ (q.abandon = false → q.last = true → exec (.unsealLast p) s = refused)
      ∧ (q.abandon = true → exec (.unsealAbandon p) s = refused))

/-- R114: narrowing to BIN1 to nearest or toward zero; and, of R118, the stochastic form's bit for a finite value. -/
def Obligations.BinaryNarrowing : Prop :=
  (∀ r : Rnd, r = .rne ∨ r = .rtz →
    narrow 12 r .nan = (1, flagInvalid) ∧ narrow 12 r (.inf true) = (0, 0) ∧ narrow 12 r (.inf false) = (1, 0)
    ∧ (∀ neg m e, narrow 12 r (.fin neg m e) = (if neg = true ∧ m ≠ 0 then 0 else 1, 0)))
  ∧ (∀ (neg : Bool) (m : Nat) (e : Int) (u : Nat), u < 65536 →
    let x : ℚ := (if neg then -1 else 1) * m * (2 : ℚ) ^ e
    let t := min ⌊(max (-1) (min 1 x) + 1) / 2 * 65536⌋ 65536
    narrow 12 (.sr 16 u) (.fin neg m e) = (if (u : Int) < t then 1 else 0, 0))
end

