-- ==== Sys2Proof/Laws/Access.lean ====
section
/-! SUPPORT. Accesses to the object dictionary that pass the checks of R451 before the object's own. -/
namespace Sys2Proof.Machine
open State

/-- A write that passes the checks before the object's own is the object's own write, with its answer (R451). -/
theorem State.accessWrite_of_accepts {s : State} {v i sub b} (h : s.accepts v i sub b = true) :
   s.accessWrite v i sub b = (let r := s.writeOwn v i sub b none; { r.2 with dict := { r.2.dict with answer := r.1.map (fun st => ⟨st, []⟩) } }) := by
  unfold State.accepts at h
  unfold State.accessWrite State.writeObject
  split at h
  · simp at h
  · rename_i o ho
    simp only [Bool.and_eq_true, Bool.or_eq_true, Bool.not_eq_true', bne_iff_ne, Option.isNone_iff_eq_none] at h
    obtain ⟨⟨⟨⟨⟨⟨h1, h2⟩, h3⟩, h4⟩, h5⟩, h6⟩, h7⟩ := h
    have e : (i == 0x5005 && !s.secureOn v) = false := by
      rcases h2 with h2 | h2 <;> simp [h2]
    simp only [ho, h1, e, h3, h4, h5, h6, h7]
    rfl

/-- A read that passes the checks before the object's own is the object's own read, with its answer (R451). -/
theorem State.accessRead_of_readable {s : State} {v i sub} (h : s.readable v i sub = true) :
   s.accessRead v i sub = (let r := s.readOwn v i sub; { r.2.2 with dict := { r.2.2.dict with answer := some ⟨r.1, r.2.1⟩ } }) := by
  unfold State.readable at h
  unfold State.accessRead State.readObject
  split at h
  · simp at h
  · rename_i o ho
    simp only [Bool.and_eq_true, Bool.not_eq_true', bne_iff_ne] at h
    obtain ⟨⟨h1, h2⟩, h3⟩ := h
    have e : (o.acc == .wo) = false := by simpa using h2
    simp only [ho, h1, e, h3]
    rfl

end Sys2Proof.Machine
end

