-- ==== Sys2Proof/Laws/Table.lean ====
section
/-! SUPPORT. What the operations of a table do: read after write, the keys in order, the entries left. -/
namespace Sys2Proof
namespace Table
variable {α : Type}

@[simp] theorem get_put_self (d : α) (k : Nat) (v : α) (t : Table α) : get d k (put k v t) = v := by
  induction t with
  | nil => simp [put, get]
  | cons c t ih =>
    obtain ⟨k', w⟩ := c
    simp only [put]
    split
    · simp [get]
    · split
      · simp [get]
      · simp_all [get]

@[simp] theorem get_put_ne (d : α) {k j : Nat} (h : j ≠ k) (v : α) (t : Table α) : get d j (put k v t) = get d j t := by
  have h' : ¬ k = j := fun e => h e.symm
  induction t with
  | nil => simp [put, get, h']
  | cons c t ih =>
    obtain ⟨k', w⟩ := c
    simp only [put]
    split
    · simp_all [get]
    · split <;> simp_all [get]

@[simp] theorem has_put_self (k : Nat) (v : α) (t : Table α) : has k (put k v t) = true := by
  induction t with
  | nil => simp [put, has]
  | cons c t ih =>
    obtain ⟨k', w⟩ := c
    simp only [put]
    split
    · simp [has]
    · split <;> simp_all [has]

@[simp] theorem get_erase_self (d : α) (k : Nat) (t : Table α) : get d k (erase k t) = d := by
  induction t with
  | nil => simp [erase, get]
  | cons c t ih =>
    obtain ⟨k', w⟩ := c
    simp only [erase]
    split <;> simp_all [get]

@[simp] theorem get_erase_ne (d : α) {k j : Nat} (h : j ≠ k) (t : Table α) : get d j (erase k t) = get d j t := by
  have h' : ¬ k = j := fun e => h e.symm
  induction t with
  | nil => simp [erase]
  | cons c t ih =>
    obtain ⟨k', w⟩ := c
    simp only [erase]
    split <;> simp_all [get]

theorem get_mapVals (d : α) (f : Nat → α → α) (k : Nat) (t : Table α) (h : f k d = d) :
    get d k (mapVals f t) = f k (get d k t) := by
  induction t with
  | nil => simp [mapVals, get, h]
  | cons c t ih =>
    obtain ⟨k', w⟩ := c
    simp only [mapVals, get]
    split
    · subst k'; rfl
    · exact ih

/-- A value read is the default or stands in the table. -/
theorem get_or (d : α) (k : Nat) (t : Table α) : get d k t = d ∨ (k, get d k t) ∈ t := by
  induction t with
  | nil => exact .inl rfl
  | cons c t ih =>
    obtain ⟨k', w⟩ := c
    simp only [get]
    split
    · subst k'; exact .inr (List.mem_cons_self ..)
    · exact ih.imp id (List.mem_cons_of_mem _)

theorem mem_put {k : Nat} {v : α} {t : Table α} {c : Nat × α} (h : c ∈ put k v t) : c = (k, v) ∨ c ∈ t := by
  induction t with
  | nil => simp only [put, List.mem_singleton] at h; exact .inl h
  | cons x t ih =>
    obtain ⟨k', w⟩ := x
    simp only [put] at h
    split at h
    · exact (List.mem_cons.mp h).imp id (List.mem_cons_of_mem _)
    · split at h
      · exact List.mem_cons.mp h
      · rcases List.mem_cons.mp h with rfl | h
        · exact .inr (List.mem_cons_self ..)
        · exact (ih h).imp id (List.mem_cons_of_mem _)

theorem mem_erase {k : Nat} {t : Table α} {c : Nat × α} (h : c ∈ erase k t) : c ∈ t := by
  induction t with
  | nil => simp [erase] at h
  | cons x t ih =>
    obtain ⟨k', w⟩ := x
    simp only [erase] at h
    split at h
    · exact List.mem_cons_of_mem _ (ih h)
    · rcases List.mem_cons.mp h with rfl | h
      · exact List.mem_cons_self ..
      · exact List.mem_cons_of_mem _ (ih h)

theorem mem_mapVals {f : Nat → α → α} {t : Table α} {c : Nat × α} (h : c ∈ mapVals f t) :
    ∃ v, (c.1, v) ∈ t ∧ c.2 = f c.1 v := by
  induction t with
  | nil => simp [mapVals] at h
  | cons x t ih =>
    obtain ⟨k', w⟩ := x
    rcases List.mem_cons.mp h with rfl | h
    · exact ⟨w, List.mem_cons_self .., rfl⟩
    · obtain ⟨v, hv, e⟩ := ih h
      exact ⟨v, List.mem_cons_of_mem _ hv, e⟩

/-- Keys strictly rising, as a relation between any two entries. -/
theorem sorted_iff (t : Table α) : sorted t = true ↔ t.Pairwise (fun a b => a.1 < b.1) := by
  induction t with
  | nil => simp [sorted]
  | cons x t ih =>
    cases t with
    | nil => simp [sorted]
    | cons y t =>
      simp only [sorted, Bool.and_eq_true, decide_eq_true_eq, ih, List.pairwise_cons (a := x)]
      refine ⟨fun ⟨h, p⟩ => ⟨?_, p⟩, fun ⟨h, p⟩ => ⟨h y (List.mem_cons_self ..), p⟩⟩
      intro z hz
      rcases List.mem_cons.mp hz with rfl | hz
      · exact h
      · exact Nat.lt_trans h ((List.pairwise_cons.mp p).1 z hz)

theorem sorted_put {t : Table α} (k : Nat) (v : α) (h : sorted t = true) : sorted (put k v t) = true := by
  rw [sorted_iff] at h ⊢
  induction t with
  | nil => simp [put]
  | cons x t ih =>
    obtain ⟨k', w⟩ := x
    obtain ⟨hx, ht⟩ := List.pairwise_cons.mp h
    simp only [put]
    split
    · subst k'; exact List.pairwise_cons.mpr ⟨hx, ht⟩
    · split
      · rename_i lt
        exact List.pairwise_cons.mpr ⟨fun z hz => by
          rcases List.mem_cons.mp hz with rfl | hz
          · exact lt
          · exact Nat.lt_trans lt (hx z hz), h⟩
      · exact List.pairwise_cons.mpr ⟨fun z hz => by
          rcases mem_put hz with rfl | hz
          · show k' < k; omega
          · exact hx z hz, ih ht⟩

theorem sorted_erase {t : Table α} (k : Nat) (h : sorted t = true) : sorted (erase k t) = true := by
  rw [sorted_iff] at h ⊢
  induction t with
  | nil => simp [erase]
  | cons x t ih =>
    obtain ⟨hx, ht⟩ := List.pairwise_cons.mp h
    simp only [erase]
    split
    · exact ih ht
    · exact List.pairwise_cons.mpr ⟨fun z hz => hx z (mem_erase hz), ih ht⟩

theorem sorted_filter {t : Table α} (p : Nat × α → Bool) (h : sorted t = true) : sorted (t.filter p) = true := by
  rw [sorted_iff] at h ⊢; exact h.filter p

theorem sorted_mapVals {t : Table α} (f : Nat → α → α) (h : sorted t = true) : sorted (mapVals f t) = true := by
  rw [sorted_iff] at h ⊢
  induction t with
  | nil => simp [mapVals]
  | cons x t ih =>
    obtain ⟨hx, ht⟩ := List.pairwise_cons.mp h
    exact List.pairwise_cons.mpr ⟨fun z hz => by
      obtain ⟨v, hv, -⟩ := mem_mapVals hz
      exact hx (_, v) hv, ih ht⟩

/-- The entries given lie at keys a to below a + n. -/
def Within (a n : Nat) (t : Table α) : Prop := ∀ c ∈ t, a ≤ c.1 ∧ c.1 < a + n

theorem sorted_overlay {t new : Table α} {a n : Nat} (h : sorted t = true) (hn : sorted new = true) (hw : Within a n new) :
    sorted (overlay t a n new) = true := by
  rw [sorted_iff] at *
  simp only [overlay, List.pairwise_append, List.mem_append, List.mem_filter, decide_eq_true_eq]
  refine ⟨⟨h.filter _, hn, fun x hx y hy => ?_⟩, h.filter _, fun x hx y hy => ?_⟩
  · have := (hw y hy).1; omega
  · rcases hx with hx | hx
    · omega
    · have := (hw x hx).2; omega

theorem mem_overlay {t new : Table α} {a n : Nat} {c : Nat × α} (h : c ∈ overlay t a n new) : c ∈ t ∨ c ∈ new := by
  simp only [overlay, List.mem_append, List.mem_filter] at h
  rcases h with (h | h) | h
  · exact .inl h.1
  · exact .inr h
  · exact .inl h.1

theorem get_append (d : α) (k : Nat) (t u : Table α) :
    get d k (t ++ u) = if has k t then get d k t else get d k u := by
  induction t with
  | nil => simp [has]
  | cons x t ih =>
    obtain ⟨k', w⟩ := x
    simp only [List.cons_append, get, has]
    split <;> simp_all

theorem get_filter (d : α) (k : Nat) (p : Nat → Bool) (t : Table α) :
    get d k (t.filter (fun c => p c.1)) = if p k then get d k t else d := by
  induction t with
  | nil => simp [get]
  | cons x t ih =>
    obtain ⟨k', w⟩ := x
    by_cases hk : k' = k
    · subst hk; by_cases hp : p k' = true <;> simp_all [get]
    · by_cases hp : p k' = true <;> simp_all [get]

theorem has_filter (k : Nat) (p : Nat → Bool) (t : Table α) :
    has k (t.filter (fun c => p c.1)) = (p k && has k t) := by
  induction t with
  | nil => simp [has]
  | cons x t ih =>
    obtain ⟨k', w⟩ := x
    by_cases hk : k' = k
    · subst hk; by_cases hp : p k' = true <;> simp_all [has]
    · by_cases hp : p k' = true <;> simp_all [has]

theorem has_false_of {k : Nat} {t : Table α} (h : ∀ c ∈ t, c.1 ≠ k) : has k t = false := by
  induction t with
  | nil => rfl
  | cons x t ih =>
    simp only [has, h x (List.mem_cons_self ..), if_false]
    exact ih fun c hc => h c (List.mem_cons_of_mem _ hc)

theorem get_of_not_has (d : α) {k : Nat} {t : Table α} (h : has k t = false) : get d k t = d := by
  induction t with
  | nil => rfl
  | cons x t ih =>
    simp only [has] at h
    split at h
    · simp at h
    · simp_all [get]

/-- An overlay changes nothing outside its keys. -/
theorem get_overlay_out (d : α) {t new : Table α} {a n k : Nat} (hw : Within a n new) (hk : k < a ∨ a + n ≤ k) :
    get d k (overlay t a n new) = get d k t := by
  have hnew : has k new = false := has_false_of fun c hc e => by have := hw c hc; omega
  simp only [overlay, get_append, get_filter d k (fun i => decide (i < a)), get_filter d k (fun i => decide (a + n ≤ i)),
    List.append_assoc, hnew, has_filter k (fun i => decide (i < a))]
  rcases hk with hk | hk
  · have : ¬ a + n ≤ k := by omega
    by_cases hh : has k t = true
    · simp [hk, hh]
    · simp [hk, hh, this, get_of_not_has d (by simpa using hh)]
  · have : ¬ k < a := by omega
    simp [this, hk]

/-- Inside its keys an overlay holds the entries given. -/
theorem get_overlay_in (d : α) {t new : Table α} {a n k : Nat} (h1 : a ≤ k) (h2 : k < a + n) :
    get d k (overlay t a n new) = get d k new := by
  have e1 : ¬ k < a := by omega
  have e2 : ¬ a + n ≤ k := by omega
  simp only [overlay, List.append_assoc, get_append, has_filter k (fun i => decide (i < a)),
    get_filter d k (fun i => decide (a + n ≤ i))]
  by_cases hh : has k new = true
  · simp [e1, hh]
  · simp [e1, e2, hh, get_of_not_has d (by simpa using hh)]

end Table
end Sys2Proof
end

