-- ==== Sys2Proof/Laws/Memory.lean ====
section
/-! SUPPORT. Memory: every operation keeps the canonical form, a read after a write answers the value written, and a write
leaves every other address alone. -/
namespace Sys2Proof
namespace Memory

theorem wf_iff (m : Memory) : m.wf = true ↔ Table.sorted m = true ∧ ∀ c ∈ m, c.2 ≠ unlisted := by
  simp [wf]

theorem wf_nil : wf [] = true := rfl

theorem wf_write {m : Memory} (a : Nat) (b : Byte) (h : m.wf = true) : (m.write a b).wf = true := by
  rw [wf_iff] at h ⊢
  simp only [write]
  split
  · exact ⟨Table.sorted_erase a h.1, fun c hc => h.2 c (Table.mem_erase hc)⟩
  · rename_i hb
    refine ⟨Table.sorted_put a b h.1, fun c hc => ?_⟩
    rcases Table.mem_put hc with rfl | hc
    · exact hb
    · exact h.2 c hc

@[simp] theorem read_write_self (m : Memory) (a : Nat) (b : Byte) : (m.write a b).read a = b := by
  simp only [read, write]
  split
  · simp_all
  · simp

@[simp] theorem read_write_ne (m : Memory) {a i : Nat} (h : i ≠ a) (b : Byte) : (m.write a b).read i = m.read i := by
  simp only [read, write]
  split <;> simp [h]

theorem wf_filter {m : Memory} (p : Host.Cell → Bool) (h : m.wf = true) : wf (m.filter p) = true := by
  rw [wf_iff] at h ⊢
  exact ⟨Table.sorted_filter p h.1, fun c hc => h.2 c (List.mem_filter.mp hc).1⟩

theorem wf_clearRange {m : Memory} (lo hi : Nat) (h : m.wf = true) : (m.clearRange lo hi).wf = true := wf_filter _ h

theorem read_clearRange (m : Memory) (lo hi i : Nat) :
    (m.clearRange lo hi).read i = if lo ≤ i ∧ i < hi then 0 else m.read i := by
  simp only [read, clearRange]
  rw [Table.get_filter unlisted i (fun k => decide (k < lo) || decide (hi ≤ k))]
  by_cases h1 : lo ≤ i <;> by_cases h2 : i < hi <;> simp [h1, h2, unlisted] <;> omega

theorem ofBytes_within (a : Nat) (bs : List Byte) : Table.Within a bs.length (ofBytes a bs) := by
  induction bs generalizing a with
  | nil => intro c hc; simp [ofBytes] at hc
  | cons b bs ih =>
    intro c hc
    simp only [ofBytes] at hc
    split at hc
    · have := ih (a + 1) c hc; simp only [List.length_cons]; omega
    · rcases List.mem_cons.mp hc with rfl | hc
      · simp
      · have := ih (a + 1) c hc; simp only [List.length_cons]; omega

theorem wf_ofBytes (a : Nat) (bs : List Byte) : (ofBytes a bs).wf = true := by
  induction bs generalizing a with
  | nil => rfl
  | cons b bs ih =>
    simp only [ofBytes]
    split
    · exact ih (a + 1)
    · rename_i hb
      have h := (wf_iff _).mp (ih (a + 1))
      rw [wf_iff, Table.sorted_iff]
      refine ⟨List.pairwise_cons.mpr ⟨fun c hc => ?_, (Table.sorted_iff _).mp h.1⟩, fun c hc => ?_⟩
      · have := (ofBytes_within (a + 1) bs c hc).1
        show a < c.1
        omega
      · rcases List.mem_cons.mp hc with rfl | hc
        · exact hb
        · exact h.2 c hc

theorem read_ofBytes (a : Nat) (bs : List Byte) (i : Nat) (h : i < bs.length) : read (ofBytes a bs) (a + i) = bs[i] := by
  induction bs generalizing a i with
  | nil => simp at h
  | cons b bs ih =>
    cases i with
    | zero =>
      simp only [ofBytes]
      split
      · rename_i hb
        rw [read, Table.get_of_not_has _ (Table.has_false_of fun c hc e => ?_)]
        · simp [hb]
        · have := (ofBytes_within (a + 1) bs c hc).1; omega
      · simp [read, Table.get]
    | succ i =>
      have e : a + (i + 1) = (a + 1) + i := by omega
      have := ih (a + 1) i (by simpa using h)
      simp only [ofBytes, List.getElem_cons_succ]
      split
      · rw [e]; exact this
      · have hne : ¬ a = a + 1 + i := by omega
        rw [e]; simp only [read, Table.get, hne, if_false]; exact this

theorem wf_overlay {m new : Memory} {a n : Nat} (h : m.wf = true) (hn : new.wf = true) (hw : Table.Within a n new) :
    wf (Table.overlay m a n new) = true := by
  rw [wf_iff] at h hn ⊢
  refine ⟨Table.sorted_overlay h.1 hn.1 hw, fun c hc => ?_⟩
  rcases Table.mem_overlay hc with hc | hc
  · exact h.2 c hc
  · exact hn.2 c hc

theorem wf_patch {m : Memory} (a : Nat) (bs : List Byte) (h : m.wf = true) : (m.patch a bs).wf = true :=
  wf_overlay h (wf_ofBytes a bs) (ofBytes_within a bs)

theorem read_patch_out (m : Memory) (a : Nat) (bs : List Byte) {i : Nat} (h : i < a ∨ a + bs.length ≤ i) :
    (m.patch a bs).read i = m.read i :=
  Table.get_overlay_out _ (ofBytes_within a bs) h

theorem read_patch_in (m : Memory) (a : Nat) (bs : List Byte) (i : Nat) (h : i < bs.length) :
    (m.patch a bs).read (a + i) = bs[i] := by
  rw [read, patch, Table.get_overlay_in _ (by omega) (by omega)]
  exact read_ofBytes a bs i h

theorem spread_length (m : Memory) (a n : Nat) : (spread m a n).length = n := by
  induction n generalizing m a with
  | zero => cases m <;> rfl
  | succ n ih =>
    cases m with
    | nil => simp [spread, ih]
    | cons c t => obtain ⟨k, v⟩ := c; simp only [spread]; split <;> simp [ih]

@[simp] theorem readBytes_length (m : Memory) (a n : Nat) : (m.readBytes a n).length = n := spread_length _ _ _

theorem wf_writeMasked {m : Memory} (a : Nat) (l : List (Bool × Byte)) (h : m.wf = true) : (m.writeMasked a l).wf = true :=
  wf_patch _ _ h

theorem read_writeMasked_out (m : Memory) (a : Nat) (l : List (Bool × Byte)) {i : Nat} (h : i < a ∨ a + l.length ≤ i) :
    (m.writeMasked a l).read i = m.read i :=
  read_patch_out _ _ _ (by simpa using h)

theorem shifted_within (m : Memory) (src dst n : Nat) : Table.Within dst n (m.shifted src dst n) := by
  intro c hc
  simp only [shifted, List.mem_map, List.mem_filter, Bool.and_eq_true, decide_eq_true_eq] at hc
  obtain ⟨x, hx, rfl⟩ := hc
  show dst ≤ x.1 - src + dst ∧ x.1 - src + dst < dst + n
  omega

theorem wf_shifted {m : Memory} (src dst n : Nat) (h : m.wf = true) : (m.shifted src dst n).wf = true := by
  rw [wf_iff, Table.sorted_iff] at h ⊢
  refine ⟨?_, fun c hc => ?_⟩
  · rw [shifted, List.pairwise_map]
    refine (h.1.filter _).imp_of_mem fun {x y} hx hy hxy => ?_
    simp only [List.mem_filter, Bool.and_eq_true, decide_eq_true_eq] at hx hy
    show x.1 - src + dst < y.1 - src + dst
    omega
  · simp only [shifted, List.mem_map, List.mem_filter] at hc
    obtain ⟨x, hx, rfl⟩ := hc
    exact h.2 x hx.1

end Memory
end Sys2Proof
end

