-- ==== Sys2Proof/Laws/Core.lean ====
section
/-! SUPPORT. What a core's operations may change: an operation of a bundle only issues (registers, SRAM, tiles and flags
change later, when what it left in flight comes due), and nothing takes a core's memories out of their canonical form. -/
namespace Sys2Proof.Machine
namespace Core

/-- k' is k but for what an issue touches: what is in flight, the slots taken, the intervals and the trap of the cycle. -/
def OnlyIssues (k k' : Core) : Prop :=
  ∃ (fl : List Micro) (mm : List MmaOp) (hd : List TileHold) (mx sx mv : Nat) (is : List OpSlot) (tr : Option Nat),
    k' = { k with inflight := fl, mmas := mm, held := hd, mxFree := mx, sxFree := sx, mvFree := mv, issued := is, trapNow := tr }

theorem OnlyIssues.mk {k : Core} {fl mm hd mx sx mv is tr} {k' : Core}
    (h : k' = { k with inflight := fl, mmas := mm, held := hd, mxFree := mx, sxFree := sx, mvFree := mv, issued := is,
                       trapNow := tr }) : OnlyIssues k k' := ⟨fl, mm, hd, mx, sx, mv, is, tr, h⟩

theorem OnlyIssues.refl (k : Core) : OnlyIssues k k := .mk rfl

theorem OnlyIssues.trans {a b c : Core} (h : OnlyIssues a b) (h' : OnlyIssues b c) : OnlyIssues a c := by
  obtain ⟨_, _, _, _, _, _, _, _, rfl⟩ := h
  obtain ⟨_, _, _, _, _, _, _, _, rfl⟩ := h'
  exact .mk rfl

theorem OnlyIssues.ite {c : Prop} [Decidable c] {k a b : Core} (ha : OnlyIssues k a) (hb : OnlyIssues k b) :
    OnlyIssues k (if c then a else b) := by
  split
  · exact ha
  · exact hb

theorem onlyIssues_issue {k : Core} {x : LapCtx} {sl : OpSlot} {f : Core → Core} (hf : ∀ k, OnlyIssues k (f k)) :
    OnlyIssues k (issue k x sl f) := by
  unfold issue
  split
  · exact (OnlyIssues.mk rfl).trans (hf _)
  · exact .refl k

theorem onlyIssues_trap (k : Core) (code : Nat) : OnlyIssues k (trap k code) := by
  unfold trap
  repeat' first
    | split
    | dsimp only
    | exact .mk rfl

theorem onlyIssues_push (k : Core) (x : LapCtx) (sl : OpSlot) (d : Nat) (act : CoreAct) : OnlyIssues k (push k x sl d act) := by
  unfold push
  repeat' first
    | split
    | dsimp only
    | exact .mk rfl

theorem onlyIssues_pushFlags (k : Core) (x : LapCtx) (sl : OpSlot) (d : Nat) (f : BitVec 16) : OnlyIssues k (pushFlags k x sl d f) := by
  unfold pushFlags
  repeat' first
    | split
    | exact onlyIssues_push ..
    | dsimp only
    | exact .mk rfl

theorem onlyIssues_writeV (k : Core) (x : LapCtx) (sl : OpSlot) (lat : Nat) (r : Nat) (mask : Lanes) (val : Lanes) (f : BitVec 16) : OnlyIssues k (writeV k x sl lat r mask val f) := by
  unfold writeV
  repeat' first
    | split
    | exact onlyIssues_trap ..
    | exact onlyIssues_pushFlags ..

theorem onlyIssues_writeS (k : Core) (x : LapCtx) (sl : OpSlot) (lat : Nat) (r : Nat) (val : BitVec 32) (f : BitVec 16) : OnlyIssues k (writeS k x sl lat r val f) := by
  unfold writeS
  repeat' first
    | split
    | exact onlyIssues_trap ..
    | exact onlyIssues_pushFlags ..

theorem onlyIssues_writeA (k : Core) (x : LapCtx) (sl : OpSlot) (lat : Nat) (r : Nat) (val : BitVec 24) : OnlyIssues k (writeA k x sl lat r val) := by
  unfold writeA
  repeat' first
    | split
    | exact onlyIssues_trap ..
    | exact onlyIssues_push ..

theorem onlyIssues_vxLanes (k : Core) (x : LapCtx) (f : VxFields) (lat : Nat) (g : Core → Nat → BitVec 32 × BitVec 16) : OnlyIssues k (vxLanes k x f lat g) := by
  unfold vxLanes
  repeat' first
    | refine onlyIssues_issue (fun k => ?_)
    | exact onlyIssues_writeV ..

theorem onlyIssues_vx2 (k : Core) (x : LapCtx) (f : VxFields) (lat : Nat) (g : BitVec 32 → BitVec 32 → BitVec 32 × BitVec 16) : OnlyIssues k (vx2 k x f lat g) := by
  unfold vx2
  repeat' first
    | split
    | exact onlyIssues_vxLanes ..

theorem onlyIssues_vx1 (k : Core) (x : LapCtx) (f : VxFields) (lat : Nat) (g : BitVec 32 → BitVec 32 × BitVec 16) : OnlyIssues k (vx1 k x f lat g) := by
  unfold vx1
  repeat' first
    | split
    | exact onlyIssues_vxLanes ..

theorem onlyIssues_vxCompare (k : Core) (x : LapCtx) (f : VxFields) (lat : Nat) (g : BitVec 32 → BitVec 32 → Bool) : OnlyIssues k (vxCompare k x f lat g) := by
  unfold vxCompare
  repeat' first
    | refine onlyIssues_issue (fun k => ?_)
    | split
    | exact onlyIssues_trap ..
    | exact onlyIssues_writeS ..

theorem onlyIssues_vxSel (k : Core) (x : LapCtx) (f : VxFields) : OnlyIssues k (vxSel k x f) := by
  unfold vxSel
  repeat' first
    | refine onlyIssues_issue (fun k => ?_)
    | split
    | exact onlyIssues_trap ..
    | exact onlyIssues_writeV ..

theorem onlyIssues_vxNarrow (k : Core) (x : LapCtx) (f : VxFields) (rnd : Core → Nat → Rnd) : OnlyIssues k (vxNarrow k x f rnd) := by
  unfold vxNarrow
  repeat' first
    | refine onlyIssues_issue (fun k => ?_)
    | exact onlyIssues_trap ..
    | exact onlyIssues_writeV ..
    | split
    | dsimp only

theorem onlyIssues_vxWiden (k : Core) (x : LapCtx) (f : VxFields) : OnlyIssues k (vxWiden k x f) := by
  unfold vxWiden
  repeat' first
    | refine onlyIssues_issue (fun k => ?_)
    | split
    | exact onlyIssues_trap ..
    | exact onlyIssues_writeV ..
    | dsimp only

theorem onlyIssues_vxScale (k : Core) (x : LapCtx) (f : VxFields) : OnlyIssues k (vxScale k x f) := by
  unfold vxScale
  repeat' first
    | refine onlyIssues_issue (fun k => ?_)
    | exact onlyIssues_trap ..
    | exact onlyIssues_writeV ..
    | split
    | dsimp only

theorem onlyIssues_vxShuf (k : Core) (x : LapCtx) (f : VxFields) : OnlyIssues k (vxShuf k x f) := by
  unfold vxShuf
  repeat' first
    | split
    | exact onlyIssues_vxLanes ..

theorem onlyIssues_vxBcast (k : Core) (x : LapCtx) (f : VxFields) : OnlyIssues k (vxBcast k x f) := by
  unfold vxBcast
  repeat' first
    | refine onlyIssues_issue (fun k => ?_)
    | split
    | exact onlyIssues_trap ..
    | exact onlyIssues_writeV ..

theorem onlyIssues_vxPick (k : Core) (x : LapCtx) (f : VxFields) (pick : Scored → Scored → Scored) : OnlyIssues k (vxPick k x f pick) := by
  unfold vxPick
  repeat' first
    | refine onlyIssues_issue (fun k => ?_)
    | split
    | exact onlyIssues_writeV ..

theorem onlyIssues_vxSum (k : Core) (x : LapCtx) (f : VxFields) : OnlyIssues k (vxSum k x f) := by
  unfold vxSum
  repeat' first
    | refine onlyIssues_issue (fun k => ?_)
    | exact onlyIssues_writeV ..

theorem onlyIssues_vxLp (k : Core) (x : LapCtx) (f : VxFields) (lat : Nat) (g : Nat → Nat → Nat × BitVec 16) : OnlyIssues k (vxLp k x f lat g) := by
  unfold vxLp
  repeat' first
    | split
    | exact onlyIssues_vxLanes ..

theorem onlyIssues_sxIssue {k : Core} {x : LapCtx} {interval : Nat} {bad : Bool} {f : Core → Core} (hf : ∀ k, OnlyIssues k (f k)) : OnlyIssues k (sxIssue k x interval bad f) := by
  unfold sxIssue
  repeat' first
    | exact hf _
    | refine onlyIssues_issue (fun k => ?_)
    | split
    | exact (OnlyIssues.mk rfl).trans (hf _)
    | exact onlyIssues_trap ..

theorem onlyIssues_sxRaw (k : Core) (x : LapCtx) (f : SxFields) (key : Core.StreamKey) : OnlyIssues k (sxRaw k x f key) := by
  unfold sxRaw
  repeat' first
    | refine onlyIssues_sxIssue (fun k => ?_)
    | split
    | exact onlyIssues_trap ..
    | dsimp only
    | exact .mk rfl

theorem onlyIssues_sxNorm32 (k : Core) (x : LapCtx) (f : SxFields) : OnlyIssues k (sxNorm32 k x f) := by
  unfold sxNorm32
  repeat' first
    | refine onlyIssues_sxIssue (fun k => ?_)
    | split
    | exact onlyIssues_writeV ..

theorem onlyIssues_sxNorm16 (k : Core) (x : LapCtx) (f : SxFields) : OnlyIssues k (sxNorm16 k x f) := by
  unfold sxNorm16
  repeat' first
    | refine onlyIssues_sxIssue (fun k => ?_)
    | split
    | exact onlyIssues_writeV ..

theorem onlyIssues_sxGumb (k : Core) (x : LapCtx) (f : SxFields) : OnlyIssues k (sxGumb k x f) := by
  unfold sxGumb
  repeat' first
    | refine onlyIssues_sxIssue (fun k => ?_)
    | split
    | exact onlyIssues_writeV ..

theorem onlyIssues_sxBern (k : Core) (x : LapCtx) (f : SxFields) (lat : Nat) (t : Nat → Nat × BitVec 16) : OnlyIssues k (sxBern k x f lat t) := by
  unfold sxBern
  repeat' first
    | refine onlyIssues_sxIssue (fun k => ?_)
    | split
    | exact onlyIssues_writeV ..

theorem onlyIssues_mxOp (k : Core) (x : LapCtx) (f : MxFields) (row : Core → Nat) : OnlyIssues k (mxOp k x f row) := by
  refine onlyIssues_issue fun k => ?_
  dsimp only
  repeat' first
    | split
    | exact .mk rfl
    | exact onlyIssues_trap ..

theorem onlyIssues_loadAt {k : Core} {x : LapCtx} {a n : Nat} {wr : Core → Nat → Core}
    (hw : ∀ k v, OnlyIssues k (wr k v)) : OnlyIssues k (loadAt k x a n wr) := by
  unfold loadAt
  repeat' first
    | split
    | exact onlyIssues_trap ..
    | exact (OnlyIssues.mk rfl).trans (hw _ _)

theorem onlyIssues_gatherReads (x : LapCtx) (f : MvG) (upset : BitVec 16) (adr : Nat → Nat) (n i : Nat) (k : Core) :
    OnlyIssues k (gatherReads x f upset adr n i k) := by
  induction n generalizing i k with
  | zero => exact .refl k
  | succ n ih =>
    refine .trans ?_ (ih _ _)
    split <;> exact .mk rfl

theorem onlyIssues_scatWrites (x : LapCtx) (f : MvG) (k0 : Core) (n i : Nat) (k : Core) :
    OnlyIssues k (scatWrites x f k0 n i k) := by
  induction n generalizing i k with
  | zero => exact .refl k
  | succ n ih => exact .trans (.mk rfl) (ih _ _)

theorem onlyIssues_ctOp {k : Core} {x : LapCtx} {bad : Bool} {f : Core → Core} (hf : ∀ k, OnlyIssues k (f k)) : OnlyIssues k (ctOp k x bad f) := by
  unfold ctOp
  repeat' first
    | exact hf _
    | refine onlyIssues_issue (fun k => ?_)
    | split
    | exact (OnlyIssues.mk rfl).trans (hf _)
    | exact onlyIssues_trap ..

theorem onlyIssues_ctLoopOp (k : Core) (x : LapCtx) (arg : BitVec 12) : OnlyIssues k (ctLoopOp k x arg) := by
  unfold ctLoopOp
  repeat' first
    | refine onlyIssues_ctOp (fun k => ?_)
    | split
    | exact onlyIssues_trap ..
    | exact onlyIssues_push ..
    | dsimp only

theorem onlyIssues_ctEndlOp (k : Core) (x : LapCtx) (arg : BitVec 12) : OnlyIssues k (ctEndlOp k x arg) := by
  unfold ctEndlOp
  repeat' first
    | refine onlyIssues_ctOp (fun k => ?_)
    | split
    | exact onlyIssues_trap ..
    | exact onlyIssues_push ..
    | dsimp only

theorem onlyIssues_ctWaitOp (k : Core) (x : LapCtx) (arg : BitVec 12) : OnlyIssues k (ctWaitOp k x arg) := by
  unfold ctWaitOp
  repeat' first
    | refine onlyIssues_ctOp (fun k => ?_)
    | split
    | exact onlyIssues_push ..

theorem onlyIssues_ctEndOp (k : Core) (x : LapCtx) (arg : BitVec 12) : OnlyIssues k (ctEndOp k x arg) := by
  unfold ctEndOp
  repeat' first
    | refine onlyIssues_ctOp (fun k => ?_)
    | split
    | exact onlyIssues_push ..

theorem onlyIssues_ctRead (k : Core) (x : LapCtx) (bad : Bool) (r : Nat) (val : Core → BitVec 32) : OnlyIssues k (ctRead k x bad r val) := by
  unfold ctRead
  repeat' first
    | refine onlyIssues_ctOp (fun k => ?_)
    | split
    | exact onlyIssues_writeS ..

theorem onlyIssues_mvIssue {k : Core} {x : LapCtx} {interval : Nat} {bad : Bool} {f : Core → Core} (hf : ∀ k, OnlyIssues k (f k)) : OnlyIssues k (mvIssue k x interval bad f) := by
  unfold mvIssue
  repeat' first
    | exact hf _
    | refine onlyIssues_issue (fun k => ?_)
    | split
    | exact (OnlyIssues.mk rfl).trans (hf _)
    | exact onlyIssues_trap ..

theorem onlyIssues_storeAt (k : Core) (x : LapCtx) (sl : OpSlot) (a : Nat) (n : Nat) (mask : Nat) (val : Nat) : OnlyIssues k (storeAt k x sl a n mask val) := by
  unfold storeAt
  repeat' first
    | split
    | exact onlyIssues_trap ..
    | exact onlyIssues_push ..

theorem onlyIssues_mvLdv (k : Core) (x : LapCtx) (f : MvM) : OnlyIssues k (mvLdv k x f) := by
  unfold mvLdv
  repeat' first
    | refine onlyIssues_mvIssue (fun k => ?_)
    | refine onlyIssues_loadAt (fun k v => ?_)
    | split
    | exact onlyIssues_push ..

theorem onlyIssues_mvStv (k : Core) (x : LapCtx) (f : MvM) : OnlyIssues k (mvStv k x f) := by
  unfold mvStv
  repeat' first
    | refine onlyIssues_mvIssue (fun k => ?_)
    | exact onlyIssues_storeAt ..

theorem onlyIssues_mvLds (k : Core) (x : LapCtx) (f : MvM) : OnlyIssues k (mvLds k x f) := by
  unfold mvLds
  repeat' first
    | refine onlyIssues_mvIssue (fun k => ?_)
    | refine onlyIssues_loadAt (fun k v => ?_)
    | split
    | exact onlyIssues_push ..
    | dsimp only
    | exact .mk rfl

theorem onlyIssues_mvSts (k : Core) (x : LapCtx) (f : MvM) : OnlyIssues k (mvSts k x f) := by
  unfold mvSts
  repeat' first
    | refine onlyIssues_mvIssue (fun k => ?_)
    | exact onlyIssues_storeAt ..

theorem onlyIssues_mvLdvx (k : Core) (x : LapCtx) (f : MvX) : OnlyIssues k (mvLdvx k x f) := by
  unfold mvLdvx
  repeat' first
    | refine onlyIssues_mvIssue (fun k => ?_)
    | refine onlyIssues_loadAt (fun k v => ?_)
    | split
    | exact onlyIssues_push ..

theorem onlyIssues_mvStvx (k : Core) (x : LapCtx) (f : MvX) : OnlyIssues k (mvStvx k x f) := by
  unfold mvStvx
  repeat' first
    | refine onlyIssues_mvIssue (fun k => ?_)
    | split
    | exact onlyIssues_storeAt ..

theorem onlyIssues_mvGath (k : Core) (x : LapCtx) (f : MvG) (upset : BitVec 16) : OnlyIssues k (mvGath k x f upset) := by
  unfold mvGath
  repeat' first
    | refine onlyIssues_mvIssue (fun k => ?_)
    | split
    | exact onlyIssues_trap ..
    | exact onlyIssues_gatherReads ..

theorem onlyIssues_mvScat (k : Core) (x : LapCtx) (f : MvG) : OnlyIssues k (mvScat k x f) :=
  onlyIssues_mvIssue fun _ =>
    .ite (onlyIssues_trap ..) (.ite (onlyIssues_trap ..) (.ite (onlyIssues_trap ..) (onlyIssues_scatWrites ..)))

theorem onlyIssues_mvTout (k : Core) (x : LapCtx) (f : MvT) : OnlyIssues k (mvTout k x f) := by
  unfold mvTout
  repeat' first
    | refine onlyIssues_mvIssue (fun k => ?_)
    | split
    | exact onlyIssues_trap ..
    | exact onlyIssues_push ..
    | exact (OnlyIssues.mk rfl).trans (onlyIssues_push ..)
    | dsimp only

theorem onlyIssues_mvTpeek (k : Core) (x : LapCtx) (f : MvP) : OnlyIssues k (mvTpeek k x f) := by
  unfold mvTpeek
  repeat' first
    | refine onlyIssues_mvIssue (fun k => ?_)
    | split
    | exact onlyIssues_trap ..
    | exact onlyIssues_push ..
    | refine OnlyIssues.trans ?_ (onlyIssues_push ..)
    | dsimp only

theorem onlyIssues_mvScalar (k : Core) (x : LapCtx) (f : MvA) (g : BitVec 32 → BitVec 32 → BitVec 32) : OnlyIssues k (mvScalar k x f g) := by
  unfold mvScalar
  repeat' first
    | refine onlyIssues_mvIssue (fun k => ?_)
    | split
    | exact onlyIssues_writeS ..

theorem onlyIssues_mvSaddi (k : Core) (x : LapCtx) (f : MvA) : OnlyIssues k (mvSaddi k x f) := by
  unfold mvSaddi
  repeat' first
    | refine onlyIssues_mvIssue (fun k => ?_)
    | split
    | exact onlyIssues_writeS ..

theorem onlyIssues_mvAaddi (k : Core) (x : LapCtx) (f : MvA) : OnlyIssues k (mvAaddi k x f) := by
  unfold mvAaddi
  repeat' first
    | refine onlyIssues_mvIssue (fun k => ?_)
    | split
    | exact onlyIssues_writeA ..

theorem onlyIssues_mvAfroms (k : Core) (x : LapCtx) (f : MvA) : OnlyIssues k (mvAfroms k x f) := by
  unfold mvAfroms
  repeat' first
    | refine onlyIssues_mvIssue (fun k => ?_)
    | split
    | exact onlyIssues_writeA ..

theorem onlyIssues_mvSfroma (k : Core) (x : LapCtx) (f : MvA) : OnlyIssues k (mvSfroma k x f) := by
  unfold mvSfroma
  repeat' first
    | refine onlyIssues_mvIssue (fun k => ?_)
    | split
    | exact onlyIssues_writeS ..

theorem onlyIssues_mvMovvs (k : Core) (x : LapCtx) (f : MvA) : OnlyIssues k (mvMovvs k x f) := by
  unfold mvMovvs
  repeat' first
    | refine onlyIssues_mvIssue (fun k => ?_)
    | split
    | exact onlyIssues_writeS ..

theorem onlyIssues_mvMovsv (k : Core) (x : LapCtx) (f : MvA) : OnlyIssues k (mvMovsv k x f) := by
  unfold mvMovsv
  repeat' first
    | refine onlyIssues_mvIssue (fun k => ?_)
    | split
    | exact onlyIssues_writeV ..

theorem onlyIssues_nxOp {k : Core} {x : LapCtx} {bad : Bool} {f : Core → Core} (hf : ∀ k, OnlyIssues k (f k)) : OnlyIssues k (nxOp k x bad f) := by
  unfold nxOp
  repeat' first
    | exact hf _
    | refine onlyIssues_issue (fun k => ?_)
    | split
    | exact (OnlyIssues.mk rfl).trans (hf _)
    | exact onlyIssues_trap ..

theorem onlyIssues_injectPair (k : Core) (x : LapCtx) (val : Nat) : OnlyIssues k (injectPair k x val) := by
  unfold injectPair
  repeat' first
    | split
    | exact onlyIssues_push ..

theorem onlyIssues_nxSend (k : Core) (x : LapCtx) (f : NxReg) : OnlyIssues k (nxSend k x f) := by
  unfold nxSend
  repeat' first
    | refine onlyIssues_nxOp (fun k => ?_)
    | split
    | exact onlyIssues_trap ..
    | exact onlyIssues_injectPair ..

theorem onlyIssues_nxRecv (k : Core) (x : LapCtx) (f : NxReg) (x0 : Flit) (x1 : Flit) : OnlyIssues k (nxRecv k x f x0 x1) := by
  unfold nxRecv
  repeat' first
    | refine onlyIssues_nxOp (fun k => ?_)
    | split
    | exact onlyIssues_trap ..
    | exact onlyIssues_writeV ..

theorem onlyIssues_nxSendm (k : Core) (x : LapCtx) (f : NxMem) : OnlyIssues k (nxSendm k x f) := by
  unfold nxSendm
  repeat' first
    | refine onlyIssues_nxOp (fun k => ?_)
    | split
    | exact onlyIssues_trap ..
    | exact onlyIssues_injectPair ..
    | refine OnlyIssues.trans ?_ (onlyIssues_injectPair ..)
    | exact (OnlyIssues.mk rfl).trans (onlyIssues_injectPair ..)
    | dsimp only

theorem onlyIssues_nxRecvm (k : Core) (x : LapCtx) (f : NxMem) (x0 : Flit) (x1 : Flit) : OnlyIssues k (nxRecvm k x f x0 x1) := by
  unfold nxRecvm
  repeat' first
    | refine onlyIssues_nxOp (fun k => ?_)
    | split
    | exact onlyIssues_trap ..
    | exact onlyIssues_storeAt ..

theorem onlyIssues_pushRequest (k : Core) (x : LapCtx) (f : NxSlot) (write : Bool) : OnlyIssues k (pushRequest k x f write) := by
  unfold pushRequest
  repeat' first
    | split
    | exact onlyIssues_push ..

theorem onlyIssues_nxMrd (k : Core) (x : LapCtx) (f : NxSlot) : OnlyIssues k (nxMrd k x f) := by
  unfold nxMrd
  repeat' first
    | refine onlyIssues_nxOp (fun k => ?_)
    | split
    | exact onlyIssues_trap ..
    | exact onlyIssues_pushRequest ..
    | dsimp only

theorem onlyIssues_nxMwr (k : Core) (x : LapCtx) (f : NxSlot) : OnlyIssues k (nxMwr k x f) := by
  unfold nxMwr
  repeat' first
    | refine onlyIssues_nxOp (fun k => ?_)
    | split
    | exact onlyIssues_trap ..
    | exact onlyIssues_pushRequest ..

end Core
end Sys2Proof.Machine
end

