-- ==== Sys2Proof/Laws/CoreWf.lean ====
section
/-! SUPPORT. No event of a core takes its memories out of their canonical form. -/
namespace Sys2Proof.Machine
namespace Core

/-- Both memories of a core are in canonical form. -/
def MemWf (k : Core) : Prop := k.data.wf = true ∧ k.instr.wf = true

/-- k' has the memories of k. -/
def MemEq (k k' : Core) : Prop := k'.data = k.data ∧ k'.instr = k.instr

theorem MemEq.refl (k : Core) : MemEq k k := ⟨rfl, rfl⟩

theorem MemEq.trans {a b c : Core} (h : MemEq a b) (h' : MemEq b c) : MemEq a c := ⟨h'.1.trans h.1, h'.2.trans h.2⟩

theorem MemEq.wf {k k' : Core} (h : MemEq k k') (w : k.MemWf) : k'.MemWf := by
  obtain ⟨hd, hi⟩ := h
  exact ⟨hd ▸ w.1, hi ▸ w.2⟩

theorem MemEq.ite {c : Prop} [Decidable c] {k a b : Core} (ha : MemEq k a) (hb : MemEq k b) : MemEq k (if c then a else b) := by
  split
  · exact ha
  · exact hb

theorem OnlyIssues.memEq {k k' : Core} (h : OnlyIssues k k') : MemEq k k' := by
  obtain ⟨_, _, _, _, _, _, _, _, rfl⟩ := h
  exact ⟨rfl, rfl⟩

theorem memWf_fresh : fresh.MemWf := ⟨rfl, rfl⟩

theorem memEq_trap (k : Core) (code : Nat) : MemEq k (k.trap code) := (onlyIssues_trap k code).memEq

theorem memEq_insertOuts (m : MmaOp) (k : Core) (j : Nat) (l : List ChunkOut) : MemEq k (insertOuts m k j l) := by
  induction l generalizing k j with
  | nil => exact .refl k
  | cons o l ih => exact .trans ⟨rfl, rfl⟩ (ih _ _)

theorem memEq_freeRow (k : Core) (v : BitVec 5904) (tile row : Nat) : MemEq k (k.freeRow v tile row) := by
  unfold freeRow
  generalize (List.range 16).foldl _ _ = t
  exact ⟨rfl, rfl⟩

theorem memEq_mmaRetire (k : Core) (x : LapCtx) (err : List Int) (upset : Bool) (v : BitVec 5904) :
    MemEq k (k.mmaRetire x err upset v) := by
  unfold mmaRetire
  split
  · exact .refl k
  · rename_i m ms _
    have h : MemEq k { k with mmas := ms } := ⟨rfl, rfl⟩
    exact .ite (.ite (h.trans (memEq_trap ..))
      (.ite (((h.trans (memEq_insertOuts ..)).trans (memEq_trap ..)).trans (memEq_freeRow ..)) (h.trans (memEq_insertOuts ..)))) (.refl k)

theorem memEq_pushMem (k : Core) (x : LapCtx) (d : Nat) (act : CoreAct) : MemEq k (k.pushMem x d act) := ⟨rfl, rfl⟩

theorem memEq_memSend (k : Core) (x : LapCtx) (n slot : Nat) (upset : Bool) (free : Lanes) :
    MemEq k (k.memSend x n slot upset free) := by
  unfold memSend
  refine .ite (.refl k) ?_
  split
  · exact .refl k
  · rename_i r _
    have h : MemEq k { k with reqs := Table.erase slot k.reqs } := ⟨rfl, rfl⟩
    have ret (k : Core) (l : List MemReturn) : MemEq k { k with returns := l } := ⟨rfl, rfl⟩
    exact .ite (.refl k) (.ite
      ((((((((h.trans (memEq_pushMem ..)).trans (.ite (memEq_trap ..) (.refl _))).trans (memEq_pushMem ..)).trans
        (memEq_pushMem ..)).trans (memEq_pushMem ..)).trans (memEq_pushMem ..)).trans (memEq_pushMem ..)))
      ((h.trans (memEq_pushMem ..)).trans (ret _ _)))

theorem memEq_memReturn (k : Core) (x : LapCtx) (slot : Nat) (x0 x1 : Flit) : MemEq k (k.memReturn x slot x0 x1) := by
  unfold memReturn
  split
  · exact .refl k
  · exact .ite (.refl k) (.ite ⟨rfl, rfl⟩ ⟨rfl, rfl⟩)

theorem memEq_given {k : Core} (x : LapCtx) (sl : OpSlot) (carries upset : Bool) {f : Core → Core} (hf : ∀ k, MemEq k (f k)) :
    MemEq k (k.given x sl carries upset f) := by
  unfold given
  exact .ite (.ite ((hf k).trans (memEq_trap ..)) (hf k)) (.refl k)

theorem memEq_fetch (k : Core) : MemEq k k.fetch := by
  unfold fetch
  exact .ite (.trans ⟨rfl, rfl⟩ (memEq_trap ..)) (.ite (.trans ⟨rfl, rfl⟩ (memEq_trap ..)) ⟨rfl, rfl⟩)

theorem memWf_launch {k : Core} {fenced : Bool} (h : k.MemWf) : (k.launch fenced).MemWf := by
  unfold launch
  dsimp only
  split
  · exact ⟨Memory.wf_clearRange _ _ h.1, h.2⟩
  · exact (memEq_fetch _).wf ⟨Memory.wf_clearRange _ _ h.1, h.2⟩

theorem memEq_stop (k : Core) : MemEq k k.stop := ⟨rfl, rfl⟩

theorem memEq_rest (k : Core) : MemEq k k.rest := ⟨rfl, rfl⟩

theorem memEq_lateTraps (k : Core) (c : Nat) : MemEq k (k.lateTraps c) := by
  have h {b : Prop} [Decidable b] (k : Core) (code : Nat) : MemEq k (if b then k.trap code else k) := .ite (memEq_trap ..) (.refl k)
  unfold lateTraps
  exact ((h _ _).trans (h _ _)).trans (h _ _)

theorem memEq_takeTrap (k : Core) (c : Nat) : MemEq k (k.takeTrap c) := by
  unfold takeTrap
  split
  · exact .refl k
  · exact .ite ⟨rfl, rfl⟩ ⟨rfl, rfl⟩

theorem memEq_doGathers (l : List Micro) (k : Core) : MemEq k (doGathers l k) := by
  induction l generalizing k with
  | nil => exact .refl k
  | cons m l ih =>
    unfold doGathers
    split
    · exact .trans ⟨rfl, rfl⟩ (ih _)
    · exact ih _

theorem memWf_apply {c : Nat} {k : Core} (m : Micro) (h : k.MemWf) : (apply c k m).MemWf := by
  unfold apply
  split
  all_goals first
    | exact ⟨Memory.wf_writeMasked _ _ h.1, h.2⟩
    | exact ⟨h.1, Memory.wf_patch _ _ h.2⟩
    | exact h

theorem memWf_applyAll {c : Nat} (l : List Micro) {k : Core} (h : k.MemWf) : (applyAll c l k).MemWf := by
  induction l generalizing k with
  | nil => exact h
  | cons m l ih => exact ih (memWf_apply m h)

theorem memEq_sequence (c : Nat) (k : Core) : MemEq k (k.sequence c) := .ite ⟨rfl, rfl⟩ (.refl k)

theorem memWf_endCycle {k : Core} (x : LapCtx) (x0 x1 : Flit) (h : k.MemWf) : (k.endCycle x x0 x1).MemWf := by
  have h1 := (memEq_takeTrap _ x.c).wf ((memEq_lateTraps k x.c).wf h)
  unfold endCycle
  dsimp only
  generalize (k.lateTraps x.c).takeTrap x.c = k1 at *
  have h2 := (memEq_doGathers (k1.inflight.filter (fun m => m.due == x.c)) k1).wf h1
  generalize doGathers (k1.inflight.filter (fun m => m.due == x.c)) k1 = k2 at *
  have h3 (fp : BitVec 64) (fl l : List Micro) : (applyAll x.c l (sequence x.c { k2 with fp := fp, inflight := fl })).MemWf :=
    memWf_applyAll l ((memEq_sequence ..).wf h2)
  have h4 (k3 : Core) (w : k3.MemWf) (is : List OpSlot) (tr : Option Nat) (hd : List TileHold) :
      ({ takeR01 x.c x0 x1 k3 with issued := is, trapNow := tr, held := hd } : Core).MemWf := w
  have ite {c : Prop} [Decidable c] {a b : Core} (ha : a.MemWf) (hb : b.MemWf) : (if c then a else b).MemWf := by
    split
    · exact ha
    · exact hb
  exact ite ((memEq_fetch _).wf (h4 _ (h3 _ _ _) _ _ _)) (h4 _ (h3 _ _ _) _ _ _)

end Core
end Sys2Proof.Machine
end

