-- ==== Sys2Proof/Laws/State.lean ====
section
/-! SUPPORT. What each named update of the state changes and leaves, field by field, and reads of a part after a write. -/
namespace Sys2Proof.Machine
namespace State

/-! setCore -/
@[simp] theorem setCore_now (s : State) (n : Nat) (k : Core) : (s.setCore n k).now = s.now := rfl
@[simp] theorem setCore_rink (s : State) (n : Nat) (k : Core) : (s.setCore n k).rink = s.rink := rfl
@[simp] theorem setCore_rinkRun (s : State) (n : Nat) (k : Core) : (s.setCore n k).rinkRun = s.rinkRun := rfl
@[simp] theorem setCore_rinkHalf (s : State) (n : Nat) (k : Core) : (s.setCore n k).rinkHalf = s.rinkHalf := rfl
@[simp] theorem setCore_fresh (s : State) (n : Nat) (k : Core) : (s.setCore n k).fresh = s.fresh := rfl
@[simp] theorem setCore_mem (s : State) (n : Nat) (k : Core) : (s.setCore n k).mem = s.mem := rfl
@[simp] theorem setCore_slots (s : State) (n : Nat) (k : Core) : (s.setCore n k).slots = s.slots := rfl
@[simp] theorem setCore_mogul (s : State) (n : Nat) (k : Core) : (s.setCore n k).mogul = s.mogul := rfl
@[simp] theorem setCore_ent (s : State) (n : Nat) (k : Core) : (s.setCore n k).ent = s.ent := rfl
@[simp] theorem setCore_ports (s : State) (n : Nat) (k : Core) : (s.setCore n k).ports = s.ports := rfl
@[simp] theorem setCore_takeoverGrace (s : State) (n : Nat) (k : Core) : (s.setCore n k).takeoverGrace = s.takeoverGrace := rfl
@[simp] theorem setCore_sealAreas (s : State) (n : Nat) (k : Core) : (s.setCore n k).sealAreas = s.sealAreas := rfl
@[simp] theorem setCore_link (s : State) (n : Nat) (k : Core) : (s.setCore n k).link = s.link := rfl
@[simp] theorem setCore_power (s : State) (n : Nat) (k : Core) : (s.setCore n k).power = s.power := rfl
@[simp] theorem setCore_louvre (s : State) (n : Nat) (k : Core) : (s.setCore n k).louvre = s.louvre := rfl
@[simp] theorem setCore_thermal (s : State) (n : Nat) (k : Core) : (s.setCore n k).thermal = s.thermal := rfl
@[simp] theorem setCore_irq (s : State) (n : Nat) (k : Core) : (s.setCore n k).irq = s.irq := rfl
@[simp] theorem setCore_log (s : State) (n : Nat) (k : Core) : (s.setCore n k).log = s.log := rfl
@[simp] theorem setCore_dict (s : State) (n : Nat) (k : Core) : (s.setCore n k).dict = s.dict := rfl
@[simp] theorem setCore_det (s : State) (n : Nat) (k : Core) : (s.setCore n k).det = s.det := rfl
@[simp] theorem setCore_flash (s : State) (n : Nat) (k : Core) : (s.setCore n k).flash = s.flash := rfl
@[simp] theorem setCore_sec (s : State) (n : Nat) (k : Core) : (s.setCore n k).sec = s.sec := rfl
@[simp] theorem setCore_start (s : State) (n : Nat) (k : Core) : (s.setCore n k).start = s.start := rfl
@[simp] theorem setCore_pins (s : State) (n : Nat) (k : Core) : (s.setCore n k).pins = s.pins := rfl
@[simp] theorem setCore_pending (s : State) (n : Nat) (k : Core) : (s.setCore n k).pending = s.pending := rfl

/-! setRouter -/
@[simp] theorem setRouter_now (s : State) (n : Nat) (r : Router) : (s.setRouter n r).now = s.now := rfl
@[simp] theorem setRouter_rink (s : State) (n : Nat) (r : Router) : (s.setRouter n r).rink = s.rink := rfl
@[simp] theorem setRouter_rinkRun (s : State) (n : Nat) (r : Router) : (s.setRouter n r).rinkRun = s.rinkRun := rfl
@[simp] theorem setRouter_rinkHalf (s : State) (n : Nat) (r : Router) : (s.setRouter n r).rinkHalf = s.rinkHalf := rfl
@[simp] theorem setRouter_fresh (s : State) (n : Nat) (r : Router) : (s.setRouter n r).fresh = s.fresh := rfl
@[simp] theorem setRouter_mem (s : State) (n : Nat) (r : Router) : (s.setRouter n r).mem = s.mem := rfl
@[simp] theorem setRouter_slots (s : State) (n : Nat) (r : Router) : (s.setRouter n r).slots = s.slots := rfl
@[simp] theorem setRouter_mogul (s : State) (n : Nat) (r : Router) : (s.setRouter n r).mogul = s.mogul := rfl
@[simp] theorem setRouter_ent (s : State) (n : Nat) (r : Router) : (s.setRouter n r).ent = s.ent := rfl
@[simp] theorem setRouter_ports (s : State) (n : Nat) (r : Router) : (s.setRouter n r).ports = s.ports := rfl
@[simp] theorem setRouter_takeoverGrace (s : State) (n : Nat) (r : Router) : (s.setRouter n r).takeoverGrace = s.takeoverGrace := rfl
@[simp] theorem setRouter_sealAreas (s : State) (n : Nat) (r : Router) : (s.setRouter n r).sealAreas = s.sealAreas := rfl
@[simp] theorem setRouter_link (s : State) (n : Nat) (r : Router) : (s.setRouter n r).link = s.link := rfl
@[simp] theorem setRouter_power (s : State) (n : Nat) (r : Router) : (s.setRouter n r).power = s.power := rfl
@[simp] theorem setRouter_louvre (s : State) (n : Nat) (r : Router) : (s.setRouter n r).louvre = s.louvre := rfl
@[simp] theorem setRouter_thermal (s : State) (n : Nat) (r : Router) : (s.setRouter n r).thermal = s.thermal := rfl
@[simp] theorem setRouter_irq (s : State) (n : Nat) (r : Router) : (s.setRouter n r).irq = s.irq := rfl
@[simp] theorem setRouter_log (s : State) (n : Nat) (r : Router) : (s.setRouter n r).log = s.log := rfl
@[simp] theorem setRouter_dict (s : State) (n : Nat) (r : Router) : (s.setRouter n r).dict = s.dict := rfl
@[simp] theorem setRouter_det (s : State) (n : Nat) (r : Router) : (s.setRouter n r).det = s.det := rfl
@[simp] theorem setRouter_flash (s : State) (n : Nat) (r : Router) : (s.setRouter n r).flash = s.flash := rfl
@[simp] theorem setRouter_sec (s : State) (n : Nat) (r : Router) : (s.setRouter n r).sec = s.sec := rfl
@[simp] theorem setRouter_start (s : State) (n : Nat) (r : Router) : (s.setRouter n r).start = s.start := rfl
@[simp] theorem setRouter_pins (s : State) (n : Nat) (r : Router) : (s.setRouter n r).pins = s.pins := rfl
@[simp] theorem setRouter_pending (s : State) (n : Nat) (r : Router) : (s.setRouter n r).pending = s.pending := rfl

/-! setSlot -/
@[simp] theorem setSlot_now (s : State) (k : Nat) (x : Slot) : (s.setSlot k x).now = s.now := rfl
@[simp] theorem setSlot_rink (s : State) (k : Nat) (x : Slot) : (s.setSlot k x).rink = s.rink := rfl
@[simp] theorem setSlot_rinkRun (s : State) (k : Nat) (x : Slot) : (s.setSlot k x).rinkRun = s.rinkRun := rfl
@[simp] theorem setSlot_rinkHalf (s : State) (k : Nat) (x : Slot) : (s.setSlot k x).rinkHalf = s.rinkHalf := rfl
@[simp] theorem setSlot_fresh (s : State) (k : Nat) (x : Slot) : (s.setSlot k x).fresh = s.fresh := rfl
@[simp] theorem setSlot_grid (s : State) (k : Nat) (x : Slot) : (s.setSlot k x).grid = s.grid := rfl
@[simp] theorem setSlot_mem (s : State) (k : Nat) (x : Slot) : (s.setSlot k x).mem = s.mem := rfl
@[simp] theorem setSlot_mogul (s : State) (k : Nat) (x : Slot) : (s.setSlot k x).mogul = s.mogul := rfl
@[simp] theorem setSlot_ent (s : State) (k : Nat) (x : Slot) : (s.setSlot k x).ent = s.ent := rfl
@[simp] theorem setSlot_ports (s : State) (k : Nat) (x : Slot) : (s.setSlot k x).ports = s.ports := rfl
@[simp] theorem setSlot_takeoverGrace (s : State) (k : Nat) (x : Slot) : (s.setSlot k x).takeoverGrace = s.takeoverGrace := rfl
@[simp] theorem setSlot_sealAreas (s : State) (k : Nat) (x : Slot) : (s.setSlot k x).sealAreas = s.sealAreas := rfl
@[simp] theorem setSlot_link (s : State) (k : Nat) (x : Slot) : (s.setSlot k x).link = s.link := rfl
@[simp] theorem setSlot_power (s : State) (k : Nat) (x : Slot) : (s.setSlot k x).power = s.power := rfl
@[simp] theorem setSlot_louvre (s : State) (k : Nat) (x : Slot) : (s.setSlot k x).louvre = s.louvre := rfl
@[simp] theorem setSlot_thermal (s : State) (k : Nat) (x : Slot) : (s.setSlot k x).thermal = s.thermal := rfl
@[simp] theorem setSlot_irq (s : State) (k : Nat) (x : Slot) : (s.setSlot k x).irq = s.irq := rfl
@[simp] theorem setSlot_log (s : State) (k : Nat) (x : Slot) : (s.setSlot k x).log = s.log := rfl
@[simp] theorem setSlot_dict (s : State) (k : Nat) (x : Slot) : (s.setSlot k x).dict = s.dict := rfl
@[simp] theorem setSlot_det (s : State) (k : Nat) (x : Slot) : (s.setSlot k x).det = s.det := rfl
@[simp] theorem setSlot_flash (s : State) (k : Nat) (x : Slot) : (s.setSlot k x).flash = s.flash := rfl
@[simp] theorem setSlot_sec (s : State) (k : Nat) (x : Slot) : (s.setSlot k x).sec = s.sec := rfl
@[simp] theorem setSlot_start (s : State) (k : Nat) (x : Slot) : (s.setSlot k x).start = s.start := rfl
@[simp] theorem setSlot_pins (s : State) (k : Nat) (x : Slot) : (s.setSlot k x).pins = s.pins := rfl
@[simp] theorem setSlot_pending (s : State) (k : Nat) (x : Slot) : (s.setSlot k x).pending = s.pending := rfl

/-! onSlot -/
@[simp] theorem onSlot_now (s : State) (k : Nat) (f : Slot → Slot) : (s.onSlot k f).now = s.now := rfl
@[simp] theorem onSlot_rink (s : State) (k : Nat) (f : Slot → Slot) : (s.onSlot k f).rink = s.rink := rfl
@[simp] theorem onSlot_rinkRun (s : State) (k : Nat) (f : Slot → Slot) : (s.onSlot k f).rinkRun = s.rinkRun := rfl
@[simp] theorem onSlot_rinkHalf (s : State) (k : Nat) (f : Slot → Slot) : (s.onSlot k f).rinkHalf = s.rinkHalf := rfl
@[simp] theorem onSlot_fresh (s : State) (k : Nat) (f : Slot → Slot) : (s.onSlot k f).fresh = s.fresh := rfl
@[simp] theorem onSlot_grid (s : State) (k : Nat) (f : Slot → Slot) : (s.onSlot k f).grid = s.grid := rfl
@[simp] theorem onSlot_mem (s : State) (k : Nat) (f : Slot → Slot) : (s.onSlot k f).mem = s.mem := rfl
@[simp] theorem onSlot_mogul (s : State) (k : Nat) (f : Slot → Slot) : (s.onSlot k f).mogul = s.mogul := rfl
@[simp] theorem onSlot_ent (s : State) (k : Nat) (f : Slot → Slot) : (s.onSlot k f).ent = s.ent := rfl
@[simp] theorem onSlot_ports (s : State) (k : Nat) (f : Slot → Slot) : (s.onSlot k f).ports = s.ports := rfl
@[simp] theorem onSlot_takeoverGrace (s : State) (k : Nat) (f : Slot → Slot) : (s.onSlot k f).takeoverGrace = s.takeoverGrace := rfl
@[simp] theorem onSlot_sealAreas (s : State) (k : Nat) (f : Slot → Slot) : (s.onSlot k f).sealAreas = s.sealAreas := rfl
@[simp] theorem onSlot_link (s : State) (k : Nat) (f : Slot → Slot) : (s.onSlot k f).link = s.link := rfl
@[simp] theorem onSlot_power (s : State) (k : Nat) (f : Slot → Slot) : (s.onSlot k f).power = s.power := rfl
@[simp] theorem onSlot_louvre (s : State) (k : Nat) (f : Slot → Slot) : (s.onSlot k f).louvre = s.louvre := rfl
@[simp] theorem onSlot_thermal (s : State) (k : Nat) (f : Slot → Slot) : (s.onSlot k f).thermal = s.thermal := rfl
@[simp] theorem onSlot_irq (s : State) (k : Nat) (f : Slot → Slot) : (s.onSlot k f).irq = s.irq := rfl
@[simp] theorem onSlot_log (s : State) (k : Nat) (f : Slot → Slot) : (s.onSlot k f).log = s.log := rfl
@[simp] theorem onSlot_dict (s : State) (k : Nat) (f : Slot → Slot) : (s.onSlot k f).dict = s.dict := rfl
@[simp] theorem onSlot_det (s : State) (k : Nat) (f : Slot → Slot) : (s.onSlot k f).det = s.det := rfl
@[simp] theorem onSlot_flash (s : State) (k : Nat) (f : Slot → Slot) : (s.onSlot k f).flash = s.flash := rfl
@[simp] theorem onSlot_sec (s : State) (k : Nat) (f : Slot → Slot) : (s.onSlot k f).sec = s.sec := rfl
@[simp] theorem onSlot_start (s : State) (k : Nat) (f : Slot → Slot) : (s.onSlot k f).start = s.start := rfl
@[simp] theorem onSlot_pins (s : State) (k : Nat) (f : Slot → Slot) : (s.onSlot k f).pins = s.pins := rfl
@[simp] theorem onSlot_pending (s : State) (k : Nat) (f : Slot → Slot) : (s.onSlot k f).pending = s.pending := rfl

/-! setPort -/
@[simp] theorem setPort_now (s : State) (p : Nat) (x : Port) : (s.setPort p x).now = s.now := rfl
@[simp] theorem setPort_rink (s : State) (p : Nat) (x : Port) : (s.setPort p x).rink = s.rink := rfl
@[simp] theorem setPort_rinkRun (s : State) (p : Nat) (x : Port) : (s.setPort p x).rinkRun = s.rinkRun := rfl
@[simp] theorem setPort_rinkHalf (s : State) (p : Nat) (x : Port) : (s.setPort p x).rinkHalf = s.rinkHalf := rfl
@[simp] theorem setPort_fresh (s : State) (p : Nat) (x : Port) : (s.setPort p x).fresh = s.fresh := rfl
@[simp] theorem setPort_grid (s : State) (p : Nat) (x : Port) : (s.setPort p x).grid = s.grid := rfl
@[simp] theorem setPort_mem (s : State) (p : Nat) (x : Port) : (s.setPort p x).mem = s.mem := rfl
@[simp] theorem setPort_slots (s : State) (p : Nat) (x : Port) : (s.setPort p x).slots = s.slots := rfl
@[simp] theorem setPort_mogul (s : State) (p : Nat) (x : Port) : (s.setPort p x).mogul = s.mogul := rfl
@[simp] theorem setPort_ent (s : State) (p : Nat) (x : Port) : (s.setPort p x).ent = s.ent := rfl
@[simp] theorem setPort_takeoverGrace (s : State) (p : Nat) (x : Port) : (s.setPort p x).takeoverGrace = s.takeoverGrace := rfl
@[simp] theorem setPort_sealAreas (s : State) (p : Nat) (x : Port) : (s.setPort p x).sealAreas = s.sealAreas := rfl
@[simp] theorem setPort_link (s : State) (p : Nat) (x : Port) : (s.setPort p x).link = s.link := rfl
@[simp] theorem setPort_power (s : State) (p : Nat) (x : Port) : (s.setPort p x).power = s.power := rfl
@[simp] theorem setPort_louvre (s : State) (p : Nat) (x : Port) : (s.setPort p x).louvre = s.louvre := rfl
@[simp] theorem setPort_thermal (s : State) (p : Nat) (x : Port) : (s.setPort p x).thermal = s.thermal := rfl
@[simp] theorem setPort_irq (s : State) (p : Nat) (x : Port) : (s.setPort p x).irq = s.irq := rfl
@[simp] theorem setPort_log (s : State) (p : Nat) (x : Port) : (s.setPort p x).log = s.log := rfl
@[simp] theorem setPort_dict (s : State) (p : Nat) (x : Port) : (s.setPort p x).dict = s.dict := rfl
@[simp] theorem setPort_det (s : State) (p : Nat) (x : Port) : (s.setPort p x).det = s.det := rfl
@[simp] theorem setPort_flash (s : State) (p : Nat) (x : Port) : (s.setPort p x).flash = s.flash := rfl
@[simp] theorem setPort_sec (s : State) (p : Nat) (x : Port) : (s.setPort p x).sec = s.sec := rfl
@[simp] theorem setPort_start (s : State) (p : Nat) (x : Port) : (s.setPort p x).start = s.start := rfl
@[simp] theorem setPort_pins (s : State) (p : Nat) (x : Port) : (s.setPort p x).pins = s.pins := rfl
@[simp] theorem setPort_pending (s : State) (p : Nat) (x : Port) : (s.setPort p x).pending = s.pending := rfl

/-! onPort -/
@[simp] theorem onPort_now (s : State) (p : Nat) (f : Port → Port) : (s.onPort p f).now = s.now := rfl
@[simp] theorem onPort_rink (s : State) (p : Nat) (f : Port → Port) : (s.onPort p f).rink = s.rink := rfl
@[simp] theorem onPort_rinkRun (s : State) (p : Nat) (f : Port → Port) : (s.onPort p f).rinkRun = s.rinkRun := rfl
@[simp] theorem onPort_rinkHalf (s : State) (p : Nat) (f : Port → Port) : (s.onPort p f).rinkHalf = s.rinkHalf := rfl
@[simp] theorem onPort_fresh (s : State) (p : Nat) (f : Port → Port) : (s.onPort p f).fresh = s.fresh := rfl
@[simp] theorem onPort_grid (s : State) (p : Nat) (f : Port → Port) : (s.onPort p f).grid = s.grid := rfl
@[simp] theorem onPort_mem (s : State) (p : Nat) (f : Port → Port) : (s.onPort p f).mem = s.mem := rfl
@[simp] theorem onPort_slots (s : State) (p : Nat) (f : Port → Port) : (s.onPort p f).slots = s.slots := rfl
@[simp] theorem onPort_mogul (s : State) (p : Nat) (f : Port → Port) : (s.onPort p f).mogul = s.mogul := rfl
@[simp] theorem onPort_ent (s : State) (p : Nat) (f : Port → Port) : (s.onPort p f).ent = s.ent := rfl
@[simp] theorem onPort_takeoverGrace (s : State) (p : Nat) (f : Port → Port) : (s.onPort p f).takeoverGrace = s.takeoverGrace := rfl
@[simp] theorem onPort_sealAreas (s : State) (p : Nat) (f : Port → Port) : (s.onPort p f).sealAreas = s.sealAreas := rfl
@[simp] theorem onPort_link (s : State) (p : Nat) (f : Port → Port) : (s.onPort p f).link = s.link := rfl
@[simp] theorem onPort_power (s : State) (p : Nat) (f : Port → Port) : (s.onPort p f).power = s.power := rfl
@[simp] theorem onPort_louvre (s : State) (p : Nat) (f : Port → Port) : (s.onPort p f).louvre = s.louvre := rfl
@[simp] theorem onPort_thermal (s : State) (p : Nat) (f : Port → Port) : (s.onPort p f).thermal = s.thermal := rfl
@[simp] theorem onPort_irq (s : State) (p : Nat) (f : Port → Port) : (s.onPort p f).irq = s.irq := rfl
@[simp] theorem onPort_log (s : State) (p : Nat) (f : Port → Port) : (s.onPort p f).log = s.log := rfl
@[simp] theorem onPort_dict (s : State) (p : Nat) (f : Port → Port) : (s.onPort p f).dict = s.dict := rfl
@[simp] theorem onPort_det (s : State) (p : Nat) (f : Port → Port) : (s.onPort p f).det = s.det := rfl
@[simp] theorem onPort_flash (s : State) (p : Nat) (f : Port → Port) : (s.onPort p f).flash = s.flash := rfl
@[simp] theorem onPort_sec (s : State) (p : Nat) (f : Port → Port) : (s.onPort p f).sec = s.sec := rfl
@[simp] theorem onPort_start (s : State) (p : Nat) (f : Port → Port) : (s.onPort p f).start = s.start := rfl
@[simp] theorem onPort_pins (s : State) (p : Nat) (f : Port → Port) : (s.onPort p f).pins = s.pins := rfl
@[simp] theorem onPort_pending (s : State) (p : Nat) (f : Port → Port) : (s.onPort p f).pending = s.pending := rfl

/-! setLport -/
@[simp] theorem setLport_now (s : State) (p : Nat) (x : LecelPort) : (s.setLport p x).now = s.now := rfl
@[simp] theorem setLport_rink (s : State) (p : Nat) (x : LecelPort) : (s.setLport p x).rink = s.rink := rfl
@[simp] theorem setLport_rinkRun (s : State) (p : Nat) (x : LecelPort) : (s.setLport p x).rinkRun = s.rinkRun := rfl
@[simp] theorem setLport_rinkHalf (s : State) (p : Nat) (x : LecelPort) : (s.setLport p x).rinkHalf = s.rinkHalf := rfl
@[simp] theorem setLport_fresh (s : State) (p : Nat) (x : LecelPort) : (s.setLport p x).fresh = s.fresh := rfl
@[simp] theorem setLport_grid (s : State) (p : Nat) (x : LecelPort) : (s.setLport p x).grid = s.grid := rfl
@[simp] theorem setLport_mem (s : State) (p : Nat) (x : LecelPort) : (s.setLport p x).mem = s.mem := rfl
@[simp] theorem setLport_slots (s : State) (p : Nat) (x : LecelPort) : (s.setLport p x).slots = s.slots := rfl
@[simp] theorem setLport_mogul (s : State) (p : Nat) (x : LecelPort) : (s.setLport p x).mogul = s.mogul := rfl
@[simp] theorem setLport_ent (s : State) (p : Nat) (x : LecelPort) : (s.setLport p x).ent = s.ent := rfl
@[simp] theorem setLport_ports (s : State) (p : Nat) (x : LecelPort) : (s.setLport p x).ports = s.ports := rfl
@[simp] theorem setLport_takeoverGrace (s : State) (p : Nat) (x : LecelPort) : (s.setLport p x).takeoverGrace = s.takeoverGrace := rfl
@[simp] theorem setLport_sealAreas (s : State) (p : Nat) (x : LecelPort) : (s.setLport p x).sealAreas = s.sealAreas := rfl
@[simp] theorem setLport_power (s : State) (p : Nat) (x : LecelPort) : (s.setLport p x).power = s.power := rfl
@[simp] theorem setLport_louvre (s : State) (p : Nat) (x : LecelPort) : (s.setLport p x).louvre = s.louvre := rfl
@[simp] theorem setLport_thermal (s : State) (p : Nat) (x : LecelPort) : (s.setLport p x).thermal = s.thermal := rfl
@[simp] theorem setLport_irq (s : State) (p : Nat) (x : LecelPort) : (s.setLport p x).irq = s.irq := rfl
@[simp] theorem setLport_log (s : State) (p : Nat) (x : LecelPort) : (s.setLport p x).log = s.log := rfl
@[simp] theorem setLport_dict (s : State) (p : Nat) (x : LecelPort) : (s.setLport p x).dict = s.dict := rfl
@[simp] theorem setLport_det (s : State) (p : Nat) (x : LecelPort) : (s.setLport p x).det = s.det := rfl
@[simp] theorem setLport_flash (s : State) (p : Nat) (x : LecelPort) : (s.setLport p x).flash = s.flash := rfl
@[simp] theorem setLport_sec (s : State) (p : Nat) (x : LecelPort) : (s.setLport p x).sec = s.sec := rfl
@[simp] theorem setLport_start (s : State) (p : Nat) (x : LecelPort) : (s.setLport p x).start = s.start := rfl
@[simp] theorem setLport_pins (s : State) (p : Nat) (x : LecelPort) : (s.setLport p x).pins = s.pins := rfl
@[simp] theorem setLport_pending (s : State) (p : Nat) (x : LecelPort) : (s.setLport p x).pending = s.pending := rfl

/-! onLport -/
@[simp] theorem onLport_now (s : State) (p : Nat) (f : LecelPort → LecelPort) : (s.onLport p f).now = s.now := rfl
@[simp] theorem onLport_rink (s : State) (p : Nat) (f : LecelPort → LecelPort) : (s.onLport p f).rink = s.rink := rfl
@[simp] theorem onLport_rinkRun (s : State) (p : Nat) (f : LecelPort → LecelPort) : (s.onLport p f).rinkRun = s.rinkRun := rfl
@[simp] theorem onLport_rinkHalf (s : State) (p : Nat) (f : LecelPort → LecelPort) : (s.onLport p f).rinkHalf = s.rinkHalf := rfl
@[simp] theorem onLport_fresh (s : State) (p : Nat) (f : LecelPort → LecelPort) : (s.onLport p f).fresh = s.fresh := rfl
@[simp] theorem onLport_grid (s : State) (p : Nat) (f : LecelPort → LecelPort) : (s.onLport p f).grid = s.grid := rfl
@[simp] theorem onLport_mem (s : State) (p : Nat) (f : LecelPort → LecelPort) : (s.onLport p f).mem = s.mem := rfl
@[simp] theorem onLport_slots (s : State) (p : Nat) (f : LecelPort → LecelPort) : (s.onLport p f).slots = s.slots := rfl
@[simp] theorem onLport_mogul (s : State) (p : Nat) (f : LecelPort → LecelPort) : (s.onLport p f).mogul = s.mogul := rfl
@[simp] theorem onLport_ent (s : State) (p : Nat) (f : LecelPort → LecelPort) : (s.onLport p f).ent = s.ent := rfl
@[simp] theorem onLport_ports (s : State) (p : Nat) (f : LecelPort → LecelPort) : (s.onLport p f).ports = s.ports := rfl
@[simp] theorem onLport_takeoverGrace (s : State) (p : Nat) (f : LecelPort → LecelPort) : (s.onLport p f).takeoverGrace = s.takeoverGrace := rfl
@[simp] theorem onLport_sealAreas (s : State) (p : Nat) (f : LecelPort → LecelPort) : (s.onLport p f).sealAreas = s.sealAreas := rfl
@[simp] theorem onLport_power (s : State) (p : Nat) (f : LecelPort → LecelPort) : (s.onLport p f).power = s.power := rfl
@[simp] theorem onLport_louvre (s : State) (p : Nat) (f : LecelPort → LecelPort) : (s.onLport p f).louvre = s.louvre := rfl
@[simp] theorem onLport_thermal (s : State) (p : Nat) (f : LecelPort → LecelPort) : (s.onLport p f).thermal = s.thermal := rfl
@[simp] theorem onLport_irq (s : State) (p : Nat) (f : LecelPort → LecelPort) : (s.onLport p f).irq = s.irq := rfl
@[simp] theorem onLport_log (s : State) (p : Nat) (f : LecelPort → LecelPort) : (s.onLport p f).log = s.log := rfl
@[simp] theorem onLport_dict (s : State) (p : Nat) (f : LecelPort → LecelPort) : (s.onLport p f).dict = s.dict := rfl
@[simp] theorem onLport_det (s : State) (p : Nat) (f : LecelPort → LecelPort) : (s.onLport p f).det = s.det := rfl
@[simp] theorem onLport_flash (s : State) (p : Nat) (f : LecelPort → LecelPort) : (s.onLport p f).flash = s.flash := rfl
@[simp] theorem onLport_sec (s : State) (p : Nat) (f : LecelPort → LecelPort) : (s.onLport p f).sec = s.sec := rfl
@[simp] theorem onLport_start (s : State) (p : Nat) (f : LecelPort → LecelPort) : (s.onLport p f).start = s.start := rfl
@[simp] theorem onLport_pins (s : State) (p : Nat) (f : LecelPort → LecelPort) : (s.onLport p f).pins = s.pins := rfl
@[simp] theorem onLport_pending (s : State) (p : Nat) (f : LecelPort → LecelPort) : (s.onLport p f).pending = s.pending := rfl

/-! setDomain -/
@[simp] theorem setDomain_now (s : State) (d : Nat) (x : Domain) : (s.setDomain d x).now = s.now := rfl
@[simp] theorem setDomain_rink (s : State) (d : Nat) (x : Domain) : (s.setDomain d x).rink = s.rink := rfl
@[simp] theorem setDomain_rinkRun (s : State) (d : Nat) (x : Domain) : (s.setDomain d x).rinkRun = s.rinkRun := rfl
@[simp] theorem setDomain_rinkHalf (s : State) (d : Nat) (x : Domain) : (s.setDomain d x).rinkHalf = s.rinkHalf := rfl
@[simp] theorem setDomain_fresh (s : State) (d : Nat) (x : Domain) : (s.setDomain d x).fresh = s.fresh := rfl
@[simp] theorem setDomain_grid (s : State) (d : Nat) (x : Domain) : (s.setDomain d x).grid = s.grid := rfl
@[simp] theorem setDomain_mem (s : State) (d : Nat) (x : Domain) : (s.setDomain d x).mem = s.mem := rfl
@[simp] theorem setDomain_slots (s : State) (d : Nat) (x : Domain) : (s.setDomain d x).slots = s.slots := rfl
@[simp] theorem setDomain_mogul (s : State) (d : Nat) (x : Domain) : (s.setDomain d x).mogul = s.mogul := rfl
@[simp] theorem setDomain_ent (s : State) (d : Nat) (x : Domain) : (s.setDomain d x).ent = s.ent := rfl
@[simp] theorem setDomain_ports (s : State) (d : Nat) (x : Domain) : (s.setDomain d x).ports = s.ports := rfl
@[simp] theorem setDomain_takeoverGrace (s : State) (d : Nat) (x : Domain) : (s.setDomain d x).takeoverGrace = s.takeoverGrace := rfl
@[simp] theorem setDomain_sealAreas (s : State) (d : Nat) (x : Domain) : (s.setDomain d x).sealAreas = s.sealAreas := rfl
@[simp] theorem setDomain_link (s : State) (d : Nat) (x : Domain) : (s.setDomain d x).link = s.link := rfl
@[simp] theorem setDomain_louvre (s : State) (d : Nat) (x : Domain) : (s.setDomain d x).louvre = s.louvre := rfl
@[simp] theorem setDomain_thermal (s : State) (d : Nat) (x : Domain) : (s.setDomain d x).thermal = s.thermal := rfl
@[simp] theorem setDomain_irq (s : State) (d : Nat) (x : Domain) : (s.setDomain d x).irq = s.irq := rfl
@[simp] theorem setDomain_log (s : State) (d : Nat) (x : Domain) : (s.setDomain d x).log = s.log := rfl
@[simp] theorem setDomain_dict (s : State) (d : Nat) (x : Domain) : (s.setDomain d x).dict = s.dict := rfl
@[simp] theorem setDomain_det (s : State) (d : Nat) (x : Domain) : (s.setDomain d x).det = s.det := rfl
@[simp] theorem setDomain_flash (s : State) (d : Nat) (x : Domain) : (s.setDomain d x).flash = s.flash := rfl
@[simp] theorem setDomain_sec (s : State) (d : Nat) (x : Domain) : (s.setDomain d x).sec = s.sec := rfl
@[simp] theorem setDomain_start (s : State) (d : Nat) (x : Domain) : (s.setDomain d x).start = s.start := rfl
@[simp] theorem setDomain_pins (s : State) (d : Nat) (x : Domain) : (s.setDomain d x).pins = s.pins := rfl
@[simp] theorem setDomain_pending (s : State) (d : Nat) (x : Domain) : (s.setDomain d x).pending = s.pending := rfl

/-! setCtl -/
@[simp] theorem setCtl_now (s : State) (j : Nat) (c : SliceCtl) : (s.setCtl j c).now = s.now := rfl
@[simp] theorem setCtl_rink (s : State) (j : Nat) (c : SliceCtl) : (s.setCtl j c).rink = s.rink := rfl
@[simp] theorem setCtl_rinkRun (s : State) (j : Nat) (c : SliceCtl) : (s.setCtl j c).rinkRun = s.rinkRun := rfl
@[simp] theorem setCtl_rinkHalf (s : State) (j : Nat) (c : SliceCtl) : (s.setCtl j c).rinkHalf = s.rinkHalf := rfl
@[simp] theorem setCtl_fresh (s : State) (j : Nat) (c : SliceCtl) : (s.setCtl j c).fresh = s.fresh := rfl
@[simp] theorem setCtl_grid (s : State) (j : Nat) (c : SliceCtl) : (s.setCtl j c).grid = s.grid := rfl
@[simp] theorem setCtl_slots (s : State) (j : Nat) (c : SliceCtl) : (s.setCtl j c).slots = s.slots := rfl
@[simp] theorem setCtl_mogul (s : State) (j : Nat) (c : SliceCtl) : (s.setCtl j c).mogul = s.mogul := rfl
@[simp] theorem setCtl_ent (s : State) (j : Nat) (c : SliceCtl) : (s.setCtl j c).ent = s.ent := rfl
@[simp] theorem setCtl_ports (s : State) (j : Nat) (c : SliceCtl) : (s.setCtl j c).ports = s.ports := rfl
@[simp] theorem setCtl_takeoverGrace (s : State) (j : Nat) (c : SliceCtl) : (s.setCtl j c).takeoverGrace = s.takeoverGrace := rfl
@[simp] theorem setCtl_sealAreas (s : State) (j : Nat) (c : SliceCtl) : (s.setCtl j c).sealAreas = s.sealAreas := rfl
@[simp] theorem setCtl_link (s : State) (j : Nat) (c : SliceCtl) : (s.setCtl j c).link = s.link := rfl
@[simp] theorem setCtl_power (s : State) (j : Nat) (c : SliceCtl) : (s.setCtl j c).power = s.power := rfl
@[simp] theorem setCtl_louvre (s : State) (j : Nat) (c : SliceCtl) : (s.setCtl j c).louvre = s.louvre := rfl
@[simp] theorem setCtl_thermal (s : State) (j : Nat) (c : SliceCtl) : (s.setCtl j c).thermal = s.thermal := rfl
@[simp] theorem setCtl_irq (s : State) (j : Nat) (c : SliceCtl) : (s.setCtl j c).irq = s.irq := rfl
@[simp] theorem setCtl_log (s : State) (j : Nat) (c : SliceCtl) : (s.setCtl j c).log = s.log := rfl
@[simp] theorem setCtl_dict (s : State) (j : Nat) (c : SliceCtl) : (s.setCtl j c).dict = s.dict := rfl
@[simp] theorem setCtl_det (s : State) (j : Nat) (c : SliceCtl) : (s.setCtl j c).det = s.det := rfl
@[simp] theorem setCtl_flash (s : State) (j : Nat) (c : SliceCtl) : (s.setCtl j c).flash = s.flash := rfl
@[simp] theorem setCtl_sec (s : State) (j : Nat) (c : SliceCtl) : (s.setCtl j c).sec = s.sec := rfl
@[simp] theorem setCtl_start (s : State) (j : Nat) (c : SliceCtl) : (s.setCtl j c).start = s.start := rfl
@[simp] theorem setCtl_pins (s : State) (j : Nat) (c : SliceCtl) : (s.setCtl j c).pins = s.pins := rfl
@[simp] theorem setCtl_pending (s : State) (j : Nat) (c : SliceCtl) : (s.setCtl j c).pending = s.pending := rfl

/-! setStack -/
@[simp] theorem setStack_now (s : State) (j : Nat) (x : StackEnt) : (s.setStack j x).now = s.now := rfl
@[simp] theorem setStack_rink (s : State) (j : Nat) (x : StackEnt) : (s.setStack j x).rink = s.rink := rfl
@[simp] theorem setStack_rinkRun (s : State) (j : Nat) (x : StackEnt) : (s.setStack j x).rinkRun = s.rinkRun := rfl
@[simp] theorem setStack_rinkHalf (s : State) (j : Nat) (x : StackEnt) : (s.setStack j x).rinkHalf = s.rinkHalf := rfl
@[simp] theorem setStack_fresh (s : State) (j : Nat) (x : StackEnt) : (s.setStack j x).fresh = s.fresh := rfl
@[simp] theorem setStack_grid (s : State) (j : Nat) (x : StackEnt) : (s.setStack j x).grid = s.grid := rfl
@[simp] theorem setStack_slots (s : State) (j : Nat) (x : StackEnt) : (s.setStack j x).slots = s.slots := rfl
@[simp] theorem setStack_mogul (s : State) (j : Nat) (x : StackEnt) : (s.setStack j x).mogul = s.mogul := rfl
@[simp] theorem setStack_ent (s : State) (j : Nat) (x : StackEnt) : (s.setStack j x).ent = s.ent := rfl
@[simp] theorem setStack_ports (s : State) (j : Nat) (x : StackEnt) : (s.setStack j x).ports = s.ports := rfl
@[simp] theorem setStack_takeoverGrace (s : State) (j : Nat) (x : StackEnt) : (s.setStack j x).takeoverGrace = s.takeoverGrace := rfl
@[simp] theorem setStack_sealAreas (s : State) (j : Nat) (x : StackEnt) : (s.setStack j x).sealAreas = s.sealAreas := rfl
@[simp] theorem setStack_link (s : State) (j : Nat) (x : StackEnt) : (s.setStack j x).link = s.link := rfl
@[simp] theorem setStack_power (s : State) (j : Nat) (x : StackEnt) : (s.setStack j x).power = s.power := rfl
@[simp] theorem setStack_louvre (s : State) (j : Nat) (x : StackEnt) : (s.setStack j x).louvre = s.louvre := rfl
@[simp] theorem setStack_thermal (s : State) (j : Nat) (x : StackEnt) : (s.setStack j x).thermal = s.thermal := rfl
@[simp] theorem setStack_irq (s : State) (j : Nat) (x : StackEnt) : (s.setStack j x).irq = s.irq := rfl
@[simp] theorem setStack_log (s : State) (j : Nat) (x : StackEnt) : (s.setStack j x).log = s.log := rfl
@[simp] theorem setStack_dict (s : State) (j : Nat) (x : StackEnt) : (s.setStack j x).dict = s.dict := rfl
@[simp] theorem setStack_det (s : State) (j : Nat) (x : StackEnt) : (s.setStack j x).det = s.det := rfl
@[simp] theorem setStack_flash (s : State) (j : Nat) (x : StackEnt) : (s.setStack j x).flash = s.flash := rfl
@[simp] theorem setStack_sec (s : State) (j : Nat) (x : StackEnt) : (s.setStack j x).sec = s.sec := rfl
@[simp] theorem setStack_start (s : State) (j : Nat) (x : StackEnt) : (s.setStack j x).start = s.start := rfl
@[simp] theorem setStack_pins (s : State) (j : Nat) (x : StackEnt) : (s.setStack j x).pins = s.pins := rfl
@[simp] theorem setStack_pending (s : State) (j : Nat) (x : StackEnt) : (s.setStack j x).pending = s.pending := rfl

/-! setSliceEnt -/
@[simp] theorem setSliceEnt_now (s : State) (j : Nat) (x : SliceEnt) : (s.setSliceEnt j x).now = s.now := rfl
@[simp] theorem setSliceEnt_rink (s : State) (j : Nat) (x : SliceEnt) : (s.setSliceEnt j x).rink = s.rink := rfl
@[simp] theorem setSliceEnt_rinkRun (s : State) (j : Nat) (x : SliceEnt) : (s.setSliceEnt j x).rinkRun = s.rinkRun := rfl
@[simp] theorem setSliceEnt_rinkHalf (s : State) (j : Nat) (x : SliceEnt) : (s.setSliceEnt j x).rinkHalf = s.rinkHalf := rfl
@[simp] theorem setSliceEnt_fresh (s : State) (j : Nat) (x : SliceEnt) : (s.setSliceEnt j x).fresh = s.fresh := rfl
@[simp] theorem setSliceEnt_grid (s : State) (j : Nat) (x : SliceEnt) : (s.setSliceEnt j x).grid = s.grid := rfl
@[simp] theorem setSliceEnt_slots (s : State) (j : Nat) (x : SliceEnt) : (s.setSliceEnt j x).slots = s.slots := rfl
@[simp] theorem setSliceEnt_mogul (s : State) (j : Nat) (x : SliceEnt) : (s.setSliceEnt j x).mogul = s.mogul := rfl
@[simp] theorem setSliceEnt_ent (s : State) (j : Nat) (x : SliceEnt) : (s.setSliceEnt j x).ent = s.ent := rfl
@[simp] theorem setSliceEnt_ports (s : State) (j : Nat) (x : SliceEnt) : (s.setSliceEnt j x).ports = s.ports := rfl
@[simp] theorem setSliceEnt_takeoverGrace (s : State) (j : Nat) (x : SliceEnt) : (s.setSliceEnt j x).takeoverGrace = s.takeoverGrace := rfl
@[simp] theorem setSliceEnt_sealAreas (s : State) (j : Nat) (x : SliceEnt) : (s.setSliceEnt j x).sealAreas = s.sealAreas := rfl
@[simp] theorem setSliceEnt_link (s : State) (j : Nat) (x : SliceEnt) : (s.setSliceEnt j x).link = s.link := rfl
@[simp] theorem setSliceEnt_power (s : State) (j : Nat) (x : SliceEnt) : (s.setSliceEnt j x).power = s.power := rfl
@[simp] theorem setSliceEnt_louvre (s : State) (j : Nat) (x : SliceEnt) : (s.setSliceEnt j x).louvre = s.louvre := rfl
@[simp] theorem setSliceEnt_thermal (s : State) (j : Nat) (x : SliceEnt) : (s.setSliceEnt j x).thermal = s.thermal := rfl
@[simp] theorem setSliceEnt_irq (s : State) (j : Nat) (x : SliceEnt) : (s.setSliceEnt j x).irq = s.irq := rfl
@[simp] theorem setSliceEnt_log (s : State) (j : Nat) (x : SliceEnt) : (s.setSliceEnt j x).log = s.log := rfl
@[simp] theorem setSliceEnt_dict (s : State) (j : Nat) (x : SliceEnt) : (s.setSliceEnt j x).dict = s.dict := rfl
@[simp] theorem setSliceEnt_det (s : State) (j : Nat) (x : SliceEnt) : (s.setSliceEnt j x).det = s.det := rfl
@[simp] theorem setSliceEnt_flash (s : State) (j : Nat) (x : SliceEnt) : (s.setSliceEnt j x).flash = s.flash := rfl
@[simp] theorem setSliceEnt_sec (s : State) (j : Nat) (x : SliceEnt) : (s.setSliceEnt j x).sec = s.sec := rfl
@[simp] theorem setSliceEnt_start (s : State) (j : Nat) (x : SliceEnt) : (s.setSliceEnt j x).start = s.start := rfl
@[simp] theorem setSliceEnt_pins (s : State) (j : Nat) (x : SliceEnt) : (s.setSliceEnt j x).pins = s.pins := rfl
@[simp] theorem setSliceEnt_pending (s : State) (j : Nat) (x : SliceEnt) : (s.setSliceEnt j x).pending = s.pending := rfl

/-! answered -/
@[simp] theorem answered_now (s : State) (st : Nat) (b : List Byte) : (s.answered st b).now = s.now := rfl
@[simp] theorem answered_rink (s : State) (st : Nat) (b : List Byte) : (s.answered st b).rink = s.rink := rfl
@[simp] theorem answered_rinkRun (s : State) (st : Nat) (b : List Byte) : (s.answered st b).rinkRun = s.rinkRun := rfl
@[simp] theorem answered_rinkHalf (s : State) (st : Nat) (b : List Byte) : (s.answered st b).rinkHalf = s.rinkHalf := rfl
@[simp] theorem answered_fresh (s : State) (st : Nat) (b : List Byte) : (s.answered st b).fresh = s.fresh := rfl
@[simp] theorem answered_grid (s : State) (st : Nat) (b : List Byte) : (s.answered st b).grid = s.grid := rfl
@[simp] theorem answered_mem (s : State) (st : Nat) (b : List Byte) : (s.answered st b).mem = s.mem := rfl
@[simp] theorem answered_slots (s : State) (st : Nat) (b : List Byte) : (s.answered st b).slots = s.slots := rfl
@[simp] theorem answered_mogul (s : State) (st : Nat) (b : List Byte) : (s.answered st b).mogul = s.mogul := rfl
@[simp] theorem answered_ent (s : State) (st : Nat) (b : List Byte) : (s.answered st b).ent = s.ent := rfl
@[simp] theorem answered_ports (s : State) (st : Nat) (b : List Byte) : (s.answered st b).ports = s.ports := rfl
@[simp] theorem answered_takeoverGrace (s : State) (st : Nat) (b : List Byte) : (s.answered st b).takeoverGrace = s.takeoverGrace := rfl
@[simp] theorem answered_sealAreas (s : State) (st : Nat) (b : List Byte) : (s.answered st b).sealAreas = s.sealAreas := rfl
@[simp] theorem answered_link (s : State) (st : Nat) (b : List Byte) : (s.answered st b).link = s.link := rfl
@[simp] theorem answered_power (s : State) (st : Nat) (b : List Byte) : (s.answered st b).power = s.power := rfl
@[simp] theorem answered_louvre (s : State) (st : Nat) (b : List Byte) : (s.answered st b).louvre = s.louvre := rfl
@[simp] theorem answered_thermal (s : State) (st : Nat) (b : List Byte) : (s.answered st b).thermal = s.thermal := rfl
@[simp] theorem answered_irq (s : State) (st : Nat) (b : List Byte) : (s.answered st b).irq = s.irq := rfl
@[simp] theorem answered_log (s : State) (st : Nat) (b : List Byte) : (s.answered st b).log = s.log := rfl
@[simp] theorem answered_det (s : State) (st : Nat) (b : List Byte) : (s.answered st b).det = s.det := rfl
@[simp] theorem answered_flash (s : State) (st : Nat) (b : List Byte) : (s.answered st b).flash = s.flash := rfl
@[simp] theorem answered_sec (s : State) (st : Nat) (b : List Byte) : (s.answered st b).sec = s.sec := rfl
@[simp] theorem answered_start (s : State) (st : Nat) (b : List Byte) : (s.answered st b).start = s.start := rfl
@[simp] theorem answered_pins (s : State) (st : Nat) (b : List Byte) : (s.answered st b).pins = s.pins := rfl
@[simp] theorem answered_pending (s : State) (st : Nat) (b : List Byte) : (s.answered st b).pending = s.pending := rfl

/-! The fresh-value counter. -/
@[simp] theorem free_now (s : State) (w : Nat) : (s.free w).2.now = s.now := rfl
@[simp] theorem free_rink (s : State) (w : Nat) : (s.free w).2.rink = s.rink := rfl
@[simp] theorem free_rinkRun (s : State) (w : Nat) : (s.free w).2.rinkRun = s.rinkRun := rfl
@[simp] theorem free_rinkHalf (s : State) (w : Nat) : (s.free w).2.rinkHalf = s.rinkHalf := rfl
@[simp] theorem free_grid (s : State) (w : Nat) : (s.free w).2.grid = s.grid := rfl
@[simp] theorem free_mem (s : State) (w : Nat) : (s.free w).2.mem = s.mem := rfl
@[simp] theorem free_slots (s : State) (w : Nat) : (s.free w).2.slots = s.slots := rfl
@[simp] theorem free_mogul (s : State) (w : Nat) : (s.free w).2.mogul = s.mogul := rfl
@[simp] theorem free_ent (s : State) (w : Nat) : (s.free w).2.ent = s.ent := rfl
@[simp] theorem free_ports (s : State) (w : Nat) : (s.free w).2.ports = s.ports := rfl
@[simp] theorem free_takeoverGrace (s : State) (w : Nat) : (s.free w).2.takeoverGrace = s.takeoverGrace := rfl
@[simp] theorem free_sealAreas (s : State) (w : Nat) : (s.free w).2.sealAreas = s.sealAreas := rfl
@[simp] theorem free_link (s : State) (w : Nat) : (s.free w).2.link = s.link := rfl
@[simp] theorem free_power (s : State) (w : Nat) : (s.free w).2.power = s.power := rfl
@[simp] theorem free_louvre (s : State) (w : Nat) : (s.free w).2.louvre = s.louvre := rfl
@[simp] theorem free_thermal (s : State) (w : Nat) : (s.free w).2.thermal = s.thermal := rfl
@[simp] theorem free_irq (s : State) (w : Nat) : (s.free w).2.irq = s.irq := rfl
@[simp] theorem free_log (s : State) (w : Nat) : (s.free w).2.log = s.log := rfl
@[simp] theorem free_dict (s : State) (w : Nat) : (s.free w).2.dict = s.dict := rfl
@[simp] theorem free_det (s : State) (w : Nat) : (s.free w).2.det = s.det := rfl
@[simp] theorem free_flash (s : State) (w : Nat) : (s.free w).2.flash = s.flash := rfl
@[simp] theorem free_sec (s : State) (w : Nat) : (s.free w).2.sec = s.sec := rfl
@[simp] theorem free_start (s : State) (w : Nat) : (s.free w).2.start = s.start := rfl
@[simp] theorem free_pins (s : State) (w : Nat) : (s.free w).2.pins = s.pins := rfl
@[simp] theorem free_pending (s : State) (w : Nat) : (s.free w).2.pending = s.pending := rfl
@[simp] theorem free_fresh (s : State) (w : Nat) : (s.free w).2.fresh = s.fresh + 1 := rfl
@[simp] theorem free_val (s : State) (w : Nat) : (s.free w).1 = Config.freeBits s.fresh w := rfl

/-! Inside the grid, memory, links and power. -/
@[simp] theorem setCore_grid_routers (s : State) (n : Nat) (k : Core) : (s.setCore n k).grid.routers = s.grid.routers := rfl
@[simp] theorem setRouter_grid_cores (s : State) (n : Nat) (r : Router) : (s.setRouter n r).grid.cores = s.grid.cores := rfl
@[simp] theorem setCtl_mem_hbm (s : State) (j : Nat) (c : SliceCtl) : (s.setCtl j c).mem.hbm = s.mem.hbm := rfl
@[simp] theorem setCtl_mem_meta_ (s : State) (j : Nat) (c : SliceCtl) : (s.setCtl j c).mem.meta_ = s.mem.meta_ := rfl
@[simp] theorem setCtl_mem_sliceMap (s : State) (j : Nat) (c : SliceCtl) : (s.setCtl j c).mem.sliceMap = s.mem.sliceMap := rfl
@[simp] theorem setCtl_mem_stackTab (s : State) (j : Nat) (c : SliceCtl) : (s.setCtl j c).mem.stackTab = s.mem.stackTab := rfl
@[simp] theorem setStack_mem_hbm (s : State) (j : Nat) (x : StackEnt) : (s.setStack j x).mem.hbm = s.mem.hbm := rfl
@[simp] theorem setStack_mem_meta_ (s : State) (j : Nat) (x : StackEnt) : (s.setStack j x).mem.meta_ = s.mem.meta_ := rfl
@[simp] theorem setStack_mem_sliceMap (s : State) (j : Nat) (x : StackEnt) : (s.setStack j x).mem.sliceMap = s.mem.sliceMap := rfl
@[simp] theorem setStack_mem_ctl (s : State) (j : Nat) (x : StackEnt) : (s.setStack j x).mem.ctl = s.mem.ctl := rfl
@[simp] theorem setSliceEnt_mem_hbm (s : State) (j : Nat) (x : SliceEnt) : (s.setSliceEnt j x).mem.hbm = s.mem.hbm := rfl
@[simp] theorem setSliceEnt_mem_meta_ (s : State) (j : Nat) (x : SliceEnt) : (s.setSliceEnt j x).mem.meta_ = s.mem.meta_ := rfl
@[simp] theorem setSliceEnt_mem_stackTab (s : State) (j : Nat) (x : SliceEnt) : (s.setSliceEnt j x).mem.stackTab = s.mem.stackTab := rfl
@[simp] theorem setSliceEnt_mem_ctl (s : State) (j : Nat) (x : SliceEnt) : (s.setSliceEnt j x).mem.ctl = s.mem.ctl := rfl

/-! Reads after writes. -/
@[simp] theorem core_setCore_self (s : State) (n : Nat) (k : Core) : (s.setCore n k).core n = k := Table.get_put_self ..
@[simp] theorem core_setCore_ne (s : State) {n j' : Nat} (h : j' ≠ n) (k : Core) : (s.setCore n k).core j' = s.core j' := Table.get_put_ne _ h ..
@[simp] theorem router_setRouter_self (s : State) (n : Nat) (r : Router) : (s.setRouter n r).router n = r := Table.get_put_self ..
@[simp] theorem router_setRouter_ne (s : State) {n j' : Nat} (h : j' ≠ n) (r : Router) : (s.setRouter n r).router j' = s.router j' := Table.get_put_ne _ h ..
@[simp] theorem slot_setSlot_self (s : State) (k : Nat) (x : Slot) : (s.setSlot k x).slot k = x := Table.get_put_self ..
@[simp] theorem slot_setSlot_ne (s : State) {k j' : Nat} (h : j' ≠ k) (x : Slot) : (s.setSlot k x).slot j' = s.slot j' := Table.get_put_ne _ h ..
@[simp] theorem port_setPort_self (s : State) (p : Nat) (x : Port) : (s.setPort p x).port p = x := Table.get_put_self ..
@[simp] theorem port_setPort_ne (s : State) {p j' : Nat} (h : j' ≠ p) (x : Port) : (s.setPort p x).port j' = s.port j' := Table.get_put_ne _ h ..
@[simp] theorem lport_setLport_self (s : State) (p : Nat) (x : LecelPort) : (s.setLport p x).lport p = x := Table.get_put_self ..
@[simp] theorem lport_setLport_ne (s : State) {p j' : Nat} (h : j' ≠ p) (x : LecelPort) : (s.setLport p x).lport j' = s.lport j' := Table.get_put_ne _ h ..
@[simp] theorem domain_setDomain_self (s : State) (d : Nat) (x : Domain) : (s.setDomain d x).domain d = x := Table.get_put_self ..
@[simp] theorem domain_setDomain_ne (s : State) {d j' : Nat} (h : j' ≠ d) (x : Domain) : (s.setDomain d x).domain j' = s.domain j' := Table.get_put_ne _ h ..
@[simp] theorem ctl_setCtl_self (s : State) (j : Nat) (c : SliceCtl) : (s.setCtl j c).ctl j = c := Table.get_put_self ..
@[simp] theorem ctl_setCtl_ne (s : State) {j j' : Nat} (h : j' ≠ j) (c : SliceCtl) : (s.setCtl j c).ctl j' = s.ctl j' := Table.get_put_ne _ h ..
@[simp] theorem stack_setStack_self (s : State) (j : Nat) (x : StackEnt) : (s.setStack j x).stack j = x := Table.get_put_self ..
@[simp] theorem stack_setStack_ne (s : State) {j j' : Nat} (h : j' ≠ j) (x : StackEnt) : (s.setStack j x).stack j' = s.stack j' := Table.get_put_ne _ h ..
@[simp] theorem sliceEnt_setSliceEnt_self (s : State) (j : Nat) (x : SliceEnt) : (s.setSliceEnt j x).sliceEnt j = x := Table.get_put_self ..
@[simp] theorem sliceEnt_setSliceEnt_ne (s : State) {j j' : Nat} (h : j' ≠ j) (x : SliceEnt) : (s.setSliceEnt j x).sliceEnt j' = s.sliceEnt j' := Table.get_put_ne _ h ..
@[simp] theorem slot_onSlot_self (s : State) (p : Nat) (f : Slot → Slot) : (s.onSlot p f).slot p = f (s.slot p) := Table.get_put_self ..
@[simp] theorem slot_onSlot_ne (s : State) {p j : Nat} (h : j ≠ p) (f : Slot → Slot) : (s.onSlot p f).slot j = s.slot j := Table.get_put_ne _ h ..
@[simp] theorem port_onPort_self (s : State) (p : Nat) (f : Port → Port) : (s.onPort p f).port p = f (s.port p) := Table.get_put_self ..
@[simp] theorem port_onPort_ne (s : State) {p j : Nat} (h : j ≠ p) (f : Port → Port) : (s.onPort p f).port j = s.port j := Table.get_put_ne _ h ..
@[simp] theorem lport_onLport_self (s : State) (p : Nat) (f : LecelPort → LecelPort) : (s.onLport p f).lport p = f (s.lport p) := Table.get_put_self ..
@[simp] theorem lport_onLport_ne (s : State) {p j : Nat} (h : j ≠ p) (f : LecelPort → LecelPort) : (s.onLport p f).lport j = s.lport j := Table.get_put_ne _ h ..

/-! A part read after another part is written. -/
@[simp] theorem router_setCore (s : State) (n : Nat) (k : Core) (i : Nat) : (s.setCore n k).router i = s.router i := rfl
@[simp] theorem slot_setCore (s : State) (n : Nat) (k : Core) (i : Nat) : (s.setCore n k).slot i = s.slot i := rfl
@[simp] theorem port_setCore (s : State) (n : Nat) (k : Core) (i : Nat) : (s.setCore n k).port i = s.port i := rfl
@[simp] theorem lport_setCore (s : State) (n : Nat) (k : Core) (i : Nat) : (s.setCore n k).lport i = s.lport i := rfl
@[simp] theorem domain_setCore (s : State) (n : Nat) (k : Core) (i : Nat) : (s.setCore n k).domain i = s.domain i := rfl
@[simp] theorem ctl_setCore (s : State) (n : Nat) (k : Core) (i : Nat) : (s.setCore n k).ctl i = s.ctl i := rfl
@[simp] theorem stack_setCore (s : State) (n : Nat) (k : Core) (i : Nat) : (s.setCore n k).stack i = s.stack i := rfl
@[simp] theorem sliceEnt_setCore (s : State) (n : Nat) (k : Core) (i : Nat) : (s.setCore n k).sliceEnt i = s.sliceEnt i := rfl
@[simp] theorem core_setRouter (s : State) (n : Nat) (r : Router) (i : Nat) : (s.setRouter n r).core i = s.core i := rfl
@[simp] theorem slot_setRouter (s : State) (n : Nat) (r : Router) (i : Nat) : (s.setRouter n r).slot i = s.slot i := rfl
@[simp] theorem port_setRouter (s : State) (n : Nat) (r : Router) (i : Nat) : (s.setRouter n r).port i = s.port i := rfl
@[simp] theorem lport_setRouter (s : State) (n : Nat) (r : Router) (i : Nat) : (s.setRouter n r).lport i = s.lport i := rfl
@[simp] theorem domain_setRouter (s : State) (n : Nat) (r : Router) (i : Nat) : (s.setRouter n r).domain i = s.domain i := rfl
@[simp] theorem ctl_setRouter (s : State) (n : Nat) (r : Router) (i : Nat) : (s.setRouter n r).ctl i = s.ctl i := rfl
@[simp] theorem stack_setRouter (s : State) (n : Nat) (r : Router) (i : Nat) : (s.setRouter n r).stack i = s.stack i := rfl
@[simp] theorem sliceEnt_setRouter (s : State) (n : Nat) (r : Router) (i : Nat) : (s.setRouter n r).sliceEnt i = s.sliceEnt i := rfl
@[simp] theorem core_setSlot (s : State) (k : Nat) (x : Slot) (i : Nat) : (s.setSlot k x).core i = s.core i := rfl
@[simp] theorem router_setSlot (s : State) (k : Nat) (x : Slot) (i : Nat) : (s.setSlot k x).router i = s.router i := rfl
@[simp] theorem port_setSlot (s : State) (k : Nat) (x : Slot) (i : Nat) : (s.setSlot k x).port i = s.port i := rfl
@[simp] theorem lport_setSlot (s : State) (k : Nat) (x : Slot) (i : Nat) : (s.setSlot k x).lport i = s.lport i := rfl
@[simp] theorem domain_setSlot (s : State) (k : Nat) (x : Slot) (i : Nat) : (s.setSlot k x).domain i = s.domain i := rfl
@[simp] theorem ctl_setSlot (s : State) (k : Nat) (x : Slot) (i : Nat) : (s.setSlot k x).ctl i = s.ctl i := rfl
@[simp] theorem stack_setSlot (s : State) (k : Nat) (x : Slot) (i : Nat) : (s.setSlot k x).stack i = s.stack i := rfl
@[simp] theorem sliceEnt_setSlot (s : State) (k : Nat) (x : Slot) (i : Nat) : (s.setSlot k x).sliceEnt i = s.sliceEnt i := rfl
@[simp] theorem core_onSlot (s : State) (k : Nat) (f : Slot → Slot) (i : Nat) : (s.onSlot k f).core i = s.core i := rfl
@[simp] theorem router_onSlot (s : State) (k : Nat) (f : Slot → Slot) (i : Nat) : (s.onSlot k f).router i = s.router i := rfl
@[simp] theorem port_onSlot (s : State) (k : Nat) (f : Slot → Slot) (i : Nat) : (s.onSlot k f).port i = s.port i := rfl
@[simp] theorem lport_onSlot (s : State) (k : Nat) (f : Slot → Slot) (i : Nat) : (s.onSlot k f).lport i = s.lport i := rfl
@[simp] theorem domain_onSlot (s : State) (k : Nat) (f : Slot → Slot) (i : Nat) : (s.onSlot k f).domain i = s.domain i := rfl
@[simp] theorem ctl_onSlot (s : State) (k : Nat) (f : Slot → Slot) (i : Nat) : (s.onSlot k f).ctl i = s.ctl i := rfl
@[simp] theorem stack_onSlot (s : State) (k : Nat) (f : Slot → Slot) (i : Nat) : (s.onSlot k f).stack i = s.stack i := rfl
@[simp] theorem sliceEnt_onSlot (s : State) (k : Nat) (f : Slot → Slot) (i : Nat) : (s.onSlot k f).sliceEnt i = s.sliceEnt i := rfl
@[simp] theorem core_setPort (s : State) (p : Nat) (x : Port) (i : Nat) : (s.setPort p x).core i = s.core i := rfl
@[simp] theorem router_setPort (s : State) (p : Nat) (x : Port) (i : Nat) : (s.setPort p x).router i = s.router i := rfl
@[simp] theorem slot_setPort (s : State) (p : Nat) (x : Port) (i : Nat) : (s.setPort p x).slot i = s.slot i := rfl
@[simp] theorem lport_setPort (s : State) (p : Nat) (x : Port) (i : Nat) : (s.setPort p x).lport i = s.lport i := rfl
@[simp] theorem domain_setPort (s : State) (p : Nat) (x : Port) (i : Nat) : (s.setPort p x).domain i = s.domain i := rfl
@[simp] theorem ctl_setPort (s : State) (p : Nat) (x : Port) (i : Nat) : (s.setPort p x).ctl i = s.ctl i := rfl
@[simp] theorem stack_setPort (s : State) (p : Nat) (x : Port) (i : Nat) : (s.setPort p x).stack i = s.stack i := rfl
@[simp] theorem sliceEnt_setPort (s : State) (p : Nat) (x : Port) (i : Nat) : (s.setPort p x).sliceEnt i = s.sliceEnt i := rfl
@[simp] theorem core_onPort (s : State) (p : Nat) (f : Port → Port) (i : Nat) : (s.onPort p f).core i = s.core i := rfl
@[simp] theorem router_onPort (s : State) (p : Nat) (f : Port → Port) (i : Nat) : (s.onPort p f).router i = s.router i := rfl
@[simp] theorem slot_onPort (s : State) (p : Nat) (f : Port → Port) (i : Nat) : (s.onPort p f).slot i = s.slot i := rfl
@[simp] theorem lport_onPort (s : State) (p : Nat) (f : Port → Port) (i : Nat) : (s.onPort p f).lport i = s.lport i := rfl
@[simp] theorem domain_onPort (s : State) (p : Nat) (f : Port → Port) (i : Nat) : (s.onPort p f).domain i = s.domain i := rfl
@[simp] theorem ctl_onPort (s : State) (p : Nat) (f : Port → Port) (i : Nat) : (s.onPort p f).ctl i = s.ctl i := rfl
@[simp] theorem stack_onPort (s : State) (p : Nat) (f : Port → Port) (i : Nat) : (s.onPort p f).stack i = s.stack i := rfl
@[simp] theorem sliceEnt_onPort (s : State) (p : Nat) (f : Port → Port) (i : Nat) : (s.onPort p f).sliceEnt i = s.sliceEnt i := rfl
@[simp] theorem core_setLport (s : State) (p : Nat) (x : LecelPort) (i : Nat) : (s.setLport p x).core i = s.core i := rfl
@[simp] theorem router_setLport (s : State) (p : Nat) (x : LecelPort) (i : Nat) : (s.setLport p x).router i = s.router i := rfl
@[simp] theorem slot_setLport (s : State) (p : Nat) (x : LecelPort) (i : Nat) : (s.setLport p x).slot i = s.slot i := rfl
@[simp] theorem port_setLport (s : State) (p : Nat) (x : LecelPort) (i : Nat) : (s.setLport p x).port i = s.port i := rfl
@[simp] theorem domain_setLport (s : State) (p : Nat) (x : LecelPort) (i : Nat) : (s.setLport p x).domain i = s.domain i := rfl
@[simp] theorem ctl_setLport (s : State) (p : Nat) (x : LecelPort) (i : Nat) : (s.setLport p x).ctl i = s.ctl i := rfl
@[simp] theorem stack_setLport (s : State) (p : Nat) (x : LecelPort) (i : Nat) : (s.setLport p x).stack i = s.stack i := rfl
@[simp] theorem sliceEnt_setLport (s : State) (p : Nat) (x : LecelPort) (i : Nat) : (s.setLport p x).sliceEnt i = s.sliceEnt i := rfl
@[simp] theorem core_onLport (s : State) (p : Nat) (f : LecelPort → LecelPort) (i : Nat) : (s.onLport p f).core i = s.core i := rfl
@[simp] theorem router_onLport (s : State) (p : Nat) (f : LecelPort → LecelPort) (i : Nat) : (s.onLport p f).router i = s.router i := rfl
@[simp] theorem slot_onLport (s : State) (p : Nat) (f : LecelPort → LecelPort) (i : Nat) : (s.onLport p f).slot i = s.slot i := rfl
@[simp] theorem port_onLport (s : State) (p : Nat) (f : LecelPort → LecelPort) (i : Nat) : (s.onLport p f).port i = s.port i := rfl
@[simp] theorem domain_onLport (s : State) (p : Nat) (f : LecelPort → LecelPort) (i : Nat) : (s.onLport p f).domain i = s.domain i := rfl
@[simp] theorem ctl_onLport (s : State) (p : Nat) (f : LecelPort → LecelPort) (i : Nat) : (s.onLport p f).ctl i = s.ctl i := rfl
@[simp] theorem stack_onLport (s : State) (p : Nat) (f : LecelPort → LecelPort) (i : Nat) : (s.onLport p f).stack i = s.stack i := rfl
@[simp] theorem sliceEnt_onLport (s : State) (p : Nat) (f : LecelPort → LecelPort) (i : Nat) : (s.onLport p f).sliceEnt i = s.sliceEnt i := rfl
@[simp] theorem core_setDomain (s : State) (d : Nat) (x : Domain) (i : Nat) : (s.setDomain d x).core i = s.core i := rfl
@[simp] theorem router_setDomain (s : State) (d : Nat) (x : Domain) (i : Nat) : (s.setDomain d x).router i = s.router i := rfl
@[simp] theorem slot_setDomain (s : State) (d : Nat) (x : Domain) (i : Nat) : (s.setDomain d x).slot i = s.slot i := rfl
@[simp] theorem port_setDomain (s : State) (d : Nat) (x : Domain) (i : Nat) : (s.setDomain d x).port i = s.port i := rfl
@[simp] theorem lport_setDomain (s : State) (d : Nat) (x : Domain) (i : Nat) : (s.setDomain d x).lport i = s.lport i := rfl
@[simp] theorem ctl_setDomain (s : State) (d : Nat) (x : Domain) (i : Nat) : (s.setDomain d x).ctl i = s.ctl i := rfl
@[simp] theorem stack_setDomain (s : State) (d : Nat) (x : Domain) (i : Nat) : (s.setDomain d x).stack i = s.stack i := rfl
@[simp] theorem sliceEnt_setDomain (s : State) (d : Nat) (x : Domain) (i : Nat) : (s.setDomain d x).sliceEnt i = s.sliceEnt i := rfl
@[simp] theorem core_setCtl (s : State) (j : Nat) (c : SliceCtl) (i : Nat) : (s.setCtl j c).core i = s.core i := rfl
@[simp] theorem router_setCtl (s : State) (j : Nat) (c : SliceCtl) (i : Nat) : (s.setCtl j c).router i = s.router i := rfl
@[simp] theorem slot_setCtl (s : State) (j : Nat) (c : SliceCtl) (i : Nat) : (s.setCtl j c).slot i = s.slot i := rfl
@[simp] theorem port_setCtl (s : State) (j : Nat) (c : SliceCtl) (i : Nat) : (s.setCtl j c).port i = s.port i := rfl
@[simp] theorem lport_setCtl (s : State) (j : Nat) (c : SliceCtl) (i : Nat) : (s.setCtl j c).lport i = s.lport i := rfl
@[simp] theorem domain_setCtl (s : State) (j : Nat) (c : SliceCtl) (i : Nat) : (s.setCtl j c).domain i = s.domain i := rfl
@[simp] theorem stack_setCtl (s : State) (j : Nat) (c : SliceCtl) (i : Nat) : (s.setCtl j c).stack i = s.stack i := rfl
@[simp] theorem sliceEnt_setCtl (s : State) (j : Nat) (c : SliceCtl) (i : Nat) : (s.setCtl j c).sliceEnt i = s.sliceEnt i := rfl
@[simp] theorem core_setStack (s : State) (j : Nat) (x : StackEnt) (i : Nat) : (s.setStack j x).core i = s.core i := rfl
@[simp] theorem router_setStack (s : State) (j : Nat) (x : StackEnt) (i : Nat) : (s.setStack j x).router i = s.router i := rfl
@[simp] theorem slot_setStack (s : State) (j : Nat) (x : StackEnt) (i : Nat) : (s.setStack j x).slot i = s.slot i := rfl
@[simp] theorem port_setStack (s : State) (j : Nat) (x : StackEnt) (i : Nat) : (s.setStack j x).port i = s.port i := rfl
@[simp] theorem lport_setStack (s : State) (j : Nat) (x : StackEnt) (i : Nat) : (s.setStack j x).lport i = s.lport i := rfl
@[simp] theorem domain_setStack (s : State) (j : Nat) (x : StackEnt) (i : Nat) : (s.setStack j x).domain i = s.domain i := rfl
@[simp] theorem ctl_setStack (s : State) (j : Nat) (x : StackEnt) (i : Nat) : (s.setStack j x).ctl i = s.ctl i := rfl
@[simp] theorem sliceEnt_setStack (s : State) (j : Nat) (x : StackEnt) (i : Nat) : (s.setStack j x).sliceEnt i = s.sliceEnt i := rfl
@[simp] theorem core_setSliceEnt (s : State) (j : Nat) (x : SliceEnt) (i : Nat) : (s.setSliceEnt j x).core i = s.core i := rfl
@[simp] theorem router_setSliceEnt (s : State) (j : Nat) (x : SliceEnt) (i : Nat) : (s.setSliceEnt j x).router i = s.router i := rfl
@[simp] theorem slot_setSliceEnt (s : State) (j : Nat) (x : SliceEnt) (i : Nat) : (s.setSliceEnt j x).slot i = s.slot i := rfl
@[simp] theorem port_setSliceEnt (s : State) (j : Nat) (x : SliceEnt) (i : Nat) : (s.setSliceEnt j x).port i = s.port i := rfl
@[simp] theorem lport_setSliceEnt (s : State) (j : Nat) (x : SliceEnt) (i : Nat) : (s.setSliceEnt j x).lport i = s.lport i := rfl
@[simp] theorem domain_setSliceEnt (s : State) (j : Nat) (x : SliceEnt) (i : Nat) : (s.setSliceEnt j x).domain i = s.domain i := rfl
@[simp] theorem ctl_setSliceEnt (s : State) (j : Nat) (x : SliceEnt) (i : Nat) : (s.setSliceEnt j x).ctl i = s.ctl i := rfl
@[simp] theorem stack_setSliceEnt (s : State) (j : Nat) (x : SliceEnt) (i : Nat) : (s.setSliceEnt j x).stack i = s.stack i := rfl
@[simp] theorem core_answered (s : State) (st : Nat) (b : List Byte) (i : Nat) : (s.answered st b).core i = s.core i := rfl
@[simp] theorem router_answered (s : State) (st : Nat) (b : List Byte) (i : Nat) : (s.answered st b).router i = s.router i := rfl
@[simp] theorem slot_answered (s : State) (st : Nat) (b : List Byte) (i : Nat) : (s.answered st b).slot i = s.slot i := rfl
@[simp] theorem port_answered (s : State) (st : Nat) (b : List Byte) (i : Nat) : (s.answered st b).port i = s.port i := rfl
@[simp] theorem lport_answered (s : State) (st : Nat) (b : List Byte) (i : Nat) : (s.answered st b).lport i = s.lport i := rfl
@[simp] theorem domain_answered (s : State) (st : Nat) (b : List Byte) (i : Nat) : (s.answered st b).domain i = s.domain i := rfl
@[simp] theorem ctl_answered (s : State) (st : Nat) (b : List Byte) (i : Nat) : (s.answered st b).ctl i = s.ctl i := rfl
@[simp] theorem stack_answered (s : State) (st : Nat) (b : List Byte) (i : Nat) : (s.answered st b).stack i = s.stack i := rfl
@[simp] theorem sliceEnt_answered (s : State) (st : Nat) (b : List Byte) (i : Nat) : (s.answered st b).sliceEnt i = s.sliceEnt i := rfl

end State
end Sys2Proof.Machine
end

