-- ==== Sys2Proof/Laws/Grid.lean ====
section
/-! SUPPORT. What mapped tables, changes of a slot, and the operations of R222 over a slot's cores, routers and slices do. -/
namespace Sys2Proof.Machine
open State

/-- A listed entry of a mapped table. -/
theorem Table.get_mapVals {α} (d : α) (f : Nat → α → α) (k : Nat) (t : Table α) (h : Table.has k t = true) :
    Table.get d k (Table.mapVals f t) = f k (Table.get d k t) := by
  induction t with
  | nil => simp [Table.has] at h
  | cons c t ih =>
    obtain ⟨k', w⟩ := c
    simp only [Table.mapVals, Table.get, Table.has] at *
    split
    · subst k'; rfl
    · simp_all

/-- A mapped table lists what the table listed. -/
theorem Table.has_mapVals {α} (f : Nat → α → α) (k : Nat) (t : Table α) : Table.has k (Table.mapVals f t) = Table.has k t := by
  induction t with
  | nil => rfl
  | cons c t ih => obtain ⟨k', w⟩ := c; simp only [Table.mapVals, Table.has, ih]

/-- The later of two writes to one entry stands. -/
theorem Table.put_put {α} (k : Nat) (a b : α) (t : Table α) : Table.put k b (Table.put k a t) = Table.put k b t := by
  induction t with
  | nil => simp [Table.put]
  | cons c t ih =>
    obtain ⟨k', w⟩ := c
    simp only [Table.put]
    split
    · simp [Table.put]
    · rename_i h1; split
      · simp [Table.put]
      · rename_i h2; simp only [Table.put, h1, h2, if_false, ih]

/-- What a change of the cores of slot k does to a listed core. -/
theorem State.core_onCores (s : State) (k : Nat) (f : Core → Core) (n : Nat) (h : Table.has n s.grid.cores = true) :
   (s.onCores k f).core n = if (s.core n).slot == k then f (s.core n) else s.core n := by
  simp only [State.core, State.onCores]; rw [Table.get_mapVals _ _ _ _ h]; rfl

/-- What a change of the routers of slot k does to a listed router. -/
theorem State.router_onRouters (s : State) (k : Nat) (f : Router → Router) (n : Nat) (h : Table.has n s.grid.routers = true) :
   (s.onRouters k f).router n = if (s.router n).slot == k then f (s.router n) else s.router n := by
  simp only [State.router, State.onRouters]; rw [Table.get_mapVals _ _ _ _ h]; rfl

/-- Emptying the controllers of a slot changes the controllers only. -/
theorem State.clearSlices_eq (s : State) (k : Nat) : ∃ c, s.clearSlices k = { s with mem := { s.mem with ctl := c } } := by
  unfold State.clearSlices
  generalize s.slotSlices k = l
  induction l generalizing s with
  | nil => exact ⟨s.mem.ctl, rfl⟩
  | cons j l ih =>
    simp only [List.foldl_cons]
    split
    · exact ih s
    · obtain ⟨c, e⟩ := ih (s.setCtl j { s.ctl j with inbound := [], reqs := [], reads := [] })
      exact ⟨c, e⟩

/-- Zeroing the fingerprints of a slot's slices changes the controllers only. -/
theorem State.zeroSliceFps_eq (s : State) (k : Nat) : ∃ c, s.zeroSliceFps k = { s with mem := { s.mem with ctl := c } } := by
  unfold State.zeroSliceFps
  generalize s.slotSlices k = l
  induction l generalizing s with
  | nil => exact ⟨s.mem.ctl, rfl⟩
  | cons j l ih =>
    simp only [List.foldl_cons]
    split
    · exact ih s
    · obtain ⟨c, e⟩ := ih (s.setCtl j { s.ctl j with fp := 0 })
      exact ⟨c, e⟩

/-- A slot after a change of slot k. -/
theorem State.slot_onSlot_if (s : State) (k j : Nat) (f : Slot → Slot) : (s.onSlot k f).slot j = if j = k then f (s.slot k) else s.slot j := by
  by_cases h : j = k
  · subst h; simp
  · simp [h, State.slot_onSlot_ne]

/-- The later of two writes of slot k stands. -/
theorem State.setSlot_setSlot (s : State) (k : Nat) (x y : Slot) : (s.setSlot k x).setSlot k y = s.setSlot k y := by
  simp only [State.setSlot, Table.put_put]

/-- Two changes of slot k are one. -/
theorem State.onSlot_onSlot (s : State) (k : Nat) (f g : Slot → Slot) : (s.onSlot k f).onSlot k g = s.onSlot k (fun x => g (f x)) := by
  simp only [State.onSlot, State.setSlot_setSlot]; simp

/-- A slot after a write of slot k. -/
theorem State.slot_setSlot_if (s : State) (k j : Nat) (x : Slot) : (s.setSlot k x).slot j = if j = k then x else s.slot j := by
  by_cases h : j = k
  · subst h; simp
  · simp [h]

end Sys2Proof.Machine
end

