-- ==== Sys2Proof/Laws/Keep.lean ====
section
/-! SUPPORT. What an operation keeps: the queue, and the soundness of the state. One lemma per operation says it; these are
the rules they are built from. -/
namespace Sys2Proof.Machine

/-- t has the queue of s, and is sound if s is. -/
structure Keep (s t : State) : Prop where
  pending : t.pending = s.pending
  sound : Sound s → Sound t

namespace Keep

theorem refl (s : State) : Keep s s := ⟨rfl, id⟩

theorem trans {a b c : State} (h : Keep a b) (h' : Keep b c) : Keep a c := ⟨h'.pending.trans h.pending, h'.sound ∘ h.sound⟩

/-- What Sound reads is unchanged. -/
theorem of {s t : State} (hp : t.pending = s.pending) (hm : t.mem.hbm = s.mem.hbm) (hc : t.grid.cores = s.grid.cores)
    (h1 : t.det.strict = s.det.strict) (h2 : t.det.strictLock = s.det.strictLock) (h3 : t.pins.alertN = s.pins.alertN)
    (h4 : t.irq.alert = s.irq.alert) : Keep s t :=
  ⟨hp, fun h => ⟨hm ▸ h.hbm, hc ▸ h.cores, fun e => by rw [h1]; exact h.strict (h2 ▸ e), by rw [h3, h4]; exact h.alert⟩⟩

/-- A record update over u that leaves what Sound reads. -/
theorem upd {s u : State} {now rink rinkRun rinkHalf fresh grid mem slots mogul ent ports takeoverGrace sealAreas link power
    louvre thermal irq log dict det flash sec start pins pending} (h : Keep s u) (hp : pending = u.pending)
    (hm : mem.hbm = u.mem.hbm) (hc : grid.cores = u.grid.cores) (h1 : det.strict = u.det.strict)
    (h2 : det.strictLock = u.det.strictLock) (h3 : pins.alertN = u.pins.alertN) (h4 : irq.alert = u.irq.alert) :
    Keep s (State.mk now rink rinkRun rinkHalf fresh grid mem slots mogul ent ports takeoverGrace sealAreas link power
      louvre thermal irq log dict det flash sec start pins pending) :=
  h.trans (of hp hm hc h1 h2 h3 h4)

theorem ite {c : Prop} [Decidable c] {s a b : State} (ha : Keep s a) (hb : Keep s b) : Keep s (if c then a else b) := by
  split
  · exact ha
  · exact hb

theorem foldl {α : Type} {f : State → α → State} (hf : ∀ s x, Keep s (f s x)) (l : List α) (s : State) :
    Keep s (l.foldl f s) := by
  induction l generalizing s with
  | nil => exact refl s
  | cons x l ih => exact (hf s x).trans (ih _)

theorem foldr {α : Type} {f : α → State → State} (hf : ∀ s x, Keep s (f x s)) (l : List α) (s : State) :
    Keep s (l.foldr f s) := by
  induction l with
  | nil => exact refl s
  | cons x l ih => exact ih.trans (hf _ x)

end Keep

theorem coresSound_put {l : Table Core} {n : Nat} {k : Core} (h : CoresSound l) (w : k.MemWf) : CoresSound (Table.put n k l) :=
  ⟨Table.sorted_put n k h.1, fun c hc => by
    rcases Table.mem_put hc with rfl | hc
    · exact w
    · exact h.2 c hc⟩

theorem coresSound_filter {l : Table Core} (p : Nat × Core → Bool) (h : CoresSound l) : CoresSound (l.filter p) :=
  ⟨Table.sorted_filter p h.1, fun c hc => h.2 c (List.mem_filter.mp hc).1⟩

theorem coresSound_mapVals {l : Table Core} {f : Nat → Core → Core} (hf : ∀ n k, k.MemWf → (f n k).MemWf) (h : CoresSound l) :
    CoresSound (Table.mapVals f l) :=
  ⟨Table.sorted_mapVals f h.1, fun c hc => by
    obtain ⟨v, hv, e⟩ := Table.mem_mapVals hc
    rw [e]
    exact hf _ _ (h.2 _ hv)⟩

theorem Sound.core {s : State} (h : Sound s) (n : Nat) : (s.core n).MemWf := by
  rcases Table.get_or Core.fresh n s.grid.cores with e | e
  · rw [State.core, e]; exact Core.memWf_fresh
  · exact h.cores.2 _ e

theorem Sound.setCore {s : State} (h : Sound s) {n : Nat} {k : Core} (w : k.MemWf) : Sound (s.setCore n k) :=
  ⟨h.hbm, coresSound_put h.cores w, h.strict, h.alert⟩

/-- A core replaced by one whose memories are in canonical form if its own were. -/
theorem keep_setCore {s : State} {n : Nat} {k : Core} (w : (s.core n).MemWf → k.MemWf) : Keep s (s.setCore n k) :=
  ⟨rfl, fun h => h.setCore (w (h.core n))⟩

theorem keep_setCore_eq (s : State) (n : Nat) (k : Core) (w : Core.MemEq (s.core n) k) : Keep s (s.setCore n k) :=
  keep_setCore w.wf

theorem keep_alertUpdate (s : State) : Keep s s.alertUpdate := ⟨rfl, fun h => ⟨h.hbm, h.cores, h.strict, rfl⟩⟩

/-- HBM replaced by a memory in canonical form. -/
theorem keep_hbm {s t : State} (hp : t.pending = s.pending) (hc : t.grid = s.grid) (h1 : t.det = s.det) (h3 : t.pins = s.pins)
    (h4 : t.irq = s.irq) (hm : s.mem.hbm.wf = true → t.mem.hbm.wf = true) : Keep s t :=
  ⟨hp, fun h => ⟨hm h.hbm, hc ▸ h.cores, h1 ▸ h.strict, by rw [h3, h4]; exact h.alert⟩⟩

end Sys2Proof.Machine
end

