-- ==== Sys2Proof/Laws/KeepOps.lean ====
section
/-! SUPPORT. What the shared operations over the state keep. -/
namespace Sys2Proof.Machine

/-! Ops -/

theorem keep_setRouter (s : State) (n : Nat) (r : Router) : Keep s (State.setRouter s n r) := by
  unfold State.setRouter
  exact .upd (.refl _) rfl rfl rfl rfl rfl rfl rfl

theorem keep_setSlot (s : State) (k : Nat) (x : Slot) : Keep s (State.setSlot s k x) := by
  unfold State.setSlot
  exact .upd (.refl _) rfl rfl rfl rfl rfl rfl rfl

theorem keep_onSlot (s : State) (k : Nat) (f : Slot → Slot) : Keep s (State.onSlot s k f) := by
  unfold State.onSlot
  exact keep_setSlot ..

theorem keep_setPort (s : State) (p : Nat) (x : Port) : Keep s (State.setPort s p x) := by
  unfold State.setPort
  exact .upd (.refl _) rfl rfl rfl rfl rfl rfl rfl

theorem keep_onPort (s : State) (p : Nat) (f : Port → Port) : Keep s (State.onPort s p f) := by
  unfold State.onPort
  exact keep_setPort ..

theorem keep_setLport (s : State) (p : Nat) (x : LecelPort) : Keep s (State.setLport s p x) := by
  unfold State.setLport
  exact .upd (.refl _) rfl rfl rfl rfl rfl rfl rfl

theorem keep_onLport (s : State) (p : Nat) (f : LecelPort → LecelPort) : Keep s (State.onLport s p f) := by
  unfold State.onLport
  exact keep_setLport ..

theorem keep_setDomain (s : State) (d : Nat) (x : Domain) : Keep s (State.setDomain s d x) := by
  unfold State.setDomain
  exact .upd (.refl _) rfl rfl rfl rfl rfl rfl rfl

theorem keep_setCtl (s : State) (j : Nat) (c : SliceCtl) : Keep s (State.setCtl s j c) := by
  unfold State.setCtl
  exact .upd (.refl _) rfl rfl rfl rfl rfl rfl rfl

theorem keep_setStack (s : State) (st : Nat) (x : StackEnt) : Keep s (State.setStack s st x) := by
  unfold State.setStack
  exact .upd (.refl _) rfl rfl rfl rfl rfl rfl rfl

theorem keep_setSliceEnt (s : State) (j : Nat) (x : SliceEnt) : Keep s (State.setSliceEnt s j x) := by
  unfold State.setSliceEnt
  exact .upd (.refl _) rfl rfl rfl rfl rfl rfl rfl

theorem keep_free (s : State) (w : Nat) : Keep s (State.free s w).2 := by
  unfold State.free
  dsimp only
  exact .upd (.refl _) rfl rfl rfl rfl rfl rfl rfl

theorem keep_observe (s : State) (m : Nat) (v : Int) : Keep s (State.observe s m v) := by
  unfold State.observe
  split
  · exact .refl _
  · exact .upd (.refl _) rfl rfl rfl rfl rfl rfl rfl

theorem keep_tallyEvent (s : State) (m : Nat) (d : Nat) : Keep s (State.tallyEvent s m d) := by
  unfold State.tallyEvent
  exact .upd (.refl _) rfl rfl rfl rfl rfl rfl rfl

theorem keep_msix (s : State) (p : Nat) (v : Nat) : Keep s (State.msix s p v) := by
  unfold State.msix
  extract_lets x1 x2
  exact .ite (.refl _) (.ite (keep_setPort ..) (keep_setPort ..))

theorem keep_irqUpdate (old : State) (s : State) : Keep s (State.irqUpdate old s) := by
  unfold State.irqUpdate
  extract_lets x1
  refine .trans ?_ (keep_alertUpdate ..)
  subst x1
  dsimp -zeta only
  split
  · refine .ite ?_ ?_
    · refine .trans ?_ (keep_msix ..)
      split
      · exact .ite (keep_msix ..) (.refl _)
      · exact .refl _
    · split
      · exact .ite (keep_msix ..) (.refl _)
      · exact .refl _
  · split
    · exact .ite (keep_msix ..) (.refl _)
    · exact .refl _

theorem keep_onSource (s : State) (n : Nat) (f : Source → Source) : Keep s (State.onSource s n f) := by
  unfold State.onSource
  extract_lets x1 x2
  have h3 : Keep s x2 := by subst x2; exact .upd (.refl _) rfl rfl rfl rfl rfl rfl rfl
  clear_value x2
  exact .trans h3 (keep_irqUpdate ..)

theorem keep_fire (s : State) (n : Nat) : Keep s (State.fire s n) := by
  unfold State.fire
  exact .ite (.refl _) (.trans (keep_onSource ..) (keep_tallyEvent ..))

theorem keep_fireSlot (s : State) (k : Nat) (e : Nat) : Keep s (State.fireSlot s k e) := by
  unfold State.fireSlot
  exact keep_fire ..

/-! LapOps -/

theorem keep_setSite (s : State) (n : Nat) (x : Site) : Keep s (State.setSite s n x) := by
  unfold State.setSite
  exact .upd (.refl _) rfl rfl rfl rfl rfl rfl rfl

theorem keep_enterFirst (s : State) (k : Nat) (attempt : Nat) (r : FaultRec) : Keep s (State.enterFirst s k attempt r) := by
  unfold State.enterFirst
  exact keep_onSlot ..

theorem keep_keepFault (s : State) (k : Nat) (r : FaultRec) : Keep s (State.keepFault s k r) := by
  unfold State.keepFault
  exact keep_onSlot ..

theorem keep_raise (s : State) (k : Nat) (r : FaultRec) : Keep s (State.raise s k r) := by
  unfold State.raise
  exact .ite (.trans (keep_keepFault ..) (keep_onSlot ..)) (.refl _)

theorem keep_raiseNow (s : State) (k : Nat) (core : Nat) (code : Nat) : Keep s (State.raiseNow s k core code) := by
  unfold State.raiseNow
  refine .ite ?_ ?_
  · extract_lets x1
    exact .trans (keep_raise ..) (keep_enterFirst ..)
  · exact .refl _

theorem keep_abortBy (s : State) (k : Nat) (t : Nat) : Keep s (State.abortBy s k t) := by
  unfold State.abortBy
  exact keep_onSlot ..

theorem keep_porterCause (s : State) (k : Nat) (code : Nat) : Keep s (State.porterCause s k code) := by
  unfold State.porterCause
  refine .ite ?_ ?_
  · extract_lets x1
    exact .trans (keep_keepFault ..) (keep_enterFirst ..)
  · exact .refl _

theorem keep_porterFault (s : State) (k : Nat) (code : Nat) : Keep s (State.porterFault s k code) := by
  unfold State.porterFault
  exact .ite (.trans (keep_porterCause ..) (keep_abortBy ..)) (.refl _)

theorem keep_openReport (s : State) (src : Nat) (router : Bool) (k : Nat) (code : Nat) (cc : Nat) (pc : Nat) :
    Keep s (State.openReport s src router k code cc pc) := by
  unfold State.openReport
  extract_lets x1 x2 x3 x4
  exact .upd (.refl _) rfl rfl rfl rfl rfl rfl rfl

theorem keep_routerFault (s : State) (n : Nat) (code : Nat) : Keep s (State.routerFault s n code) := by
  unfold State.routerFault
  extract_lets x1
  exact .ite (.trans (keep_raise ..) (keep_openReport ..)) (.refl _)

theorem keep_evidenceAll (s : State) : Keep s (State.evidenceAll s) := by
  unfold State.evidenceAll
  exact .upd (.refl _) rfl rfl rfl rfl rfl rfl rfl

theorem keep_countCorrected (s : State) : Keep s (State.countCorrected s) := by
  unfold State.countCorrected
  exact .upd (.refl _) rfl rfl rfl rfl rfl rfl rfl

theorem keep_onCore {s : State} {n : Nat} {f : Core → LapCtx → Core} (hf : ∀ k x, k.MemWf → (f k x).MemWf) :
    Keep s (s.onCore n f) :=
  .ite (keep_setCore (hf _ _)) (.refl s)

theorem keep_onSlotOp {s : State} {n : Nat} {sl : OpSlot} {carries : Nat → Bool} {upset : Bool} {f : Core → LapCtx → Core}
    (hf : ∀ k x, Core.MemEq k (f k x)) : Keep s (s.onSlotOp n sl carries upset f) :=
  keep_onCore fun _ x w => (Core.memEq_given x _ _ _ (fun k => hf k x)).wf w

theorem keep_onCt (s : State) (n : Nat) (op : Nat) (arg : BitVec 12) (upset : Bool) {f : Core → LapCtx → Core} (hf : ∀ k x, Core.MemEq k (f k x)) :
    Keep s (State.onCt s n op arg upset f) := keep_onSlotOp hf

theorem keep_onMx (s : State) (n : Nat) (op : Nat) (g : MxFields) (upset : Bool) {f : Core → LapCtx → Core} (hf : ∀ k x, Core.MemEq k (f k x)) :
    Keep s (State.onMx s n op g upset f) := keep_onSlotOp hf

theorem keep_onVx (s : State) (n : Nat) (op : Nat) (g : VxFields) (upset : Bool) {f : Core → LapCtx → Core} (hf : ∀ k x, Core.MemEq k (f k x)) :
    Keep s (State.onVx s n op g upset f) := keep_onSlotOp hf

theorem keep_onSx (s : State) (n : Nat) (op : Nat) (g : SxFields) (upset : Bool) {f : Core → LapCtx → Core} (hf : ∀ k x, Core.MemEq k (f k x)) :
    Keep s (State.onSx s n op g upset f) := keep_onSlotOp hf

theorem keep_onMvM (s : State) (n : Nat) (op : Nat) (g : MvM) (upset : Bool) {f : Core → LapCtx → Core} (hf : ∀ k x, Core.MemEq k (f k x)) :
    Keep s (State.onMvM s n op g upset f) := keep_onSlotOp hf

theorem keep_onMvX (s : State) (n : Nat) (op : Nat) (g : MvX) (upset : Bool) {f : Core → LapCtx → Core} (hf : ∀ k x, Core.MemEq k (f k x)) :
    Keep s (State.onMvX s n op g upset f) := keep_onSlotOp hf

theorem keep_onMvG (s : State) (n : Nat) (op : Nat) (g : MvG) (upset : Bool) {f : Core → LapCtx → Core} (hf : ∀ k x, Core.MemEq k (f k x)) :
    Keep s (State.onMvG s n op g upset f) := keep_onSlotOp hf

theorem keep_onMvA (s : State) (n : Nat) (op : Nat) (g : MvA) (upset : Bool) {f : Core → LapCtx → Core} (hf : ∀ k x, Core.MemEq k (f k x)) :
    Keep s (State.onMvA s n op g upset f) := keep_onSlotOp hf

theorem keep_onMvT (s : State) (n : Nat) (op : Nat) (g : MvT) (upset : Bool) {f : Core → LapCtx → Core} (hf : ∀ k x, Core.MemEq k (f k x)) :
    Keep s (State.onMvT s n op g upset f) := keep_onSlotOp hf

theorem keep_onMvP (s : State) (n : Nat) (op : Nat) (g : MvP) (upset : Bool) {f : Core → LapCtx → Core} (hf : ∀ k x, Core.MemEq k (f k x)) :
    Keep s (State.onMvP s n op g upset f) := keep_onSlotOp hf

theorem keep_onNxReg (s : State) (n : Nat) (op : Nat) (g : NxReg) (upset : Bool) {f : Core → LapCtx → Core} (hf : ∀ k x, Core.MemEq k (f k x)) :
    Keep s (State.onNxReg s n op g upset f) := keep_onSlotOp hf

theorem keep_onNxMem (s : State) (n : Nat) (op : Nat) (g : NxMem) (upset : Bool) {f : Core → LapCtx → Core} (hf : ∀ k x, Core.MemEq k (f k x)) :
    Keep s (State.onNxMem s n op g upset f) := keep_onSlotOp hf

theorem keep_onNxSlot (s : State) (n : Nat) (op : Nat) (g : NxSlot) (upset : Bool) {f : Core → LapCtx → Core} (hf : ∀ k x, Core.MemEq k (f k x)) :
    Keep s (State.onNxSlot s n op g upset f) := keep_onSlotOp hf

theorem keep_endCore (s : State) (n : Nat) : Keep s (s.endCore n) := by
  have h (x : LapCtx) (x0 x1 : Flit) : Keep s (s.setCore n ((s.core n).endCycle x x0 x1)) :=
    keep_setCore (Core.memWf_endCycle _ _ _)
  unfold State.endCore
  extract_lets k x k' s'
  have h' : Keep s s' := h ..
  clear_value s' k' x
  refine .ite (.refl _) (.ite (.ite h' ?_) (.ite ((h'.trans (keep_raise ..)).trans (keep_openReport ..)) h'))
  exact .upd h' rfl rfl rfl rfl rfl rfl rfl

theorem keep_addArrival (s : State) (n : Nat) (a : Arrival) : Keep s (State.addArrival s n a) := by
  unfold State.addArrival
  extract_lets x1
  exact keep_setRouter ..

theorem keep_sendLink (s0 : State) (n : Nat) (d : Nat) (t : Nat) (s : State) : Keep s (State.sendLink s0 n d t s) := by
  unfold State.sendLink
  extract_lets x1 x2
  refine .ite ?_ ?_
  · exact .refl _
  · split
    · exact .ite (keep_addArrival ..) (.refl _)
    · exact .ite (.upd (.refl _) rfl rfl rfl rfl rfl rfl rfl) (.refl _)

theorem keep_sendLinks (s0 : State) (n : Nat) (s : State) : Keep s (State.sendLinks s0 n s) := by
  unfold State.sendLinks
  refine .trans ?_ (.foldl (fun r x => ?_) _ _)
  · exact .refl _
  · exact .trans (keep_sendLink ..) (keep_sendLink ..)

theorem keep_endGrid (s : State) : Keep s (State.endGrid s) := by
  unfold State.endGrid
  extract_lets x1 x2 x3
  have h4 : Keep s x1 := by
    subst x1
    refine .trans ?_ (.foldl (fun r x => ?_) _ _)
    · exact .refl _
    · exact keep_sendLinks ..
  clear_value x1
  have h5 : Keep s x2 := by
    subst x2
    refine .trans ?_ (.foldl (fun r x => ?_) _ _)
    · exact h4
    · exact keep_endCore ..
  clear_value x2
  exact .upd h5 rfl rfl rfl rfl rfl rfl rfl

theorem keep_rinkNext (s : State) : Keep s (State.rinkNext s) := by
  unfold State.rinkNext
  exact .ite (.upd (.refl _) rfl rfl rfl rfl rfl rfl rfl) (.refl _)

theorem keep_seeDevice (s : State) : Keep s (State.seeDevice s) := by
  unfold State.seeDevice
  refine .ite ?_ ?_
  · refine .trans ?_ (keep_evidenceAll ..)
    exact .upd (.refl _) rfl rfl rfl rfl rfl rfl rfl
  · exact .refl _

theorem keep_tick (s : State) : Keep s (State.tick s) := by
  unfold State.tick
  extract_lets x1 x2 x3 x4 x5 x6
  have h7 : Keep s x1 := by subst x1; exact keep_endGrid ..
  clear_value x1
  have h8 : Keep s x3 := by
    subst x3
    refine .trans ?_ (keep_rinkNext ..)
    exact .upd h7 rfl rfl rfl rfl rfl rfl rfl
  clear_value x3
  have h9 : Keep s x6 := by
    subst x6
    refine .trans ?_ (keep_seeDevice ..)
    exact .upd h8 rfl rfl rfl rfl rfl rfl rfl
  clear_value x6
  exact .ite (.trans h9 (keep_irqUpdate ..)) h9

/-! Sites -/

theorem keep_countFailed (s : State) (n : Nat) : Keep s (State.countFailed s n) := by
  unfold State.countFailed
  exact .ite (.refl _) (.upd (.refl _) rfl rfl rfl rfl rfl rfl rfl)

theorem keep_reportSite (s : State) : Keep s s.reportSite :=
  Keep.trans (b := { s with grid := { s.grid with siteFailures := satAdd 32 s.grid.siteFailures 1 } })
    (.of rfl rfl rfl rfl rfl rfl rfl) (keep_fire ..)

theorem keep_decideFailed (s : State) (n : Nat) : Keep s (State.decideFailed s n) := by
  unfold State.decideFailed
  exact .ite (.refl _) (.upd (.refl _) rfl rfl rfl rfl rfl rfl rfl)

theorem keep_failAll (s : State) : Keep s (State.failAll s) := by
  unfold State.failAll
  extract_lets x1 x2 x3
  have h4 : Keep s x3 := by subst x3; exact .upd (.refl _) rfl rfl rfl rfl rfl rfl rfl
  clear_value x3
  refine .trans ?_ (.foldl (fun r x => ?_) _ _)
  · exact h4
  · exact .trans (keep_countFailed ..) (keep_reportSite ..)

theorem keep_buildMapping {s t : State} {n : Nat} (e : s.buildMapping n = some t) : Keep s t := by
  unfold State.buildMapping at e
  dsimp only at e
  split at e
  · rw [← Option.some.inj e]
    exact (keep_failAll s).trans (.of rfl rfl rfl rfl rfl rfl rfl)
  · cases e

theorem keep_remapRows (s : State) (d : Nat) (lo : Nat) (hi : Nat) (south : Bool) (failed : Nat) :
    Keep s (State.remapRows s d lo hi south failed) := by
  unfold State.remapRows
  extract_lets x1 x2 x3
  exact .upd (.refl _) rfl rfl rfl rfl rfl rfl rfl

/-! CourseOps -/

theorem keep_respond (s : State) (p : Nat) (r : Response) : Keep s (State.respond s p r) := by
  unfold State.respond
  exact .ite (.refl _) (keep_onPort ..)

theorem keep_answerTicket (s : State) (t : Ticket) (opcode : Nat) (slot : Nat) (status : Nat) (value0 : Nat) (value1 : Nat) (payload : List Byte) (async : Bool) :
    Keep s (State.answerTicket s t opcode slot status value0 value1 payload async) := by
  unfold State.answerTicket
  extract_lets x1
  have h2 : Keep s x1 := by subst x1; exact keep_respond ..
  clear_value x1
  exact .ite (.trans h2 (keep_onPort ..)) h2

theorem keep_commitCount (s : State) (k : Nat) (l : Nat) : Keep s (State.commitCount s k l) := by
  unfold State.commitCount
  exact keep_onSlot ..

theorem keep_decideLap (s : State) (k : Nat) : Keep s (State.decideLap s k).1 := by
  unfold State.decideLap
  extract_lets x1 x2 x3 x4 x5 x6
  have h7 : Keep s x2 := by subst x2; exact .upd (.refl _) rfl rfl rfl rfl rfl rfl rfl
  clear_value x2
  have h8 : Keep s x4 := by subst x4; exact .upd h7 rfl rfl rfl rfl rfl rfl rfl
  clear_value x4
  have h9 : Keep s x5 := by subst x5; exact .trans h8 (keep_observe ..)
  clear_value x5
  have h10 : Keep s x6 := by subst x6; exact .trans h9 (keep_onSlot ..)
  clear_value x6
  split
  · dsimp only
    exact .ite h10 (.trans h10 (keep_commitCount ..))
  · dsimp only
    exact .upd h7 rfl rfl rfl rfl rfl rfl rfl

theorem keep_decideAll (l : List Nat) (floor : Nat) (s : State) : Keep s (State.decideAll l floor s) := by
  induction l generalizing floor s with
  | nil => exact .refl s
  | cons k t ih =>
    unfold State.decideAll
    refine .ite (.trans ?_ (ih ..)) (.trans (keep_decideLap ..) (ih ..))
    exact .upd (.refl _) rfl rfl rfl rfl rfl rfl rfl

theorem keep_decide_ (s : State) : Keep s (State.decide' s) := by
  unfold State.decide'
  exact .ite (keep_decideAll ..) (.refl _)

theorem keep_askAdmission (s : State) (k : Nat) : Keep s (State.askAdmission s k) := by
  unfold State.askAdmission
  exact keep_onSlot ..

theorem keep_decideAsked (s : State) : Keep s (State.decideAsked s) := by
  unfold State.decideAsked
  exact .ite (keep_decide_ ..) (.refl _)

theorem keep_refund (s : State) (k : Nat) : Keep s (State.refund s k) := by
  unfold State.refund
  refine .ite ?_ ?_
  · extract_lets x1 x2
    exact .trans (.upd (.refl _) rfl rfl rfl rfl rfl rfl rfl) (keep_onSlot ..)
  · exact .refl _

theorem keep_endRunResponse (s : State) (k : Nat) (status : Nat) : Keep s (State.endRunResponse s k status) := by
  unfold State.endRunResponse
  split
  · exact .refl _
  · exact .trans (keep_answerTicket ..) (keep_onSlot ..)

theorem keep_freeStreams (s : State) (base : Nat) (count : Nat) : Keep s (State.freeStreams s base count) := by
  unfold State.freeStreams
  exact .upd (.refl _) rfl rfl rfl rfl rfl rfl rfl

theorem keep_clearImmutable (s : State) (l : List Extent) : Keep s (State.clearImmutable s l) := by
  unfold State.clearImmutable
  exact .upd (.refl _) rfl rfl rfl rfl rfl rfl rfl

theorem keep_filterCores (s : State) (p : Nat × Core → Bool) (routers : Table Router) (reports : List TrapReport) (u : Bool)
    (slots : Table Slot) (link : LinkState) : Keep s { s with
      grid := { s.grid with cores := s.grid.cores.filter p, routers := routers, reports := reports, unsettled := u }
      slots := slots, link := link } :=
  ⟨rfl, fun h => ⟨h.hbm, coresSound_filter p h.cores, h.strict, h.alert⟩⟩

theorem keep_emptySlot (s : State) (k : Nat) : Keep s (s.emptySlot k) := by
  unfold State.emptySlot
  extract_lets x d0 s1 s2 g0 l0 s3 g1
  have h1 : Keep s s1 := by
    subst s1
    split
    · exact .ite (keep_respond ..) (.upd (.refl _) rfl rfl rfl rfl rfl rfl rfl)
    · exact .refl _
  clear_value s1
  have h2 : Keep s s2 := .trans (.trans (.trans h1 (keep_refund ..)) (keep_freeStreams ..)) (keep_clearImmutable ..)
  clear_value s2
  have h3 : Keep s s3 := h2.trans (keep_filterCores ..)
  clear_value s3
  exact .ite (.upd h3 rfl rfl rfl rfl rfl rfl rfl) h3

theorem keep_answerHalts (s : State) (k : Nat) (status : Nat) : Keep s (State.answerHalts s k status) := by
  unfold State.answerHalts
  refine .trans ?_ (keep_onSlot ..)
  refine .trans ?_ (.foldl (fun r x => ?_) _ _)
  · exact .refl _
  · exact keep_answerTicket ..

theorem keep_releaseFor (s : State) (k : Nat) (l : List (Ticket × Bool)) : Keep s (State.releaseFor s k l) := by
  unfold State.releaseFor
  exact .ite (keep_emptySlot ..) (.refl _)

theorem keep_pauseSlot (s : State) (k : Nat) (counted : Bool) : Keep s (State.pauseSlot s k counted) := by
  unfold State.pauseSlot
  extract_lets x1 x2
  have h3 : Keep s x2 := by subst x2; exact .trans (.trans (keep_refund ..) (keep_onSlot ..)) (keep_fireSlot ..)
  clear_value x2
  exact .trans (.trans (.trans h3 (keep_answerHalts ..)) (keep_endRunResponse ..)) (keep_releaseFor ..)

theorem keep_haltSlot (s : State) (k : Nat) (why : HaltReason) : Keep s (State.haltSlot s k why) := by
  unfold State.haltSlot
  extract_lets x1 x2 x3 x4 x5 x6
  have h7 : Keep s x2 := by
    subst x2
    split
    · exact keep_abortBy ..
    · exact .refl _
    · exact .trans (keep_refund ..) (keep_onSlot ..)
    · exact .trans (keep_refund ..) (keep_onSlot ..)
    · exact .trans (keep_refund ..) (keep_onSlot ..)
    · exact .trans (keep_refund ..) (keep_onSlot ..)
  clear_value x2
  have h8 : Keep s x3 := by
    subst x3
    split
    · exact .trans h7 (keep_answerTicket ..)
    · exact h7
  clear_value x3
  have h11 : Keep s x4 := by subst x4; exact .ite (.trans h8 (keep_fireSlot ..)) h8
  clear_value x4
  have h12 : Keep s x5 := by subst x5; exact .trans h11 (keep_onSlot ..)
  clear_value x5
  have h13 : Keep s x6 := by subst x6; exact .trans h12 (keep_fireSlot ..)
  clear_value x6
  exact .ite (.refl _) (.trans (.trans (.trans h13 (keep_endRunResponse ..)) (keep_answerHalts ..)) (keep_releaseFor ..))

theorem keep_loseDevice (s : State) (cause : Nat) : Keep s (State.loseDevice s cause) := by
  unfold State.loseDevice
  refine .ite ?_ ?_
  · exact .refl _
  · extract_lets x1 x2
    have h3 : Keep s x2 := by subst x2; exact .upd (.refl _) rfl rfl rfl rfl rfl rfl rfl
    clear_value x2
    refine .trans ?_ (.foldl (fun r x => ?_) _ _)
    · exact h3
    · exact keep_haltSlot ..

theorem keep_loseMemory (s : State) (k : Nat) : Keep s (State.loseMemory s k) := by
  unfold State.loseMemory
  exact .ite (keep_loseDevice ..) (keep_haltSlot ..)

theorem keep_openWindow (s : State) (k : Nat) (why : VerifyCause) : Keep s (State.openWindow s k why) := by
  unfold State.openWindow
  exact keep_onSlot ..

/-! MemOps -/

theorem keep_readBlock (s : State) (errs : List BlockErr) (la : Nat) : Keep s (s.readBlock errs la).2.2 := by
  have hu (s : State) (a : Nat) : Keep s { s with mem := { s.mem with uncorrectable := a } } := .of rfl rfl rfl rfl rfl rfl rfl
  have hc (s : State) (a : Nat) : Keep s { s with mem := { s.mem with corrected := a } } := .of rfl rfl rfl rfl rfl rfl rfl
  have he (s : State) (a : Nat) : Keep s { s with mem := { s.mem with eccReports := a } } := .of rfl rfl rfl rfl rfl rfl rfl
  unfold State.readBlock
  extract_lets e m0 s1 m1 lost
  have h1 : Keep s s1 := .ite (he ..) (.refl _)
  have h2 : Keep s lost.2.2 := h1.trans (hu ..)
  clear_value lost
  clear_value s1 e
  split
  · exact h2
  · split
    · exact h1
    · exact h2
  · split
    · exact h1.trans (hc ..)
    · exact h2

theorem keep_linesWritten (s : State) (la : Nat) (n : Nat) : Keep s (State.linesWritten s la n) := by
  unfold State.linesWritten
  exact .upd (.refl _) rfl rfl rfl rfl rfl rfl rfl

theorem keep_writeLines (s : State) (la n : Nat) {m : Memory} (src wsrc : Nat) (poison : Bool)
    (hm : s.mem.hbm.wf = true → m.wf = true) : Keep s (s.writeLines la n m src wsrc poison) :=
  (keep_linesWritten s la n).trans (keep_hbm rfl rfl rfl rfl rfl fun h =>
    Memory.wf_overlay h (Memory.wf_shifted _ _ _ (hm h)) (Memory.shifted_within _ _ _ _))

theorem keep_writeLine (s : State) (la : Nat) (data : List Byte) (wsrc : Nat) (poison : Bool) :
    Keep s (s.writeLine la data wsrc poison) := keep_writeLines _ _ _ _ _ _ fun _ => Memory.wf_ofBytes ..

theorem keep_writeLog (s : State) (r i n : Nat) (data : List Byte) : Keep s (s.writeLog r i n data) :=
  .foldl (fun _ _ => keep_writeLines _ _ _ _ _ _ fun _ => Memory.wf_ofBytes ..) _ _

theorem keep_sliceFault (s : State) (j : Nat) (code : Nat) : Keep s (State.sliceFault s j code) := by
  unfold State.sliceFault
  split
  · exact keep_raiseNow ..
  · exact .refl _

theorem keep_markStackLost (s : State) (st : Nat) : Keep s (State.markStackLost s st) := by
  unfold State.markStackLost
  extract_lets x1 x2 x3 x4 x5
  have h6 : Keep s x2 := by subst x2; exact keep_setStack ..
  clear_value x2
  have h7 : Keep s x3 := by
    subst x3
    refine .trans ?_ (.foldl (fun r x => ?_) _ _)
    · exact h6
    · exact keep_setSliceEnt ..
  clear_value x3
  have h8 : Keep s x4 := by
    subst x4
    refine .trans ?_ (.foldl (fun r x => ?_) _ _)
    · exact .trans h7 (keep_fire ..)
    · exact keep_fire ..
  clear_value x4
  exact .upd h8 rfl rfl rfl rfl rfl rfl rfl

theorem keep_loseStack (s : State) (st : Nat) : Keep s (s.loseStack st) := by
  unfold State.loseStack
  refine .ite (.refl _) ?_
  extract_lets owner m0 s1 s2
  have h1 : Keep s s1 := .upd (.refl _) rfl rfl rfl rfl rfl rfl rfl
  clear_value s1 owner
  have h2 : Keep s s2 := by
    subst s2
    split
    · exact h1.trans (keep_loseMemory ..)
    · exact h1
  clear_value s2
  exact .ite (h2.trans (keep_markStackLost ..)) h2

theorem keep_markFailed (s : State) (st : Nat) (c : Nat) : Keep s (State.markFailed s st c) := by
  unfold State.markFailed
  extract_lets x1
  exact keep_setStack ..

theorem keep_substitute (s : State) (j : Nat) : Keep s (s.substitute j) := by
  unfold State.substitute
  extract_lets st old m0 s1 owner ext x s2
  have h1 : Keep s s1 := .upd (.refl _) rfl rfl rfl rfl rfl rfl rfl
  have h2 : Keep s s2 := (h1.trans (keep_markFailed s1 st old)).trans (keep_setStack ..)
  clear_value s2
  clear_value x
  clear_value owner
  clear_value s1
  split
  · exact (h1.trans (keep_markFailed ..)).trans (keep_loseStack ..)
  · extract_lets s3 m1 s4 s5
    have h3 : Keep s s3 := (h2.trans (keep_setSliceEnt ..)).trans (keep_setCtl ..)
    clear_value s3
    have h4 : Keep s s4 := .upd h3 rfl rfl rfl rfl rfl rfl rfl
    clear_value s4
    have h5 : Keep s s5 := (h4.trans (keep_fire ..)).trans (keep_fire ..)
    clear_value s5
    split
    · exact h5
    · exact .ite (h5.trans (keep_loseMemory ..)) ((h5.trans (keep_openWindow ..)).trans (keep_onSlot ..))

theorem keep_failStandby (s : State) (c : Nat) : Keep s (s.failStandby c) :=
  .ite ((keep_markFailed s (c / 32) c).trans (.of rfl rfl rfl rfl rfl rfl rfl)) (.refl _)

theorem keep_failSlice (s : State) (j : Nat) : Keep s (State.failSlice s j) := by
  unfold State.failSlice
  refine .ite ?_ ?_
  · exact keep_failStandby ..
  · refine .ite ?_ ?_
    · exact .refl _
    · extract_lets x1 x2 x3
      have h4 : Keep s x1 := by subst x1; exact keep_sliceFault ..
      clear_value x1
      have h5 : Keep s x3 := by subst x3; exact .upd h4 rfl rfl rfl rfl rfl rfl rfl
      clear_value x3
      exact .ite (.trans h5 (keep_substitute ..)) h5

theorem keep_settleMemory (s : State) : Keep s (State.settleMemory s) := by
  unfold State.settleMemory
  extract_lets x1
  have h2 : Keep s x1 := by
    subst x1
    refine .trans ?_ (.foldl (fun r x => ?_) _ _)
    · exact .refl _
    · exact keep_substitute ..
  clear_value x1
  refine .trans ?_ (.foldl (fun r x => ?_) _ _)
  · exact h2
  · exact keep_markStackLost ..

theorem keep_copyData (s : State) (errs : List BlockErr) (la : Nat) : Keep s (s.copyData errs la).2 := by
  unfold State.copyData
  split
  · exact .refl s
  · exact keep_readBlock ..

theorem keep_countRepair (s : State) (la : Nat) : Keep s (s.countRepair la) := by
  unfold State.countRepair
  have h (c : SliceCtl) (n : Nat) : Keep s { s.setCtl (laSlice la) c with mem := { (s.setCtl (laSlice la) c).mem with blockRepairs := n } } :=
    .of rfl rfl rfl rfl rfl rfl rfl
  exact .ite ((h _ _).trans (keep_failSlice ..)) (h _ _)

theorem keep_mendFrom (s : State) (errs : List BlockErr) (la : Nat) (other : Nat) (k : Nat) :
    Keep s (State.mendFrom s errs la other k).2 := by
  unfold State.mendFrom
  extract_lets x1
  split
  · dsimp only
    exact .trans (.trans (keep_copyData ..) (keep_writeLine ..)) (keep_countRepair ..)
  · dsimp only
    exact .trans (.trans (keep_copyData ..) (keep_writeLine ..)) (keep_loseMemory ..)

theorem keep_repairBlock (s : State) (errs : List BlockErr) (la : Nat) : Keep s (State.repairBlock s errs la).2 := by
  unfold State.repairBlock
  split
  · dsimp only
    exact keep_failSlice ..
  · split
    · dsimp only
      exact .trans (keep_writeLine ..) (keep_countRepair ..)
    · split
      · extract_lets x1
        dsimp only
        exact .trans (.trans (keep_copyData ..) (keep_writeLine ..)) (keep_countRepair ..)
      · split
        · dsimp only
          exact .trans (keep_writeLine ..) (keep_countRepair ..)
        · split
          · exact keep_mendFrom ..
          · dsimp only
            exact .trans (keep_writeLine ..) (keep_countRepair ..)
          · dsimp only
            exact .trans (keep_writeLine ..) (keep_loseMemory ..)

theorem keep_repairFailed (s : State) (k : Nat) (errs : List BlockErr) : Keep s (State.repairFailed s k errs) := by
  unfold State.repairFailed
  extract_lets x1 x2
  have h3 : Keep s x2 := by
    subst x2
    refine .trans ?_ (.foldl (fun r x => ?_) _ _)
    · exact .refl _
    · exact .ite (keep_repairBlock ..) (.refl _)
  clear_value x2
  exact .trans h3 (keep_onSlot ..)

theorem keep_copyRun (errs : List BlockErr) (la n src : Nat) (owner : Option Nat) (s : State) :
    Keep s (State.copyRun errs la n src owner s) := by
  unfold State.copyRun
  extract_lets s1 hurt
  have h1 : Keep s s1 := keep_writeLines _ _ _ _ _ _ id
  clear_value s1 hurt
  refine h1.trans (.foldl (fun r i => ?_) _ _)
  have h2 := keep_copyData r errs (src + i)
  extract_lets a
  change Keep r a.2 at h2
  clear_value a
  split
  · exact h2.trans (keep_writeLine ..)
  · have h3 := h2.trans (keep_writeLine a.2 (la + i) [] 3 true)
    split
    · exact h3.trans (keep_loseMemory ..)
    · exact h3

theorem keep_rebuildBlocks (s : State) (errs : List BlockErr) (j : Nat) (owner : Option Nat) :
    Keep s (s.rebuildBlocks errs j owner) := by
  unfold State.rebuildBlocks
  extract_lets s1 runs
  have h1 : Keep s s1 := .ite (.refl _) (.foldl (fun _ _ => keep_copyRun ..) _ _)
  clear_value s1 runs
  refine h1.trans (.foldl (fun r x => ?_) _ _)
  split
  · exact keep_copyRun ..
  · exact keep_writeLines _ _ _ _ _ _ fun _ => rfl

theorem keep_reloadCore (s : State) (n : Nat) : Keep s (s.reloadCore n) := by
  unfold State.reloadCore
  exact .trans (keep_setCore fun _ => ⟨Memory.wf_ofBytes .., Memory.wf_ofBytes ..⟩) (keep_setRouter ..)

theorem keep_reloadAll (s : State) (l : List Nat) : Keep s (s.reloadAll l) := by
  induction l generalizing s with
  | nil => exact .refl s
  | cons n t ih =>
    have h : Keep s { s.reloadCore n with grid := { (s.reloadCore n).grid with reloads := satAdd 32 s.grid.reloads 1 } } :=
      (keep_reloadCore s n).trans (.of rfl rfl rfl rfl rfl rfl rfl)
    exact h.trans (ih _)

/-! LinkOps -/

theorem keep_queueMsg (s : State) (m : OutMsg) : Keep s (State.queueMsg s m) := by
  unfold State.queueMsg
  exact .ite (.upd (.refl _) rfl rfl rfl rfl rfl rfl rfl) (.refl _)

theorem keep_sendOn (s : State) (p : Nat) (r : Route) (body : Msg) : Keep s (State.sendOn s p r body) := by
  unfold State.sendOn
  exact .ite (.trans (.upd (.refl _) rfl rfl rfl rfl rfl rfl rfl) (keep_queueMsg ..)) (.refl _)

theorem keep_passOn (s : State) (q : Nat) (p : Nat) (r : Route) (body : Msg) (flits : List (BitVec 120)) :
    Keep s (State.passOn s q p r body flits) := by
  unfold State.passOn
  exact .ite (.refl _) (keep_queueMsg ..)

theorem keep_sendTo (s : State) (addr : Nat) (body : Msg) : Keep s (State.sendTo s addr body) := by
  unfold State.sendTo
  split
  · exact keep_sendOn ..
  · exact .refl _

theorem keep_forward (s : State) (q : Nat) (r : Route) (body : Msg) (flits : List (BitVec 120)) :
    Keep s (State.forward s q r body flits) := by
  unfold State.forward
  split
  · exact keep_passOn ..
  · exact .refl _

theorem keep_flitLeaves (s : State) (p : Nat) (m : OutMsg) : Keep s (State.flitLeaves s p m) := by
  unfold State.flitLeaves
  extract_lets x1 x2 x3
  exact .trans (.upd (.refl _) rfl rfl rfl rfl rfl rfl rfl) (keep_onLport ..)

theorem keep_sendFlit (s : State) (p : Nat) : Keep s (State.sendFlit s p).2 := by
  unfold State.sendFlit
  split
  · dsimp only
    exact .refl _
  · extract_lets x3
    dsimp only
    exact keep_flitLeaves ..

theorem keep_takeRx (s : State) (p : Nat) (r : Route) (body : Msg) : Keep s (State.takeRx s p r body) := by
  unfold State.takeRx
  split
  · exact keep_onLport ..
  · exact .refl _

theorem keep_deliverMsg (s : State) (body : Msg) : Keep s (State.deliverMsg s body) := by
  unfold State.deliverMsg
  exact .upd (.refl _) rfl rfl rfl rfl rfl rfl rfl

theorem keep_holdAdmission (s : State) (k : Nat) : Keep s (State.holdAdmission s k).1 := by
  unfold State.holdAdmission
  split
  · dsimp only
    exact .refl _
  · exact .trans (keep_onSlot ..) (keep_decideLap ..)

theorem keep_earliestReady (s : State) (k : Nat) : Keep s (State.earliestReady s k).2 := by
  unfold State.earliestReady
  extract_lets x1 x2
  split
  · dsimp only
    exact .refl _
  · split
    · dsimp only
      exact .refl _
    · dsimp only
      exact keep_free ..

theorem keep_answerProposal (s : State) (q : Proposal) : Keep s (State.answerProposal s q).1 := by
  unfold State.answerProposal
  split
  · dsimp only
    exact .refl _
  · extract_lets x3 x4 x5 x6 x7 x8 x9
    split
    · dsimp only
      exact .refl _
    · split
      · dsimp only
        exact keep_earliestReady ..
      · split
        · dsimp only
          exact .refl _
        · split
          · dsimp only
            exact .trans (keep_holdAdmission ..) (keep_onSlot ..)
          · dsimp only
            exact keep_holdAdmission ..

theorem keep_startBcast (s : State) (slot : Option Nat) (sc : Scope) (body : Msg) (bseq : Nat) (own : TallyBody) :
    Keep s (State.startBcast s slot sc body bseq own) := by
  unfold State.startBcast
  extract_lets x1 x2 x3 x4 x5 x6
  have h7 : Keep s x4 := by
    subst x4
    refine .trans ?_ (.foldl (fun r x => ?_) _ _)
    · exact .refl _
    · exact keep_sendOn ..
  clear_value x4
  exact .upd h7 rfl rfl rfl rfl rfl rfl rfl

theorem keep_takeBseq (s : State) : Keep s (State.takeBseq s).2 := by
  unfold State.takeBseq
  dsimp only
  exact .upd (.refl _) rfl rfl rfl rfl rfl rfl rfl

theorem keep_broadcast (s : State) (slot : Option Nat) (sc : Scope) (body : Msg) : Keep s (State.broadcast s slot sc body) := by
  unfold State.broadcast
  refine .ite ?_ ?_
  · exact .refl _
  · split
    · exact .upd (.refl _) rfl rfl rfl rfl rfl rfl rfl
    · extract_lets x3 x4
      split
      · extract_lets x5
        exact .trans (.trans (keep_takeBseq ..) (keep_answerProposal ..)) (keep_startBcast ..)
      · exact .trans (keep_takeBseq ..) (keep_startBcast ..)

theorem keep_portState (s : State) (p : Nat) (st : Nat) : Keep s (State.portState s p st) := by
  unfold State.portState
  exact .ite (.refl _) (.trans (keep_onLport ..) (keep_fire ..))

theorem keep_portFault (s : State) (p : Nat) (code : Nat) : Keep s (State.portFault s p code) := by
  unfold State.portFault
  split
  · exact .ite (.refl _) (keep_raiseNow ..)
  · exact .refl _

theorem keep_portSkew (s : State) (p : Nat) : Keep s (State.portSkew s p) := by
  unfold State.portSkew
  exact .trans (keep_onLport ..) (keep_portFault ..)

theorem keep_takeSettings (s : State) (p : Nat) : Keep s (State.takeSettings s p) := by
  unfold State.takeSettings
  extract_lets x1 x2
  have h3 : Keep s x1 := by subst x1; exact keep_onLport ..
  clear_value x1
  exact .upd h3 rfl rfl rfl rfl rfl rfl rfl

theorem keep_portLeave (s : State) (p : Nat) (st : Nat) : Keep s (State.portLeave s p st) := by
  unfold State.portLeave
  extract_lets x1 x2 x3 x4 x5 x6
  have h7 : Keep s x3 := by subst x3; exact keep_setLport ..
  clear_value x3
  have h8 : Keep s x5 := by subst x5; exact .upd h7 rfl rfl rfl rfl rfl rfl rfl
  clear_value x5
  have h9 : Keep s x6 := by subst x6; exact .trans (.trans h8 (keep_takeSettings ..)) (keep_portState ..)
  clear_value x6
  exact .ite (.trans h9 (keep_portFault ..)) h9

theorem keep_portTrain (s : State) (p : Nat) : Keep s (State.portTrain s p) := by
  unfold State.portTrain
  exact .trans (.trans (keep_onLport ..) (keep_takeSettings ..)) (keep_portState ..)

theorem keep_proposeLap (s : State) (k : Nat) : Keep s (State.proposeLap s k) := by
  unfold State.proposeLap
  split
  · exact .refl _
  · extract_lets x3 x4 x5
    exact .trans (keep_onSlot ..) (keep_broadcast ..)

/-! Boundary -/

theorem keep_sendStage (s : State) (n : Nat) (x : Site) : Keep s (State.sendStage s n x) := by
  unfold State.sendStage
  extract_lets x1 x2 x3 x4
  have h5 : Keep s x3 := by subst x3; exact .upd (.refl _) rfl rfl rfl rfl rfl rfl rfl
  clear_value x3
  split
  · exact h5
  · extract_lets x8
    exact .upd h5 rfl rfl rfl rfl rfl rfl rfl

theorem keep_driveCommit (s : State) : Keep s (State.driveCommit s) := by
  unfold State.driveCommit
  split
  · exact .refl _
  · exact .ite (.upd (.refl _) rfl rfl rfl rfl rfl rfl rfl) (.refl _)

theorem keep_beginPlan (s : State) (p : SitePlan) : Keep s (State.beginPlan s p) := by
  unfold State.beginPlan
  refine .ite ?_ ?_
  · exact .refl _
  · extract_lets x1 x2
    have h3 : Keep s x2 := by subst x2; exact .upd (.refl _) rfl rfl rfl rfl rfl rfl rfl
    clear_value x2
    refine .trans ?_ (keep_driveCommit ..)
    refine .trans ?_ (.foldl (fun r x => ?_) _ _)
    · exact h3
    · exact keep_sendStage ..

theorem keep_startSites (s : State) : Keep s s.startSites := by
  have h : Keep s { s with grid := { s.grid with unsettled := false } } := .of rfl rfl rfl rfl rfl rfl rfl
  unfold State.startSites
  refine .ite (.refl _) (.ite (h.trans (keep_beginPlan ..)) ?_)
  split
  · exact keep_beginPlan ..
  · exact .refl _

theorem keep_faultedSites (s : State) : Keep s s.faultedSites := by
  have h (n : Nat) : Keep s { s with grid := { s.grid with failing := s.grid.failing.erase n } } := .of rfl rfl rfl rfl rfl rfl rfl
  unfold State.faultedSites
  split
  · exact (((h _).trans (keep_countFailed ..)).trans (keep_reportSite ..)).trans (keep_loseDevice ..)
  · exact keep_startSites ..

theorem keep_resume (s : State) (k : Nat) : Keep s (State.resume s k) := by
  unfold State.resume
  extract_lets x1
  exact .ite (.refl _) (.ite (keep_pauseSlot ..) (.ite (keep_pauseSlot ..) (.ite (.refl _) (.ite (.ite (keep_proposeLap ..) (.refl _)) (keep_askAdmission ..)))))

theorem keep_resumeAll (s : State) : Keep s (State.resumeAll s) := by
  unfold State.resumeAll
  refine .trans ?_ (.foldl (fun r x => ?_) _ _)
  · exact .refl _
  · exact keep_resume ..

theorem keep_applyRemedy (s : State) (p : SitePlan) : Keep s (State.applyRemedy s p) := by
  unfold State.applyRemedy
  split
  · exact .refl _
  · extract_lets x3 x4 x5 x6 x7 x8
    have h9 : Keep s x3 := by subst x3; exact keep_countFailed ..
    clear_value x3
    have h10 : Keep s x5 := by subst x5; exact .upd h9 rfl rfl rfl rfl rfl rfl rfl
    clear_value x5
    have h11 : Keep s x7 := by
      subst x7
      refine .trans ?_ (.foldl (fun r x => ?_) _ _)
      · exact h10
      · refine .trans ?_ (keep_setCore (fun w => w) ..)
        exact .refl _
    clear_value x7
    refine .trans ?_ (keep_reportSite ..)
    refine .trans ?_ (.foldl (fun r x => ?_) _ _)
    · exact h11
    · exact .trans (keep_openWindow ..) (keep_onSlot ..)

theorem keep_applySite (s : State) (n : Nat) (x : Site) : Keep s (State.applySite s n x) := by
  unfold State.applySite
  exact keep_setSite ..

theorem keep_applyCommit (s : State) (mask : Nat) : Keep s (State.applyCommit s mask) := by
  unfold State.applyCommit
  split
  · exact .upd (.refl _) rfl rfl rfl rfl rfl rfl rfl
  · extract_lets x3 x4 x5 x6 x7 x8
    have h9 : Keep s x3 := by subst x3; exact keep_applyRemedy ..
    clear_value x3
    have h10 : Keep s x4 := by
      subst x4
      refine .trans ?_ (.foldl (fun r x => ?_) _ _)
      · exact h9
      · exact keep_applySite ..
    clear_value x4
    have h11 : Keep s x8 := by subst x8; exact .upd h10 rfl rfl rfl rfl rfl rfl rfl
    clear_value x8
    exact .ite (.trans (.trans h11 (keep_startSites ..)) (keep_resumeAll ..)) (.trans h11 (keep_driveCommit ..))

theorem keep_latchSeeds (s : State) (k : Nat) : Keep s (State.latchSeeds s k) := by
  unfold State.latchSeeds
  exact keep_onSlot ..

theorem keep_onCores {s : State} {k : Nat} {f : Core → Core} (hf : ∀ c, c.MemWf → (f c).MemWf) : Keep s (s.onCores k f) :=
  ⟨rfl, fun h => ⟨h.hbm, coresSound_mapVals (fun _ c w => by
    split
    · exact hf c w
    · exact w) h.cores, h.strict, h.alert⟩⟩

theorem keep_onRouters (s : State) (k : Nat) (f : Router → Router) : Keep s (State.onRouters s k f) := by
  unfold State.onRouters
  exact .upd (.refl _) rfl rfl rfl rfl rfl rfl rfl

theorem keep_clearSlices (s : State) (k : Nat) : Keep s (State.clearSlices s k) := by
  unfold State.clearSlices
  refine .trans ?_ (.foldl (fun r x => ?_) _ _)
  · exact .refl _
  · extract_lets x1
    exact .ite (.refl _) (keep_setCtl ..)

theorem keep_clearEdges (s : State) (k : Nat) : Keep s (State.clearEdges s k) := by
  unfold State.clearEdges
  extract_lets x1 x2
  exact .upd (.refl _) rfl rfl rfl rfl rfl rfl rfl

theorem keep_stopGrid (s : State) (k : Nat) : Keep s (State.stopGrid s k) := by
  unfold State.stopGrid
  refine .trans ?_ (keep_clearEdges ..)
  refine .trans ?_ (keep_clearSlices ..)
  refine .trans ?_ (keep_onRouters ..)
  refine .trans ?_ (keep_onCores (fun _ w => w) ..)
  exact .refl _

theorem keep_restGrid (s : State) (k : Nat) : Keep s (State.restGrid s k) := by
  unfold State.restGrid
  refine .trans ?_ (keep_onCores (fun _ w => w) ..)
  exact keep_stopGrid ..

theorem keep_zeroSliceFps (s : State) (k : Nat) : Keep s (State.zeroSliceFps s k) := by
  unfold State.zeroSliceFps
  refine .trans ?_ (.foldl (fun r x => ?_) _ _)
  · exact .refl _
  · exact .ite (.refl _) (keep_setCtl ..)

theorem keep_launchRouters (s : State) (k : Nat) (errs : Table (BitVec 160)) : Keep s (State.launchRouters s k errs) := by
  unfold State.launchRouters
  extract_lets x1 x2 x3 x4
  have h5 : Keep s x4 := by subst x4; exact .upd (.refl _) rfl rfl rfl rfl rfl rfl rfl
  clear_value x4
  refine .trans ?_ (.foldl (fun r x => ?_) _ _)
  · exact h5
  · exact keep_routerFault ..

theorem keep_startGrid (s : State) (k : Nat) (first : Bool) (errs : Table (BitVec 160)) : Keep s (s.startGrid k first errs) := by
  unfold State.startGrid
  extract_lets s1
  have h1 : Keep s s1 := by
    have h : Keep s (s.onCores k fun c => { c with entry := c.entryNext }) := keep_onCores fun _ w => w
    exact .ite (h.trans (keep_onRouters ..)) (.refl _)
  clear_value s1
  exact .trans (.trans ((h1.trans (keep_clearSlices ..)).trans (keep_zeroSliceFps ..)) (keep_onCores fun _ w => Core.memWf_launch w))
    (keep_launchRouters ..)

theorem keep_loseLink (s : State) (p : Nat) : Keep s (State.loseLink s p) := by
  unfold State.loseLink
  exact keep_onLport ..

theorem keep_escalate (s : State) (k : Nat) (r : FaultRec) : Keep s (State.escalate s k r) := by
  unfold State.escalate
  refine .ite ?_ ?_
  · exact .refl _
  · extract_lets x1 x2 x3 x4 x5 x6
    have h7 : Keep s x3 := by
      subst x3
      split
      · exact .ite (keep_decideFailed ..) (.refl _)
      · exact .refl _
    clear_value x3
    have h8 : Keep s x4 := by
      subst x4
      refine .trans ?_ (.foldl (fun r x => ?_) _ _)
      · exact h7
      · exact keep_loseLink ..
    clear_value x4
    have h9 : Keep s x6 := by subst x6; exact .trans h8 (keep_onSlot ..)
    clear_value x6
    exact .ite (.trans h9 (keep_loseDevice ..)) h9

theorem keep_replayBoundary (s : State) (k : Nat) (errs : List BlockErr) : Keep s (State.replayBoundary s k errs) := by
  unfold State.replayBoundary
  extract_lets x1 x2 x3 x4 x5
  have h6 : Keep s x2 := by subst x2; exact keep_restGrid ..
  clear_value x2
  have h7 : Keep s x3 := by subst x3; exact .trans h6 (keep_onSlot ..)
  clear_value x3
  have h8 : Keep s x4 := by
    subst x4
    split
    · exact .trans h7 (keep_escalate ..)
    · exact h7
  clear_value x4
  have h11 : Keep s x5 := by subst x5; exact .trans (.trans h8 (keep_repairFailed ..)) (keep_settleMemory ..)
  clear_value x5
  exact .trans (.trans h11 (keep_faultedSites ..)) (keep_resume ..)

theorem keep_faultedBoundary (s : State) (k : Nat) (errs : List BlockErr) : Keep s (State.faultedBoundary s k errs) := by
  unfold State.faultedBoundary
  extract_lets x1 x2 x3 x4
  have h5 : Keep s x3 := by
    subst x3
    refine .trans ?_ (keep_tallyEvent ..)
    exact .upd (.refl _) rfl rfl rfl rfl rfl rfl rfl
  clear_value x3
  have h6 : Keep s x4 := by subst x4; exact .trans (.trans h5 (keep_restGrid ..)) (keep_onSlot ..)
  clear_value x4
  exact .ite (.trans h5 (keep_replayBoundary ..)) (.trans (.trans (.trans (.trans (.trans h6 (keep_tallyEvent ..)) (keep_haltSlot ..)) (keep_settleMemory ..)) (keep_faultedSites ..)) (keep_resumeAll ..))

theorem keep_verifyLap (s : State) (k : Nat) : Keep s (State.verifyLap s k) := by
  unfold State.verifyLap
  exact .ite (.trans (keep_onSlot ..) (keep_fireSlot ..)) (.refl _)

theorem keep_afterLap (s : State) (k : Nat) : Keep s (State.afterLap s k) := by
  unfold State.afterLap
  exact .trans (keep_startSites ..) (keep_resume ..)

theorem keep_completeLap (s : State) (k : Nat) : Keep s (State.completeLap s k) := by
  unfold State.completeLap
  extract_lets x1 x2 x3 x4 x5 x6 x7 x8 x9
  have h10 : Keep s x4 := by subst x4; exact keep_observe ..
  clear_value x4
  have h11 : Keep s x5 := by subst x5; exact .ite (.trans h10 (keep_fireSlot ..)) h10
  clear_value x5
  have h12 : Keep s x6 := by
    subst x6
    refine .trans ?_ (keep_onCores (fun _ w => w) ..)
    exact h11
  clear_value x6
  have h13 : Keep s x7 := by subst x7; exact .trans (.trans (.trans h12 (keep_onRouters ..)) (keep_clearSlices ..)) (keep_clearEdges ..)
  clear_value x7
  have h14 : Keep s x8 := by subst x8; exact .trans h13 (keep_onSlot ..)
  clear_value x8
  have h15 : Keep s x9 := by subst x9; exact .ite h14 (.trans h14 (keep_onSlot ..))
  clear_value x9
  exact .trans (.trans (.trans h15 (keep_verifyLap ..)) (keep_settleMemory ..)) (keep_afterLap ..)

theorem keep_lapBoundary (s : State) (k : Nat) (errs : List BlockErr) : Keep s (State.lapBoundary s k errs) := by
  unfold State.lapBoundary
  exact .ite (.refl _) (.ite (.trans (.trans (.trans (.trans (keep_restGrid ..) (keep_onSlot ..)) (keep_settleMemory ..)) (keep_faultedSites ..)) (keep_resumeAll ..)) (.ite (keep_completeLap ..) (keep_faultedBoundary ..)))

theorem keep_uncomplete (s : State) (k : Nat) : Keep s (State.uncomplete s k) := by
  unfold State.uncomplete
  split
  · exact .refl _
  · exact .trans (keep_refund ..) (keep_onSlot ..)

theorem keep_withdraw (s : State) (k : Nat) : Keep s (State.withdraw s k) := by
  unfold State.withdraw
  refine .ite ?_ ?_
  · exact .refl _
  · extract_lets x1 x2 x3 x4
    have h5 : Keep s x2 := by subst x2; exact .trans (.trans (keep_uncomplete ..) (keep_onSlot ..)) (keep_enterFirst ..)
    clear_value x2
    have h6 : Keep s x4 := by
      subst x4
      refine .trans ?_ (keep_tallyEvent ..)
      exact .upd h5 rfl rfl rfl rfl rfl rfl rfl
    clear_value x4
    exact .trans h6 (keep_replayBoundary ..)

theorem keep_enterSolo (s : State) (k : Nat) : Keep s (State.enterSolo s k) := by
  unfold State.enterSolo
  exact .ite (.refl _) (.trans (.trans (keep_onSlot ..) (keep_openWindow ..)) (keep_fireSlot ..))

theorem keep_confirm (s : State) (k : Nat) : Keep s (State.confirm s k) := by
  unfold State.confirm
  exact .trans (keep_onSlot ..) (keep_resume ..)

theorem keep_pairCheck (s : State) (k : Nat) : Keep s (State.pairCheck s k) := by
  unfold State.pairCheck
  extract_lets x1 x2
  have h3 : Keep s x2 := by subst x2; exact keep_onSlot ..
  clear_value x2
  split
  · refine .ite ?_ ?_
    · exact .refl _
    · refine .ite ?_ ?_
      · exact keep_confirm ..
      · refine .ite ?_ ?_
        · exact .trans (.trans (.trans h3 (keep_uncomplete ..)) (keep_onSlot ..)) (keep_replayBoundary ..)
        · extract_lets x6 x7
          exact .ite (.trans h3 (keep_loseDevice ..)) (.ite (.trans (.trans h3 (keep_enterSolo ..)) (keep_confirm ..)) (.trans (.trans (.trans h3 (keep_uncomplete ..)) (keep_onSlot ..)) (keep_haltSlot ..)))
  · exact .refl _

theorem keep_sendPair (s : State) (k : Nat) (lap : Nat) (digest : List Byte) (evidence : Bool) :
    Keep s (State.sendPair s k lap digest evidence) := by
  unfold State.sendPair
  extract_lets x1
  exact .trans (keep_sendOn ..) (keep_onSlot ..)

theorem keep_digestReady (s : State) (k : Nat) : Keep s (State.digestReady s k) := by
  unfold State.digestReady
  split
  · exact .refl _
  · refine .ite ?_ ?_
    · exact .refl _
    · extract_lets x1 x2 x3
      have h4 : Keep s x3 := by subst x3; exact keep_onSlot ..
      clear_value x3
      exact .ite h4 (.ite (.trans h4 (keep_confirm ..)) (.trans (.trans h4 (keep_sendPair ..)) (keep_pairCheck ..)))

/-! HostOps -/

theorem keep_waitReturn (s : State) (p : Nat) : Keep s (State.waitReturn s p) := by
  unfold State.waitReturn
  exact .ite (.refl _) (.trans (keep_onPort ..) (keep_msix ..))

theorem keep_writeRecord (s : State) (p : Nat) (header : List Byte) (body : List Byte) :
    Keep s (State.writeRecord s p header body) := by
  unfold State.writeRecord
  exact keep_onPort ..

theorem keep_writePad (s : State) (p : Nat) (size : Nat) : Keep s (State.writePad s p size) := by
  unfold State.writePad
  exact .ite (.refl _) (keep_writeRecord ..)

theorem keep_writeResponse (s : State) (p : Nat) (r : Response) : Keep s (State.writeResponse s p r) := by
  unfold State.writeResponse
  extract_lets x1 x2
  exact keep_writeRecord ..

theorem keep_postResponse (s : State) (p : Nat) : Keep s (State.postResponse s p) := by
  unfold State.postResponse
  extract_lets x1
  split
  · exact .refl _
  · refine .ite ?_ ?_
    · exact .refl _
    · refine .ite ?_ ?_
      · exact keep_waitReturn ..
      · extract_lets x4 x5
        have h6 : Keep s x4 := by subst x4; exact .trans (keep_writePad ..) (keep_writeResponse ..)
        clear_value x4
        have h7 : Keep s x5 := by subst x5; exact .trans h6 (keep_onPort ..)
        clear_value x5
        exact .ite h7 (.trans h7 (keep_msix ..))

theorem keep_issueTrailer (s : State) (k : Nat) (result : List Byte) (addr : Nat) :
    Keep s (State.issueTrailer s k result addr).2 := by
  unfold State.issueTrailer
  dsimp only
  exact keep_onSlot ..

theorem keep_startSigning (s : State) : Keep s (State.startSigning s) := by
  unfold State.startSigning
  refine .ite ?_ ?_
  · exact .refl _
  · split
    · exact .refl _
    · exact .upd (.refl _) rfl rfl rfl rfl rfl rfl rfl

theorem keep_respondSigned (s : State) (p : Nat) (r : Response) (message : List Byte) :
    Keep s (State.respondSigned s p r message) := by
  unfold State.respondSigned
  refine .ite ?_ ?_
  · exact .refl _
  · refine .ite ?_ ?_
    · exact keep_respond ..
    · extract_lets x1 x2
      have h3 : Keep s x1 := by subst x1; exact keep_respond ..
      clear_value x1
      exact .trans (.upd h3 rfl rfl rfl rfl rfl rfl rfl) (keep_startSigning ..)

theorem keep_giveSignature (s : State) (p : Nat) (bytes : List Byte) : Keep s (State.giveSignature s p bytes) := by
  unfold State.giveSignature
  exact .ite (.refl _) (keep_onPort ..)

theorem keep_finishJob (s : State) (p : Nat) (q : DataJob) : Keep s (State.finishJob s p q) := by
  unfold State.finishJob
  extract_lets x1 x2 x3
  have h4 : Keep s x1 := by subst x1; exact keep_onPort ..
  clear_value x1
  refine .ite ?_ ?_
  · exact .trans h4 (keep_respond ..)
  · refine .ite ?_ ?_
    · exact .trans h4 (keep_respond ..)
    · split
      · exact .trans h4 (keep_respond ..)
      · refine .ite ?_ ?_
        · extract_lets x7
          exact .trans (.trans h4 (keep_issueTrailer ..)) (keep_respondSigned ..)
        · exact .trans h4 (keep_respond ..)

theorem keep_jobLine (s : State) (id : Nat) (f : DataJob → DataJob) : Keep s (State.jobLine s id f) := by
  unfold State.jobLine
  extract_lets x1
  split
  · exact .refl _
  · refine .ite ?_ ?_
    · exact .refl _
    · extract_lets x4 x5
      exact .ite (keep_finishJob ..) (keep_onPort ..)

theorem keep_endSeal (s : State) (k : Nat) (status : Nat) : Keep s (State.endSeal s k status) := by
  unfold State.endSeal
  split
  · exact .refl _
  · extract_lets x3 x4 x5
    have h6 : Keep s x4 := by subst x4; exact keep_onSlot ..
    clear_value x4
    have h7 : Keep s x5 := by subst x5; exact .ite (.trans (.trans h6 (keep_fireSlot ..)) (keep_fireSlot ..)) (.trans h6 (keep_fireSlot ..))
    clear_value x5
    exact .trans h7 (keep_answerTicket ..)

theorem keep_sealWrite (bytes : List Byte) (s : State) (p : Nat) : Keep s (State.sealWrite bytes s p) := by
  unfold State.sealWrite
  extract_lets x1 x2
  exact keep_onPort ..

theorem keep_abortSealOn (s : State) (p : Nat) (link : Bool) (k : Nat) : Keep s (State.abortSealOn s p link k) := by
  unfold State.abortSealOn
  split
  · exact .refl _
  · refine .ite ?_ ?_
    · exact .refl _
    · extract_lets x3 x4 x5 x6 x7 x8
      have h9 : Keep s x7 := by subst x7; exact keep_onSlot ..
      clear_value x7
      exact .ite h9 (.ite (.trans (.trans (.trans h9 (keep_sealWrite ..)) (keep_onSlot ..)) (keep_endSeal ..)) (.trans h9 (keep_endSeal ..)))

theorem keep_answerTakeover (s : State) (k : Nat) (status : Nat) : Keep s (State.answerTakeover s k status) := by
  unfold State.answerTakeover
  split
  · exact .refl _
  · extract_lets x3 x4
    have h5 : Keep s x3 := by subst x3; exact keep_onSlot ..
    clear_value x3
    exact .ite (.trans h5 (keep_respond ..)) (.upd h5 rfl rfl rfl rfl rfl rfl rfl)

theorem keep_moveOwner (s : State) (k : Nat) (p : Nat) : Keep s (State.moveOwner s k p) := by
  unfold State.moveOwner
  extract_lets x1 x2 x3 x4
  have h5 : Keep s x2 := by subst x2; exact keep_onPort ..
  clear_value x2
  have h6 : Keep s x3 := by subst x3; exact .trans h5 (keep_onPort ..)
  clear_value x3
  have h7 : Keep s x4 := by
    subst x4
    split
    · exact h6
    · extract_lets x10 x11
      have h12 : Keep s x10 := by subst x10; exact .ite (.trans h6 (keep_onPort ..)) h6
      clear_value x10
      exact .trans (.trans h12 (keep_onPort ..)) (keep_onSlot ..)
  clear_value x4
  exact .trans h7 (keep_onSlot ..)

theorem keep_portResetSlot (p : Nat) (link : Bool) (s : State) (k : Nat) : Keep s (State.portResetSlot p link s k) := by
  unfold State.portResetSlot
  extract_lets x1 x2 x3
  have h4 : Keep s x1 := by subst x1; exact keep_abortSealOn ..
  clear_value x1
  have h5 : Keep s x2 := by subst x2; exact .trans h4 (keep_onSlot ..)
  clear_value x2
  exact .ite (.trans h5 (keep_emptySlot ..)) (.ite (.trans h5 (keep_haltSlot ..)) h5)

theorem keep_portResetMogul (s : State) (p : Nat) : Keep s (State.portResetMogul s p) := by
  unfold State.portResetMogul
  extract_lets x1 x2
  exact .upd (.refl _) rfl rfl rfl rfl rfl rfl rfl

theorem keep_portResetTarget (s : State) (p : Nat) : Keep s (State.portResetTarget s p) := by
  unfold State.portResetTarget
  extract_lets x1 x2 x3
  have h4 : Keep s x3 := by subst x3; exact .upd (.refl _) rfl rfl rfl rfl rfl rfl rfl
  clear_value x3
  exact .trans h4 (keep_irqUpdate ..)

theorem keep_portReset (s : State) (p : Nat) (link : Bool) : Keep s (State.portReset s p link) := by
  unfold State.portReset
  extract_lets x1 x2 x3 x4 x5 x6
  have h7 : Keep s x1 := by
    subst x1
    refine .trans ?_ (.foldl (fun r x => ?_) _ _)
    · exact .refl _
    · exact keep_portResetSlot ..
  clear_value x1
  have h8 : Keep s x2 := by subst x2; exact .trans (.trans h7 (keep_portResetMogul ..)) (keep_portResetTarget ..)
  clear_value x2
  have h9 : Keep s x5 := by subst x5; exact .upd h8 rfl rfl rfl rfl rfl rfl rfl
  clear_value x5
  exact .trans h9 (keep_setPort ..)

end Sys2Proof.Machine
end

