-- ==== Sys2Proof/Laws/KeepGrid.lean ====
section
/-! SUPPORT. What laps, reports, mesh links, cores and memory slices keep. -/
namespace Sys2Proof.Machine

/-! Lap -/

theorem keep_endRouterLap (s : State) (n : Nat) : Keep s (State.endRouterLap s n) := by
  unfold State.endRouterLap
  extract_lets x1 x2
  exact .ite (.refl _) (.trans (keep_setRouter ..) (keep_routerFault ..))

theorem keep_endLap (s : State) (k : Nat) : Keep s (s.endLap k) := by
  unfold State.endLap
  refine .ite (.refl _) (.trans (.foldl (fun r c => ?_) _ _) (.foldl (fun r n => keep_endRouterLap ..) _ _))
  exact .ite (.refl _) (keep_setCore_eq _ _ _ (Core.memEq_trap ..))

theorem keep_pairAtLaunch (s : State) (k : Nat) : Keep s (State.pairAtLaunch s k) := by
  unfold State.pairAtLaunch
  extract_lets x1 x2
  have h3 : Keep s x2 := by subst x2; exact keep_onSlot ..
  clear_value x2
  exact .ite (.refl _) (.ite (.trans (.trans h3 (keep_onSlot ..)) (keep_openWindow ..)) h3)

theorem keep_driveLaunch (s : State) (k : Nat) : Keep s (State.driveLaunch s k) := by
  unfold State.driveLaunch
  extract_lets x1
  split
  · refine .ite ?_ ?_
    · exact .refl _
    · refine .ite ?_ ?_
      · exact .trans (keep_onSlot ..) (keep_resume ..)
      · extract_lets x2 x3 x4 x5
        have h6 : Keep s x2 := by subst x2; exact keep_onSlot ..
        clear_value x2
        have h7 : Keep s x3 := by subst x3; exact .trans (.trans h6 (keep_latchSeeds ..)) (keep_pairAtLaunch ..)
        clear_value x3
        split
        · exact .upd h7 rfl rfl rfl rfl rfl rfl rfl
        · exact .upd h6 rfl rfl rfl rfl rfl rfl rfl
        · exact .ite (.trans h6 (keep_onSlot ..)) h6
  · exact .refl _

theorem keep_arriveLaunch (s : State) (k : Nat) (errs : Table (BitVec 160)) : Keep s (State.arriveLaunch s k errs) := by
  unfold State.arriveLaunch
  extract_lets x1 x2 x3 x4 x5 x6
  have h7 : Keep s x3 := by subst x3; exact keep_onSlot ..
  clear_value x3
  have h8 : Keep s x5 := by subst x5; exact .upd h7 rfl rfl rfl rfl rfl rfl rfl
  clear_value x5
  have h9 : Keep s x6 := by subst x6; exact .trans h8 (keep_startGrid ..)
  clear_value x6
  split
  · exact .ite (.refl _) (.ite (.trans (.trans (.trans (.trans h9 (keep_onSlot ..)) (keep_tallyEvent ..)) (keep_openWindow ..)) (keep_fireSlot ..)) h9)
  · exact .refl _

theorem keep_captureProbe (s : State) (k : Nat) (start : Nat) : Keep s (State.captureProbe s k start) := by
  unfold State.captureProbe
  extract_lets x1 x2 x3
  exact .upd (.refl _) rfl rfl rfl rfl rfl rfl rfl

theorem keep_endProbe (s : State) (k : Nat) (start : Nat) : Keep s (State.endProbe s k start) := by
  unfold State.endProbe
  extract_lets x1 x2 x3
  have h4 : Keep s x1 := by subst x1; exact keep_captureProbe ..
  clear_value x1
  have h5 : Keep s x2 := by
    subst x2
    refine .trans ?_ (keep_onCores (fun _ w => w) ..)
    exact .trans h4 (keep_stopGrid ..)
  clear_value x2
  have h6 : Keep s x3 := by subst x3; exact .trans h5 (keep_onRouters ..)
  clear_value x3
  exact .trans h6 (keep_onSlot ..)

theorem keep_arriveAbort (s : State) (k : Nat) : Keep s (State.arriveAbort s k) := by
  unfold State.arriveAbort
  extract_lets x1 x2
  split
  · extract_lets x3 x4
    have h5 : Keep s x3 := by subst x3; exact .upd (.refl _) rfl rfl rfl rfl rfl rfl rfl
    clear_value x3
    have h6 : Keep s x4 := by subst x4; exact h5
    clear_value x4
    exact .ite (.refl _) (.ite (.trans h6 (keep_endProbe ..)) (.ite (.trans (.trans h6 (keep_stopGrid ..)) (keep_onSlot ..)) h6))
  · exact .refl _

theorem keep_faultLine (s : State) (k : Nat) : Keep s (State.faultLine s k) := by
  unfold State.faultLine
  extract_lets x1 x2
  have h3 : Keep s x2 := by subst x2; exact keep_abortBy ..
  clear_value x2
  split
  · exact .ite (.ite (.trans h3 (keep_porterCause ..)) h3) (.refl _)
  · exact .refl _

theorem keep_schussError (s : State) : Keep s (State.schussError s) := by
  unfold State.schussError
  extract_lets x1 x2
  have h3 : Keep s x2 := by
    subst x2
    refine .trans ?_ (keep_evidenceAll ..)
    exact .upd (.refl _) rfl rfl rfl rfl rfl rfl rfl
  clear_value x2
  refine .trans ?_ (.foldl (fun r x => ?_) _ _)
  · exact h3
  · exact keep_routerFault ..

theorem keep_arriveTick (s : State) (arg : Nat) : Keep s (State.arriveTick s arg) := by
  unfold State.arriveTick
  exact .ite (.refl _) (keep_schussError ..)

theorem keep_schuss {f : State → State} (hf : ∀ r, Keep r (f r)) (s : State) (word : BitVec 16) (w : BitVec 16) :
    Keep s (State.schuss s word w f) := by
  unfold State.schuss
  exact .ite (keep_schussError ..) (.ite (hf ..) (.refl _))

theorem keep_arriveCommit (s : State) (word : BitVec 16) : Keep s (State.arriveCommit s word) := by
  unfold State.arriveCommit
  split
  · refine .ite ?_ ?_
    · refine .trans ?_ (keep_schuss (fun r => ?_) ..)
      · exact .refl _
      · exact keep_applyCommit ..
    · exact .refl _
  · exact .refl _

/-! Report -/

theorem keep_setReport (s : State) (src : Nat) (router : Bool) (seq : Nat) (f : TrapReport → TrapReport) :
    Keep s (State.setReport s src router seq f) := by
  unfold State.setReport
  exact .upd (.refl _) rfl rfl rfl rfl rfl rfl rfl

theorem keep_dropReport (s : State) (src : Nat) (router : Bool) (seq : Nat) : Keep s (State.dropReport s src router seq) := by
  unfold State.dropReport
  exact .upd (.refl _) rfl rfl rfl rfl rfl rfl rfl

theorem keep_setTransom (s : State) (t : Transom) : Keep s (State.setTransom s t) := by
  unfold State.setTransom
  exact .upd (.refl _) rfl rfl rfl rfl rfl rfl rfl

theorem keep_urgent (s : State) (n : Nat) (dest : Nat) (src : Nat) (type : Nat) (seq : Nat) :
    Keep s (State.urgent s n dest src type seq) := by
  unfold State.urgent
  exact keep_setTransom ..

theorem keep_takeReport (s : State) (src : Nat) (router : Bool) (seq : Nat) : Keep s (State.takeReport s src router seq) := by
  unfold State.takeReport
  split
  · exact .refl _
  · refine .ite ?_ ?_
    · exact .refl _
    · extract_lets x3 x4 x5 x6 x7 x8
      have h9 : Keep s x4 := by subst x4; exact .trans (keep_setTransom ..) (keep_urgent ..)
      clear_value x4
      have h10 : Keep s x5 := by subst x5; exact .trans h9 (keep_setReport ..)
      clear_value x5
      have h11 : Keep s x7 := by subst x7; exact .upd h10 rfl rfl rfl rfl rfl rfl rfl
      clear_value x7
      split
      · exact h9
      · exact .ite h9 (.ite h11 (.trans h11 (keep_enterFirst ..)))

theorem keep_resendReport (s : State) (src : Nat) (router : Bool) (seq : Nat) : Keep s (State.resendReport s src router seq) := by
  unfold State.resendReport
  split
  · refine .ite ?_ ?_
    · exact .refl _
    · extract_lets x3 x4
      have h5 : Keep s x3 := by subst x3; exact keep_setReport ..
      clear_value x3
      exact .ite (.upd h5 rfl rfl rfl rfl rfl rfl rfl) (.trans h5 (keep_setTransom ..))
  · exact .refl _

theorem keep_ackReport (s : State) (src : Nat) (router : Bool) (seq : Nat) : Keep s (State.ackReport s src router seq) := by
  unfold State.ackReport
  split
  · exact .refl _
  · exact .ite (.trans (keep_setTransom ..) (keep_dropReport ..)) (.refl _)

theorem keep_keepStage (s : State) (g : StageMsg) : Keep s (State.keepStage s g) := by
  unfold State.keepStage
  extract_lets x1 x2 x3
  have h4 : Keep s x2 := by subst x2; exact .upd (.refl _) rfl rfl rfl rfl rfl rfl rfl
  clear_value x2
  exact .trans h4 (keep_setSite ..)

theorem keep_stageSite (s : State) (site : Nat) (fence : Bool) (bypass : Bool) (n : Int) (m : Int) :
    Keep s (State.stageSite s site fence bypass n m) := by
  unfold State.stageSite
  split
  · exact .refl _
  · split
    · exact keep_keepStage ..
    · split
      · exact .refl _
      · exact .trans (.trans (keep_setTransom ..) (keep_keepStage ..)) (keep_urgent ..)

theorem keep_endStage (s : State) (g : StageMsg) : Keep s (State.endStage s g) := by
  unfold State.endStage
  refine .trans ?_ (keep_driveCommit ..)
  exact .upd (.refl _) rfl rfl rfl rfl rfl rfl rfl

theorem keep_ackStage (s : State) (site : Nat) : Keep s (State.ackStage s site) := by
  unfold State.ackStage
  split
  · exact .refl _
  · split
    · exact keep_endStage ..
    · split
      · exact .refl _
      · exact .trans (keep_setTransom ..) (keep_endStage ..)

theorem keep_loadGates (s : State) (n : Nat) (header : BitVec 120) (first : Nat) (entries : List (BitVec 128)) :
    Keep s (State.loadGates s n header first entries) := by
  unfold State.loadGates
  extract_lets x1
  exact .ite (.refl _) (keep_setRouter ..)

theorem keep_completeReload (s : State) (k : Nat) : Keep s (State.completeReload s k) := by
  unfold State.completeReload
  extract_lets x1
  exact .ite (.refl _) (.trans (.trans (keep_reloadAll ..) (keep_onSlot ..)) (keep_resume ..))

theorem keep_deadSite (s : State) (site : Nat) : Keep s (State.deadSite s site) := by
  unfold State.deadSite
  extract_lets x1 x2
  have h3 : Keep s x2 := by
    subst x2
    split
    · exact keep_raiseNow ..
    · exact .upd (.refl _) rfl rfl rfl rfl rfl rfl rfl
  clear_value x2
  exact .trans (.trans h3 (keep_decideFailed ..)) (keep_startSites ..)

/-! Mesh -/

theorem keep_setHold (s : State) (n : Nat) (h : Nat) (f : Flit) : Keep s (State.setHold s n h f) := by
  unfold State.setHold
  extract_lets x1
  exact keep_setRouter ..

theorem keep_holdUpset (n : Nat) (holds : BitVec 3) (s : State) (h : Nat) : Keep s (State.holdUpset n holds s h) := by
  unfold State.holdUpset
  exact .ite (.trans (.trans (keep_free ..) (keep_setHold ..)) (keep_routerFault ..)) (.refl _)

theorem keep_holdUpsets (s : State) (n : Nat) (holds : BitVec 3) : Keep s (State.holdUpsets s n holds) := by
  unfold State.holdUpsets
  refine .ite ?_ ?_
  · refine .trans ?_ (.foldl (fun r x => ?_) _ _)
    · exact .refl _
    · exact keep_holdUpset ..
  · exact .refl _

theorem keep_gateEnd (s : State) (n : Nat) (ctl : Nat) (err : BitVec 160) : Keep s (State.gateEnd s n ctl err) := by
  unfold State.gateEnd
  extract_lets x1
  split
  · exact .refl _
  · refine .ite ?_ ?_
    · exact .refl _
    · extract_lets x4 x5
      have h6 : Keep s x5 := by subst x5; exact keep_setRouter ..
      clear_value x5
      split
      · exact .trans h6 (keep_routerFault ..)
      · exact h6

theorem keep_aluStep (s : State) (n : Nat) (code : Nat) (mismatch : Bool) (op : Router → Flit → Flit → Router) (bad : Flit → Flit → Router → Router) :
    Keep s (State.aluStep s n code mismatch op bad) := by
  unfold State.aluStep
  extract_lets x1 x2 x3 x4
  exact .ite (.refl _) (.ite (.trans (.trans (.trans (keep_free ..) (keep_free ..)) (keep_setRouter ..)) (keep_routerFault ..)) (keep_setRouter ..))

theorem keep_idleRouterFault (s : State) (n : Nat) (code : Nat) : Keep s (State.idleRouterFault s n code) := by
  unfold State.idleRouterFault
  extract_lets x1 x2 x3 x4 x5
  have h6 : Keep s x4 := by subst x4; exact .upd (.refl _) rfl rfl rfl rfl rfl rfl rfl
  clear_value x4
  have h7 : Keep s x5 := by subst x5; exact .trans h6 (keep_openReport ..)
  clear_value x5
  exact .ite (.trans h7 (keep_decideFailed ..)) h7

theorem keep_receiveTransom (s : State) (n : Nat) (d : Nat) (err : BitVec 160) : Keep s (State.receiveTransom s n d err) := by
  unfold State.receiveTransom
  extract_lets x1 x2
  split
  · subst x1
    dsimp -zeta only
    exact .upd (.refl _) rfl rfl rfl rfl rfl rfl rfl
  · subst x1
    dsimp -zeta only
    exact .upd (keep_countCorrected ..) rfl rfl rfl rfl rfl rfl rfl
  · refine .trans ?_ (keep_evidenceAll ..)
    exact .upd (.refl _) rfl rfl rfl rfl rfl rfl rfl

theorem keep_putInput (s : State) (n : Nat) (p : Nat) (f : Flit) : Keep s (State.putInput s n p f) := by
  unfold State.putInput
  exact .ite (keep_setRouter ..) (.refl _)

theorem keep_receiveScheduled (s : State) (n d t : Nat) (err : BitVec 160) : Keep s (s.receiveScheduled n d t err) := by
  have hc (s : State) (a : Nat) : Keep s { s with grid := { s.grid with linkUncorrectable := a } } := .of rfl rfl rfl rfl rfl rfl rfl
  unfold State.receiveScheduled
  extract_lets p f v s0 g0 s1
  have h1 : Keep s s1 := ((keep_free s 128).trans (hc _ (satAdd 64 v.2.grid.linkUncorrectable 1))).trans (keep_putInput ..)
  clear_value s1
  split
  · exact keep_putInput ..
  · exact (keep_countCorrected s).trans (keep_putInput ..)
  · exact .ite (h1.trans (keep_routerFault ..)) (h1.trans (keep_idleRouterFault ..))

theorem keep_receiveLink (s : State) (n : Nat) (d : Nat) (t : Nat) (err : BitVec 160) :
    Keep s (State.receiveLink s n d t err) := by
  unfold State.receiveLink
  exact .ite (keep_receiveTransom ..) (.ite (.refl _) (keep_receiveScheduled ..))

/-! Memory -/

theorem keep_takeEdge (s : State) (j : Nat) (c : Nat) (e : BitVec 16) (f : Flit) : Keep s (State.takeEdge s j c e f) := by
  unfold State.takeEdge
  extract_lets x1 x2
  exact keep_setCtl ..

theorem keep_edgeTransom (s : State) (err : BitVec 160) : Keep s (State.edgeTransom s err) := by
  unfold State.edgeTransom
  split
  · exact .refl _
  · exact keep_countCorrected ..
  · refine .trans ?_ (keep_evidenceAll ..)
    exact .upd (.refl _) rfl rfl rfl rfl rfl rfl rfl

theorem keep_edgeTransfer (s : State) (st l t : Nat) (err : BitVec 160) : Keep s (s.edgeTransfer st l t err) := by
  have hc (s : State) (a : Nat) : Keep s { s with grid := { s.grid with linkUncorrectable := a } } := .of rfl rfl rfl rfl rfl rfl rfl
  unfold State.edgeTransfer
  refine .ite (.refl _) (.ite (keep_edgeTransom ..) ?_)
  split
  · exact .refl _
  · split
    · extract_lets e j v
      refine .ite (.refl _) ?_
      split
      · exact keep_takeEdge ..
      · exact (keep_countCorrected s).trans (keep_takeEdge ..)
      · exact (((keep_free s 128).trans (hc _ _)).trans (keep_takeEdge ..)).trans (keep_raiseNow ..)
    · exact .refl _

theorem keep_memoryRequest (s : State) (j : Nat) (p : Nat) : Keep s (State.memoryRequest s j p) := by
  unfold State.memoryRequest
  extract_lets x1 x2 x3
  have h4 : Keep s x2 := by subst x2; exact keep_setCtl ..
  clear_value x2
  split
  · exact .refl _
  · extract_lets x7
    exact .ite h4 (.ite (.trans h4 (keep_sliceFault ..)) (.ite (.trans h4 (keep_sliceFault ..)) (.trans h4 (keep_setCtl ..))))

theorem keep_readOut (s : State) (j : Nat) (p : Nat) (la : Nat) (data : Lanes) (bad : Bool) :
    Keep s (State.readOut s j p la data bad) := by
  unfold State.readOut
  extract_lets x1
  exact keep_setCtl ..

theorem keep_ageHeld (s : State) (j : Nat) : Keep s (State.ageHeld s j) := by
  unfold State.ageHeld
  extract_lets x1
  exact keep_setCtl ..

theorem keep_hold (s : State) (j : Nat) (la : Nat) (data : Lanes) : Keep s (State.hold s j la data) := by
  unfold State.hold
  extract_lets x1
  exact keep_setCtl ..

theorem keep_fetchBlock (s : State) (j la : Nat) (errs : List BlockErr) : Keep s (s.fetchBlock j la errs).2 := by
  have hm (s : State) (a : Nat) : Keep s { s with mem := { s.mem with merged := a } } := .of rfl rfl rfl rfl rfl rfl rfl
  unfold State.fetchBlock
  extract_lets s1 m0 r
  have h1 : Keep s s1 := keep_ageHeld ..
  have h2 : Keep s r.2.2 := h1.trans (keep_readBlock s1 errs la)
  clear_value r
  clear_value s1
  split
  · exact (h1.trans (hm s1 (satAdd 64 s1.mem.merged 1))).trans (keep_hold ..)
  · split
    · exact h2.trans (keep_hold ..)
    · exact h2

theorem keep_blockFailed (s : State) (k : Nat) (la : Nat) : Keep s (State.blockFailed s k la) := by
  unfold State.blockFailed
  exact keep_onSlot ..

theorem keep_servePeriodRead (s : State) (j : Nat) (k : Nat) (c : Nat) (r : SliceReq) (errs : List BlockErr) :
    Keep s (State.servePeriodRead s j k c r errs) := by
  unfold State.servePeriodRead
  extract_lets x1 x2 x3 x4
  split
  · subst x2
    dsimp -zeta only
    exact .trans (.trans (keep_fetchBlock ..) (keep_readOut ..)) (keep_setCtl ..)
  · subst x2
    dsimp -zeta only
    exact .trans (.trans (.trans (.trans (keep_fetchBlock ..) (keep_free ..)) (keep_blockFailed ..)) (keep_readOut ..)) (keep_setCtl ..)

theorem keep_servePeriodWrite (s : State) (j : Nat) (c : Nat) (r : SliceReq) : Keep s (State.servePeriodWrite s j c r) := by
  unfold State.servePeriodWrite
  extract_lets x1 x2 x3 x4 x5
  have h6 : Keep s x4 := by subst x4; exact keep_writeLine ..
  clear_value x4
  exact .trans h6 (keep_setCtl ..)

theorem keep_slicePeriod (s : State) (j : Nat) (errs : List BlockErr) : Keep s (State.slicePeriod s j errs) := by
  unfold State.slicePeriod
  split
  · exact .refl _
  · split
    · exact .refl _
    · extract_lets x5 x6 x7
      have h8 : Keep s x5 := by subst x5; exact keep_ageHeld ..
      clear_value x5
      split
      · subst x7
        dsimp -zeta only
        extract_lets 
        exact .trans h8 (keep_setCtl ..)
      · subst x7
        dsimp -zeta only
        extract_lets x11
        exact .trans (.ite (.trans h8 (keep_servePeriodWrite ..)) (.trans h8 (keep_servePeriodRead ..))) (keep_setCtl ..)

theorem keep_sendRead (s : State) (j : Nat) (k : Nat) (c : Nat) (r : ReadOut) : Keep s (State.sendRead s j k c r) := by
  unfold State.sendRead
  extract_lets x1 x2 x3
  split
  · exact .refl _
  · refine .trans ?_ (.foldl (fun r x => ?_) _ _)
    · exact .refl _
    · refine .trans ?_ (.foldl (fun r x => ?_) _ _)
      · exact .refl _
      · refine .trans ?_ (.foldl (fun r x => ?_) _ _)
        · exact .refl _
        · extract_lets x6 x7
          exact .ite (.ite (keep_addArrival ..) (.refl _)) (.refl _)

theorem keep_dataReady (s : State) (j : Nat) : Keep s (State.dataReady s j) := by
  unfold State.dataReady
  split
  · exact .refl _
  · extract_lets x3 x4
    have h5 : Keep s x4 := by subst x4; exact keep_setCtl ..
    clear_value x4
    split
    · extract_lets x8
      have h9 : Keep s x8 := by subst x8; exact .trans h5 (keep_sendRead ..)
      clear_value x8
      exact .ite (.trans h9 (keep_raiseNow ..)) h9
    · exact .ite (.trans h5 (keep_raiseNow ..)) h5
    · exact .refl _

theorem keep_scrubStep (s : State) (j : Nat) : Keep s (State.scrubStep s j) := by
  unfold State.scrubStep
  extract_lets x1 x2 x3
  have h4 : Keep s x2 := by subst x2; exact keep_setCtl ..
  clear_value x2
  exact .ite (keep_setCtl ..) (.upd h4 rfl rfl rfl rfl rfl rfl rfl)

theorem keep_writeBack (s : State) (la : Nat) (d : Lanes) : Keep s (s.writeBack la d) :=
  keep_hbm rfl rfl rfl rfl rfl fun h => Memory.wf_patch _ _ h

theorem keep_scrubBlock (s : State) (j : Nat) (errs : List BlockErr) : Keep s (s.scrubBlock j errs) := by
  unfold State.scrubBlock
  extract_lets i la s1 r
  have h1 : Keep s s1 := keep_scrubStep ..
  have h2 : Keep s r.2.2 := h1.trans (keep_readBlock s1 errs la)
  clear_value r
  clear_value s1 la i
  refine .ite (h1.trans (keep_writeLine ..)) ?_
  split
  · exact h2.trans (keep_repairBlock ..)
  · exact .ite (h2.trans (keep_setCtl ..)) h2

theorem keep_scrub (s : State) (j : Nat) (errs : List BlockErr) : Keep s (State.scrub s j errs) := by
  unfold State.scrub
  refine .ite ?_ ?_
  · exact .refl _
  · extract_lets x1 x2
    have h3 : Keep s x2 := by subst x2; exact keep_setCtl ..
    clear_value x2
    split
    · exact .trans (.trans h3 (keep_writeBack ..)) (keep_setCtl ..)
    · exact .trans h3 (keep_scrubBlock ..)

theorem keep_serveRead (s : State) (j : Nat) (r : ServiceReq) (errs : List BlockErr) : Keep s (State.serveRead s j r errs) := by
  unfold State.serveRead
  extract_lets x1 x2 x3 x4
  refine .ite ?_ ?_
  · subst x2
    dsimp -zeta only
    exact keep_jobLine ..
  · split
    · subst x1
      dsimp -zeta only
      exact .trans (keep_fetchBlock ..) (keep_jobLine ..)
    · split
      · subst x1
        dsimp -zeta only
        exact .trans (.trans (keep_fetchBlock ..) (keep_repairBlock ..)) (keep_jobLine ..)
      · subst x2
        dsimp -zeta only
        exact .trans (.trans (keep_fetchBlock ..) (keep_repairBlock ..)) (keep_jobLine ..)

theorem keep_lostAccess (s : State) (r : ServiceReq) : Keep s (State.lostAccess s r) := by
  unfold State.lostAccess
  refine .trans ?_ (keep_jobLine ..)
  exact .upd (.refl _) rfl rfl rfl rfl rfl rfl rfl

theorem keep_serviceAccess (s : State) (j : Nat) (errs : List BlockErr) : Keep s (State.serviceAccess s j errs) := by
  unfold State.serviceAccess
  split
  · exact .refl _
  · refine .ite ?_ ?_
    · exact .refl _
    · split
      · exact .refl _
      · refine .ite ?_ ?_
        · exact keep_lostAccess ..
        · extract_lets x5 x6 x7 x8 x9
          have h10 : Keep s x6 := by subst x6; exact .upd (.refl _) rfl rfl rfl rfl rfl rfl rfl
          clear_value x6
          have h11 : Keep s x8 := by subst x8; exact .trans h10 (keep_setCtl ..)
          clear_value x8
          have h12 : Keep s x9 := by subst x9; exact .ite (.trans h11 (keep_observe ..)) h11
          clear_value x9
          exact .ite (.trans (.trans h12 (keep_writeLine ..)) (keep_jobLine ..)) (.trans h12 (keep_serveRead ..))

theorem keep_rebuildDone (s : State) (j : Nat) (errs : List BlockErr) : Keep s (State.rebuildDone s j errs) := by
  unfold State.rebuildDone
  split
  · exact .refl _
  · refine .ite ?_ ?_
    · exact .refl _
    · extract_lets x3 x4 x5 x6 x7 x8
      have h9 : Keep s x3 := by subst x3; exact keep_rebuildBlocks ..
      clear_value x3
      have h10 : Keep s x5 := by subst x5; exact .trans h9 (keep_setSliceEnt ..)
      clear_value x5
      have h11 : Keep s x7 := by subst x7; exact .upd h10 rfl rfl rfl rfl rfl rfl rfl
      clear_value x7
      have h12 : Keep s x8 := by subst x8; exact .trans h11 (keep_fire ..)
      clear_value x8
      split
      · exact .trans (.trans h12 (keep_onSlot ..)) (keep_resume ..)
      · exact h12

end Sys2Proof.Machine
end

