-- ==== Sys2Proof/Laws/KeepPower.lean ====
section
/-! SUPPORT. What power, start-up, pins, entropy, Mogul and the Logbook keep. -/
namespace Sys2Proof.Machine

/-! PowerOps -/

theorem keep_onDomain (s : State) (d : Nat) (f : Domain → Domain) : Keep s (State.onDomain s d f) := by
  unfold State.onDomain
  exact keep_setDomain ..

theorem keep_beginWake (s : State) (d : Nat) : Keep s (State.beginWake s d) := by
  unfold State.beginWake
  exact keep_onDomain ..

theorem keep_wakeOne (s : State) (d : Nat) (write : Bool) (level : Bool) : Keep s (State.wakeOne s d write level) := by
  unfold State.wakeOne
  extract_lets x1 x2 x3 x4
  have h5 : Keep s x4 := by subst x4; exact .upd (.refl _) rfl rfl rfl rfl rfl rfl rfl
  clear_value x4
  exact .ite (.refl _) (.ite (.ite (.trans (.trans h5 (keep_onDomain ..)) (keep_beginWake ..)) (.trans h5 (keep_onDomain ..))) (.ite (keep_beginWake ..) (.ite (keep_onDomain ..) (.ite (.ite (.refl _) (.upd (.refl _) rfl rfl rfl rfl rfl rfl rfl)) (keep_beginWake ..)))))

theorem keep_wakeEvent (s : State) (d : Nat) (write level : Bool) (n : Nat) : Keep s (s.wakeEvent d write level n) := by
  induction n generalizing s d write with
  | zero => exact .refl s
  | succ n ih =>
    unfold State.wakeEvent
    exact .trans (.foldl (fun r e => .ite (.refl _) (ih ..)) _ _) (keep_wakeOne ..)

theorem keep_secureLeaves (s : State) (off : Bool) : Keep s (State.secureLeaves s off) := by
  unfold State.secureLeaves
  exact .upd (.refl _) rfl rfl rfl rfl rfl rfl rfl

theorem keep_clearCtls (s : State) (p : Nat → Bool) : Keep s (State.clearCtls s p) := by
  unfold State.clearCtls
  exact .upd (.refl _) rfl rfl rfl rfl rfl rfl rfl

theorem keep_stackOff (s : State) (st : Nat) : Keep s (s.stackOff st) :=
  Keep.trans (b := s.setStack st { s.stack st with trained := false, filled := false }) (keep_setStack ..)
    (keep_hbm rfl rfl rfl rfl rfl fun h => Memory.wf_clearRange _ _ h)

theorem keep_latticeOff (s : State) (lat : Nat) : Keep s (State.latticeOff s lat) := by
  unfold State.latticeOff
  exact .upd (.refl _) rfl rfl rfl rfl rfl rfl rfl

theorem keep_ringOff (s : State) (east : Bool) : Keep s (State.ringOff s east) := by
  unfold State.ringOff
  extract_lets x1 x2
  have h3 : Keep s x1 := by subst x1; exact keep_clearCtls ..
  clear_value x1
  exact .upd h3 rfl rfl rfl rfl rfl rfl rfl

theorem keep_porterLeaves (s : State) (off : Bool) : Keep s (s.porterLeaves off) := by
  have hu {a b : State} (hp : b.pending = a.pending) (h1 : b.mem = a.mem) (h2 : b.grid = a.grid) (h3 : b.det = a.det) :
      Keep a b.alertUpdate := ⟨hp, fun h => ⟨h1 ▸ h.hbm, h2 ▸ h.cores, h3 ▸ h.strict, rfl⟩⟩
  unfold State.porterLeaves
  exact .ite (hu rfl rfl rfl rfl) (hu rfl rfl rfl rfl)

theorem keep_entryEffect (s : State) (d : Nat) (off : Bool) : Keep s (State.entryEffect s d off) := by
  unfold State.entryEffect
  exact .ite (keep_porterLeaves ..) (.ite (keep_secureLeaves ..) (.ite (.ite (keep_ringOff ..) (.refl _)) (.ite (.ite (keep_stackOff ..) (.refl _)) (.ite (keep_portReset ..) (.ite (keep_portLeave ..) (.ite (.ite (keep_latticeOff ..) (.refl _)) (.refl _)))))))

theorem keep_beginEntry (s : State) (d : Nat) (target : Nat) : Keep s (State.beginEntry s d target) := by
  unfold State.beginEntry
  exact keep_onDomain ..

theorem keep_commitEntry (s : State) (d : Nat) : Keep s (State.commitEntry s d) := by
  unfold State.commitEntry
  extract_lets x1
  exact .ite (.refl _) (.trans (keep_setDomain ..) (keep_entryEffect ..))

theorem keep_armWake (s : State) (d : Nat) : Keep s (State.armWake s d) := by
  unfold State.armWake
  extract_lets x1 x2 x3
  have h4 : Keep s x2 := by subst x2; exact keep_setDomain ..
  clear_value x2
  exact .ite (.refl _) (.ite (.trans h4 (keep_wakeEvent ..)) h4)

theorem keep_requestDomain (s : State) (d : Nat) (v : Nat) : Keep s (State.requestDomain s d v).2 := by
  unfold State.requestDomain
  extract_lets x1
  split
  · dsimp only
    exact .refl _
  · split
    · dsimp only
      exact .refl _
    · split
      · dsimp only
        exact keep_wakeEvent ..
      · split
        · dsimp only
          exact .refl _
        · split
          · dsimp only
            exact .refl _
          · split
            · dsimp only
              exact .refl _
            · split
              · dsimp only
                exact keep_wakeEvent ..
              · split
                · dsimp only
                  exact .refl _
                · split
                  · dsimp only
                    exact .refl _
                  · split
                    · dsimp only
                      exact .refl _
                    · dsimp only
                      exact keep_beginEntry ..

theorem keep_releasePads (s : State) (d : Nat) : Keep s (State.releasePads s d) := by
  unfold State.releasePads
  extract_lets x1
  have h2 : Keep s x1 := by subst x1; exact keep_onDomain ..
  clear_value x1
  exact .ite (.trans h2 (keep_portTrain ..)) h2

theorem keep_readyCheck (s : State) : Keep s (State.readyCheck s) := by
  unfold State.readyCheck
  exact .ite (.upd (.refl _) rfl rfl rfl rfl rfl rfl rfl) (.refl _)

theorem keep_startNext (s : State) : Keep s (State.startNext s) := by
  unfold State.startNext
  extract_lets x1 x2 x3
  have h4 : Keep s x2 := by
    subst x2
    refine .trans ?_ (.foldl (fun r x => ?_) _ _)
    · exact .refl _
    · exact .ite (keep_beginWake ..) (.refl _)
  clear_value x2
  exact .upd h4 rfl rfl rfl rfl rfl rfl rfl

theorem keep_startCells (s : State) : Keep s (State.startCells s) := by
  unfold State.startCells
  extract_lets x1 x2 x3
  exact .upd (.refl _) rfl rfl rfl rfl rfl rfl rfl

theorem keep_porterUp (s : State) : Keep s (State.porterUp s) := by
  unfold State.porterUp
  exact .upd (.refl _) rfl rfl rfl rfl rfl rfl rfl

theorem keep_onEffect (s : State) (d : Nat) : Keep s (State.onEffect s d) := by
  unfold State.onEffect
  extract_lets x1 x2 x3 y3 x4
  have h5 : Keep s x2 := by subst x2; exact .ite (keep_startCells ..) (.refl _)
  clear_value x2
  have h6 : Keep s x3 := by subst x3; exact .ite (.trans h5 (keep_porterUp ..)) h5
  clear_value x3
  have g6 : Keep s y3 := by subst y3; exact .ite (.trans h6 (keep_alertUpdate ..)) h6
  clear_value y3
  have h7 : Keep s x4 := by subst x4; exact .ite (.trans g6 (keep_portTrain ..)) g6
  clear_value x4
  exact .ite (.trans (.trans h7 (keep_startNext ..)) (keep_readyCheck ..)) h7

theorem keep_wakeComplete (s : State) (d : Nat) : Keep s (State.wakeComplete s d) := by
  unfold State.wakeComplete
  extract_lets x1 x2
  exact .ite (.refl _) (.trans (keep_setDomain ..) (keep_onEffect ..))

theorem sound_reset : Sound State.reset := ⟨rfl, ⟨rfl, fun _ h => nomatch h⟩, (fun h => nomatch h), rfl⟩

theorem keep_coldState (s : State) (aon : Bool) : Keep s (s.coldState aon) :=
  ⟨rfl, fun _ => ⟨sound_reset.hbm, sound_reset.cores, sound_reset.strict, sound_reset.alert⟩⟩

theorem keep_beginReset (s : State) : Keep s (State.beginReset s) := by
  unfold State.beginReset
  extract_lets x1 x2 x3
  have h4 : Keep s x1 := by subst x1; exact keep_coldState ..
  clear_value x1
  refine .trans ?_ (.foldl (fun r x => ?_) _ _)
  · exact .upd h4 rfl rfl rfl rfl rfl rfl rfl
  · exact .ite (.refl _) (keep_onDomain ..)

theorem keep_beginDeviceReset (s : State) : Keep s (State.beginDeviceReset s) := by
  unfold State.beginDeviceReset
  extract_lets x1 x2
  have h3 : Keep s x1 := by subst x1; exact keep_beginReset ..
  clear_value x1
  exact .upd h3 rfl rfl rfl rfl rfl rfl rfl

theorem keep_timeZero (s : State) (latch : Bool) : Keep s (State.timeZero s latch) := by
  unfold State.timeZero
  exact .ite (.refl _) (.upd (.refl _) rfl rfl rfl rfl rfl rfl rfl)

theorem keep_resumeStart (s : State) (kind : Nat) : Keep s (State.resumeStart s kind) := by
  unfold State.resumeStart
  extract_lets x1 x2 x3 x4
  have h5 : Keep s x1 := by
    subst x1
    refine .trans ?_ (.foldl (fun r x => ?_) _ _)
    · exact .refl _
    · exact .ite (keep_onDomain ..) (.refl _)
  clear_value x1
  have h6 : Keep s x4 := by subst x4; exact .upd h5 rfl rfl rfl rfl rfl rfl rfl
  clear_value x4
  exact .trans h6 (keep_timeZero ..)

theorem keep_stackTrained (s : State) (st : Nat) (failed : BitVec 32) : Keep s (State.stackTrained s st failed) := by
  unfold State.stackTrained
  extract_lets x1 x2 x3 x4 x5
  have h6 : Keep s x5 := by subst x5; exact keep_setStack ..
  clear_value x5
  refine .ite ?_ ?_
  · exact .refl _
  · refine .ite ?_ ?_
    · exact keep_setStack ..
    · refine .trans ?_ (.foldl (fun r x => ?_) _ _)
      · exact h6
      · exact keep_setSliceEnt ..

theorem keep_stackFilled (s : State) (st : Nat) : Keep s (State.stackFilled s st) := by
  unfold State.stackFilled
  extract_lets x1
  exact .ite (.refl _) (.trans (keep_setStack ..) (keep_clearCtls ..))

theorem keep_supplyAlarms (s : State) (rails : List RailReading) : Keep s (State.supplyAlarms s rails) := by
  unfold State.supplyAlarms
  extract_lets x1 x2 x3 x4 x5
  have h6 : Keep s x3 := by subst x3; exact .upd (.refl _) rfl rfl rfl rfl rfl rfl rfl
  clear_value x3
  have h7 : Keep s x4 := by
    subst x4
    refine .trans ?_ (.foldl (fun r x => ?_) _ _)
    · exact h6
    · exact keep_fire ..
  clear_value x4
  have h8 : Keep s x5 := by subst x5; exact .trans h7 (keep_evidenceAll ..)
  clear_value x5
  refine .ite ?_ ?_
  · exact .refl _
  · refine .trans ?_ (.foldl (fun r x => ?_) _ _)
    · exact h8
    · exact .ite (keep_porterFault ..) (.refl _)

theorem keep_meterSample (s : State) (energy : List Nat) (rails : List RailReading) :
    Keep s (State.meterSample s energy rails) := by
  unfold State.meterSample
  refine .ite ?_ ?_
  · exact .refl _
  · extract_lets x1 x2 x3 x4 x5 x6 x7 x8 x9
    have h10 : Keep s x2 := by
      subst x2
      refine .trans ?_ (.foldl (fun r x => ?_) _ _)
      · exact .refl _
      · exact keep_onDomain ..
    clear_value x2
    have h11 : Keep s x4 := by subst x4; exact .upd h10 rfl rfl rfl rfl rfl rfl rfl
    clear_value x4
    have h12 : Keep s x6 := by subst x6; exact .ite (.upd h11 rfl rfl rfl rfl rfl rfl rfl) h11
    clear_value x6
    have h13 : Keep s x8 := by subst x8; exact .upd h12 rfl rfl rfl rfl rfl rfl rfl
    clear_value x8
    have h14 : Keep s x9 := by subst x9; exact .trans (.trans (.trans h13 (keep_observe ..)) (keep_observe ..)) (keep_observe ..)
    clear_value x9
    exact .trans (.trans h14 (keep_supplyAlarms ..)) (keep_decide_ ..)

theorem keep_emergency (s : State) : Keep s (State.emergency s) := by
  unfold State.emergency
  extract_lets x1 x2 x3 x4 x5 x6 x7
  have h8 : Keep s x3 := by subst x3; exact .upd (.refl _) rfl rfl rfl rfl rfl rfl rfl
  clear_value x3
  have h9 : Keep s x4 := by subst x4; exact .trans (.trans h8 (keep_fire ..)) (keep_evidenceAll ..)
  clear_value x4
  have h10 : Keep s x5 := by
    subst x5
    refine .trans ?_ (.foldl (fun r x => ?_) _ _)
    · exact h9
    · exact keep_porterFault ..
  clear_value x5
  exact .upd h10 rfl rfl rfl rfl rfl rfl rfl

theorem keep_trip (s : State) : Keep s (State.trip s) := by
  unfold State.trip
  extract_lets x1 x2 x3 x4
  have h5 : Keep s x3 := by subst x3; exact .upd (.refl _) rfl rfl rfl rfl rfl rfl rfl
  clear_value x3
  have h6 : Keep s x4 := by subst x4; exact .trans h5 (keep_loseDevice ..)
  clear_value x4
  refine .trans ?_ (.foldl (fun r x => ?_) _ _)
  · exact h6
  · extract_lets x7
    exact .ite (.refl _) (keep_beginEntry ..)

theorem keep_thermalSample (s : State) (temps : List Int) : Keep s (State.thermalSample s temps) := by
  unfold State.thermalSample
  split
  · exact .refl _
  · refine .ite ?_ ?_
    · exact .refl _
    · extract_lets x1 x2 x3 x4 x5 x6 x7
      have h8 : Keep s x3 := by subst x3; exact .upd (.refl _) rfl rfl rfl rfl rfl rfl rfl
      clear_value x3
      have h9 : Keep s x5 := by subst x5; exact .ite (.trans h8 (keep_emergency ..)) h8
      clear_value x5
      exact .ite h8 (.ite (.trans h9 (keep_trip ..)) (.ite (.upd h9 rfl rfl rfl rfl rfl rfl rfl) h9))

theorem keep_setComparator (s : State) (n : Nat) (c : Comparator) : Keep s (State.setComparator s n c) := by
  unfold State.setComparator
  exact .upd (.refl _) rfl rfl rfl rfl rfl rfl rfl

theorem keep_comparatorWake (s : State) (n : Nat) : Keep s (State.comparatorWake s n) := by
  unfold State.comparatorWake
  extract_lets x1 x2
  have h3 : Keep s x2 := by subst x2; exact keep_fire ..
  clear_value x2
  refine .ite ?_ ?_
  · exact h3
  · refine .trans ?_ (.foldl (fun r x => ?_) _ _)
    · exact h3
    · exact keep_wakeEvent ..

theorem keep_comparatorEvent (s : State) (n : Nat) (uv : Nat) : Keep s (State.comparatorEvent s n uv) := by
  unfold State.comparatorEvent
  extract_lets x1
  exact .ite (.refl _) (.trans (keep_setComparator ..) (keep_comparatorWake ..))

theorem keep_comparatorClear (s : State) (n : Nat) (uv : Nat) : Keep s (State.comparatorClear s n uv) := by
  unfold State.comparatorClear
  extract_lets x1
  exact .ite (.refl _) (keep_setComparator ..)

/-! Power -/

theorem keep_starve (s : State) (k : Nat) : Keep s (State.starve s k) := by
  unfold State.starve
  extract_lets x1
  exact .ite (keep_onSlot ..) (.refl _)

theorem keep_endHold (s : State) : Keep s (State.endHold s) := by
  unfold State.endHold
  split
  · exact .ite (.upd (.refl _) rfl rfl rfl rfl rfl rfl rfl) (.refl _)
  · exact .refl _

/-! Startup -/

theorem keep_pwrOkRise (s : State) (straps : BitVec 2) (addr : BitVec 3) : Keep s (State.pwrOkRise s straps addr) := by
  unfold State.pwrOkRise
  refine .ite ?_ ?_
  · exact .refl _
  · extract_lets x1 x2
    have h3 : Keep s x1 := by subst x1; exact keep_coldState ..
    clear_value x1
    exact .trans (.upd h3 rfl rfl rfl rfl rfl rfl rfl) (keep_timeZero ..)

theorem keep_pwrOkFall (s : State) : Keep s (State.pwrOkFall s) := by
  unfold State.pwrOkFall
  extract_lets x1 x2
  have h3 : Keep s x1 := by subst x1; exact keep_coldState ..
  clear_value x1
  exact .upd h3 rfl rfl rfl rfl rfl rfl rfl

theorem keep_resetFall (s : State) : Keep s (State.resetFall s) := by
  unfold State.resetFall
  refine .ite ?_ ?_
  · exact .refl _
  · refine .ite ?_ ?_
    · exact .upd (.refl _) rfl rfl rfl rfl rfl rfl rfl
    · extract_lets x1 x2
      have h3 : Keep s x1 := by subst x1; exact keep_beginReset ..
      clear_value x1
      exact .upd h3 rfl rfl rfl rfl rfl rfl rfl

theorem keep_resetRise (s : State) (straps : BitVec 2) (addr : BitVec 3) : Keep s (State.resetRise s straps addr) := by
  unfold State.resetRise
  refine .ite ?_ ?_
  · exact .refl _
  · extract_lets x1 x2 x3
    have h4 : Keep s x3 := by subst x3; exact .upd (.refl _) rfl rfl rfl rfl rfl rfl rfl
    clear_value x3
    exact .ite (.trans h4 (keep_resumeStart ..)) h4

theorem keep_releaseReset (s : State) : Keep s (State.releaseReset s) := by
  unfold State.releaseReset
  split
  · exact .ite (.trans (.upd (.refl _) rfl rfl rfl rfl rfl rfl rfl) (keep_resumeStart ..)) (.refl _)
  · exact .refl _

theorem keep_refclkStarts (s : State) : Keep s (State.refclkStarts s) := by
  unfold State.refclkStarts
  exact .trans (.upd (.refl _) rfl rfl rfl rfl rfl rfl rfl) (keep_timeZero ..)

theorem keep_refclkStops (s : State) : Keep s (State.refclkStops s) := by
  unfold State.refclkStops
  exact .upd (.refl _) rfl rfl rfl rfl rfl rfl rfl

theorem keep_pllLocks (s : State) : Keep s (State.pllLocks s) := by
  unfold State.pllLocks
  split
  · exact .refl _
  · refine .ite ?_ ?_
    · exact .refl _
    · extract_lets x3 x4
      have h5 : Keep s x4 := by subst x4; exact .upd (.refl _) rfl rfl rfl rfl rfl rfl rfl
      clear_value x4
      exact .trans (.trans h5 (keep_beginWake ..)) (keep_beginWake ..)

theorem keep_pllTimesOut (s : State) : Keep s (State.pllTimesOut s) := by
  unfold State.pllTimesOut
  split
  · exact .refl _
  · exact .ite (.refl _) (.upd (.refl _) rfl rfl rfl rfl rfl rfl rfl)

theorem keep_pllLoses (s : State) (die : Nat) : Keep s (State.pllLoses s die) := by
  unfold State.pllLoses
  refine .ite ?_ ?_
  · exact .refl _
  · extract_lets x1 x2
    have h3 : Keep s x1 := by subst x1; exact .trans (.trans (keep_fire ..) (keep_evidenceAll ..)) (keep_loseDevice ..)
    clear_value x1
    exact .upd h3 rfl rfl rfl rfl rfl rfl rfl

theorem keep_startFails (s : State) (firmware : Bool) : Keep s (State.startFails s firmware) := by
  unfold State.startFails
  exact .ite (.refl _) (.upd (.refl _) rfl rfl rfl rfl rfl rfl rfl)

theorem keep_reservedWritten (s : State) : Keep s (State.reservedWritten s) := by
  unfold State.reservedWritten
  exact .ite (.refl _) (.trans (.upd (.refl _) rfl rfl rfl rfl rfl rfl rfl) (keep_readyCheck ..))

theorem keep_dropSignature (s : State) (j : SigJob) : Keep s (State.dropSignature s j) := by
  unfold State.dropSignature
  split
  · exact keep_giveSignature ..
  · exact .upd (.refl _) rfl rfl rfl rfl rfl rfl rfl

theorem keep_deriveIdentity (s : State) : Keep s (State.deriveIdentity s) := by
  unfold State.deriveIdentity
  exact .ite (.refl _) (.ite (.trans (.upd (.refl _) rfl rfl rfl rfl rfl rfl rfl) (keep_startSigning ..))
    (.trans (.upd (.refl _) rfl rfl rfl rfl rfl rfl rfl) (.foldl keep_dropSignature _ _)))

/-! Pin -/

theorem keep_syncOut (s : State) : Keep s (State.syncOut s) := by
  unfold State.syncOut
  refine .ite ?_ ?_
  · exact .refl _
  · extract_lets x1 x2
    exact .upd (.refl _) rfl rfl rfl rfl rfl rfl rfl

/-! Noise -/

theorem keep_setCell (s : State) (n : Nat) (c : Cell) : Keep s (State.setCell s n c) := by
  unfold State.setCell
  exact .upd (.refl _) rfl rfl rfl rfl rfl rfl rfl

theorem keep_refuseNoise (s : State) : Keep s (State.refuseNoise s) := by
  unfold State.refuseNoise
  exact .upd (.refl _) rfl rfl rfl rfl rfl rfl rfl

theorem keep_noiseFatal (s : State) : Keep s (State.noiseFatal s) := by
  unfold State.noiseFatal
  extract_lets x1 x2
  have h3 : Keep s x1 := by
    subst x1
    refine .trans ?_ (.foldl (fun r x => ?_) _ _)
    · exact .refl _
    · exact keep_refuseNoise ..
  clear_value x1
  exact .trans (.upd h3 rfl rfl rfl rfl rfl rfl rfl) (keep_fire ..)

theorem keep_sourceCheck (s : State) : Keep s (State.sourceCheck s) := by
  unfold State.sourceCheck
  exact .ite (.upd (.refl _) rfl rfl rfl rfl rfl rfl rfl) (.refl _)

theorem keep_seedDrbg (s : State) (block : List Byte) : Keep s (State.seedDrbg s block) := by
  unfold State.seedDrbg
  extract_lets x1
  exact .upd (.refl _) rfl rfl rfl rfl rfl rfl rfl

theorem keep_deliver (s : State) (block : List Byte) : Keep s (State.deliver s block) := by
  unfold State.deliver
  extract_lets x1
  exact .ite (keep_seedDrbg ..) (.ite (.upd (.refl _) rfl rfl rfl rfl rfl rfl rfl) (.ite (.upd (.refl _) rfl rfl rfl rfl rfl rfl rfl) (.upd (.refl _) rfl rfl rfl rfl rfl rfl rfl)))

theorem keep_settle (s : State) (n : Nat) : Keep s (State.settle s n) := by
  unfold State.settle
  extract_lets x1
  exact .ite (.refl _) (keep_setCell ..)

theorem keep_blockPasses (s : State) (n : Nat) (raw : BitVec 2048) : Keep s (State.blockPasses s n raw) := by
  unfold State.blockPasses
  extract_lets x1 x2 x3 x4 x5 x6
  have h7 : Keep s x4 := by subst x4; exact keep_setCell ..
  clear_value x4
  have h8 : Keep s x6 := by subst x6; exact .upd h7 rfl rfl rfl rfl rfl rfl rfl
  clear_value x6
  exact .ite (.refl _) (.ite (.trans h8 (keep_deliver ..)) (.trans h8 (keep_sourceCheck ..)))

theorem keep_cellFails (s : State) (n : Nat) : Keep s (State.cellFails s n) := by
  unfold State.cellFails
  extract_lets x1 x2 x3
  have h4 : Keep s x2 := by subst x2; exact keep_setCell ..
  clear_value x2
  have h5 : Keep s x3 := by subst x3; exact .trans h4 (keep_fire ..)
  clear_value x3
  exact .ite (.ite (.trans h5 (keep_noiseFatal ..)) (.trans h5 (keep_sourceCheck ..))) (keep_setCell ..)

theorem keep_blockFails (s : State) (n : Nat) (raw : BitVec 2048) : Keep s (State.blockFails s n raw) := by
  unfold State.blockFails
  extract_lets x1 x2 x3 x4 x5 x6
  have h7 : Keep s x6 := by subst x6; exact .upd (.refl _) rfl rfl rfl rfl rfl rfl rfl
  clear_value x6
  exact .ite (.refl _) (.trans h7 (keep_cellFails ..))

theorem keep_drbgGenerate (s : State) : Keep s (State.drbgGenerate s) := by
  unfold State.drbgGenerate
  split
  · exact .refl _
  · refine .ite ?_ ?_
    · exact .refl _
    · extract_lets x1 x2 x3 x4 x5 x6 x7
      have h8 : Keep s x4 := by subst x4; exact .upd (.refl _) rfl rfl rfl rfl rfl rfl rfl
      clear_value x4
      exact .ite (.trans (.upd h8 rfl rfl rfl rfl rfl rfl rfl) (keep_startSigning ..)) (.upd h8 rfl rfl rfl rfl rfl rfl rfl)

theorem keep_refuseInstall (s : State) (k : Nat) : Keep s (State.refuseInstall s k) := by
  unfold State.refuseInstall
  refine .ite ?_ ?_
  · exact keep_portState ..
  · extract_lets x1 x2 x3 x4
    exact .upd (.refl _) rfl rfl rfl rfl rfl rfl rfl

theorem keep_keyInstall (s : State) : Keep s (State.keyInstall s) := by
  unfold State.keyInstall
  split
  · exact .refl _
  · exact .ite (.refl _) (.ite (.upd (.refl _) rfl rfl rfl rfl rfl rfl rfl) (.ite (.trans (.upd (.refl _) rfl rfl rfl rfl rfl rfl rfl) (keep_refuseInstall ..)) (.upd (.refl _) rfl rfl rfl rfl rfl rfl rfl)))

theorem keep_signatureDone (s : State) : Keep s (State.signatureDone s) := by
  unfold State.signatureDone
  split
  · exact .refl _
  · refine .ite ?_ ?_
    · exact .refl _
    · extract_lets x3 x4 x5 x6 x7
      have h8 : Keep s x4 := by subst x4; exact .upd (.refl _) rfl rfl rfl rfl rfl rfl rfl
      clear_value x4
      have h9 : Keep s x6 := by subst x6; exact .trans h8 (keep_free ..)
      clear_value x6
      split
      · extract_lets x12
        exact .trans (.trans h8 (keep_giveSignature ..)) (keep_startSigning ..)
      · exact .trans (.upd h9 rfl rfl rfl rfl rfl rfl rfl) (keep_startSigning ..)

/-! MogulOps -/

theorem keep_setRun (s : State) (g : Nat) (r : Option MogulRun) : Keep s (State.setRun s g r) := by
  unfold State.setRun
  exact .ite (.upd (.refl _) rfl rfl rfl rfl rfl rfl rfl) (.upd (.refl _) rfl rfl rfl rfl rfl rfl rfl)

theorem keep_setLattices (s : State) (g : Nat) (st : Nat) : Keep s (State.setLattices s g st) := by
  unfold State.setLattices
  exact .upd (.refl _) rfl rfl rfl rfl rfl rfl rfl

theorem keep_setProgress (s : State) (g : Nat) (n : Nat) : Keep s (State.setProgress s g n) := by
  unfold State.setProgress
  exact .upd (.refl _) rfl rfl rfl rfl rfl rfl rfl

theorem keep_sweepStep (s : State) (lat : Nat) : Keep s (State.sweepStep s lat) := by
  unfold State.sweepStep
  split
  · exact .refl _
  · refine .ite ?_ ?_
    · exact .refl _
    · extract_lets x3 x4 x5 x6 x7 x8 x9
      have h10 : Keep s x9 := by subst x9; exact .trans (.trans (.trans (.trans (keep_free ..) (keep_free ..)) (keep_setRun ..)) (keep_setProgress ..)) (keep_tallyEvent ..)
      clear_value x9
      exact .ite (.trans h10 (keep_setLattices ..)) h10

theorem keep_energyReady (s : State) (lat : Nat) : Keep s (State.energyReady s lat) := by
  unfold State.energyReady
  split
  · exact .refl _
  · split
    · exact .refl _
    · refine .ite ?_ ?_
      · exact .refl _
      · extract_lets x3 x4 x5 x6
        exact .ite (keep_setRun ..) (.ite (keep_setRun ..) (keep_setRun ..))

theorem keep_drainEnd (s : State) (lat : Nat) : Keep s (State.drainEnd s lat) := by
  unfold State.drainEnd
  split
  · exact .refl _
  · exact .ite (keep_setRun ..) (.refl _)

theorem keep_endMogul (s : State) (lat : Nat) : Keep s (State.endMogul s lat) := by
  unfold State.endMogul
  split
  · exact .refl _
  · refine .ite ?_ ?_
    · exact .refl _
    · extract_lets x3 x4 x5 x6
      have h7 : Keep s x4 := by subst x4; exact .trans (keep_setRun ..) (keep_setLattices ..)
      clear_value x4
      have h8 : Keep s x6 := by subst x6; exact .upd h7 rfl rfl rfl rfl rfl rfl rfl
      clear_value x6
      exact .ite (.trans h8 (keep_answerTicket ..)) h8

theorem keep_mogulStop (s : State) (v : BitVec 8) : Keep s (State.mogulStop s v) := by
  unfold State.mogulStop
  extract_lets x1 x2
  exact .upd (.refl _) rfl rfl rfl rfl rfl rfl rfl

theorem keep_initSpins (s : State) (g : Nat) (init : Nat) : Keep s (State.initSpins s g init).2 := by
  unfold State.initSpins
  split
  · dsimp only
    exact .refl _
  · split
    · extract_lets x1 x2
      dsimp only
      exact .trans (keep_free ..) (keep_free ..)
    · dsimp only
      exact .refl _

theorem keep_startMogul (s : State) (bs : List Byte) (t : Ticket) : Keep s (State.startMogul s bs t) := by
  unfold State.startMogul
  extract_lets x1 x2 x3 x4 x5 x6 x7
  have h8 : Keep s x6 := by subst x6; exact .trans (.trans (.trans (keep_initSpins ..) (keep_setRun ..)) (keep_setLattices ..)) (keep_setProgress ..)
  clear_value x6
  exact .upd h8 rfl rfl rfl rfl rfl rfl rfl

/-! Log -/

theorem keep_closeInterval (s : State) (start : Nat) (ms : Nat) (whole : Bool) :
    Keep s (State.closeInterval s start ms whole) := by
  unfold State.closeInterval
  extract_lets x1 x2 x3 x4
  exact .ite (.trans (.upd (.refl _) rfl rfl rfl rfl rfl rfl rfl) (keep_writeLog ..)) (.upd (.refl _) rfl rfl rfl rfl rfl rfl rfl)

theorem keep_openInterval (s : State) : Keep s (State.openInterval s) := by
  unfold State.openInterval
  exact .upd (.refl _) rfl rfl rfl rfl rfl rfl rfl

theorem keep_intervalEnd (s : State) : Keep s (State.intervalEnd s) := by
  unfold State.intervalEnd
  refine .ite ?_ ?_
  · exact .refl _
  · split
    · exact .ite (keep_openInterval ..) (.refl _)
    · exact .ite (.trans (keep_closeInterval ..) (keep_openInterval ..)) (.refl _)

theorem keep_msObserve (s : State) (m : Nat) : Keep s (State.msObserve s m) := by
  unfold State.msObserve
  extract_lets x1 x2 x3 x4
  have h5 : Keep s x3 := by subst x3; exact keep_observe ..
  clear_value x3
  exact .upd h5 rfl rfl rfl rfl rfl rfl rfl

theorem keep_msTick (s : State) : Keep s (State.msTick s) := by
  unfold State.msTick
  refine .ite ?_ ?_
  · exact .refl _
  · extract_lets x1 x2
    have h3 : Keep s x1 := by
      subst x1
      refine .trans ?_ (keep_observe ..)
      refine .trans ?_ (.foldl (fun r x => ?_) _ _)
      · exact .refl _
      · exact keep_msObserve ..
    clear_value x1
    exact .upd h3 rfl rfl rfl rfl rfl rfl rfl

theorem keep_recordDone (s : State) : Keep s (State.recordDone s) := by
  unfold State.recordDone
  split
  · exact .refl _
  · refine .ite ?_ ?_
    · exact .refl _
    · extract_lets x1 x2 x3 x4 x5
      have h6 : Keep s x4 := by subst x4; exact .upd (.refl _) rfl rfl rfl rfl rfl rfl rfl
      clear_value x4
      have h7 : Keep s x5 := by subst x5; exact .trans (.trans h6 (keep_writeLog ..)) (keep_fire ..)
      clear_value x5
      exact .ite (.trans h7 (keep_fire ..)) h7

theorem keep_logClear (s : State) : Keep s (State.logClear s) := by
  unfold State.logClear
  exact .upd (.refl _) rfl rfl rfl rfl rfl rfl rfl

end Sys2Proof.Machine
end

