-- ==== Sys2Proof/Laws/KeepDict.lean ====
section
/-! SUPPORT. What the dictionary and the messages between devices keep. -/
namespace Sys2Proof.Machine

/-! Dict -/

theorem keep_claimRead (s : State) (t : Nat) : Keep s (State.claimRead s t) := by
  unfold State.claimRead
  split
  · exact .refl _
  · extract_lets x3 x4 x5
    have h6 : Keep s x5 := by subst x5; exact .upd (.refl _) rfl rfl rfl rfl rfl rfl rfl
    clear_value x5
    exact .trans (.trans h6 (keep_irqUpdate ..)) (keep_observe ..)

theorem keep_tileRead (s : State) (t : Nat) (n : Nat) : Keep s (State.tileRead s t n).2.2 := by
  unfold State.tileRead
  split
  · dsimp only
    exact .refl _
  · split
    · dsimp only
      exact .refl _
    · dsimp only
      exact .upd (.refl _) rfl rfl rfl rfl rfl rfl rfl

theorem keep_entropyRead (s : State) : Keep s (State.entropyRead s).2.2 := by
  unfold State.entropyRead
  split
  · dsimp only
    exact .refl _
  · split
    · dsimp only
      exact .refl _
    · dsimp only
      exact .upd (.refl _) rfl rfl rfl rfl rfl rfl rfl

theorem keep_readOwn (s : State) (v : Path) (i : Nat) (sub : Nat) : Keep s (State.readOwn s v i sub).2.2 := by
  unfold State.readOwn
  split
  · dsimp only
    exact keep_claimRead ..
  · split
    · extract_lets x1
      dsimp only
      exact .refl _
    · split
      · extract_lets x2
        dsimp only
        exact .refl _
      · split
        · exact keep_entropyRead ..
        · split
          · extract_lets x3
            dsimp only
            exact .refl _
          · split
            · extract_lets x4
              dsimp only
              exact .refl _
            · split
              · extract_lets x5
                dsimp only
                exact .refl _
              · split
                · extract_lets x6
                  dsimp only
                  exact .refl _
                · split
                  · exact keep_tileRead ..
                  · dsimp only
                    exact .refl _

theorem keep_readObject (s : State) (v : Path) (i : Nat) (sub : Nat) : Keep s (State.readObject s v i sub).2.2 := by
  unfold State.readObject
  split
  · dsimp only
    exact .refl _
  · split
    · dsimp only
      exact .refl _
    · split
      · dsimp only
        exact .refl _
      · split
        · dsimp only
          exact .refl _
        · exact keep_readOwn ..

/-! DictWrite -/

theorem keep_wrote (s : State) : Keep s (State.wrote s).2 := by
  unfold State.wrote
  dsimp only
  exact .refl _

theorem keep_refuse (s : State) (st : Nat) : Keep s (State.refuse s st).2 := by
  unfold State.refuse
  dsimp only
  exact .refl _

theorem keep_inRange {s t : State} {ok : Bool} (h : ok = true → Keep s t) : Keep s (s.inRange ok t).2 := by
  unfold State.inRange
  split
  · rename_i e; exact h e
  · exact .refl s

theorem keep_writeReset (s : State) (x : Nat) (t : Option Ticket) : Keep s (State.writeReset s x t).2 := by
  unfold State.writeReset
  refine .trans ?_ (keep_inRange (fun r => ?_) ..)
  · exact .refl _
  · exact .upd (.refl _) rfl rfl rfl rfl rfl rfl rfl

theorem keep_writeHandover (s : State) (v : Path) (k : Nat) : Keep s (State.writeHandover s v k).2 := by
  unfold State.writeHandover
  split
  · exact keep_refuse ..
  · split
    · exact keep_refuse ..
    · split
      · exact keep_refuse ..
      · extract_lets x1
        split
        · exact .trans (keep_moveOwner ..) (keep_wrote ..)
        · exact keep_refuse ..

theorem keep_writeTakeover (s : State) (v : Path) (k : Nat) (t : Option Ticket) : Keep s (State.writeTakeover s v k t).2 := by
  unfold State.writeTakeover
  extract_lets x1
  split
  · exact keep_refuse ..
  · split
    · exact keep_refuse ..
    · split
      · exact keep_refuse ..
      · split
        · exact keep_refuse ..
        · split
          · exact keep_refuse ..
          · split
            · exact keep_refuse ..
            · extract_lets x4
              split
              · exact .trans (keep_moveOwner ..) (keep_wrote ..)
              · dsimp only
                exact .trans (keep_onSlot ..) (keep_fire ..)

theorem keep_writeDeny (s : State) (v : Path) (k : Nat) : Keep s (State.writeDeny s v k).2 := by
  unfold State.writeDeny
  split
  · exact keep_refuse ..
  · split
    · exact keep_refuse ..
    · split
      · exact keep_refuse ..
      · exact .trans (keep_answerTakeover ..) (keep_wrote ..)

theorem keep_writeLinks (s : State) (v : Path) (i : Nat) (sub : Nat) (b : List Byte) (t : Option Ticket) :
    Keep s (State.writeLinks s v i sub b t).2 := by
  unfold State.writeLinks
  extract_lets x1 x2 x3
  split
  · exact keep_writeReset ..
  · split
    · exact .trans (.upd (.refl _) rfl rfl rfl rfl rfl rfl rfl) (keep_wrote ..)
    · split
      · split
        · exact keep_writeHandover ..
        · exact keep_writeTakeover ..
        · exact keep_writeDeny ..
        · refine .trans ?_ (keep_inRange (fun r => ?_) ..)
          · exact .refl _
          · exact .upd (.refl _) rfl rfl rfl rfl rfl rfl rfl
      · split
        · exact .trans (keep_onPort ..) (keep_wrote ..)
        · refine .trans ?_ (keep_inRange (fun r => ?_) ..)
          · exact .refl _
          · exact keep_onLport ..

theorem keep_writePads (s : State) (x : Nat) : Keep s (State.writePads s x) := by
  unfold State.writePads
  refine .trans ?_ (keep_readyCheck ..)
  refine .trans ?_ (.foldl (fun r x => ?_) _ _)
  · exact .refl _
  · exact keep_releasePads ..

theorem keep_writeComparator (s : State) (n : Nat) (x : Nat) : Keep s (State.writeComparator s n x) := by
  unfold State.writeComparator
  extract_lets x1 x2 x3
  exact keep_setComparator ..

theorem keep_writePower (s : State) (i : Nat) (sub : Nat) (b : List Byte) : Keep s (State.writePower s i sub b).2 := by
  unfold State.writePower
  extract_lets x1 x2 x3 x4 x5 x6 x7
  split
  · exact .trans (keep_writePads ..) (keep_wrote ..)
  · dsimp only
    exact keep_requestDomain ..
  · split
    · refine .trans ?_ (keep_inRange (fun r => ?_) ..)
      · exact .refl _
      · exact .upd (.refl _) rfl rfl rfl rfl rfl rfl rfl
    · refine .trans ?_ (keep_inRange (fun r => ?_) ..)
      · exact .refl _
      · exact .upd (.refl _) rfl rfl rfl rfl rfl rfl rfl
    · refine .trans ?_ (keep_inRange (fun r => ?_) ..)
      · exact .refl _
      · exact .upd (.refl _) rfl rfl rfl rfl rfl rfl rfl
    · refine .trans ?_ (keep_inRange (fun r => ?_) ..)
      · exact .refl _
      · exact .upd (.refl _) rfl rfl rfl rfl rfl rfl rfl
  · split
    · exact .trans (.upd (.refl _) rfl rfl rfl rfl rfl rfl rfl) (keep_wrote ..)
    · refine .trans ?_ (keep_inRange (fun r => ?_) ..)
      · exact .refl _
      · exact .upd (.refl _) rfl rfl rfl rfl rfl rfl rfl
    · refine .trans ?_ (keep_inRange (fun r => ?_) ..)
      · exact .refl _
      · exact .upd (.refl _) rfl rfl rfl rfl rfl rfl rfl
  · exact .trans (keep_writeComparator ..) (keep_wrote ..)
  · exact .trans (keep_setComparator ..) (keep_wrote ..)

theorem keep_writeSource (s : State) (n : Nat) (x : Nat) : Keep s (State.writeSource s n x).2 := by
  unfold State.writeSource
  extract_lets x1 x2 x3
  split
  · exact keep_refuse ..
  · split
    · exact keep_refuse ..
    · split
      · exact keep_wrote ..
      · exact .trans (keep_onSource ..) (keep_wrote ..)

theorem keep_writeEoi (s : State) (t : Nat) (n : Nat) : Keep s (State.writeEoi s t n).2 := by
  unfold State.writeEoi
  extract_lets x1 x2 x3
  split
  · exact keep_refuse ..
  · split
    · exact keep_refuse ..
    · extract_lets x4
      have h5 : Keep s x4 := by subst x4; exact .upd (.refl _) rfl rfl rfl rfl rfl rfl rfl
      clear_value x4
      refine .trans ?_ (keep_wrote ..)
      split
      · exact .trans (.trans h5 (keep_msix ..)) (keep_alertUpdate ..)
      · exact .trans h5 (keep_alertUpdate ..)

theorem keep_writeIrq (s : State) (i : Nat) (sub : Nat) (b : List Byte) : Keep s (State.writeIrq s i sub b).2 := by
  unfold State.writeIrq
  extract_lets x1 x2
  split
  · exact keep_writeSource ..
  · split
    · exact .trans (.ite (keep_onSource ..) (.refl _)) (keep_wrote ..)
    · split
      · exact keep_writeEoi ..
      · split
        · refine .trans ?_ (keep_inRange (fun r => ?_) ..)
          · exact .refl _
          · exact keep_fire ..
        · split
          · exact .trans (.upd (.refl _) rfl rfl rfl rfl rfl rfl rfl) (keep_wrote ..)
          · refine .trans ?_ (keep_inRange (fun r => ?_) ..)
            · exact .refl _
            · exact .upd (.refl _) rfl rfl rfl rfl rfl rfl rfl
          · refine .trans ?_ (keep_inRange (fun r => ?_) ..)
            · exact .refl _
            · exact keep_logClear ..

theorem keep_writeStrict (s : State) (x : Nat) : Keep s (s.writeStrict x).2 := by
  unfold State.writeStrict
  split
  · split
    · exact .refl s
    · exact ⟨rfl, fun h => ⟨h.hbm, h.cores, fun _ => rfl, h.alert⟩⟩
  · split
    · exact .refl s
    · rename_i hl
      exact ⟨rfl, fun h => ⟨h.hbm, h.cores, fun e => absurd e hl, h.alert⟩⟩

theorem keep_setSeed (s : State) (k : Nat) (j : Nat) (b : List Byte) : Keep s (State.setSeed s k j b) := by
  unfold State.setSeed
  exact keep_onSlot ..

theorem keep_writeNoiseSeed (s : State) (v : Path) (x : Nat) : Keep s (State.writeNoiseSeed s v x).2 := by
  unfold State.writeNoiseSeed
  extract_lets x1 x2 x3
  split
  · exact keep_refuse ..
  · split
    · exact keep_refuse ..
    · split
      · exact keep_refuse ..
      · split
        · refine .trans ?_ (keep_refuse ..)
          exact .upd (.refl _) rfl rfl rfl rfl rfl rfl rfl
        · split
          · exact keep_refuse ..
          · split
            · exact keep_refuse ..
            · split
              · exact keep_refuse ..
              · exact .trans (.trans (.upd (.refl _) rfl rfl rfl rfl rfl rfl rfl) (keep_setSeed ..)) (keep_wrote ..)

theorem keep_writeProbe (s : State) (v : Path) (x : Nat) : Keep s (State.writeProbe s v x).2 := by
  unfold State.writeProbe
  extract_lets x1 x2 x3 x4 x5 x6
  have h7 : Keep s x5 := by subst x5; exact .upd (.refl _) rfl rfl rfl rfl rfl rfl rfl
  clear_value x5
  have h8 : Keep s x6 := by subst x6; exact .trans h7 (keep_onSlot ..)
  clear_value x6
  split
  · exact keep_refuse ..
  · split
    · exact keep_refuse ..
    · split
      · exact keep_refuse ..
      · split
        · exact keep_refuse ..
        · split
          · exact keep_refuse ..
          · exact .trans (.ite (.ite (.trans h8 (keep_proposeLap ..)) h8) (.trans h8 (keep_askAdmission ..))) (keep_wrote ..)

theorem keep_writeOracle (s : State) (v : Path) (sub : Nat) (b : List Byte) : Keep s (State.writeOracle s v sub b).2 := by
  unfold State.writeOracle
  extract_lets x1 x2 x3
  split
  · refine .trans ?_ (keep_inRange (fun r => ?_) ..)
    · exact .refl _
    · subst x3
      dsimp -zeta only
      exact .upd (.refl _) rfl rfl rfl rfl rfl rfl rfl
  · refine .trans ?_ (keep_wrote ..)
    subst x3
    dsimp -zeta only
    exact .upd (.refl _) rfl rfl rfl rfl rfl rfl rfl
  · refine .trans ?_ (keep_wrote ..)
    subst x3
    dsimp -zeta only
    exact .upd (.refl _) rfl rfl rfl rfl rfl rfl rfl
  · refine .trans ?_ (keep_wrote ..)
    subst x3
    dsimp -zeta only
    exact .upd (.refl _) rfl rfl rfl rfl rfl rfl rfl
  · refine .trans ?_ (keep_wrote ..)
    subst x3
    dsimp -zeta only
    exact .upd (.refl _) rfl rfl rfl rfl rfl rfl rfl

theorem keep_writeReseed (s : State) (x : Nat) : Keep s (State.writeReseed s x).2 := by
  unfold State.writeReseed
  split
  · exact keep_refuse ..
  · split
    · exact keep_refuse ..
    · exact .trans (.upd (.refl _) rfl rfl rfl rfl rfl rfl rfl) (keep_wrote ..)

theorem keep_writeDraws (s : State) (v : Path) (i sub : Nat) (b : List Byte) : Keep s (s.writeDraws v i sub b).2 := by
  unfold State.writeDraws
  extract_lets x
  clear_value x
  split
  · split
    · exact keep_writeStrict ..
    · refine keep_inRange fun e => ⟨rfl, fun h => ⟨h.hbm, h.cores, fun _ => ?_, h.alert⟩⟩
      exact ((Bool.and_eq_true _ _).mp e).2
    · exact keep_inRange fun _ => .of rfl rfl rfl rfl rfl rfl rfl
    · exact keep_inRange fun _ => .of rfl rfl rfl rfl rfl rfl rfl
  · exact keep_writeNoiseSeed ..
  · split
    · exact keep_inRange fun _ => .of rfl rfl rfl rfl rfl rfl rfl
    · exact .of rfl rfl rfl rfl rfl rfl rfl
    · exact keep_writeProbe ..
  · exact keep_writeReseed ..
  · exact keep_writeOracle ..
  · split
    · exact .refl s
    · exact keep_setSeed ..

theorem keep_writeRow (s : State) (lat : Nat) (row : Nat) (b : List Byte) : Keep s (State.writeRow s lat row b).2 := by
  unfold State.writeRow
  extract_lets x1 x2 x3
  split
  · split
    · exact keep_refuse ..
    · exact .trans (.upd (.refl _) rfl rfl rfl rfl rfl rfl rfl) (keep_wrote ..)
  · split
    · exact keep_refuse ..
    · exact .trans (.upd (.refl _) rfl rfl rfl rfl rfl rfl rfl) (keep_wrote ..)

theorem keep_writeCommit (s : State) (x : Nat) : Keep s (State.writeCommit s x).2 := by
  unfold State.writeCommit
  split
  · exact .trans (.upd (.refl _) rfl rfl rfl rfl rfl rfl rfl) (keep_wrote ..)
  · split
    · exact keep_refuse ..
    · split
      · exact keep_refuse ..
      · split
        · exact keep_refuse ..
        · exact .trans (.upd (.refl _) rfl rfl rfl rfl rfl rfl rfl) (keep_wrote ..)

theorem keep_writeSecurity (s : State) (i : Nat) (sub : Nat) (b : List Byte) : Keep s (State.writeSecurity s i sub b).2 := by
  unfold State.writeSecurity
  extract_lets x1 x2 x3
  split
  · exact .trans (keep_mogulStop ..) (keep_wrote ..)
  · exact keep_writeRow ..
  · exact keep_writeRow ..
  · split
    · refine .trans ?_ (keep_inRange (fun r => ?_) ..)
      · exact .refl _
      · exact .upd (.refl _) rfl rfl rfl rfl rfl rfl rfl
    · refine .trans ?_ (keep_inRange (fun r => ?_) ..)
      · exact .refl _
      · exact .upd (.refl _) rfl rfl rfl rfl rfl rfl rfl
  · split
    · exact keep_refuse ..
    · exact .trans (.upd (.refl _) rfl rfl rfl rfl rfl rfl rfl) (keep_wrote ..)
  · split
    · exact .trans (.upd (.refl _) rfl rfl rfl rfl rfl rfl rfl) (keep_wrote ..)
    · exact keep_writeCommit ..
  · split
    · exact keep_refuse ..
    · split
      · exact keep_refuse ..
      · exact .trans (keep_onLport ..) (keep_wrote ..)
  · exact .trans (.upd (.refl _) rfl rfl rfl rfl rfl rfl rfl) (keep_wrote ..)

theorem keep_writeRest (s : State) (i : Nat) (sub : Nat) (b : List Byte) : Keep s (State.writeRest s i sub b).2 := by
  unfold State.writeRest
  extract_lets x1 x2
  split
  · exact .trans (.upd (.refl _) rfl rfl rfl rfl rfl rfl rfl) (keep_wrote ..)
  · split
    · split
      · exact keep_refuse ..
      · exact .trans (.upd (.refl _) rfl rfl rfl rfl rfl rfl rfl) (keep_wrote ..)
    · refine .trans ?_ (keep_inRange (fun r => ?_) ..)
      · exact .refl _
      · exact .upd (.refl _) rfl rfl rfl rfl rfl rfl rfl

theorem keep_writeOwn (s : State) (v : Path) (i : Nat) (sub : Nat) (b : List Byte) (t : Option Ticket) :
    Keep s (State.writeOwn s v i sub b t).2 := by
  unfold State.writeOwn
  split
  · exact keep_writeLinks ..
  · split
    · exact keep_writePower ..
    · split
      · exact keep_writeIrq ..
      · split
        · exact keep_writeDraws ..
        · split
          · exact keep_writeSecurity ..
          · exact keep_writeRest ..

theorem keep_writeObject (s : State) (v : Path) (i : Nat) (sub : Nat) (b : List Byte) (t : Option Ticket) :
    Keep s (State.writeObject s v i sub b t).2 := by
  unfold State.writeObject
  split
  · exact keep_refuse ..
  · split
    · exact keep_refuse ..
    · split
      · exact keep_refuse ..
      · split
        · exact keep_refuse ..
        · split
          · exact keep_refuse ..
          · split
            · exact keep_refuse ..
            · split
              · exact keep_refuse ..
              · exact keep_writeOwn ..

theorem keep_accessRead (s : State) (v : Path) (i : Nat) (sub : Nat) : Keep s (State.accessRead s v i sub) := by
  unfold State.accessRead
  extract_lets x1 x2 x3
  have h4 : Keep s x2 := by subst x2; exact keep_readObject ..
  clear_value x2
  exact .upd h4 rfl rfl rfl rfl rfl rfl rfl

theorem keep_accessWrite (s : State) (v : Path) (i : Nat) (sub : Nat) (b : List Byte) :
    Keep s (State.accessWrite s v i sub b) := by
  unfold State.accessWrite
  extract_lets x1 x2 x3
  have h4 : Keep s x2 := by subst x2; exact keep_writeObject ..
  clear_value x2
  exact .upd h4 rfl rfl rfl rfl rfl rfl rfl

/-! Route -/

theorem keep_recordGen (s : State) (addr : Nat) (gen : Nat) : Keep s (State.recordGen s addr gen) := by
  unfold State.recordGen
  exact .ite (.refl _) (.upd (.refl _) rfl rfl rfl rfl rfl rfl rfl)

theorem keep_genCheck (s : State) (p : Nat) (addr : Nat) (gen : Nat) : Keep s (State.genCheck s p addr gen).2 := by
  unfold State.genCheck
  extract_lets x1 x2 x3 x4 x5
  have h6 : Keep s x3 := by subst x3; exact .upd (.refl _) rfl rfl rfl rfl rfl rfl rfl
  clear_value x3
  have h7 : Keep s x4 := by subst x4; exact .trans h6 (keep_sendOn ..)
  clear_value x4
  split
  · dsimp only
    exact .ite (.refl _) (keep_recordGen ..)
  · dsimp only
    exact .upd (.refl _) rfl rfl rfl rfl rfl rfl rfl
  · split
    · dsimp only
      exact h6
    · dsimp only
      exact .upd h7 rfl rfl rfl rfl rfl rfl rfl

theorem keep_admitMsg (s : State) (p : Nat) (r : Route) : Keep s (State.admitMsg s p r).2 := by
  unfold State.admitMsg
  split
  · dsimp only
    exact .refl _
  · extract_lets x1
    dsimp only
    exact keep_genCheck ..

theorem keep_unicast {deliver : State → State} (hdeliver : ∀ r, Keep r (deliver r)) (s : State) (p : Nat) (r : Route) (body : Msg) :
    Keep s (State.unicast s p r body deliver) := by
  unfold State.unicast
  extract_lets x1
  exact .ite (.trans (keep_takeRx ..) (keep_admitMsg ..)) (.ite (.trans (.trans (.trans (keep_takeRx ..) (keep_admitMsg ..)) (keep_deliverMsg ..)) (hdeliver ..)) (.trans (.trans (keep_takeRx ..) (keep_admitMsg ..)) (keep_forward ..)))

theorem keep_nearMsg {deliver : State → State} (hdeliver : ∀ r, Keep r (deliver r)) (s : State) (p : Nat) (r : Route) (body : Msg) :
    Keep s (State.nearMsg s p r body deliver) := by
  unfold State.nearMsg
  extract_lets x1
  exact .ite (.trans (keep_takeRx ..) (keep_admitMsg ..)) (.trans (.trans (.trans (keep_takeRx ..) (keep_admitMsg ..)) (keep_deliverMsg ..)) (hdeliver ..))

theorem keep_dictMsg {deliver : State → State} (hdeliver : ∀ r, Keep r (deliver r)) (s : State) (p : Nat) (r : Route) (body : Msg) :
    Keep s (State.dictMsg s p r body deliver) := by
  unfold State.dictMsg
  refine .ite ?_ ?_
  · exact .refl _
  · extract_lets x1
    have h2 : Keep s x1 := by subst x1; exact keep_takeRx ..
    clear_value x1
    exact .ite (.trans (.trans h2 (keep_deliverMsg ..)) (hdeliver ..)) (.trans h2 (keep_forward ..))

theorem keep_sendTally (s : State) (h : Bcast) : Keep s (State.sendTally s h) := by
  unfold State.sendTally
  exact keep_sendOn ..

theorem keep_holdBcast (s : State) (h : Bcast) : Keep s (State.holdBcast s h) := by
  unfold State.holdBcast
  extract_lets x1 x2 x3
  have h4 : Keep s x2 := by subst x2; exact .upd (.refl _) rfl rfl rfl rfl rfl rfl rfl
  clear_value x2
  exact .ite (.trans h4 (keep_sendTally ..)) (.upd h4 rfl rfl rfl rfl rfl rfl rfl)

theorem keep_noteBseq (s : State) (origin : Nat) (bseq : Nat) : Keep s (State.noteBseq s origin bseq) := by
  unfold State.noteBseq
  exact .upd (.refl _) rfl rfl rfl rfl rfl rfl rfl

theorem keep_bcastCopy {deliver : State → State × TallyBody} (hdeliver : ∀ r, Keep r (deliver r).1) (s : State) (p : Nat) (r : Route) (body : Msg) (flits : List (BitVec 120)) (taken : Nat) :
    Keep s (State.bcastCopy s p r body flits taken deliver) := by
  unfold State.bcastCopy
  extract_lets x1 x2 x3 x4 x5 x6 x7 x8 x9 x10 x11 x12
  have h13 : Keep s x2 := by subst x2; exact .upd (.refl _) rfl rfl rfl rfl rfl rfl rfl
  clear_value x2
  have h14 : Keep s x6 := by
    subst x6
    refine .trans ?_ (.foldl (fun r x => ?_) _ _)
    · exact h13
    · exact keep_passOn ..
  clear_value x6
  refine .trans ?_ (keep_holdBcast ..)
  subst x9
  split
  · dsimp only
    exact h14
  · split
    · dsimp only
      exact .upd h14 rfl rfl rfl rfl rfl rfl rfl
    · exact .trans (.trans (.trans h14 (keep_noteBseq ..)) (keep_deliverMsg ..)) (hdeliver ..)

theorem keep_bcastMsg {deliver : State → State × TallyBody} (hdeliver : ∀ r, Keep r (deliver r).1) (s : State) (p : Nat) (r : Route) (body : Msg) (taken : Nat) :
    Keep s (State.bcastMsg s p r body taken deliver) := by
  unfold State.bcastMsg
  extract_lets x1 x2
  refine .ite ?_ ?_
  · exact .trans (keep_takeRx ..) (keep_admitMsg ..)
  · refine .ite ?_ ?_
    · refine .trans ?_ (keep_bcastCopy (fun r => ?_) ..)
      · exact .trans (keep_takeRx ..) (keep_admitMsg ..)
      · exact hdeliver ..
    · exact .ite (.trans (.trans (keep_takeRx ..) (keep_admitMsg ..)) (keep_forward ..)) (.ite (.trans (keep_takeRx ..) (keep_admitMsg ..)) (.trans (.trans (.trans (.trans (keep_takeRx ..) (keep_admitMsg ..)) (keep_noteBseq ..)) (keep_deliverMsg ..)) (hdeliver ..)))

theorem keep_heldTally (s : State) : Keep s (State.heldTally s).1 := by
  unfold State.heldTally
  dsimp only
  exact .refl _

theorem keep_quarantine (s : State) : Keep s (State.quarantine s) := by
  unfold State.quarantine
  refine .ite ?_ ?_
  · exact .refl _
  · extract_lets x1 x2 x3
    have h4 : Keep s x3 := by subst x3; exact .trans (.upd (.refl _) rfl rfl rfl rfl rfl rfl rfl) (keep_fire ..)
    clear_value x3
    refine .trans ?_ (.foldl (fun r x => ?_) _ _)
    · exact h4
    · exact keep_haltSlot ..

theorem keep_loseMember (s : State) (k : Nat) (addr : Nat) : Keep s (State.loseMember s k addr) := by
  unfold State.loseMember
  refine .ite ?_ ?_
  · exact .refl _
  · extract_lets x1 x2 x3
    have h4 : Keep s x1 := by subst x1; exact keep_onSlot ..
    clear_value x1
    have h5 : Keep s x3 := by subst x3; exact .trans h4 (keep_enterSolo ..)
    clear_value x3
    exact .ite (.trans h4 (keep_haltSlot ..)) (.ite (.ite (.trans h5 (keep_confirm ..)) h5) h4)

theorem keep_nextBcast (s : State) : Keep s (State.nextBcast s) := by
  unfold State.nextBcast
  refine .trans ?_ (.foldl (fun r x => ?_) _ _)
  · exact .refl _
  · split
    · extract_lets x1 x2
      have h3 : Keep r x2 := by subst x2; exact .upd (.refl _) rfl rfl rfl rfl rfl rfl rfl
      clear_value x2
      split
      · exact .trans h3 (keep_proposeLap ..)
      · exact .trans h3 (keep_broadcast ..)
    · exact .refl _

theorem keep_declareLost (s : State) (k : Nat) (l : List Nat) : Keep s (State.declareLost s k l) := by
  unfold State.declareLost
  extract_lets x1
  refine .trans ?_ (.foldl (fun r x => ?_) _ _)
  · exact .refl _
  · extract_lets x2 x3 x4 x5
    have h6 : Keep r x5 := by subst x5; exact .upd (.refl _) rfl rfl rfl rfl rfl rfl rfl
    clear_value x5
    exact .trans (.trans h6 (keep_broadcast ..)) (keep_loseMember ..)

theorem keep_takeCommit (s : State) (q : Proposal) : Keep s (State.takeCommit s q) := by
  unfold State.takeCommit
  split
  · exact .refl _
  · extract_lets x3
    exact .ite (.refl _) (.ite (keep_pauseSlot ..) (.ite (keep_commitCount ..) (.refl _)))

theorem keep_judgeTally (s : State) (k : Nat) (q : Proposal) (t : TallyBody) : Keep s (State.judgeTally s k q t) := by
  unfold State.judgeTally
  extract_lets x1 x2 x3 x4 x5 x6 x7
  have h8 : Keep s x5 := by subst x5; exact .upd (.refl _) rfl rfl rfl rfl rfl rfl rfl
  clear_value x5
  have h9 : Keep s x7 := by subst x7; exact .trans h8 (keep_onSlot ..)
  clear_value x7
  exact .ite (.trans (.trans (keep_onSlot ..) (keep_broadcast ..)) (keep_takeCommit ..)) (.trans h9 (keep_declareLost ..))

theorem keep_resendTo (bseq : Nat) (body : Msg) (s : State) (addr : Nat) : Keep s (State.resendTo bseq body s addr) := by
  unfold State.resendTo
  split
  · exact .trans (.upd (.refl _) rfl rfl rfl rfl rfl rfl rfl) (keep_sendOn ..)
  · exact .refl _

theorem keep_completeOwn (s : State) (o : OwnBcast) : Keep s (State.completeOwn s o) := by
  unfold State.completeOwn
  extract_lets x1 x2 x3
  have h4 : Keep s x2 := by subst x2; exact .upd (.refl _) rfl rfl rfl rfl rfl rfl rfl
  clear_value x2
  split
  · exact .trans (.trans h4 (keep_judgeTally ..)) (keep_nextBcast ..)
  · refine .ite ?_ ?_
    · exact .trans h4 (keep_startBcast ..)
    · refine .trans ?_ (keep_resumeAll ..)
      refine .trans ?_ (keep_nextBcast ..)
      refine .trans ?_ (.foldl (fun r x => ?_) _ _)
      · exact h4
      · exact keep_resendTo ..

theorem keep_takeTally (s : State) (p : Nat) (t : TallyBody) : Keep s (s.takeTally p t) := by
  unfold State.takeTally
  extract_lets mine
  clear_value mine
  split
  · exact .ite (keep_completeOwn ..) (.upd (.refl _) rfl rfl rfl rfl rfl rfl rfl)
  · split
    · exact .refl s
    · extract_lets h0 s1
      have k1 : Keep s s1 := .upd (.refl _) rfl rfl rfl rfl rfl rfl rfl
      clear_value s1
      exact .ite (k1.trans (keep_sendTally ..)) (.upd k1 rfl rfl rfl rfl rfl rfl rfl)

theorem keep_tallyTimeout (s : State) (origin : Nat) : Keep s (State.tallyTimeout s origin) := by
  unfold State.tallyTimeout
  extract_lets x1 x2 x3 x4 x5
  have h6 : Keep s x5 := by subst x5; exact .upd (.refl _) rfl rfl rfl rfl rfl rfl rfl
  clear_value x5
  refine .ite ?_ ?_
  · split
    · exact .ite (keep_completeOwn ..) (.refl _)
    · exact .refl _
  · refine .trans ?_ (.foldl (fun r x => ?_) _ _)
    · exact h6
    · exact keep_sendTally ..

theorem keep_sendProbe (s : State) (p : Nat) : Keep s (State.sendProbe s p) := by
  unfold State.sendProbe
  exact .trans (keep_sendOn ..) (keep_onLport ..)

theorem keep_askParent (s : State) : Keep s (State.askParent s) := by
  unfold State.askParent
  refine .ite ?_ ?_
  · exact .refl _
  · split
    · exact .ite (keep_sendProbe ..) (.refl _)
    · exact .refl _

theorem keep_becomeBound (s : State) : Keep s (State.becomeBound s) := by
  unfold State.becomeBound
  extract_lets x1 x2 x3
  have h4 : Keep s x3 := by subst x3; exact .upd (.refl _) rfl rfl rfl rfl rfl rfl rfl
  clear_value x3
  split
  · exact .trans h4 (keep_broadcast ..)
  · exact h4

theorem keep_bindCheck (s : State) : Keep s (State.bindCheck s) := by
  unfold State.bindCheck
  refine .ite ?_ ?_
  · exact .refl _
  · refine .ite ?_ ?_
    · exact keep_becomeBound ..
    · refine .ite ?_ ?_
      · refine .trans ?_ (keep_becomeBound ..)
        exact .upd (.refl _) rfl rfl rfl rfl rfl rfl rfl
      · exact keep_askParent ..

/-! Exchange -/

theorem keep_answerSeg (s : State) (v : Path) (who : Nat) (a : DictAns) : Keep s (State.answerSeg s v who a) := by
  unfold State.answerSeg
  extract_lets x1 x2 x3 x4
  have h5 : Keep s x2 := by subst x2; exact .upd (.refl _) rfl rfl rfl rfl rfl rfl rfl
  clear_value x2
  split
  · exact .trans h5 (keep_sendTo ..)
  · exact .upd h5 rfl rfl rfl rfl rfl rfl rfl

theorem keep_endExchange (s : State) (v : Path) (who : Nat) (xid : Nat) : Keep s (State.endExchange s v who xid) := by
  unfold State.endExchange
  exact .upd (.refl _) rfl rfl rfl rfl rfl rfl rfl

theorem keep_holdExchange (s : State) (e : Exchange) : Keep s (State.holdExchange s e) := by
  unfold State.holdExchange
  extract_lets x1 x2
  have h3 : Keep s x1 := by subst x1; exact keep_endExchange ..
  clear_value x1
  exact .upd h3 rfl rfl rfl rfl rfl rfl rfl

theorem keep_refuseSeg (s : State) (v : Path) (who : Nat) (g : DictSeg) (status : Nat) :
    Keep s (State.refuseSeg s v who g status) := by
  unfold State.refuseSeg
  exact .trans (keep_endExchange ..) (keep_answerSeg ..)

theorem keep_giveSeg (s : State) (e : Exchange) (g : DictSeg) : Keep s (State.giveSeg s e g) := by
  unfold State.giveSeg
  extract_lets x1 x2 x3
  have h4 : Keep s x3 := by subst x3; exact .ite (keep_endExchange ..) (keep_holdExchange ..)
  clear_value x3
  exact .trans h4 (keep_answerSeg ..)

theorem keep_segRead (s : State) (v : Path) (who : Nat) (g : DictSeg) : Keep s (State.segRead s v who g) := by
  unfold State.segRead
  extract_lets x1 x2 x3 x4
  refine .ite ?_ ?_
  · exact keep_refuseSeg ..
  · refine .ite ?_ ?_
    · exact .ite (keep_refuseSeg ..) (.ite (.trans (keep_readObject ..) (keep_refuseSeg ..)) (.trans (.trans (keep_readObject ..) (keep_endExchange ..)) (keep_giveSeg ..)))
    · split
      · exact .ite (keep_giveSeg ..) (keep_refuseSeg ..)
      · exact keep_refuseSeg ..

theorem keep_segWrite (s : State) (v : Path) (who : Nat) (g : DictSeg) (last : Bool) : Keep s (State.segWrite s v who g last) := by
  unfold State.segWrite
  extract_lets x1 x2 x3 x4 x5 x6
  exact .ite (keep_refuseSeg ..) (.ite (keep_refuseSeg ..) (.ite (keep_refuseSeg ..) (.ite (keep_refuseSeg ..) (.ite (.trans (keep_holdExchange ..) (keep_answerSeg ..)) (.ite (.trans (.trans (keep_endExchange ..) (keep_writeObject ..)) (keep_refuseSeg ..)) (.trans (.trans (keep_endExchange ..) (keep_writeObject ..)) (keep_answerSeg ..)))))))

theorem keep_timeoutExchange (s : State) (v : Path) (who : Nat) (xid : Nat) : Keep s (State.timeoutExchange s v who xid) := by
  unfold State.timeoutExchange
  exact .upd (.refl _) rfl rfl rfl rfl rfl rfl rfl

theorem keep_segBytes {run : State → Path → Nat → DictSeg → State} (hr : ∀ s v w g, Keep s (run s v w g)) (v : Path) (who : Nat)
    (b : List Byte) (s : State) : Keep s (State.segBytes v who b run s) := .ite (hr ..) (keep_refuseSeg ..)

theorem keep_dictIn {run : State → Path → Nat → DictSeg → State} (hr : ∀ s v w g, Keep s (run s v w g)) (s : State)
    (m : DictFrom) : Keep s (s.dictIn m run) := by
  unfold State.dictIn
  split
  · exact keep_dictMsg (fun r => keep_segBytes hr .transom _ _ r) ..
  · split
    · exact .ite (keep_segBytes hr ..) (.refl s)
    · exact .refl s

theorem keep_sendRemote (s : State) (q : RemoteReq) : Keep s (State.sendRemote s q) := by
  unfold State.sendRemote
  extract_lets x1 x2
  exact keep_sendTo ..

theorem keep_endRemote (s : State) (p : Nat) (q : RemoteReq) (status : Nat) (v0 : Nat) (payload : List Byte) :
    Keep s (State.endRemote s p q status v0 payload) := by
  unfold State.endRemote
  exact .trans (keep_onPort ..) (keep_respond ..)

theorem keep_takeAnswer (s : State) (p : Nat) (a : DictAns) : Keep s (State.takeAnswer s p a) := by
  unfold State.takeAnswer
  split
  · exact .refl _
  · refine .ite ?_ ?_
    · exact .refl _
    · refine .ite ?_ ?_
      · exact keep_endRemote ..
      · refine .ite ?_ ?_
        · refine .ite ?_ ?_
          · exact .refl _
          · extract_lets x3
            exact .ite (keep_endRemote ..) (.trans (keep_onPort ..) (keep_sendRemote ..))
        · refine .ite ?_ ?_
          · exact .refl _
          · extract_lets x4
            exact .ite (keep_endRemote ..) (.trans (keep_onPort ..) (keep_sendRemote ..))

theorem keep_respIn (r : Route) (a : DictAns) (s : State) : Keep s (State.respIn r a s) := by
  unfold State.respIn
  split
  · exact keep_takeAnswer ..
  · exact .refl _

theorem keep_remoteExpires (s : State) (p : Nat) : Keep s (State.remoteExpires s p) := by
  unfold State.remoteExpires
  split
  · exact .ite (keep_endRemote ..) (.refl _)
  · exact .refl _

end Sys2Proof.Machine
end

