-- ==== Sys2Proof/Laws/KeepPort.lean ====
section
/-! SUPPORT. What host ports, images and packets keep. -/
namespace Sys2Proof.Machine

/-! Port -/

theorem keep_dropWrite (s : State) (p : Nat) : Keep s (State.dropWrite s p) := by
  unfold State.dropWrite
  exact keep_onPort ..

theorem keep_postWindow (s : State) (p : Nat) (w : Nat) (value : Nat) : Keep s (State.postWindow s p w value) := by
  unfold State.postWindow
  exact .ite (keep_onPort ..) (keep_dropWrite ..)

theorem keep_writeReturnArea (s : State) (p : Nat) (size : Bool) (v : Nat) : Keep s (State.writeReturnArea s p size v) := by
  unfold State.writeReturnArea
  exact .ite (keep_onPort ..) (keep_dropWrite ..)

theorem keep_writeReturnHead (s : State) (p : Nat) (v : Nat) : Keep s (State.writeReturnHead s p v) := by
  unfold State.writeReturnHead
  exact keep_onPort ..

theorem keep_writeSealHead (s : State) (p : Nat) (v : Nat) : Keep s (State.writeSealHead s p v) := by
  unfold State.writeSealHead
  exact keep_onPort ..

theorem keep_controlWrite (s : State) (p : Nat) (o : Nat) (bytes : List Byte) : Keep s (State.controlWrite s p o bytes) := by
  unfold State.controlWrite
  refine .ite ?_ ?_
  · exact .refl _
  · split
    · exact keep_writeReturnArea ..
    · exact keep_writeReturnArea ..
    · exact keep_writeReturnHead ..
    · exact keep_writeSealHead ..
    · exact .refl _

theorem keep_sendPending (s : State) (p : Nat) (v : Nat) : Keep s (State.sendPending s p v) := by
  unfold State.sendPending
  extract_lets x1
  exact .ite (.trans (keep_onPort ..) (keep_msix ..)) (.refl _)

theorem keep_msixWrite (s : State) (p : Nat) (v : Nat) (o : Nat) (bytes : List Byte) : Keep s (State.msixWrite s p v o bytes) := by
  unfold State.msixWrite
  extract_lets x1 x2 x3
  have h4 : Keep s x3 := by subst x3; exact keep_setPort ..
  clear_value x3
  exact .trans h4 (keep_sendPending ..)

theorem keep_bar2Write (s : State) (p : Nat) (o : Nat) (bytes : List Byte) : Keep s (State.bar2Write s p o bytes) := by
  unfold State.bar2Write
  exact .ite (keep_msixWrite ..) (.refl _)

theorem keep_apertureWrite (s : State) (p : Nat) (off : Nat) (bytes : List Byte) (via : WriteVia) :
    Keep s (State.apertureWrite s p off bytes via) := by
  unfold State.apertureWrite
  refine .ite ?_ ?_
  · exact .refl _
  · refine .ite ?_ ?_
    · exact keep_dropWrite ..
    · refine .ite ?_ ?_
      · extract_lets x1 x2
        exact .ite (keep_dropWrite ..) (.ite (keep_postWindow ..) (keep_onPort ..))
      · exact .ite (keep_controlWrite ..) (.ite (.refl _) (keep_bar2Write ..))

theorem keep_arrives {f : State → State} (hf : ∀ r, Keep r (f r)) (s : State) (p : Nat) : Keep s (State.arrives s p f) := by
  unfold State.arrives
  exact .ite (.refl _) (.ite (keep_dropWrite ..) (hf ..))

theorem keep_postNext (s : State) (p : Nat) : Keep s (State.postNext s p) := by
  unfold State.postNext
  extract_lets x1
  have h2 : Keep s x1 := by subst x1; exact keep_postResponse ..
  clear_value x1
  exact .ite (.trans h2 (keep_beginDeviceReset ..)) h2

theorem keep_linkUp (s : State) (p : Nat) (width : Nat) : Keep s (State.linkUp s p width) := by
  unfold State.linkUp
  exact .ite (.refl _) (keep_onPort ..)

theorem keep_configured (s : State) (p : Nat) (payload : Nat) : Keep s (State.configured s p payload) := by
  unfold State.configured
  exact .ite (keep_onPort ..) (.refl _)

theorem keep_flr (s : State) (p : Nat) : Keep s (State.flr s p) := by
  unfold State.flr
  exact .ite (keep_portReset ..) (.refl _)

theorem keep_linkLoss (s : State) (p : Nat) : Keep s (State.linkLoss s p) := by
  unfold State.linkLoss
  exact .ite (keep_portReset ..) (.refl _)

theorem keep_perstFalls (s : State) (p : Nat) : Keep s (State.perstFalls s p) := by
  unfold State.perstFalls
  exact .ite (.refl _) (.trans (keep_portReset ..) (keep_onPort ..))

theorem keep_perstRises (s : State) (p : Nat) : Keep s (State.perstRises s p) := by
  unfold State.perstRises
  exact .ite (keep_onPort ..) (.refl _)

theorem keep_ideFails (s : State) (p : Nat) (stream : Nat) : Keep s (State.ideFails s p stream) := by
  unfold State.ideFails
  refine .ite ?_ ?_
  · extract_lets x1 x2 x3
    have h4 : Keep s x3 := by subst x3; exact .upd (.refl _) rfl rfl rfl rfl rfl rfl rfl
    clear_value x3
    exact .trans (.trans h4 (keep_onPort ..)) (keep_fire ..)
  · exact .refl _

theorem keep_d3hotMoves (s : State) (p : Nat) (enter : Bool) : Keep s (State.d3hotMoves s p enter) := by
  unfold State.d3hotMoves
  exact .ite (keep_onPort ..) (.refl _)

theorem keep_graceEnds (s : State) (k : Nat) : Keep s (State.graceEnds s k) := by
  unfold State.graceEnds
  split
  · exact .ite (.trans (keep_moveOwner ..) (keep_answerTakeover ..)) (.refl _)
  · exact .refl _

/-! Image -/

theorem keep_writeCopies (s : State) (e : Extent) (la : Nat) (data : List Byte) : Keep s (State.writeCopies s e la data) := by
  unfold State.writeCopies
  extract_lets x1
  have h2 : Keep s x1 := by subst x1; exact keep_writeLine ..
  clear_value x1
  exact .ite (.trans h2 (keep_writeLine ..)) h2

theorem wf_filled (l : List (Nat × List Byte)) : (filled l).wf = true := by
  have h (m : Memory) (w : m.wf = true) : Memory.wf (l.foldl (fun (m : Memory) f => m.patch (64 * f.1) f.2) m) = true := by
    induction l generalizing m with
    | nil => exact w
    | cons f l ih => exact ih _ (Memory.wf_patch _ _ w)
  exact h [] rfl

theorem keep_fillExtent {m : Memory} (hm : m.wf = true) (s : State) (e : Extent) : Keep s (State.fillExtent m s e) := by
  have h (s : State) (a b : Nat) : Keep s (s.writeLines a e.count m b 1 false) := keep_writeLines _ _ _ _ _ _ fun _ => hm
  exact .ite ((h s _ _).trans (h _ _ _)) (h s _ _)

theorem keep_claimImage (s : State) (k : Nat) (i : CourseInfo) (decls : List Nat) (seeds : Table (BitVec 112))
    (fills : List (Nat × List Byte)) : Keep s (s.claimImage k i decls seeds fills) := by
  have hm : Keep s ((s.buildMapping i.rows).getD s) := by
    cases e : s.buildMapping i.rows with
    | none => exact .refl s
    | some t => exact keep_buildMapping e
  unfold State.claimImage
  extract_lets s1 base d0 s2 s3 i1 l0
  have h1 : Keep s s1 := .ite hm (.refl s)
  clear_value s1
  have h2 : Keep s s2 := .upd h1 rfl rfl rfl rfl rfl rfl rfl
  clear_value s2
  have h3 : Keep s s3 := h2.trans (.foldl (fun r e => keep_fillExtent (wf_filled fills) r e) _ _)
  clear_value s3
  exact .upd h3 rfl rfl rfl rfl rfl rfl rfl

theorem keep_placeCore (k : Nat) (s : State) (c : CoreRec) : Keep s (State.placeCore k s c) := by
  unfold State.placeCore
  extract_lets n site c0 s1 r0 s2
  have h1 : Keep s s1 := keep_setCore fun _ => Core.memWf_fresh
  clear_value s1
  exact (h1.trans (keep_setRouter ..)).trans (keep_reloadCore ..)

theorem keep_installImage (s : State) (k : Nat) (recs : List CoreRec) : Keep s (State.installImage s k recs) := by
  unfold State.installImage
  extract_lets x1 x2 x3 x4
  have h5 : Keep s x1 := by
    subst x1
    refine .trans ?_ (.foldl (fun r x => ?_) _ _)
    · exact .refl _
    · exact keep_placeCore ..
  clear_value x1
  have h6 : Keep s x3 := by subst x3; exact .upd h5 rfl rfl rfl rfl rfl rfl rfl
  clear_value x3
  have h7 : Keep s x4 := by subst x4; exact .trans (.trans (.trans h6 (keep_onSlot ..)) (keep_openWindow ..)) (keep_fireSlot ..)
  clear_value x4
  exact .ite (.trans h7 (keep_haltSlot ..)) h7

theorem keep_loadBytes (s : State) (k : Nat) (j : LoadJob) (final : Bool) : Keep s (State.loadBytes s k j final).2 := by
  unfold State.loadBytes
  extract_lets x1 x2 x3 x4 x5
  split
  · subst x3
    dsimp -zeta only
    split
    · dsimp only
      exact .refl _
    · dsimp only
      exact .refl _
  · split
    · dsimp only
      exact .refl _
    · split
      · dsimp only
        exact .refl _
      · subst x3
        dsimp -zeta only
        split
        · dsimp only
          exact .refl _
        · dsimp only
          exact .refl _
      · extract_lets x6 x7 x8
        split
        · subst x2
          dsimp -zeta only
          split
          · dsimp only
            exact .refl _
          · split
            · split
              · dsimp only
                exact keep_installImage ..
              · dsimp only
                exact .refl _
            · dsimp only
              exact .refl _
        · split
          · dsimp only
            exact .refl _
          · split
            · dsimp only
              exact .refl _
            · split
              · dsimp only
                exact .refl _
              · split
                · dsimp only
                  exact .refl _
                · subst x2
                  dsimp -zeta only
                  split
                  · dsimp only
                    exact keep_claimImage ..
                  · split
                    · split
                      · dsimp only
                        exact .trans (keep_claimImage ..) (keep_installImage ..)
                      · dsimp only
                        exact keep_claimImage ..
                    · dsimp only
                      exact keep_claimImage ..

/-! PacketOps -/

theorem keep_startPacket (s : State) (p : Nat) : Keep s (State.startPacket s p) := by
  unfold State.startPacket
  split
  · exact .refl _
  · extract_lets x1 x2
    have h3 : Keep s x2 := by subst x2; exact keep_onPort ..
    clear_value x2
    exact .ite (.trans h3 (keep_msix ..)) h3

theorem keep_runPacket {f : Pkt → State → State} (hf : ∀ x0 r, Keep r (f x0 r)) (s : State) (p : Nat) (kind : Pkt → Bool) :
    Keep s (State.runPacket s p kind f) := by
  unfold State.runPacket
  split
  · exact .refl _
  · refine .ite ?_ ?_
    · exact .refl _
    · extract_lets x3
      have h4 : Keep s x3 := by subst x3; exact keep_startPacket ..
      clear_value x3
      split
      · exact .trans h4 (keep_respond ..)
      · exact .trans h4 (hf ..)

theorem keep_refusePacket (s : State) (p : Nat) (q : Pkt) (st : Nat) : Keep s (State.refusePacket s p q st) := by
  unfold State.refusePacket
  exact keep_respond ..

theorem keep_answerPacket (s : State) (p : Nat) (q : Pkt) (v0 : Nat) (payload : List Byte) :
    Keep s (State.answerPacket s p q v0 payload) := by
  unfold State.answerPacket
  exact keep_respond ..

theorem keep_askRemote (s : State) (p : Nat) (q : Pkt) : Keep s (State.askRemote s p q) := by
  unfold State.askRemote
  extract_lets x1 x2 x3
  exact .trans (.trans (.upd (.refl _) rfl rfl rfl rfl rfl rfl rfl) (keep_onPort ..)) (keep_sendRemote ..)

theorem keep_packetRead (p : Nat) (q : Pkt) (s : State) : Keep s (State.packetRead p q s) := by
  unfold State.packetRead
  extract_lets x1 x2
  split
  · exact keep_askRemote ..
  · extract_lets x5
    exact .ite (.trans (keep_readObject ..) (keep_refusePacket ..)) (.trans (keep_readObject ..) (keep_answerPacket ..))

theorem keep_packetWrite (p : Nat) (q : Pkt) (s : State) : Keep s (State.packetWrite p q s) := by
  unfold State.packetWrite
  extract_lets x1 x2
  split
  · exact keep_askRemote ..
  · extract_lets x5
    split
    · exact keep_writeObject ..
    · exact .ite (.trans (keep_writeObject ..) (keep_refusePacket ..)) (.trans (keep_writeObject ..) (keep_answerPacket ..))

theorem keep_feedLoader (s : State) (p : Nat) (k : Nat) (q : Pkt) (j : LoadJob) : Keep s (State.feedLoader s p k q j) := by
  unfold State.feedLoader
  extract_lets x1 x2
  have h3 : Keep s x1 := by subst x1; exact keep_onSlot ..
  clear_value x1
  split
  · exact .trans (.trans (.trans h3 (keep_loadBytes ..)) (keep_emptySlot ..)) (keep_refusePacket ..)
  · exact .trans (.trans h3 (keep_loadBytes ..)) (keep_answerPacket ..)

theorem keep_loadChunk (p : Nat) (q : Pkt) (s : State) : Keep s (State.loadChunk p q s) := by
  unfold State.loadChunk
  extract_lets x1 x2 x3 x4
  have h5 : Keep s x4 := by subst x4; exact keep_setSlot ..
  clear_value x4
  split
  · exact keep_refusePacket ..
  · refine .ite ?_ ?_
    · exact keep_refusePacket ..
    · refine .ite ?_ ?_
      · exact .ite (keep_refusePacket ..) (.trans h5 (keep_feedLoader ..))
      · split
        · exact .ite (keep_refusePacket ..) (.ite (keep_refusePacket ..) (.ite (keep_refusePacket ..) (keep_feedLoader ..)))
        · exact keep_refusePacket ..

theorem keep_loadAbandon (p : Nat) (q : Pkt) (s : State) : Keep s (State.loadAbandon p q s) := by
  unfold State.loadAbandon
  extract_lets x1
  split
  · exact keep_refusePacket ..
  · exact .ite (keep_refusePacket ..) (.ite (keep_refusePacket ..) (.ite (keep_refusePacket ..) (.trans (keep_emptySlot ..) (keep_answerPacket ..))))

theorem keep_startData (s : State) (p : Nat) (q : Pkt) (c : Nat) (write : Bool) : Keep s (s.startData p q c write) := by
  unfold State.startData
  extract_lets la k id l m0 s1 s2
  have h1 : Keep s s1 := .upd (.refl _) rfl rfl rfl rfl rfl rfl rfl
  clear_value s1 k
  have h2 : Keep s s2 := by
    subst s2
    split
    · exact h1.trans (keep_onSlot ..)
    · exact h1
  clear_value s2
  exact h2.trans (keep_onPort ..)

theorem keep_dataCommand (write : Bool) (p : Nat) (q : Pkt) (s : State) : Keep s (State.dataCommand write p q s) := by
  unfold State.dataCommand
  extract_lets x1
  split
  · exact keep_respond ..
  · exact keep_startData ..

theorem keep_launchRun (p : Nat) (q : Pkt) (s : State) : Keep s (State.launchRun p q s) := by
  unfold State.launchRun
  extract_lets x1 x2 x3
  have h4 : Keep s x3 := by subst x3; exact keep_onPort ..
  clear_value x3
  split
  · exact keep_refusePacket ..
  · exact .ite (keep_refusePacket ..) (.ite (keep_refusePacket ..) (.trans (.trans h4 (keep_onSlot ..)) (keep_resume ..)))

theorem keep_haltCommand (p : Nat) (q : Pkt) (s : State) : Keep s (State.haltCommand p q s) := by
  unfold State.haltCommand
  extract_lets x1 x2 x3 x4
  have h5 : Keep s x4 := by subst x4; exact keep_onSlot ..
  clear_value x4
  split
  · exact keep_refusePacket ..
  · split
    · exact keep_refusePacket ..
    · exact keep_refusePacket ..
    · exact keep_refusePacket ..
    · exact .trans (keep_answerPacket ..) (keep_releaseFor ..)
    · exact .trans (keep_answerPacket ..) (keep_releaseFor ..)
    · exact .trans (keep_answerPacket ..) (keep_releaseFor ..)
    · exact .ite (.trans h5 (keep_pauseSlot ..)) h5
    · exact .ite (.trans h5 (keep_pauseSlot ..)) h5

theorem keep_sealStart (p : Nat) (q : Pkt) (s : State) : Keep s (State.sealStart p q s) := by
  unfold State.sealStart
  extract_lets x1 x2 x3 x4 x5 x6 x7 x8
  have h9 : Keep s x6 := by
    subst x6
    refine .ite ?_ ?_
    · subst x5
      dsimp -zeta only
      exact .trans (keep_onPort ..) (keep_onPort ..)
    · subst x5
      dsimp -zeta only
      exact keep_onPort ..
  clear_value x6
  have h10 : Keep s x7 := by subst x7; exact .trans h9 (keep_onPort ..)
  clear_value x7
  split
  · exact keep_refusePacket ..
  · exact .ite (keep_refusePacket ..) (.ite (keep_refusePacket ..) (.trans h10 (keep_onSlot ..)))

theorem keep_sealLine (errs : List BlockErr) (k : Nat) (la : Nat) (s : State) : Keep s (State.sealLine errs k la s).2 := by
  unfold State.sealLine
  extract_lets x1
  split
  · dsimp only
    exact keep_copyData ..
  · split
    · extract_lets x6
      dsimp only
      exact .trans (keep_copyData ..) (keep_copyData ..)
    · dsimp only
      exact keep_copyData ..
  · dsimp only
    exact keep_copyData ..

theorem keep_sealLines (errs : List BlockErr) (k n la : Nat) (s : State) : Keep s (State.sealLines errs k n la s).2 := by
  induction n generalizing la s with
  | zero => exact .refl s
  | succ n ih =>
    unfold State.sealLines
    have h := keep_sealLine errs k la s
    extract_lets a
    change Keep s a.2 at h
    clear_value a
    split
    · exact h
    · exact h.trans (ih ..)

theorem keep_sealPayload (s : State) (errs : List BlockErr) (k : Nat) (j : SealJob) (t : Nat × List Byte × List Nat) :
    Keep s (State.sealPayload s errs k j t).2 := by
  unfold State.sealPayload
  split
  · extract_lets x1
    dsimp only
    exact keep_sealLines ..
  · dsimp only
    exact .refl _
  · dsimp only
    exact .refl _

theorem keep_sealNext (s : State) (k : Nat) (errs : List BlockErr) : Keep s (State.sealNext s k errs) := by
  unfold State.sealNext
  split
  · exact .refl _
  · split
    · exact keep_endSeal ..
    · extract_lets x3 x4
      refine .ite ?_ ?_
      · exact .refl _
      · split
        · exact .trans (keep_sealPayload ..) (keep_onSlot ..)
        · extract_lets x7 x8 x9 x10 x11
          have h12 : Keep s x8 := by
            subst x8
            refine .trans ?_ (.foldl (fun r x => ?_) _ _)
            · exact keep_sealPayload ..
            · exact keep_sealWrite ..
          clear_value x8
          have h13 : Keep s x10 := by subst x10; exact .trans h12 (keep_onSlot ..)
          clear_value x10
          have h14 : Keep s x11 := by subst x11; exact .trans h13 (keep_endSeal ..)
          clear_value x11
          exact .ite h13 (.ite (.trans h14 (keep_loseMemory ..)) h14)

theorem keep_unsealLines (full : Bool) (k la : Nat) (l : List (List Byte)) (s : State) :
    Keep s (State.unsealLines full k la l s).2 := by
  induction l generalizing la s with
  | nil => exact .refl s
  | cons b l ih =>
    unfold State.unsealLines
    split
    · exact .refl s
    · split
      · exact .refl s
      · split
        · exact .refl s
        · exact (keep_writeCopies ..).trans (ih ..)

theorem keep_unsealRecord (s : State) (k : Nat) (j : UnsealJob) (header payload : List Byte) :
    Keep s (s.unsealRecord k j header payload).2 := by
  unfold State.unsealRecord
  extract_lets type put id j1 i
  have hp (j : UnsealJob) : Keep s (put j) := keep_onSlot ..
  clear_value put j1 i type
  repeat' first
    | exact .refl s
    | exact hp _
    | exact (hp _).trans (keep_unsealLines ..)
    | split

theorem keep_unsealAll (k n : Nat) (s : State) : Keep s (State.unsealAll k n s).2 := by
  induction n generalizing s with
  | zero => exact .refl s
  | succ n ih =>
    unfold State.unsealAll
    split
    · exact .refl s
    · extract_lets len r
      have hr : Keep s r.2 := keep_unsealRecord ..
      clear_value r
      repeat' first
        | exact .refl s
        | exact hr
        | exact hr.trans (ih ..)
        | split

theorem keep_unsealDone (s : State) (k : Nat) (j : UnsealJob) : Keep s (s.unsealDone k j) := by
  unfold State.unsealDone
  have hc (t : State) (n e : Nat) : Keep t (t.setCore n { t.core n with entry := e, entryNext := e }) :=
    keep_setCore_eq _ _ _ ⟨rfl, rfl⟩
  refine .trans (.trans (.trans (.trans (.foldl (fun r n => ?_) _ _) (keep_onSlot ..)) (keep_openWindow ..)) (keep_fireSlot ..))
    (keep_fireSlot ..)
  exact (hc ..).trans (keep_setRouter ..)

theorem keep_feedUnseal (s : State) (p : Nat) (k : Nat) (q : Pkt) (j : UnsealJob) : Keep s (State.feedUnseal s p k q j) := by
  unfold State.feedUnseal
  extract_lets x1 x2 x3
  split
  · subst x3
    dsimp -zeta only
    exact .trans (.trans (.trans (keep_onSlot ..) (keep_unsealAll ..)) (keep_haltSlot ..)) (keep_refusePacket ..)
  · refine .ite ?_ ?_
    · exact .trans (.trans (keep_onSlot ..) (keep_unsealAll ..)) (keep_answerPacket ..)
    · refine .ite ?_ ?_
      · exact .trans (.trans (.trans (keep_onSlot ..) (keep_unsealAll ..)) (keep_unsealDone ..)) (keep_answerPacket ..)
      · subst x3
        dsimp -zeta only
        exact .trans (.trans (.trans (keep_onSlot ..) (keep_unsealAll ..)) (keep_haltSlot ..)) (keep_refusePacket ..)
  · exact .trans (.trans (keep_onSlot ..) (keep_unsealAll ..)) (keep_answerPacket ..)

theorem keep_unsealChunk (p : Nat) (q : Pkt) (s : State) : Keep s (State.unsealChunk p q s) := by
  unfold State.unsealChunk
  extract_lets x1 x2
  split
  · exact keep_refusePacket ..
  · split
    · exact keep_refusePacket ..
    · split
      · exact .ite (keep_feedUnseal ..) (keep_refusePacket ..)
      · exact .ite (keep_refusePacket ..) (.ite (keep_refusePacket ..) (.trans (keep_onSlot ..) (keep_feedUnseal ..)))

theorem keep_unsealAbandon (p : Nat) (q : Pkt) (s : State) : Keep s (State.unsealAbandon p q s) := by
  unfold State.unsealAbandon
  extract_lets x1 x2
  split
  · exact keep_refusePacket ..
  · split
    · exact keep_refusePacket ..
    · exact .ite (keep_refusePacket ..) (.trans (keep_haltSlot ..) (keep_answerPacket ..))

theorem keep_mogulCommand (p : Nat) (q : Pkt) (s : State) : Keep s (State.mogulCommand p q s) := by
  unfold State.mogulCommand
  split
  · extract_lets x3 x4 x5 x6
    have h7 : Keep s x4 := by subst x4; exact .upd (.refl _) rfl rfl rfl rfl rfl rfl rfl
    clear_value x4
    have h8 : Keep s x6 := by subst x6; exact .ite (.upd h7 rfl rfl rfl rfl rfl rfl rfl) h7
    clear_value x6
    exact .trans h8 (keep_refusePacket ..)
  · extract_lets x9
    exact .trans (keep_onPort ..) (keep_startMogul ..)

theorem keep_logbookCommand (p : Nat) (q : Pkt) (s : State) : Keep s (State.logbookCommand p q s) := by
  unfold State.logbookCommand
  exact keep_answerPacket ..

theorem keep_attestCommand (p : Nat) (q : Pkt) (s : State) : Keep s (State.attestCommand p q s) := by
  unfold State.attestCommand
  extract_lets x1 x2
  split
  · exact keep_refusePacket ..
  · exact .ite (keep_refusePacket ..) (.trans (keep_issueTrailer ..) (keep_respondSigned ..))

end Sys2Proof.Machine
end

