-- ==== Sys2Proof/Laws/KeepLink.lean ====
section
/-! SUPPORT. What Lecel ports, binding and agreement keep. -/
namespace Sys2Proof.Machine

/-! Lecel -/

theorem keep_putSlot (p k c j : Nat) (bad : BitVec 38) (a : State × Table Flit) (n : Nat) :
    Keep a.1 (State.putSlot p k c j bad a n).1 := by
  unfold State.putSlot
  split
  · exact .refl _
  · split
    · exact (keep_free ..).trans (keep_portFault ..)
    · exact .refl _

theorem keep_putSlots (p k c j : Nat) (bad : BitVec 38) (l : List Nat) (a : State × Table Flit) :
    Keep a.1 (l.foldl (State.putSlot p k c j bad) a).1 := by
  induction l generalizing a with
  | nil => exact .refl _
  | cons n l ih => exact (keep_putSlot ..).trans (ih _)

theorem keep_capture (s : State) (p j : Nat) (bad : BitVec 38) : Keep s (s.capture p j bad) := by
  unfold State.capture
  extract_lets x head sends slots a frame t f
  have ha : Keep s a.1 := by
    subst a
    split
    · exact keep_putSlots _ _ _ _ _ _ (s, slots)
    · exact .refl _
  have ht : Keep s t.2 := by
    subst t
    split
    · exact ha.trans (keep_sendFlit ..)
    · exact ha
  clear_value t
  exact .ite (.refl _) (ht.trans (keep_onLport ..))

theorem keep_dropParts (s : State) (p : Nat) : Keep s (State.dropParts s p) := by
  unfold State.dropParts
  exact keep_onLport ..

theorem keep_transomIn (s : State) (p : Nat) (t : BitVec 128) : Keep s (State.transomIn s p t) := by
  unfold State.transomIn
  exact .ite (.refl _) (keep_onLport ..)

theorem keep_frameLost (s : State) (p : Nat) (auth : Bool) : Keep s (State.frameLost s p auth) := by
  unfold State.frameLost
  extract_lets x1 x2 x3
  have h4 : Keep s x2 := by subst x2; exact .trans (keep_dropParts ..) (keep_onLport ..)
  clear_value x2
  have h5 : Keep s x3 := by subst x3; exact .ite (.trans h4 (keep_portFault ..)) h4
  clear_value x3
  exact .ite (.trans h5 (keep_portLeave ..)) h5

theorem keep_frameSeen (s : State) (p : Nat) (corrected : Bool) (lfn : Nat) : Keep s (State.frameSeen s p corrected lfn) := by
  unfold State.frameSeen
  exact keep_onLport ..

theorem keep_portGate (s : State) (p : Nat) (st : Nat) : Keep s (State.portGate s p st) := by
  unfold State.portGate
  refine .ite ?_ ?_
  · exact .refl _
  · extract_lets x1 x2
    have h3 : Keep s x2 := by subst x2; exact .trans (keep_onLport ..) (keep_portState ..)
    clear_value x2
    exact .ite (.trans h3 (keep_portFault ..)) h3

theorem keep_headerSeen (s : State) (p : Nat) (h : BitVec 128) : Keep s (State.headerSeen s p h) := by
  unfold State.headerSeen
  exact keep_onLport ..

theorem keep_headerCheck (s : State) (p : Nat) (h : BitVec 128) : Keep s (State.headerCheck s p h).2 := by
  unfold State.headerCheck
  extract_lets x1 x2 x3 x4 x5 x6
  split
  · dsimp only
    exact .refl _
  · split
    · split
      · dsimp only
        exact .refl _
      · dsimp only
        exact .trans (.upd (.refl _) rfl rfl rfl rfl rfl rfl rfl) (keep_portGate ..)
    · split
      · dsimp only
        refine .trans ?_ (keep_portGate ..)
        subst x6
        split
        · exact keep_genCheck ..
        · dsimp only
          exact .refl _
      · dsimp only
        refine .ite ?_ ?_
        · subst x4
          dsimp -zeta only
          refine .ite ?_ ?_
          · subst x6
            split
            · exact keep_genCheck ..
            · dsimp only
              exact .refl _
          · refine .trans ?_ (keep_portGate ..)
            subst x6
            split
            · exact keep_genCheck ..
            · dsimp only
              exact .refl _
        · subst x6
          split
          · exact keep_genCheck ..
          · dsimp only
            exact .refl _
      · split
        · dsimp only
          subst x4
          dsimp -zeta only
          refine .ite ?_ ?_
          · subst x6
            split
            · exact keep_genCheck ..
            · dsimp only
              exact .refl _
          · refine .trans ?_ (keep_portGate ..)
            subst x6
            split
            · exact keep_genCheck ..
            · dsimp only
              exact .refl _
        · dsimp only
          refine .ite ?_ ?_
          · subst x6
            split
            · exact keep_genCheck ..
            · dsimp only
              exact .refl _
          · refine .trans ?_ (keep_portState ..)
            subst x6
            split
            · exact keep_genCheck ..
            · dsimp only
              exact .refl _

theorem keep_takeFlits (s : State) (q : Nat) (k : Nat) (c : Nat) (j : Nat) (start : Nat) (f : BitVec 5140) :
    Keep s (State.takeFlits s q k c j start f) := by
  unfold State.takeFlits
  extract_lets x1
  exact keep_onLport ..

theorem keep_forwardFlits (s : State) (p : Nat) (k : Nat) (c : Nat) (j : Nat) (start : Nat) (f : BitVec 5140) :
    Keep s (State.forwardFlits s p k c j start f) := by
  unfold State.forwardFlits
  refine .ite ?_ ?_
  · exact .refl _
  · extract_lets x1
    exact keep_onLport ..

theorem keep_scheduledIn (s : State) (p : Nat) (discarded : Bool) (f : BitVec 5140) :
    Keep s (State.scheduledIn s p discarded f) := by
  unfold State.scheduledIn
  split
  · exact .refl _
  · refine .ite ?_ ?_
    · exact .refl _
    · extract_lets x3 x4 x5
      exact .ite (.refl _) (.ite (keep_portSkew ..) (.trans (keep_takeFlits ..) (keep_forwardFlits ..)))

theorem keep_coveredIn (s : State) (p : Nat) (origin : Nat) (f : BitVec 5140) : Keep s (State.coveredIn s p origin f) := by
  unfold State.coveredIn
  split
  · exact .refl _
  · split
    · refine .ite ?_ ?_
      · exact .refl _
      · refine .trans ?_ (.foldl (fun r x => ?_) _ _)
        · exact .refl _
        · exact keep_takeFlits ..
    · exact .refl _

theorem keep_frame (s : State) (p : Nat) (fate : FrameFate) (f : BitVec 5140) (origin : Nat) :
    Keep s (State.frame s p fate f origin) := by
  unfold State.frame
  refine .ite ?_ ?_
  · exact .refl _
  · refine .ite ?_ ?_
    · exact keep_frameLost ..
    · refine .ite ?_ ?_
      · exact .trans (keep_frameSeen ..) (keep_headerSeen ..)
      · split
        · exact keep_frameLost ..
        · extract_lets x3 x4
          have h5 : Keep s x3 := by subst x3; exact .trans (.trans (keep_frameSeen ..) (keep_headerSeen ..)) (keep_transomIn ..)
          clear_value x3
          exact .trans (.trans (.trans (.trans h5 (keep_headerCheck ..)) (keep_scheduledIn ..)) (keep_coveredIn ..)) (keep_askParent ..)

theorem keep_deliverFlits (s : State) (p : Nat) : Keep s (State.deliverFlits s p) := by
  unfold State.deliverFlits
  refine .ite ?_ ?_
  · exact .refl _
  · extract_lets x1 x2
    have h3 : Keep s x2 := by subst x2; exact keep_setLport ..
    clear_value x2
    refine .trans ?_ (.foldl (fun r x => ?_) _ _)
    · exact h3
    · extract_lets x4
      exact .ite (keep_addArrival ..) (.refl _)

theorem keep_closeAxis (s : State) (p : Nat) (size : Nat) (place : Nat) : Keep s (State.closeAxis s p size place) := by
  unfold State.closeAxis
  exact .trans (.ite (.upd (.refl _) rfl rfl rfl rfl rfl rfl rfl) (.upd (.refl _) rfl rfl rfl rfl rfl rfl rfl)) (keep_bindCheck ..)

theorem keep_sendBind (s : State) (p : Nat) (kind : Nat) (value : Nat) (gen : Nat) (addr : Nat) (size : Nat) :
    Keep s (State.sendBind s p kind value gen addr size) := by
  unfold State.sendBind
  exact keep_sendOn ..

theorem keep_startCount (s : State) (ns : Bool) : Keep s (State.startCount s ns) := by
  unfold State.startCount
  extract_lets x1 x2
  have h3 : Keep s x1 := by subst x1; exact keep_sendBind ..
  clear_value x1
  exact .upd h3 rfl rfl rfl rfl rfl rfl rfl

theorem keep_headStarts (s : State) (p : Nat) : Keep s (State.headStarts s p) := by
  unfold State.headStarts
  extract_lets x1
  exact .ite (keep_startCount ..) (.refl _)

theorem keep_portUp (s : State) (p : Nat) (peerState : Nat) : Keep s (State.portUp s p peerState) := by
  unfold State.portUp
  extract_lets x1 x2 x3
  have h4 : Keep s x2 := by subst x2; exact .trans (keep_onLport ..) (keep_portState ..)
  clear_value x2
  exact .ite (.refl _) (.ite h4 (.ite (.ite (.trans h4 (keep_sendBind ..)) (.trans h4 (keep_askParent ..))) (.ite (.trans h4 (keep_onLport ..)) (.trans (.trans h4 (keep_headStarts ..)) (keep_askParent ..)))))

theorem keep_portDown (s : State) (p : Nat) : Keep s (State.portDown s p) := by
  unfold State.portDown
  exact .ite (keep_portLeave ..) (.refl _)

theorem keep_portAbsent (s : State) (p : Nat) : Keep s (State.portAbsent s p) := by
  unfold State.portAbsent
  split
  · refine .ite ?_ ?_
    · exact .refl _
    · extract_lets x3
      have h4 : Keep s x3 := by subst x3; exact keep_portState ..
      clear_value x3
      exact .ite (.trans h4 (keep_closeAxis ..)) h4
  · exact .refl _

/-! Bind -/

theorem keep_bindSkew (s : State) : Keep s (State.bindSkew s) := by
  unfold State.bindSkew
  exact .upd (.refl _) rfl rfl rfl rfl rfl rfl rfl

theorem keep_countIn (ns : Bool) (p : Nat) (v : Nat) (mine : Bool) (s : State) : Keep s (State.countIn ns p v mine s) := by
  unfold State.countIn
  extract_lets x1 x2 x3
  have h4 : Keep s x3 := by subst x3; exact .upd (.refl _) rfl rfl rfl rfl rfl rfl rfl
  clear_value x3
  exact .ite (.refl _) (.ite (keep_bindSkew ..) (.ite (.ite (keep_bindSkew ..) (.ite (.refl _) (.trans (keep_sendBind ..) (keep_closeAxis ..)))) (.ite (keep_bindSkew ..) (.trans h4 (keep_sendBind ..)))))

theorem keep_closeIn (ns : Bool) (p : Nat) (v : Nat) (s : State) : Keep s (State.closeIn ns p v s) := by
  unfold State.closeIn
  extract_lets x1
  refine .ite ?_ ?_
  · exact .refl _
  · split
    · exact .refl _
    · exact .trans (keep_sendBind ..) (keep_closeAxis ..)

theorem keep_resendCount (s : State) (ns : Bool) : Keep s (State.resendCount s ns) := by
  unfold State.resendCount
  extract_lets x1
  split
  · exact .ite (keep_startCount ..) (.refl _)
  · exact .refl _

theorem keep_joinIn (p : Nat) (addr : Nat) (gen : Nat) (size : Nat) (s : State) : Keep s (State.joinIn p addr gen size s) := by
  unfold State.joinIn
  split
  · exact .ite (keep_onLport ..) (keep_portGate ..)
  · refine .ite ?_ ?_
    · exact .refl _
    · extract_lets x3 x4
      have h5 : Keep s x3 := by subst x3; exact keep_onLport ..
      clear_value x3
      exact .trans (.upd h5 rfl rfl rfl rfl rfl rfl rfl) (keep_bindCheck ..)

theorem keep_joinOver (s : State) (p : Nat) : Keep s (State.joinOver s p) := by
  unfold State.joinOver
  split
  · exact .ite (keep_onLport ..) (.refl _)
  · exact .refl _

theorem keep_standDownIn (addr : Nat) (stale : Nat) (s : State) : Keep s (State.standDownIn addr stale s) := by
  unfold State.standDownIn
  exact .ite (keep_quarantine ..) (.refl _)

theorem keep_genUpdated (addr : Nat) (gen : Nat) (s : State) : Keep s (State.genUpdated addr gen s).1 := by
  unfold State.genUpdated
  exact .trans (.ite (keep_recordGen ..) (.refl _)) (keep_heldTally ..)

theorem keep_probeIn (p : Nat) (ta : BitVec 64) (tb : BitVec 64) (s : State) : Keep s (State.probeIn p ta tb s) := by
  unfold State.probeIn
  exact .ite (keep_sendOn ..) (.refl _)

theorem keep_setFlight (s : State) (p : Nat) (rt : Int) : Keep s (State.setFlight s p rt) := by
  unfold State.setFlight
  extract_lets x1
  exact keep_onLport ..

theorem keep_shiftCount (s : State) (off : Int) : Keep s (State.shiftCount s off) := by
  unfold State.shiftCount
  extract_lets x1 x2
  exact .upd (.refl _) rfl rfl rfl rfl rfl rfl rfl

theorem keep_echoIn (p : Nat) (ta : BitVec 64) (tb : BitVec 64) (tc : BitVec 64) (td : BitVec 64) (s : State) :
    Keep s (State.echoIn p ta tb tc td s) := by
  unfold State.echoIn
  refine .ite ?_ ?_
  · exact .refl _
  · extract_lets x1 x2 x3 x4 x5
    have h6 : Keep s x2 := by subst x2; exact keep_setFlight ..
    clear_value x2
    have h7 : Keep s x4 := by subst x4; exact .trans h6 (keep_shiftCount ..)
    clear_value x4
    exact .ite (.trans h6 (keep_portLeave ..)) (.ite (.ite h6 (.trans (.upd h6 rfl rfl rfl rfl rfl rfl rfl) (keep_portLeave ..))) (.ite (.trans h7 (keep_sendProbe ..)) (.trans (.upd h7 rfl rfl rfl rfl rfl rfl rfl) (keep_bindCheck ..))))

theorem keep_syncAgain (s : State) : Keep s (State.syncAgain s) := by
  unfold State.syncAgain
  split
  · exact .ite (keep_sendProbe ..) (.refl _)
  · exact .refl _

/-! Agree -/

theorem keep_pairDigestIn (ctag : Nat) (lap : Nat) (evidence : Bool) (digest : List Byte) (s : State) :
    Keep s (State.pairDigestIn ctag lap evidence digest s) := by
  unfold State.pairDigestIn
  split
  · exact .refl _
  · extract_lets x3
    exact .ite (.refl _) (.trans (keep_onSlot ..) (keep_pairCheck ..))

theorem keep_resendPair (s : State) (k : Nat) : Keep s (State.resendPair s k) := by
  unfold State.resendPair
  extract_lets x1
  split
  · exact .ite (keep_sendPair ..) (.refl _)
  · exact .refl _

theorem keep_pairExpires (s : State) (k : Nat) : Keep s (State.pairExpires s k) := by
  unfold State.pairExpires
  extract_lets x1
  exact .ite (keep_loseMember ..) (.refl _)

theorem keep_proposalIn (q : Proposal) (s : State) : Keep s (State.proposalIn q s).1 := by
  unfold State.proposalIn
  split
  · exact keep_answerProposal ..
  · extract_lets x3
    have h4 : Keep s x3 := by subst x3; exact .ite (keep_withdraw ..) (.refl _)
    clear_value x3
    exact .trans (.trans h4 (keep_onSlot ..)) (keep_answerProposal ..)

theorem keep_lostIn (ctag : Nat) (addr : Nat) (gen : Nat) (s : State) : Keep s (State.lostIn ctag addr gen s).1 := by
  unfold State.lostIn
  split
  · extract_lets x1 x2
    have h3 : Keep s x1 := by subst x1; exact keep_quarantine ..
    clear_value x1
    refine .trans ?_ (keep_heldTally ..)
    exact .upd h3 rfl rfl rfl rfl rfl rfl rfl
  · split
    · exact .trans (keep_loseMember ..) (keep_heldTally ..)
    · exact keep_heldTally ..

theorem keep_reproposeDue (s : State) (k : Nat) : Keep s (State.reproposeDue s k) := by
  unfold State.reproposeDue
  split
  · extract_lets x3
    exact .ite (.trans (keep_onSlot ..) (keep_proposeLap ..)) (.refl _)
  · exact .refl _

theorem keep_takeOver (s : State) (k : Nat) : Keep s (State.takeOver s k) := by
  unfold State.takeOver
  split
  · exact .ite (.trans (keep_onSlot ..) (keep_proposeLap ..)) (.refl _)
  · exact .refl _

theorem keep_replayDeadline (s : State) (k : Nat) (addr : Nat) : Keep s (State.replayDeadline s k addr) := by
  unfold State.replayDeadline
  extract_lets x1 x2
  exact .ite (.trans (keep_onSlot ..) (keep_declareLost ..)) (.refl _)

end Sys2Proof.Machine
end

