-- ==== Sys2Proof/Laws/KeepMgmt.lean ====
section
/-! SUPPORT. What the security responder and the management bus keep, and a tick of the idle device. -/
namespace Sys2Proof.Machine

/-! Spdm -/

theorem keep_answerMsg (s : State) (b : List Byte) : Keep s (State.answerMsg s b) := by
  unfold State.answerMsg
  exact .upd (.refl _) rfl rfl rfl rfl rfl rfl rfl

theorem keep_spdmError (s : State) (code : Nat) : Keep s (State.spdmError s code) := by
  unfold State.spdmError
  exact keep_answerMsg ..

theorem keep_spdmAnswer (s : State) (code : Nat) (b : List Byte) : Keep s (State.spdmAnswer s code b) := by
  unfold State.spdmAnswer
  exact keep_answerMsg ..

theorem keep_setEndpoint (s : State) (ep : Nat) (x : Spdm) : Keep s (State.setEndpoint s ep x) := by
  unfold State.setEndpoint
  exact .upd (.refl _) rfl rfl rfl rfl rfl rfl rfl

theorem keep_negotiated {f : State → State} (hf : ∀ r, Keep r (f r)) (s : State) (ep : Nat) :
    Keep s (State.negotiated s ep f) := by
  unfold State.negotiated
  exact .ite (.refl _) (.ite (keep_spdmError ..) (hf ..))

theorem keep_inSession {f : State → State} (hf : ∀ r, Keep r (f r)) (s : State) (ep : Nat) : Keep s (State.inSession s ep f) := by
  unfold State.inSession
  exact .ite (.refl _) (.ite (keep_spdmError ..) (hf ..))

theorem keep_signedAnswer (s : State) (kind : Nat) (ep : Nat) (head : List Byte) (tail : List Byte) :
    Keep s (State.signedAnswer s kind ep head tail) := by
  unfold State.signedAnswer
  exact .ite (keep_spdmError ..) (.upd (.refl _) rfl rfl rfl rfl rfl rfl rfl)

theorem keep_spdmVersion (s : State) (ep : Nat) : Keep s (State.spdmVersion s ep) := by
  unfold State.spdmVersion
  exact .ite (.refl _) (.trans (keep_setEndpoint ..) (keep_spdmAnswer ..))

theorem keep_spdmCapabilities (s : State) (ep : Nat) : Keep s (State.spdmCapabilities s ep) := by
  unfold State.spdmCapabilities
  extract_lets x1
  exact .ite (.refl _) (.ite (keep_spdmError ..) (.trans (keep_setEndpoint ..) (keep_spdmAnswer ..)))

theorem keep_spdmAlgorithms (s : State) (ep : Nat) : Keep s (State.spdmAlgorithms s ep) := by
  unfold State.spdmAlgorithms
  extract_lets x1
  exact .ite (.refl _) (.ite (keep_spdmError ..) (.trans (keep_setEndpoint ..) (keep_spdmAnswer ..)))

theorem keep_spdmDigests (s : State) : Keep s (State.spdmDigests s) := by
  unfold State.spdmDigests
  exact keep_spdmAnswer ..

theorem keep_spdmCertificate (slot : Nat) (off : Nat) (len : Nat) (s : State) : Keep s (State.spdmCertificate slot off len s) := by
  unfold State.spdmCertificate
  refine .ite ?_ ?_
  · exact keep_spdmError ..
  · extract_lets x1
    exact keep_spdmAnswer ..

theorem keep_spdmMeasurements (ep index : Nat) (signed : Bool) (nonce : List Byte) (s : State) :
    Keep s (State.spdmMeasurements ep index signed nonce s) := by
  unfold State.spdmMeasurements
  extract_lets blocks
  clear_value blocks
  split
  · exact keep_spdmError ..
  · exact .ite (keep_signedAnswer ..) (keep_spdmAnswer ..)

theorem keep_spdmChallenge (ep : Nat) (slot : Nat) (nonce : List Byte) (s : State) :
    Keep s (State.spdmChallenge ep slot nonce s) := by
  unfold State.spdmChallenge
  exact .ite (keep_spdmError ..) (keep_signedAnswer ..)

theorem keep_spdmKeyExchange (ep : Nat) (slot : Nat) (bytes : List Byte) (s : State) :
    Keep s (State.spdmKeyExchange ep slot bytes s) := by
  unfold State.spdmKeyExchange
  exact .ite (keep_spdmError ..) (.ite (keep_spdmError ..) (.trans (keep_setEndpoint ..) (keep_signedAnswer ..)))

theorem keep_spdmFinish (ep : Nat) (s : State) : Keep s (State.spdmFinish ep s) := by
  unfold State.spdmFinish
  extract_lets x1
  exact .ite (.trans (keep_setEndpoint ..) (keep_spdmAnswer ..)) (keep_spdmError ..)

theorem keep_spdmEnd (ep : Nat) (s : State) : Keep s (State.spdmEnd ep s) := by
  unfold State.spdmEnd
  exact .trans (keep_setEndpoint ..) (keep_spdmAnswer ..)

theorem keep_ideQuery (ep : Nat) (bytes : List Byte) (s : State) : Keep s (State.ideQuery ep bytes s) := by
  unfold State.ideQuery
  refine .ite ?_ ?_
  · extract_lets x1
    exact .trans (keep_free ..) (keep_spdmAnswer ..)
  · exact keep_spdmError ..

theorem keep_setIdeKeys (s : State) (p : Nat) (x : IdeKeys) : Keep s (State.setIdeKeys s p x) := by
  unfold State.setIdeKeys
  exact .upd (.refl _) rfl rfl rfl rfl rfl rfl rfl

theorem keep_keyProg (s : State) (ep : Nat) (slot : Nat) : Keep s (State.keyProg s ep slot) := by
  unfold State.keyProg
  refine .ite ?_ ?_
  · exact .refl _
  · refine .ite ?_ ?_
    · exact keep_spdmAnswer ..
    · extract_lets x1 x2 x3
      have h4 : Keep s x2 := by subst x2; exact keep_setIdeKeys ..
      clear_value x2
      exact .trans (.upd h4 rfl rfl rfl rfl rfl rfl rfl) (keep_spdmAnswer ..)

theorem keep_keySetGo (s : State) (ep : Nat) (slot : Nat) : Keep s (State.keySetGo s ep slot) := by
  unfold State.keySetGo
  refine .ite ?_ ?_
  · exact .refl _
  · refine .ite ?_ ?_
    · exact keep_spdmError ..
    · extract_lets x1 x2 x3
      have h4 : Keep s x2 := by subst x2; exact keep_setIdeKeys ..
      clear_value x2
      have h5 : Keep s x3 := by subst x3; exact .trans h4 (keep_onPort ..)
      clear_value x3
      refine .ite ?_ ?_
      · exact keep_spdmAnswer ..
      · refine .trans ?_ (keep_spdmAnswer ..)
        refine .trans ?_ (.foldl (fun r x => ?_) _ _)
        · exact h5
        · exact keep_sendPending ..

theorem keep_doeDiscovery (s : State) (p : Nat) (object : BitVec 32) (index : Nat) :
    Keep s (State.doeDiscovery s p object index) := by
  unfold State.doeDiscovery
  exact .ite (.refl _) (.ite (.refl _) (.ite (keep_answerMsg ..) (.ite (keep_answerMsg ..) (keep_answerMsg ..))))

/-! Mgmt -/

theorem keep_setEid (s : State) (eid : Nat) : Keep s (State.setEid s eid) := by
  unfold State.setEid
  exact .ite (keep_answerMsg ..) (.trans (.upd (.refl _) rfl rfl rfl rfl rfl rfl rfl) (keep_answerMsg ..))

theorem keep_getEid (s : State) : Keep s (State.getEid s) := by
  unfold State.getEid
  exact keep_answerMsg ..

theorem keep_mctpVersion (s : State) : Keep s (State.mctpVersion s) := by
  unfold State.mctpVersion
  exact keep_answerMsg ..

theorem keep_mctpTypes (s : State) : Keep s (State.mctpTypes s) := by
  unfold State.mctpTypes
  exact keep_answerMsg ..

theorem keep_mctpVendor (s : State) : Keep s (State.mctpVendor s) := by
  unfold State.mctpVendor
  exact keep_answerMsg ..

theorem keep_takeAddress (s : State) (addr : Nat) : Keep s (State.takeAddress s addr) := by
  unfold State.takeAddress
  exact .ite (.refl _) (.upd (.refl _) rfl rfl rfl rfl rfl rfl rfl)

/-! Idle -/

theorem keep_porterTurn (s : State) : Keep s (State.porterTurn s) := by
  unfold State.porterTurn
  exact .ite (keep_startSites ..) (.refl _)

theorem keep_idle (s : State) : Keep s (State.idle s) := by
  unfold State.idle
  extract_lets x1
  have h2 : Keep s x1 := by subst x1; exact .trans (.trans (keep_porterTurn ..) (keep_tick ..)) (keep_decideAsked ..)
  clear_value x1
  exact .ite (.trans h2 (keep_beginDeviceReset ..)) h2

end Sys2Proof.Machine
end

