-- ==== Sys2Proof/WellFormed.lean ====
section
/-! DEFINITION. Operands in their ranges: a command's numbers name things the device has (R27, R28, R158, R238, R274, R402,
R438, R446, R457, R482). -/
namespace Sys2Proof

/-- The operands of a command lie in their ranges. -/
def Instr.wellFormed (i : Instr) : Bool :=
  match i with
  | .loop n _ _ | .endl n _ _ | .wait n _ _ | .endLap n _ _ | .rdflag n _ _ | .rdcc n _ _ | .rdlap n _ _ | .mma n _ _
  | .mmal n _ _ | .mmaRetire n _ _ | .fadd n _ _ | .fsub n _ _ | .fmul n _ _ | .fma n _ _ | .fmin n _ _ | .fmax n _ _
  | .fcmplt n _ _ | .fcmpeq n _ _ | .sel n _ _ | .iadd n _ _ | .isub n _ _ | .and n _ _ | .or n _ _ | .xor n _ _ | .shl n _ _
  | .shr n _ _ | .imax n _ _ | .icmplt n _ _ | .exp2 n _ _ | .log2 n _ _ | .rsqrt n _ _ | .rcp n _ _ | .cvtnRne n _ _
  | .cvtnRtz n _ _ | .cvtnSr n _ _ | .cvtw n _ _ | .vscale n _ _ | .shuf n _ _ | .bcast n _ _ | .vmaxi n _ _ | .vmini n _ _
  | .vsum n _ _ | .lpadd n _ _ | .lpmul n _ _ | .raw n _ _ | .norm32 n _ _ | .norm16 n _ _ | .gumb n _ _ | .bernp n _ _
  | .bernl n _ _ | .ldv n _ _ | .stv n _ _ | .lds n _ _ | .sts n _ _ | .ldvx n _ _ | .stvx n _ _ | .gath n _ _ _
  | .scat n _ _ | .tout n _ _ | .tpeek n _ _ | .sadd n _ _ | .ssub n _ _ | .sand n _ _ | .sor n _ _ | .sxor n _ _ | .sshl n _ _
  | .sshr n _ _ | .saddi n _ _ | .aaddi n _ _ | .afroms n _ _ | .sfroma n _ _ | .movvs n _ _ | .movsv n _ _ | .send n _ _
  | .recv n _ _ | .sendm n _ _ | .recvm n _ _ | .mrd n _ _ | .mwr n _ _ | .gateNext n _ _ | .gateEnda n _ _ | .gateEndb n _ _
  | .gateStop n _ _ | .add n _ _ | .maxIdx n _ _ | .minIdx n _ _ | .top8First n _ _ | .top8Second n _ _ => decide (n < 10240)
  | .memorySlotSend n slot _ | .memorySlotReturn n slot => decide (n < 10240 ∧ slot < 3)
  | .lapEnd k | .launchDrive k | .schussLaunch k _ _ | .schussAbort k _ | .faultLine k | .lapBoundary k _
  | .lapDigestReady k | .reloadComplete k | .sealRecordWrite k _ | .takeoverGraceExpiry k | .starveLimitExpiry k
  | .pairDigestResend k | .pairDigestTimeout k | .repropose k | .coordinatorTakeover k => decide (k < 8)
  | .linkTransfer n dir t _ _ => decide (n < 10240 ∧ dir < 4 ∧ t < 2)
  | .schussCommit _ | .tick _ | .handover _ _ | .takeover _ _ | .takeoverDeny _ _ | .seedFromNoise _ _
  | .strict _ _ | .strictLock _ _ | .oracleOut _ | .entropyPort _ | .probeGo _ _ | .rootPllLockLost _ _
  | .deviceReset _ _ | .padRelease _ _ | .meterSample _ _ | .thermalSample _ | .startupHoldEnd | .drbgGenerate
  | .drbgReseed _ _ | .keyInstall | .signatureComplete | .mogulStop _ _ | .signal _ _ | .logClear _ _
  | .logInterval _ _ | .logIntervalEnd | .logMsTick | .logRecordWrite | .fwCommit _ | .fwSvnRaise _
  | .signedRequired _ _ | .securityLock _ _ | .syncShift _ _ | .countResend _ | .rinkSyncPeriod
  | .setEndpointId _ | .getEndpointId | .getMctpVersionSupport | .getMessageTypeSupport
  | .getVendorDefinedMessageSupport | .entdaa _ | .setdasa _ _ | .extest _ | .samplePreload _ | .bypass
  | .pwrOkRise _ _ | .pwrOkFall | .resetNFall | .resetNRise _ _ | .deviceResetRelease | .refclkStart
  | .refclkLoss | .rootPllLock | .pllLockTimeout | .reservedWriteComplete | .syncIn | .syncOut
  | .startUpFailure _ | .identityDerivation | .porterMismatch | .schussParityError => true
  | .trapReport src _ seq | .trapReportResend src _ seq | .trapAck src _ seq => decide (src < 10240 ∧ seq < 256)
  | .stage site _ _ _ _ | .stageAck site | .siteDead site => decide (site < 10560)
  | .gateLoad n _ first _ => decide (n < 10240 ∧ first < 512)
  | .memoryRequest j period => decide (j < 480 ∧ period < 64)
  | .edgeTransfer stack link t _ => decide (stack < 16 ∧ link < 16 ∧ t < 2)
  | .slicePeriod j _ | .readDataReady j | .serviceAccess j _ | .rebuildComplete j _ => decide (j < 480)
  | .scrub j _ | .slicePhyFault j => decide (j < 480 ∨ (512 ≤ j ∧ j < 1024))
  | .stackInterfaceFailure stack | .hbmTrainingComplete stack _ | .zeroFillComplete stack => decide (stack < 16)
  | .apertureWrite p _ _ _ | .returnAreaWrite p _ _ | .returnHead p _ | .sealHead p _ | .responsePost p
  | .nop p | .dictRead p | .dictWrite p | .imageLoad p | .imageLoadFinal p | .imageLoadAbandon p | .dataWrite p
  | .dataRead p | .launch p | .haltAtBoundary p | .haltAtBoundaryRelease p | .seal p | .unseal p
  | .unsealLast p | .unsealAbandon p | .mogulRun p | .logbookRead p | .attest p | .flr p | .pcieLinkLoss p
  | .perstN p | .configSpaceLoaded p _ | .ideIntegrityFailure p _ | .remoteTimeout p | .doeDiscovery p _ _
  | .perstNRelease p | .d3hotTransition p _ => decide (p < 2)
  | .post p w _ _ => decide (p < 2 ∧ w < 32)
  | .pcieLinkUp p width => decide (p < 2 ∧ (width = 4 ∨ width = 8 ∨ width = 16))
  | .seed _ k i bytes => decide (k < 8 ∧ i < 16 ∧ bytes.length = 14)
  | .domainReq _ d _ | .domainEntryCommit d | .wakeArm d | .domainWakeComplete d => decide (d < 36)
  | .comparatorEvent n _ | .comparatorDeassert n _ => decide (n < 6)
  | .settlingEnd n | .blockPass n _ | .blockFail n _ => decide (n < 16)
  | .problemRow _ lat row _ => decide (lat < 2 ∧ row < 256)
  | .energyReady lat | .drainEnd lat | .mogulRunEnd lat | .sweep lat => decide (lat < 2)
  | .claim _ t | .eoi _ t _ => decide (t < 4)
  | .srcState _ src _ => decide (src < 1024)
  | .fwStage _ bytes => decide (bytes.length = 4096)
  | .imageKey _ i bytes => decide (i < 8 ∧ bytes.length = 97)
  | .linkSecret _ bytes => decide (bytes.length = 32)
  | .lecelCrypt _ i _ => decide (i < 4)
  | .dictReqRead m | .dictReqWrite m | .dictReqWriteLast m => match m with
    | .link p _ b => decide (p < 4) && Machine.dictFormed b
    | .bus _ l => (Machine.mcMessage l).isSome
  | .dictResp p _ b => decide (p < 4) && decide (16 + fieldLE b 2 1 ≤ b.length ∧ fieldLE b 2 1 ≤ 96)
  | .dictExchangeTimeout _ _ xid => decide (xid < 65536)
  | .lecelCapture p j _ => decide (p < 4 ∧ j < 50)
  | .lecelFrame p _ _ _ | .lecelDelivery p | .lecelPortUp p _ | .lecelDown p | .lecelAbsent p
  | .propose p _ _ _ | .tally p _ _ | .commit p _ _ _ | .lost p _ _ _ _ _ _ | .countEw p _ _ _ | .countNs p _ _ _
  | .closeEw p _ _ | .closeNs p _ _ | .join p _ _ _ _ | .joinWaitExpiry p | .standDown p _ _ _ _
  | .genUpdate p _ _ _ _ | .rinkSyncProbe p _ _ | .rinkSyncEcho p _ _ _ _ => decide (p < 4)
  | .pairDigest p _ _ _ _ digest => decide (p < 4 ∧ digest.length = 48)
  | .tallyTimeout origin => decide (origin < 16384)
  | .getVersion ep | .getCapabilities ep | .negotiateAlgorithms ep | .getDigests ep | .getCertificate ep _ _ _
  | .keyExchange ep _ _ | .finish ep | .heartbeat ep | .keyUpdate ep | .endSession ep
  | .vendorDefinedRequest ep _ | .keyProg ep _ | .kSetGo ep _ => decide (ep < 3)
  | .challenge ep _ nonce | .getMeasurements ep _ _ nonce => decide (ep < 3 ∧ nonce.length = 32)
  | .rootPllLockLoss die => decide (die < 2)
  | .replayReadyDeadline k addr => decide (k < 8 ∧ addr < 16384)

end Sys2Proof
end

