-- ==== Sys2Proof/Tests/Slice0.lean ====
section
/-! SUPPORT. Tests: ill-formed operands, single commands on small states with results worked out from the rules, and for
every statement with hypotheses a witness that meets them, clause by clause. -/
namespace Sys2Proof.Tests
open Sys2Proof Sys2Proof.Machine
set_option Elab.async false

/-! Operands out of range: one for each check of WellFormed. -/

/-- A route and a proposal of zeros, and a segment's payload too short to be one. -/
def noRoute : Route := ⟨0, 0, 0, 0, 0, false, 0, 0, 0, 0, 0, false⟩
def noProposal : Proposal := ⟨0, 0, 0, 0, 0⟩

theorem test_illFormed_cores_and_slots : [Instr.loop 10240 0 false, .gateNext 10240 0 0, .add 10240 false 0, .memorySlotSend 0 3 false,
    .memorySlotReturn 10240 0, .lapEnd 8, .launchDrive 8, .schussLaunch 8 0 [], .schussAbort 8 0, .faultLine 8, .sealRecordWrite 8 [],
    .linkTransfer 0 4 0 0 0, .linkTransfer 0 0 2 0 0, .trapReport 10240 false 0, .trapAck 0 false 256, .stage 10560 false false 0 0,
    .stageAck 10560, .siteDead 10560, .gateLoad 10240 0 0 [], .gateLoad 0 0 512 []].all (fun i => !i.wellFormed) = true := by
  decide +kernel

theorem test_illFormed_memory_and_ports : [Instr.memoryRequest 480 0, .memoryRequest 0 64, .edgeTransfer 16 0 0 0,
    .edgeTransfer 0 16 0 0, .edgeTransfer 0 0 2 0, .slicePeriod 480 [], .scrub 480 [], .slicePhyFault 511, .slicePhyFault 1024,
    .rebuildComplete 480 [], .stackInterfaceFailure 16, .zeroFillComplete 16, .nop 2, .apertureWrite 2 0 [] .link, .post 0 32 0 .link,
    .post 2 0 0 .link, .pcieLinkUp 0 2, .pcieLinkUp 2 4, .seed .portA 8 0 (List.replicate 14 0),
    .seed .portA 0 16 (List.replicate 14 0), .seed .portA 0 0 []].all (fun i => !i.wellFormed) = true := by decide +kernel

theorem test_illFormed_device : [Instr.domainReq .portA 36 0, .wakeArm 36, .comparatorEvent 6 0, .comparatorDeassert 6 0, .settlingEnd 16,
    .problemRow .portA 2 0 [], .problemRow .portA 0 256 [], .sweep 2, .claim .portA 4, .eoi .portA 4 0, .srcState .portA 1024 0,
    .fwStage .portA [0], .imageKey .portA 8 (List.replicate 97 0), .imageKey .portA 0 (List.replicate 96 0), .linkSecret .portA [0],
    .lecelCrypt .portA 4 0, .dictReqRead (.link 4 noRoute (List.replicate 16 0)), .dictReqWrite (.link 0 noRoute [0]),
    .dictReqWriteLast (.bus 0 []), .dictResp 4 noRoute (List.replicate 16 0), .dictResp 0 noRoute [0],
    .dictExchangeTimeout .portA 0 65536].all (fun i => !i.wellFormed) = true := by
  decide +kernel

theorem test_illFormed_links : [Instr.lecelCapture 4 0 0, .lecelCapture 0 50 0, .lecelDelivery 4, .propose 4 noRoute noProposal 0,
    .countEw 4 noRoute 0 false, .rinkSyncProbe 4 noRoute 0, .pairDigest 4 noRoute 0 0 false (List.replicate 48 0),
    .pairDigest 0 noRoute 0 0 false [], .tallyTimeout 16384, .getVersion 3, .keyProg 3 0, .challenge 3 0 (List.replicate 32 0),
    .challenge 0 0 [], .getMeasurements 0 1 false [], .rootPllLockLoss 2, .replayReadyDeadline 8 0, .replayReadyDeadline 0 16384].all
    (fun i => !i.wellFormed) = true := by decide +kernel

/-- The greatest operands of the table are well formed. -/
theorem test_wellFormed_bounds : [Instr.loop 10239 0 false, .memorySlotSend 10239 2 false, .lapEnd 7, .linkTransfer 10239 3 1 0 0,
    .siteDead 10559, .memoryRequest 479 63, .edgeTransfer 15 15 1 0, .scrub 1023 [], .slicePhyFault 479, .post 1 31 0 .link,
    .pcieLinkUp 1 16, .domainReq .portA 35 0, .comparatorEvent 5 0, .blockPass 15 0, .problemRow .portA 1 255 [],
    .srcState .portA 1023 0, .lecelCapture 3 49 0, .tallyTimeout 16383, .getVersion 2, .rootPllLockLoss 1, .tick 255,
    .dictResp 3 noRoute (List.replicate 16 0)].all (fun i => i.wellFormed) = true := by decide +kernel

/-- No word spells a command. -/
theorem test_decodeTableWord_none : decodeTableWord 64 0xFFFFFFFFFFFFFFFF = none ∧
    State.reset.withFetchWord 64 0 = State.reset := ⟨rfl, rfl⟩

/-! Small states. -/

/-- Start-up over, both root PLLs locked, and every domain ON. -/
def clocks : StartUp := { StartUp.powerOn with st := 2, refclk := true, refclkOk := true, pllLock := 3, time0 := some 0 }
def allOn : Power := { Power.reset with domains := (List.range 36).map (fun d => (d, { Domain.off with st := 0 })) }

/-- A core of slot 0 whose bundle, the word b, issues in lap cycle c. -/
def coreAt (c : Nat) (b : Nat := 0) : Core :=
  { Core.fresh with phase := .running, dtop := 0x100, itop := 16, issueAt := c, instr := Memory.ofBytes 0 (leBytes 16 b) }

/-- A course of one frame, in the whole grid, in its only lap. -/
def slotRun : Slot := { Slot.fresh with
  st := .running, stage := .running 0, counted := true, lapsLeft := 1, owner := 1
  info := { CourseInfo.none with lapFrames := 1, stripeWidth := 128, courseId := 1 } }

/-- Lap cycle c of the course of slot 0, with core 0 and its router. -/
def lapAt (c : Nat) (k : Core) (r : Router) : State := { State.reset with
  now := c, rink := c, rinkRun := true, slots := [(0, slotRun)], start := clocks, power := allOn
  grid := { Grid.reset with activeRows := 80, rowMap := [(0, 0)], cores := [(0, k)], routers := [(0, r)] } }

/-- Core 0 issues the bundle b in lap cycle c. -/
def issuing (c : Nat) (b : Nat := 0) : State := lapAt c (coreAt c b) Router.fresh

/-! Bundles, by the bits of the slots (R54, R61, R67, R69, R71, R72, R77). -/

def ctWord (op arg : Nat) : Nat := (op * 2 ^ 12 + arg) * 2 ^ 112
def mxWord (op fields : Nat) : Nat := (op * 2 ^ 20 + fields) * 2 ^ 90
def vxWord (op fields : Nat) : Nat := (op * 2 ^ 22 + fields) * 2 ^ 62
def sxWord (op fields : Nat) : Nat := (op * 2 ^ 16 + fields) * 2 ^ 42
def mvWord (op fields : Nat) : Nat := (op * 2 ^ 18 + fields) * 2 ^ 18
def nxWord (op fields : Nat) : Nat := op * 2 ^ 14 + fields

/-- The bundle b of core 0 carries the operation, whether or not a word it reads can be corrected. -/
def carried (b : Nat) (op : Bool → Instr) : Bool := carries (issuing 0 b) (op false) && carries (issuing 0 b) (op true)

/-- VX: PM 1, VD 15, VA 14, VB 31, VC 16. -/
def vxAll : VxFields := ⟨1, 15, 14, 31, 16⟩

theorem test_bundle_vx : ((List.range 34).zip [Instr.fadd 0 vxAll, .fsub 0 vxAll, .fmul 0 vxAll, .fma 0 vxAll, .fmin 0 vxAll, .fmax 0 vxAll,
      .fcmplt 0 vxAll, .fcmpeq 0 vxAll, .sel 0 vxAll, .iadd 0 vxAll, .isub 0 vxAll, .and 0 vxAll, .or 0 vxAll, .xor 0 vxAll, .shl 0 vxAll,
      .shr 0 vxAll, .imax 0 vxAll, .icmplt 0 vxAll, .exp2 0 vxAll, .log2 0 vxAll, .rsqrt 0 vxAll, .rcp 0 vxAll, .cvtnRne 0 vxAll,
      .cvtnRtz 0 vxAll, .cvtnSr 0 vxAll, .cvtw 0 vxAll, .vscale 0 vxAll, .shuf 0 vxAll, .bcast 0 vxAll, .vmaxi 0 vxAll, .vmini 0 vxAll,
      .vsum 0 vxAll, .lpadd 0 vxAll, .lpmul 0 vxAll]).all (fun x => carried (vxWord (x.1 + 1) 0x17BBF0) x.2) = true := by decide +kernel

theorem test_bundle_ct_mx_sx :
    ((List.range 7).zip [Instr.loop 0 0xC05, .endl 0 0xC05, .wait 0 0xC05, .endLap 0 0xC05, .rdflag 0 0xC05, .rdcc 0 0xC05,
      .rdlap 0 0xC05]).all (fun x => carried (ctWord (x.1 + 1) 0xC05) x.2) = true
    ∧ ((List.range 2).zip [Instr.mma 0 ⟨5, 2, 9, 1, 17, 1, 2⟩, .mmal 0 ⟨5, 2, 9, 1, 17, 1, 2⟩]).all
        (fun x => carried (mxWord (x.1 + 1) 0x5A716) x.2) = true
    ∧ ((List.range 6).zip [Instr.raw 0 ⟨28, 30, 5, 2⟩, .norm32 0 ⟨28, 30, 5, 2⟩, .norm16 0 ⟨28, 30, 5, 2⟩, .gumb 0 ⟨28, 30, 5, 2⟩,
      .bernp 0 ⟨28, 30, 5, 2⟩, .bernl 0 ⟨28, 30, 5, 2⟩]).all (fun x => carried (sxWord (x.1 + 1) 0xE796) x.2) = true := by decide +kernel

theorem test_bundle_mv_nx :
    ([Instr.ldv 0 ⟨1, 15, 3, 0x81⟩, .stv 0 ⟨1, 15, 3, 0x81⟩, .lds 0 ⟨1, 15, 3, 0x81⟩, .sts 0 ⟨1, 15, 3, 0x81⟩, .ldvx 0 ⟨1, 15, 3, 8, 1⟩,
      .stvx 0 ⟨1, 15, 3, 8, 1⟩].zipIdx).all (fun x => carried (mvWord (x.2 + 1) 0x17B81) x.1) = true
    ∧ (∀ u, carries (issuing 0 (mvWord 7 0x17B81)) (.gath 0 ⟨1, 15, 3, 16, 0, 1⟩ u 0) = true) ∧ carried (mvWord 8 0x17B81) (.scat 0 ⟨1, 15, 3, 16, 0, 1⟩) = true
    ∧ carried (mvWord 9 0x2D36C) (.tout 0 ⟨2, 3, 4, 3, 3, 12⟩) = true ∧ carried (mvWord 10 0x2D36C) (.tpeek 0 ⟨2, 3, 4, 13, 22, 0⟩) = true
    ∧ ([Instr.sadd 0 ⟨1, 15, 14, 1⟩, .ssub 0 ⟨1, 15, 14, 1⟩, .sand 0 ⟨1, 15, 14, 1⟩, .sor 0 ⟨1, 15, 14, 1⟩, .sxor 0 ⟨1, 15, 14, 1⟩,
      .sshl 0 ⟨1, 15, 14, 1⟩, .sshr 0 ⟨1, 15, 14, 1⟩, .saddi 0 ⟨1, 15, 14, 1⟩, .aaddi 0 ⟨1, 15, 14, 1⟩, .afroms 0 ⟨1, 15, 14, 1⟩,
      .sfroma 0 ⟨1, 15, 14, 1⟩, .movvs 0 ⟨1, 15, 14, 1⟩, .movsv 0 ⟨1, 15, 14, 1⟩].zipIdx).all
        (fun x => carried (mvWord (x.2 + 16) 0x17B81) x.1) = true
    ∧ ([Instr.send 0 ⟨31, 1, 2⟩, .recv 0 ⟨31, 1, 2⟩].zipIdx).all (fun x => carried (nxWord (x.2 + 1) 0x3F02) x.1) = true
    ∧ ([Instr.sendm 0 ⟨7, 0xE0, 2⟩, .recvm 0 ⟨7, 0xE0, 2⟩].zipIdx).all (fun x => carried (nxWord (x.2 + 3) 0x3F02) x.1) = true
    ∧ ([Instr.mrd 0 ⟨3, 7, 8, 2⟩, .mwr 0 ⟨3, 7, 8, 2⟩].zipIdx).all (fun x => carried (nxWord (x.2 + 5) 0x3F02) x.1) = true := by
  decide +kernel

/-! Witnesses of the core's statements: the last lap cycle in which each access fits, and bundles that carry the operation. -/

theorem wit_VxLaneAndMaskOperations : (∀ d ∈ [0, 1, 3, 7, 9], Issues (issuing (255 - d)) 0 .vx
      ∧ Fits ((issuing (255 - d)).ctxOf 0) d ∧ ((issuing (255 - d)).ctxOf 0).len = 256)
    ∧ (∀ u, carries (issuing 252 (vxWord 4 0x1783E0)) (.fma 0 ⟨1, 15, 0, 31, 0⟩ u) = true ∧ Issues (issuing 252 (vxWord 4 0x1783E0)) 0 .vx)
    ∧ (let f : VxFields := ⟨0, 15, 15, 31, 15⟩; f.vd.toNat < 16 ∧ f.vc.toNat < 16 ∧ f.va.toNat < 16 ∧ f.pm = 0) := by
  unfold Issues Fits; decide +kernel

theorem wit_VxConversionsAndReductions : (∀ d ∈ [0, 2, 3, 4, 5], Issues (issuing (255 - d)) 0 .vx
      ∧ Fits ((issuing (255 - d)).ctxOf 0) d)
    ∧ (let f : VxFields := ⟨0, 31, 31, 31, 12⟩; f.vc.toNat < 16 ∧ narrowTarget f.vc.toNat = true
      ∧ ∀ u, carries (issuing 253 (vxWord 0x17 0xFFFEC)) (.cvtnRne 0 f u) = true)
    ∧ (let f : VxFields := ⟨0, 31, 31, 0, 12⟩; f.vc.toNat < 16 ∧ f.vb.toNat < 4 ∧ widenSource f.vc.toNat f.vb.toNat = true)
    ∧ (let f : VxFields := ⟨3, 31, 30, 0, 7⟩; 3 ≤ f.vc.toNat ∧ f.vc.toNat ≤ 7 ∧ f.vb = 0 ∧ f.va.toNat % 2 = 0) := by
  unfold Issues Fits; decide +kernel

theorem wit_SxOperations : (∀ d ∈ [2, 4, 9, 11, 23], FreeSlot (issuing (255 - d)) 0 .sx ∧ Fits ((issuing (255 - d)).ctxOf 0) d)
    ∧ (let f : SxFields := ⟨28, 30, 0, 0⟩; f.vd.toNat % 4 = 0 ∧ f.ss = 0 ∧ f.ap = 0 ∧ f.ve.toNat % 2 = 0
      ∧ ∀ u, carries (issuing 232 (sxWord 1 0xE780)) (.raw 0 f u) = true) := by
  unfold FreeSlot Issues Fits; decide +kernel

/-- Core 0 with loop counter 3 at 1, and the bundle b. -/
def looping (b : Nat) : State := lapAt 255 { coreAt 255 b with loops := [(3, ⟨1, 0⟩)] } Router.fresh

theorem wit_CtOperations : Issues (issuing 255) 0 .ct ∧ Fits ((issuing 255).ctxOf 0) 0
    ∧ (((issuing 255).core 0).rl ((0xFFF : BitVec 12).toNat / 1024)).count = 0 ∧ (∀ u, carries (issuing 255 (ctWord 1 0xFFF)) (.loop 0 0xFFF u) = true)
    ∧ Issues (looping 0) 0 .ct ∧ (((looping 0).core 0).rl ((0xC00 : BitVec 12).toNat / 1024)).count ≠ 0
    ∧ (∀ u, carries (looping (ctWord 2 0xC00)) (.endl 0 0xC00 u) = true)
    ∧ (0xC00 : BitVec 12).toNat % 1024 = 0 ∧ (0x3FF : BitVec 12).toNat < 1024 ∧ (0x7FF : BitVec 12).toNat < 2048
    ∧ (15 : BitVec 12).toNat < 16 ∧ (31 : BitVec 12).toNat < 32 := by
  unfold Issues Fits; decide +kernel

theorem wit_LoopFaults : (let s := looping (ctWord 1 0xC05); Issues s 0 .ct ∧ ((s.core 0).rl ((0xC05 : BitVec 12).toNat / 1024)).count ≠ 0
      ∧ ∀ u, carries s (.loop 0 0xC05 u) = true)
    ∧ (let s := issuing 0 (ctWord 2 0xC00); Issues s 0 .ct ∧ ((s.core 0).rl 3).count = 0 ∧ (0xC00 : BitVec 12).toNat % 1024 = 0
      ∧ ∀ u, carries s (.endl 0 0xC00 u) = true) := by
  unfold Issues; decide +kernel

/-- An MMA that retires in lap cycle 6. -/
def retiring : State := lapAt 6 { coreAt 0 with mmas := [⟨0, 6, 3, 0, 15, true, 0, 0, 0⟩] } Router.fresh

theorem wit_MmaIssueAndRetirement :
    (let f : MxFields := ⟨3, 3, 15, 1, 31, 0, 3⟩; FreeSlot (issuing 249 (mxWord 1 0x3FFF3)) 0 .mx ∧ mmaFormat f.fmt.toNat = true
      ∧ mmaPart f.fmt.toNat f.part.toNat = true ∧ mmaSlow f.fmt.toNat = false ∧ (∀ u, carries (issuing 249 (mxWord 1 0x3FFF3)) (.mma 0 f u) = true)
      ∧ ((issuing 249).core 0).heldByDrain 249 3 = false ∧ Fits ((issuing 249).ctxOf 0) 6)
    ∧ (let f : MxFields := ⟨1, 3, 15, 0, 31, 0, 3⟩; FreeSlot (issuing 246) 0 .mx ∧ mmaFormat f.fmt.toNat = true
      ∧ mmaPart f.fmt.toNat f.part.toNat = true ∧ mmaSlow f.fmt.toNat = true
      ∧ ((issuing 246).core 0).heldByDrain 246 3 = false ∧ Fits ((issuing 246).ctxOf 0) 9)
    ∧ Table.has 0 retiring.grid.cores = true ∧ (retiring.ctxOf 0).live = true ∧ (retiring.ctxOf 0).c = 6
    ∧ (retiring.core 0).mmas = [⟨0, 6, 3, 0, 15, true, 0, 0, 0⟩] ∧ (retiring.core 0).trapNow = none
    ∧ residuesPass ⟨0, 6, 3, 0, 15, true, 0, 0, 0⟩ [] = true ∧ residuesPass ⟨0, 6, 3, 0, 15, true, 0, 0, 0⟩ [1] = false := by
  unfold FreeSlot Issues Fits; decide +kernel

/-- Core 0 with address registers 0 to 3 at the golden boundary, the last line, the last word, and past the end. -/
def addressed (c : Nat) (b : Nat := 0) : State :=
  lapAt c { coreAt c b with a := [(0, 0x100), (1, 0x2FFC0), (2, 0x2FFFC), (3, 0x30000), (5, 0xC0)] } Router.fresh

theorem wit_MvMemoryAccess :
    (∀ d ∈ [1, 2, 16, 17], FreeSlot (addressed (255 - d)) 0 .mv ∧ Fits ((addressed (255 - d)).ctxOf 0) d)
    ∧ (∀ u, carries (addressed 254 (mvWord 2 0)) (.stv 0 ⟨0, 0, 0, 0⟩ u) = true ∧ carries (addressed 238 (mvWord 7 0x7C12)) (.gath 0 ⟨0, 15, 4, 2, 1, 0⟩ u 0) = true)
    ∧ (let k := (addressed 0).core 0
      Core.addrOf (k.ra 1) (64 * (0 : Int)) 64 = 0x2FFC0 ∧ Core.addrOf (k.ra 2) (4 * (0 : Int)) 4 = 0x2FFFC
      ∧ Core.addrOf (k.ra 0) (64 * (0 : Int)) 64 = k.dtop ∧ Core.addrOf (k.ra 5) (64 * (0 : Int)) 64 < k.dtop
      ∧ 0x30000 ≤ Core.addrOf (k.ra 3) (64 * (0 : Int)) 64
      ∧ k.indexedAddr ⟨0, 31, 1, 0, 0⟩ = 0x2FFC0 ∧ k.indexedAddr ⟨0, 31, 0, 0, 0⟩ = k.dtop
      ∧ (∀ i < 16, k.gatherAddr ⟨0, 31, 2, 31, 2, 0⟩ i = 0x2FFFC) ∧ (∀ i < 16, k.dtop ≤ k.gatherAddr ⟨0, 31, 0, 31, 2, 0⟩ i)
      ∧ (∀ i < 16, k.gatherAddr ⟨0, 31, 0, 31, 2, 0⟩ i < 0x30000) ∧ (15 : BitVec 5).toNat < 16) := by
  unfold FreeSlot Issues Fits; decide +kernel

/-- Core 0 with DEBUG_ENABLE written. -/
def debugged : State := { issuing 253 (mvWord 10 0xFFFC) with dict := { Dict.reset with debugEnable := true } }

theorem wit_MvScalarAndTileOperations : FreeSlot (issuing 255) 0 .mv ∧ Fits ((issuing 255).ctxOf 0) 0
    ∧ FreeSlot (issuing 254) 0 .mv ∧ Fits ((issuing 254).ctxOf 0) 1
    ∧ (let f : MvA := ⟨0, 15, 15, 15⟩; f.rsvd = 0 ∧ f.d.toNat < 16 ∧ f.x.toNat < 16 ∧ f.y.toNat < 16
      ∧ ∀ u, carries (issuing 255 (mvWord 16 0x7BCF)) (.sadd 0 f u) = true)
    ∧ (let f : MvA := ⟨0, 7, 7, 0⟩; f.d.toNat < 8 ∧ f.x.toNat < 8 ∧ f.y = 0)
    ∧ (let f : MvT := ⟨0, 3, 4, 2, 0, 28⟩; FreeSlot (addressed 234) 0 .mv ∧ f.rsvd = 0 ∧ f.fmt.toNat < 5 ∧ f.rnd ≠ 3
      ∧ f.vr.toNat % 4 = 0 ∧ (∀ u, carries (addressed 234 (mvWord 9 0xD21C)) (.tout 0 f u) = true)
      ∧ (∀ r < 16, ((addressed 234).core 0).dtop ≤ Core.toutAddr (((addressed 234).core 0).ra f.ab.toNat) f.fmt.toNat r
        ∧ Core.toutAddr (((addressed 234).core 0).ra f.ab.toNat) f.fmt.toNat r < 0x30000)
      ∧ ((addressed 234).core 0).heldByMma 234 3 = false ∧ ((addressed 234).core 0).heldByDrain 234 3 = false
      ∧ Fits ((addressed 234).ctxOf 0) 21)
    ∧ (let f : MvP := ⟨0, 3, 15, 15, 30, 0⟩; f.rsvd = 0 ∧ f.rsvd0 = 0 ∧ f.vd.toNat % 2 = 0
      ∧ ∀ u, carries debugged (.tpeek 0 f u) = true)
    ∧ (issuing 253).dict.debugEnable = false ∧ debugged.dict.debugEnable = true ∧ FreeSlot debugged 0 .mv
    ∧ (debugged.core 0).heldByMma 253 3 = false ∧ (debugged.core 0).heldByDrain 253 3 = false
    ∧ Fits (debugged.ctxOf 0) 2 := by
  unfold FreeSlot Issues Fits; decide +kernel

/-- A window of 64 lines at slice 0, period 0, whose request leaves in cycle 40 and returns 215 cycles later. -/
def window : BitVec 64 := BitVec.ofNat 64 (215 + 40960)

/-- Core 0 in lap cycle 40, its window listed, a write or a read asked for; in cycle 255 the read returns. -/
def slotSends (write : Bool) : State := lapAt 40 { coreAt 40 with
  windows := [(0, window)], a := [(0, 0x100)], reqs := [(0, ⟨write, 0, 0x100, 3⟩)] } Router.fresh
def slotReturns (addr : Nat) : State := lapAt 255 { coreAt 255 with
  windows := [(0, window)], returns := [⟨0, 255, 40, addr, none⟩] } Router.fresh
def slotAsks (b : Nat) : State := lapAt 39 { coreAt 39 b with windows := [(0, window)], a := [(0, 0x100), (1, 0x2FFC0), (2, 0x87FC0)] }
  Router.fresh
/-- A memory flit in the port of core 0: its injection in the next cycle, its ejection in this one. -/
def portBusy : State := lapAt 20 { coreAt 20 with
  inflight := [⟨20, 21, 0, false, .inject 0 0 true⟩], returns := [⟨0, 22, 10, 0x100, none⟩] } Router.fresh

theorem wit_NxFlitsAndMemorySlots :
    Issues (addressed 254) 0 .nx ∧ (⟨31, 1, 0⟩ : NxReg).rsvd = 0 ∧ (⟨1, 0, 0⟩ : NxMem).rsvd = 0
    ∧ (∀ u, carries (addressed 254 (nxWord 1 0x3F00)) (.send 0 ⟨31, 1, 0⟩ u) = true ∧ carries (addressed 254 (nxWord 4 0x800)) (.recvm 0 ⟨1, 0, 0⟩ u) = true)
    ∧ ((addressed 254).core 0).memInjectAt 255 = false ∧ ((addressed 254).core 0).memEjectAt 254 = false
    ∧ Core.addrOf (((addressed 254).core 0).ra 2) (32 * (0 : Int)) 32 < 0x30000
    ∧ ((addressed 254).core 0).dtop ≤ Core.addrOf (((addressed 254).core 0).ra 0) (32 * (0 : Int)) 32
    ∧ Fits ((addressed 254).ctxOf 0) 1
    ∧ Issues portBusy 0 .nx ∧ (portBusy.core 0).memInjectAt 21 = true ∧ (portBusy.core 0).memEjectAt 20 = true
    ∧ (let f : NxSlot := ⟨0, 0, 15, 0⟩; let k := (slotAsks 0).core 0
      Issues (slotAsks 0) 0 .nx ∧ (∀ u, carries (slotAsks (nxWord 5 0x1E0)) (.mrd 0 f u) = true)
      ∧ f.rsvd = 0 ∧ f.slot ≠ 3 ∧ k.dtop ≤ Core.addrOf (k.ra 0) 0 64 ∧ Core.addrOf (k.ra 1) 0 64 < 0x30000
      ∧ 0x80000 + 16 * k.itop ≤ Core.addrOf (k.ra 2) 0 64 ∧ Core.addrOf (k.ra 2) 0 64 < 0x88000
      ∧ k.returnCycle 0 39 = 255 ∧ k.sendCycle 0 (k.servingFrame 0 39) = 40 ∧ ((slotAsks 0).ctxOf 0).len = 256)
    ∧ (∀ w, let s := slotSends w; Table.has 0 s.grid.cores = true ∧ (s.ctxOf 0).live = true ∧ (s.ctxOf 0).fenced = false
      ∧ (s.ctxOf 0).c = 40 ∧ Table.get none 0 ((s.core 0).reqs.map (fun r => (r.1, some r.2))) = some ⟨w, 0, 0x100, 3⟩
      ∧ (s.core 0).sendCycle 0 (40 / 256) = 40 ∧ (s.core 0).trapNow = none)
    ∧ (∀ a ∈ [0x100, 0x80100], let s := slotReturns a
      (s.ctxOf 0).live = true ∧ (s.core 0).returns.find? (fun r => r.slot == 0 && r.ret == (s.ctxOf 0).c) = some ⟨0, 255, 40, a, none⟩)
    := by
  unfold Issues Fits; decide +kernel

theorem wit_CoreOperationFrame : (bundleOp (.loop 0 0 false)).isSome = true ∧ (∃ t, exec (.loop 0 0 false) (issuing 0) = .next t)
    ∧ (bundleOp (.mwr 0 ⟨0, 0, 0, 0⟩ false)).isSome = true ∧ (∃ t, exec (.mwr 0 ⟨0, 0, 0, 0⟩ false) (issuing 0) = .next t)
    ∧ ((issuing 0).core 0).canIssue ((issuing 0).ctxOf 0) .ct = true ∧ carries (issuing 0) (.loop 0 0 false) = false
    ∧ ((issuing 1).core 0).canIssue ((lapAt 0 (coreAt 1) Router.fresh).ctxOf 0) .ct = false :=
  ⟨rfl, ⟨_, rfl⟩, rfl, ⟨_, rfl⟩, by decide +kernel, by decide +kernel, by decide +kernel⟩

/-! Witnesses of the laps' statements: slot 7 with core 0 and its router, in RINK cycle t. -/

def staged (t : Nat) (x : Slot) : State := { State.reset with
  now := t, rink := t, rinkRun := true, slots := [(7, x)], start := clocks, power := allOn
  grid := { Grid.reset with activeRows := 80, rowMap := [(0, 0)], routerRink := t
                            cores := [(0, { coreAt 0 with slot := 7 })], routers := [(0, { Router.fresh with slot := 7 })] } }

theorem wit_LapLaunch :
    (∀ o ∈ [none, some 1000], let s := staged 1000 { slotRun with stage := .committed 1024, seedsAt := o };
      (s.slot 7).stage = .committed 1024 ∧ (s.slot 7).attempt = .first ∧ (s.slot 7).pledged = false ∧ s.rinkRun = true
      ∧ s.rink + 24 = 1024 ∧ (s.slot 7).seedsAt = o)
    ∧ (let s := staged 1024 { slotRun with stage := .driven 1024 };
      (s.slot 7).stage = .driven 1024 ∧ (s.slot 7).attempt = .first ∧ s.rinkRun = true ∧ s.rink = 1024
      ∧ Table.has 0 s.grid.cores = true ∧ (s.core 0).slot = 7 ∧ Table.has 0 s.grid.routers = true ∧ (s.router 0).slot = 7)
    ∧ (Router.entryRead 0).isSome = true ∧ (Router.entryRead 0x101).isSome = true
    ∧ State.evenParity (State.schussWord 2 7 0) = true ∧ State.schussWord 2 7 0 ≠ State.schussWord 1 7 0
    ∧ (0xFF : Nat) < (coreAt 0).dtop ∧ (coreAt 0).dtop ≤ 0x100 ∧ (0x2FFFF : Nat) < 0x30000
    ∧ (coreAt 0).idleRec = false ∧ { coreAt 0 with idleRec := true }.idleRec = true := by
  decide +kernel

/-- A digest that is due, of lap 64, in slot 7, whose next lap is 65. -/
def digesting (x : Slot) : State := staged 6400 { x with digestDue := [⟨6400, 64, []⟩], lapNext := 65 }
def provisionally : Slot := { slotRun with provisional := some ⟨64, 0, [], (0, [])⟩ }

theorem wit_LapLinesAndEnd_fault :
    (let s := staged 34 { slotRun with stage := .running 0, faultDrive := some 10 };
      (s.slot 7).stage = .running 0 ∧ (s.slot 7).faultDrive = some 10 ∧ s.now = 10 + 24 ∧ (∀ n ∈ s.grid.failing, s.ownerOf n ≠ some 7))
    ∧ (let s : State := { staged 34 { slotRun with faultDrive := some 10 } with
        grid := { (staged 34 { slotRun with faultDrive := some 10 }).grid with failing := [0] } }
      (∃ n ∈ s.grid.failing, s.ownerOf n = some 7) ∧ s.porterMay 7 = true)
    ∧ (let s := staged 35 { slotRun with stage := .running 0, faultDrive := some 10 };
      (s.slot 7).faultDrive = some 10 ∧ s.now ≠ 10 + 24)
    ∧ (let s := staged 255 { slotRun with abortAt := some 255 };
      (s.slot 7).stage = .running 0 ∧ (s.slot 7).abortAt = some s.now ∧ (s.slot 7).attempt ≠ .probe ∧ s.now < 0 + s.lapLen 7)
    ∧ (let s := staged 255 { slotRun with abortAt := some 255, attempt := .probe };
      (s.slot 7).stage = .running 0 ∧ (s.slot 7).abortAt = some s.now ∧ (s.slot 7).attempt = .probe)
    ∧ ((staged 255 { slotRun with abortAt := some 256 }).slot 7).abortAt ≠ some 255 := by
  decide +kernel

theorem wit_LapLinesAndEnd_end :
    (let s := (staged 255 slotRun).setRouter 0 { Router.fresh with slot := 7, seq := ⟨.running, 0, 0, 0, 511, 511, .none, 260, 0⟩ };
      Table.sorted s.grid.cores = true ∧ s.lapCycle 7 = some (s.lapLen 7 - 1) ∧ (s.core 0).slot = 7 ∧ s.fenced 0 = false
      ∧ State.coreEnded (s.core 0) (s.lapLen 7 - 1) = false ∧ State.routerStopped (s.router 0) = false ∧ s.lapGoing 7 = true
      ∧ (staged 254 slotRun).lapCycle 7 ≠ some (s.lapLen 7 - 1))
    ∧ (let s := staged 65280 slotRun; s.grid.routerRink % 256 = 0 ∧ s.grid.routerRink / 256 % 256 = 255 ∧ (255 : Nat) < 256)
    ∧ (staged 65281 slotRun).grid.routerRink % 256 ≠ 0 ∧ (staged 65280 slotRun).grid.routerRink / 256 % 256 ≠ 254
    ∧ State.evenParity 1 = false ∧ ((staged 0 slotRun).router 0).slot = 7 ∧ ((staged 0 slotRun).lapCycle 7).isSome = true := by
  decide +kernel

theorem wit_LapLinesAndEnd_digest :
    (let s := digesting slotRun;
      (s.slot 7).digestDue = [⟨6400, 64, []⟩] ∧ s.now = 6400 ∧ (s.slot 7).info.pairs = false)
    ∧ (∀ p ∈ [0, 2], let s := digesting { provisionally with pairState := p, info := { slotRun.info with pairs := true } };
      (s.slot 7).info.pairs = true ∧ (s.slot 7).provisional ≠ none ∧ (s.slot 7).pairState = p ∧ 64 = (s.slot 7).lapNext - 1
      ∧ (s.slot 7).confirmed = false ∧ (s.slot 7).pairIn = none)
    ∧ ((digesting { provisionally with pairIn := some (64, sha384 [], true) }).slot 7).pairIn = some (64, sha384 [], true) := by
  decide +kernel

/-- The boundary of the first lap. -/
def bounding (x : Slot) : State := staged 280 x

theorem wit_LapBoundaries_clean :
    (∀ x ∈ [slotRun, { slotRun with lapsLeft := 2 }, { slotRun with counted := false }, { slotRun with counted := false, lapNext := 2 ^ 48 - 1 }],
      let s := bounding x;
      (s.slot 7).stage = .running 0 ∧ s.now = 0 + s.lapLen 7 + 24 ∧ (s.slot 7).st ≠ .halted ∧ (s.slot 7).faults = []
      ∧ (s.slot 7).abortAt = none ∧ (s.slot 7).halt = [] ∧ s.grid.failing = [] ∧ s.grid.plan = none ∧ s.grid.unsettled = false
      ∧ s.mem.failing = [] ∧ s.mem.losing = [] ∧ s.multi 7 = false ∧ (s.slot 7).info.pairs = false ∧ (s.slot 7).reloads = []
      ∧ (s.slot 7).rebuilding = [] ∧ Table.has 0 s.grid.cores = true ∧ (s.core 0).slot = 7)
    ∧ (slotRun.counted = true ∧ slotRun.lapsLeft - 1 = 0) ∧ 2 ^ 48 - 1 + 1 = 2 ^ 48 := by
  decide +kernel

theorem wit_LapBoundaries_faulted :
    (∀ c ∈ [0x0A, 0x21], let s := bounding { slotRun with faults := [⟨0, c, 3, 0⟩] };
      s.boundaryDue 7 = some s.now ∧ (s.slot 7).halt = [] ∧ s.grid.failing = [] ∧ s.grid.plan = none ∧ s.grid.unsettled = false
      ∧ s.mem.failing = [] ∧ s.mem.losing = [] ∧ (s.slot 7).st ≠ .halted ∧ (s.slot 7).st ≠ .empty ∧ (s.slot 7).faults ≠ []
      ∧ State.firstRec (s.slot 7).faults = some ⟨0, c, 3, 0⟩ ∧ (s.slot 7).run = [] ∧ (s.slot 7).blocksBad = []
      ∧ State.passedOver ⟨0, c, 3, 0⟩ = false ∧ State.reloadsOf (s.slot 7).faults = []
      ∧ (∀ j < 8, j ≠ 7 → ¬((s.slot j).stage = .idle ∧ ((s.slot j).st = .running ∨ (s.slot j).st = .replaying))))
    ∧ State.hasLapFault [⟨0, 0x0A, 3, 0⟩] = false ∧ State.hasLapFault [⟨0, 0x21, 3, 0⟩] = true
    ∧ (let s := bounding { slotRun with st := .halted, reason := .memoryLost };
      s.boundaryDue 7 = some s.now ∧ (s.slot 7).st = .halted ∧ (s.slot 7).halt = [])
    ∧ (staged 279 slotRun).boundaryDue 7 ≠ some 279 := by
  decide +kernel

/-! Witnesses of the grid's and the mesh's statements. -/

/-- Slot 0 between laps with core 0 at site 0; site 3 has failed, and its remedy, a shift of row 0, is planned, staged and
committed 24 cc ago. -/
def remedying : State := { lapAt 100 (coreAt 0) Router.fresh with
  slots := [(0, { slotRun with stage := .idle })]
  grid := { Grid.reset with
    activeRows := 80, rowMap := [(0, 0)], cores := [(0, coreAt 0)], routers := [(0, Router.fresh)], failing := [3]
    sites := [(0, ⟨0, false, false, 0, 0, 0, 0, some (false, false, 0, 0)⟩), (3, ⟨0, false, false, 3, 0, 0, 0, some (true, true, 0, 0)⟩)]
    plan := some ⟨some 3, [(0, ⟨0, false, false, 0, 0, 0, 0, none⟩), (3, ⟨4, true, true, 255, 255, 0, 0, none⟩)], [(0, 0), (3, 0)],
      [(0, 0)], 1, 0⟩
    commit := some (76, 1) } }

theorem wit_SiteRemedyAndReload_commit : ∃ p, remedying.grid.plan = some p ∧ Table.sorted p.sites = true ∧ p.failed = some 3
    ∧ (∀ x ∈ p.sites, State.commitNames p 1 x.1 = true)
    ∧ Table.sorted remedying.grid.cores = true ∧ remedying.grid.commit = some (76, 1) ∧ remedying.now = 76 + 24
    ∧ remedying.failedSites.contains 3 = false ∧ (∀ k < 8, bitOf 1 k = 1 → remedying.betweenLaps k = true)
    ∧ remedying.grid.failing = [3] ∧ remedying.grid.unsettled = false
    ∧ (∀ k < 8, (remedying.slot k).halt = [] ∧ remedying.multi k = false) :=
  ⟨_, rfl, by decide +kernel⟩

/-- STAGE messages of the Porter's: sent to site 0 of core 0 and to site 60, which carries none; the first has arrived at its
router, or its acknowledgement at the Porter. -/
def staging (l : List StageMsg) : State := { remedying with grid := { remedying.grid with
  commit := none, stages := l
  transom := { Transom.reset with
    nodes := [(0, { TransomNode.fresh with inbox := [[headerFlit 0 0xFFF0 3 1 9 0]] })]
    porterIn := [[headerFlit 0xFFF0 0 4 1 9 0]] } } }

theorem wit_SiteRemedyAndReload_stage :
    (let g : StageMsg := ⟨0, true, false, -3, 3, 9, false⟩; let s := staging [g];
      s.grid.stages.find? (State.isStage 0 true false ((-3 : BitVec 3).toInt) ((3 : BitVec 3).toInt)) = some g ∧ s.coreAt 0 = some 0
      ∧ (s.grid.transom.takeAt 0 (State.isMessage 3 0xFFF0 9)).isSome = true)
    ∧ (let g : StageMsg := ⟨10000, true, false, 0, 0, 9, false⟩; let s := staging [g];
      s.grid.stages.find? (State.isStage 10000 true false ((0 : BitVec 3).toInt) ((0 : BitVec 3).toInt)) = some g
      ∧ s.coreAt 10000 = none)
    ∧ (let g : StageMsg := ⟨0, true, false, 0, 0, 9, true⟩; let s := staging [g];
      s.grid.stages.find? (fun h => h.site == 0 && h.applied) = some g ∧ s.coreAt 0 = some 0
      ∧ (s.grid.transom.takePorter (State.isMessage 4 0 9)).isSome = true
      ∧ s.grid.stages.filter (fun h => h.site != 0) = [] ∧ s.grid.commit = none ∧ s.grid.plan.isSome = true
      ∧ (∀ k ∈ (s.grid.plan.map State.planSlots).getD [], s.betweenLaps k = true))
    ∧ (let s := staging [⟨10000, true, false, 0, 0, 9, true⟩, ⟨3, true, true, 0, 0, 10, false⟩];
      s.grid.stages.filter (fun h => h.site != 10000) ≠ [] ∧ s.coreAt 10000 = none) := by
  decide +kernel

/-- A GATE_LOAD header of the Porter's to core 0. -/
def gateHeader : BitVec 120 := headerFlit 0 destPorter 10 8 0 0

/-- A course between laps with core 0 to reload. -/
def reloading : State := { lapAt 100 (coreAt 0) Router.fresh with slots := [(0, { slotRun with stage := .idle, reloads := [0] })] }

theorem wit_SiteRemedyAndReload_reload :
    Table.has 0 reloading.grid.routers = true ∧ reloading.attemptOpen (reloading.router 0).slot = false
    ∧ 511 + [(0xFF : BitVec 128)].length ≤ 512 ∧ State.isGateLoad 0 gateHeader = true
    ∧ State.isGateLoad 0 0 = false
    ∧ (reloading.slot 0).reloads ≠ [] ∧ reloading.attemptOpen 0 = false ∧ reloading.heldBySites 0 = false
    ∧ (reloading.slot 0).halt = [] ∧ reloading.multi 0 = false := by decide +kernel

/-- A trap report of core 0, or of its router, sent 1,024 cc ago: it has reached the Porter, and the acknowledgement the core. -/
def reported (received router fence : Bool) : State := { lapAt 1224 (coreAt 0) Router.fresh with
  grid := { Grid.reset with
    activeRows := 80, rowMap := [(0, 0)], cores := [(0, coreAt 0)], routers := [(0, Router.fresh)]
    reports := [⟨0, router, 0, 0, 255, 0x21, 5, 0, 200, received, 0⟩]
    sites := [(0, ⟨0, fence, false, 0, 0, 0, 0, none⟩)]
    transom := { Transom.reset with
      nodes := [(0, { TransomNode.fresh with inbox := [[headerFlit 0 0xFFF0 2 1 255 0]] })]
      porterIn := [[headerFlit 0xFFF0 0 1 1 255 (trapPayload 0x21 0 5 0)]] } } }

theorem wit_ReportsAndFailures_reports : ∀ rcv router fence, let s := reported rcv router fence;
    s.grid.reports.find? (State.isReport 0 router 255) = some ⟨0, router, 0, 0, 255, 0x21, 5, 0, 200, rcv, 0⟩
    ∧ s.grid.reports.any (State.isReport 0 (!router) 255) = false
    ∧ (s.grid.transom.takePorter (State.isMessage 1 0 255)).isSome = true
    ∧ bitsOf (hdrPayload (headerFlit 0xFFF0 0 1 1 255 (trapPayload 0x21 0 5 0))) 63 60 < 8 ∧ (s.slot 0).firstTrap = 0
    ∧ s.now = 200 + 1024 ∧ (s.site 0).fence = fence
    ∧ (s.grid.transom.takeAt 0 (State.isMessage 2 0xFFF0 255)).isSome = true := by
  decide +kernel

theorem wit_ReportsAndFailures_failures :
    (let s := lapAt 20 (coreAt 0) Router.fresh;
      s.coreAt 0 = some 0 ∧ s.ownerOf 0 = some 0 ∧ s.lapGoing 0 = true ∧ s.ownerOf 10559 = none)
    ∧ (let s := lapAt 0 (coreAt 0) Router.fresh; s.grid.deviceLost = 0 ∧ (∀ k < 8, (s.slot k).halt = []) ∧ (s.slot 0).st ≠ .empty)
    ∧ { Grid.reset with deviceLost := 4 }.deviceLost ≠ 0 := by
  decide +kernel

/-! Witnesses of the memory's statements. -/

/-- A request flit: operation, slice, period, block, and whether its window is read-only. -/
def request (op j p block : Nat) (nowr : Bool) : Flit :=
  BitVec.ofNat 128 ((op <<< 126) + (j <<< 117) + (p <<< 111) + (block <<< 92) + (nowr.toNat <<< 77))

/-- A slice controller in the lap of slot 0, at cycle c. -/
def sliceAt (c j : Nat) (x : SliceCtl) : State := { lapAt c (coreAt 0) Router.fresh with
  mem := { MemState.reset with ctl := [(j, x)], stackTab := [(j / 30, ⟨false, [32 * (j / 30) + 30], 0, true, true⟩)] } }

theorem wit_SliceTraffic_requests :
    (∀ x ∈ [(0, 29, 63, false), (1, 29, 63, false), (2, 29, 63, false), (2, 29, 63, true), (1, 28, 63, false), (1, 29, 62, false)],
      let s := sliceAt 200 29 { SliceCtl.fresh with inbound := [⟨200, 252, 63, 0, request x.1 x.2.1 x.2.2.1 0 x.2.2.2⟩] };
      s.stackLive (sliceStack 29) = true ∧ s.ownerOfStack (sliceStack 29) = some 0 ∧ s.lapGoing 0 = true
      ∧ (s.ctl 29).inbound.find? (fun i => i.role == 0 && i.period == 63 && i.at_ == s.now) =
          some ⟨200, 252, 63, 0, request x.1 x.2.1 x.2.2.1 0 x.2.2.2⟩)
    ∧ (let f := request 2 29 63 349524 true;
      State.reqOp f = 2 ∧ State.reqSlice f = 29 ∧ State.reqPeriod f = 63 ∧ State.reqBlock f = 349524 ∧ State.reqNowr f = true)
    ∧ (let f := request 1 28 62 0 false;
      State.reqOp f = 1 ∧ State.reqSlice f ≠ 29 ∧ State.reqPeriod f ≠ 63 ∧ State.reqNowr f = false)
    ∧ State.reqOp (request 0 29 63 0 true) = 0 ∧ State.reset.stackLive 0 = false := by
  decide +kernel

/-- The edge table of stack 0: its link 15's second transfer of cycle 4 takes role 3 for slice 29, period 63. -/
def edged (rink : Nat) : State := { lapAt 4 (coreAt 0) Router.fresh with
  slots := [(0, { slotRun with info := { slotRun.info with edges := [⟨0, 1, [(64 * 4 + 62, 0xBFDD)]⟩] } })]
  grid := { (lapAt 4 (coreAt 0) Router.fresh).grid with routerRink := rink }
  mem := { MemState.reset with edgeIn := [⟨0, 15, 1, 4, 0x55⟩] } }

theorem wit_SliceTraffic_edges :
    (let s := edged 4; s.stackLive 0 = true ∧ s.edgeReserved 1 = false ∧ s.ownerOfStack 0 = some 0 ∧ s.lapCycle 0 = some 4
      ∧ (s.edgeTable 0 0).any (fun tb => State.edgeValid (State.edgeEntry tb 4 15 1 0) && !State.edgeValid (State.edgeEntry tb 4 14 1 0)) = true
      ∧ ¬((1 : Nat) = 1 ∧ 4 % 8 = 5))
    ∧ (edged 13).edgeReserved 1 = true
    ∧ rsDecode (errSymbols 0) = .clean (List.replicate 20 0) ∧ rsDecode (errSymbols 0x101) = .corrected (List.replicate 20 0) ∧ rsDecode (errSymbols 0x10101) = .failed := by
  decide +kernel

theorem wit_SliceTraffic_periods :
    (∀ w, let s := sliceAt 252 29 { SliceCtl.fresh with reqs := [⟨252, 63, w, 349524⟩], held := [⟨31, 1, 0, 0⟩] };
      s.stackLive (sliceStack 29) = true ∧ s.ownerOfStack (sliceStack 29) = some 0 ∧ s.lapCycle 0 = some 252
      ∧ (s.ctl 29).reqs.find? (fun r => r.start == s.now) = some ⟨252, 63, w, 349524⟩
      ∧ ((s.ctl 29).held.filter (fun h => s.now ≤ h.at_ + 2048)).find? (fun h => h.bankset == 31 && h.block == 349524) = none
      ∧ ((s.ctl 29).held.filter (fun h => s.now ≤ h.at_ + 2048)).find? (fun h => h.bankset == 31 && h.block == 1) = some ⟨31, 1, 0, 0⟩
      ∧ (let la := lineOf 29 63 349524; (s.metaAt la).extractLsb' 8 24 = (s.metaOf la 0 false).extractLsb' 8 24
        ∧ (s.readBlock [] la).1 = some (0, s.metaAt la) ∧ (s.readBlock [⟨la, 0x10101, false⟩] la).1 = none))
    ∧ (∀ b, let s := sliceAt 255 29 { SliceCtl.fresh with reads := [⟨255, 63, 5, 0, b⟩] };
      s.stackLive (sliceStack 29) = true ∧ s.ownerOfStack (sliceStack 29) = some 0 ∧ s.lapGoing 0 = true
      ∧ (s.ctl 29).reads.find? (fun r => r.ready == s.now) = some ⟨255, 63, 5, 0, b⟩) := by
  decide +kernel

/-- Slice 29 with no course, a service write waiting for its period 0. -/
def serving (x : SliceCtl) : State := { sliceAt 256 29 x with
  slots := []
  mem := { (sliceAt 256 29 x).mem with service := [⟨.host, lineOf 29 0 0, true, 0x11, 1, false, 1, 0⟩] } }

/-- A lap whose core 0 has a window at slice 29, period 0. -/
def bookedSlice : State := lapAt 0 { coreAt 0 with windows := [(0, BitVec.ofNat 64 (29 * 2 ^ 48))] } Router.fresh

theorem wit_MemoryUpkeep_scrub :
    (let s := sliceAt 0 29 { SliceCtl.fresh with scrubNext := 11184798 };
      s.scrubDue 29 = true ∧ (s.ctl 29).scrubWb = none ∧ (s.ctl 29).scrubNext + 1 < 11184800
      ∧ s.mem.clearing.any (fun r => State.inRun r.1 r.2 (State.scrubLine 29 11184798)) = false
      ∧ (s.readBlock [] (State.scrubLine 29 11184798)).1.isSome = true
      ∧ (s.readBlock [⟨State.scrubLine 29 11184798, 0x101, false⟩] (State.scrubLine 29 11184798)).2.1 = true)
    ∧ (let s : State := { sliceAt 0 29 SliceCtl.fresh with mem := { (sliceAt 0 29 SliceCtl.fresh).mem with clearing := [(State.scrubLine 29 0, 1)] } };
      s.scrubDue 29 = true ∧ s.mem.clearing.any (fun r => State.inRun r.1 r.2 (State.scrubLine 29 0)) = true)
    ∧ (let s := sliceAt 0 29 { SliceCtl.fresh with scrubWb := some (4, 0x55) }; s.scrubDue 29 = true ∧ (s.ctl 29).scrubWb = some (4, 0x55))
    ∧ (sliceAt 0 29 { SliceCtl.fresh with scrubFrame := some 0 }).scrubDue 29 = false := by
  decide +kernel

theorem wit_MemoryUpkeep_service : ∃ r : ServiceReq, let s := serving SliceCtl.fresh
    s.nextService 29 0 = some r ∧ r.write = true ∧ s.periodNow = some 0 ∧ s.booked 29 0 = false
    ∧ s.stackLive (sliceStack 29) = true ∧ (s.ctl 29).servedAt ≠ some s.now ∧ (s.sliceEnt 29).st ≠ 2
    ∧ bookedSlice.periodNow = some 0 ∧ bookedSlice.booked 29 0 = true
    ∧ ((serving { SliceCtl.fresh with servedAt := some 256 }).ctl 29).servedAt = some 256 :=
  ⟨⟨.host, lineOf 29 0 0, true, 0x11, 1, false, 1, 0⟩, by decide +kernel⟩

theorem wit_MemoryUpkeep_slices :
    (let s := serving SliceCtl.fresh; (s.stack (sliceStack 29)).standby = [30] ∧ (s.sliceEnt 29).st ≠ 2 ∧ s.mem.failing = []
      ∧ (s.sliceEnt 29).phys ∉ [30] ∧ s.ownerOfStack (sliceStack 29) = none ∧ 30 ∈ (s.stack (30 / 32)).standby)
    ∧ (∀ t ∈ [16483, 16484], let s : State := { State.reset with
        now := t, mem := { MemState.reset with rebuilds := [⟨479, none, 100, 4096⟩] } };
      s.mem.rebuilds.find? (fun r => r.slice == 479) = some ⟨479, none, 100, 4096⟩ ∧ s.stackAtBoundary (sliceStack 479) = true)
    ∧ (let s := State.reset; (s.stack 15).lost = false ∧ s.mem.losing = [] ∧ s.ownerOfStack 15 = none)
    ∧ (∀ p rel, let x : Slot := { slotRun with info := { slotRun.info with pairs := p }, halt := if rel then [(⟨0, 0, false⟩, true)] else [] };
      let s := (lapAt 0 (coreAt 0) Router.fresh).setSlot 0 x;
      (s.stack 15).lost = false ∧ s.mem.losing = [] ∧ s.ownerOfStack 15 = some 0 ∧ (s.slot 0).info.pairs = p
      ∧ (s.slot 0).halt.any (fun h => h.2) = rel ∧ (s.slot 0).st ≠ .empty ∧ s.grid.deviceLost = 0) := by
  decide +kernel

/-! Witnesses of the routers' statements. -/

/-- A gate entry's word: CTL, the count of a loop, the run's length, the ALU's operation. -/
def gateWord (ctl count run aop : Nat) : BitVec 128 :=
  BitVec.ofNat 128 ((ctl <<< 126) + (count <<< 112) + (run <<< 100) + (aop <<< 29))

/-- A router in entry e whose run ends in lap cycle 9, with LA and LB as given. -/
def routerAt (e la lb : Nat) (w : BitVec 128) : Router :=
  { Router.fresh with table := [(e, rsWord w)], seq := ⟨.running, e, la, lb, 511, 511, .none, 9, w⟩ }

/-- Lap cycle 9 of that router. -/
def gating (r : Router) : State := lapAt 9 (coreAt 0) r

theorem wit_GateEntries : (∀ x ∈ [(0, 0, 0), (1, 1, 0), (1, 2, 0), (2, 0, 1), (2, 0, 2), (3, 0, 0), (1, 0, 0), (2, 0, 0)],
    let s := gating (routerAt 510 x.2.1 x.2.2 (gateWord x.1 0 0 0));
    let r := s.router 0;
    s.lapCycle r.slot = some 9 ∧ s.routerLive 0 = true ∧ r.running = true ∧ r.seq.runEnd = 9 ∧ r.seqNext = none ∧ r.seq.e < 511
    ∧ gateCtl r.current = x.1 ∧ r.seq.la = x.2.1 ∧ r.seq.lb = x.2.2 ∧ r.seq.startA ≤ 511 ∧ r.seq.startB ≤ 511 ∧ r.slot < 8)
    ∧ ((gating (routerAt 511 0 0 0)).router 0).seq.e = 511 ∧ (lapAt 8 (coreAt 0) (routerAt 510 0 0 0)).lapCycle 0 = some 8
    ∧ (lapAt 8 (coreAt 0) (routerAt 510 0 0 0)).routerLive 0 = true
    ∧ Router.entryRead 0 = some 0 ∧ Router.entryRead 0x10101 = none := by decide +kernel

theorem wit_ReductionAlu : (∀ a ∈ [1, 2, 3, 4, 5],
    let s := gating { routerAt 0 0 0 (gateWord 0 0 9 a) with top8 := some [1, 2, 3, 4] };
    s.routerLive 0 = true ∧ (s.router 0).aopNow = a ∧ (s.router 0).top8.getD [0, 0, 0, 0] = [1, 2, 3, 4])
    ∧ ((gating Router.fresh).router 0).aopNow = 0 := by
  decide +kernel

/-- FP32 scores 8, 7, … 1 of indexes 0 to 7, and the same score eight times. -/
def falling : List Scored :=
  [(0x41000000, 0), (0x40E00000, 1), (0x40C00000, 2), (0x40A00000, 3), (0x40800000, 4), (0x40400000, 5), (0x40000000, 6), (0x3F800000, 7)]
def level : List Scored := (List.range 8).map (fun i => (0x40A00000, BitVec.ofNat 32 i))

theorem wit_Top8MergeKeepsHighest : falling.length = 8 ∧ level.length = 8
    ∧ falling.Pairwise (fun p q => Router.atOrAbove p q = true) ∧ level.Pairwise (fun p q => Router.atOrAbove p q = true) := by
  decide +kernel

/-- A lap of the one course, whose stripe ends at column 127; and the same with routers of no course at RINK r. -/
theorem wit_LinkTransferReceived :
    (let s := gating Router.fresh;
      (0 : Nat) < 0x2800 ∧ coreY 0 < s.grid.activeRows ∧ s.transomTransfer 0 3 1 = false ∧ s.leavesStripe 0 3 = false
      ∧ Table.has 0 s.grid.routers = true ∧ s.routerLive 0 = true ∧ s.transomTransfer 5 3 1 = false ∧ s.leavesStripe 5 3 = false
      ∧ Table.has 5 s.grid.routers = false ∧ (∀ x ∈ s.grid.idleFaults, x.1 ≠ s.siteFor 5))
    ∧ (let s := (gating Router.fresh).setSlot 0 { slotRun with info := { slotRun.info with stripeWidth := 8, rows := 80 } };
      s.leavesStripe 7 1 = true ∧ s.transomTransfer 7 1 0 = false ∧ coreY 7 < s.grid.activeRows)
    ∧ (List.range 8).any (fun r => { lapAt r (coreAt 0) Router.fresh with
        grid := { (lapAt r (coreAt 0) Router.fresh).grid with routerRink := r } }.transomTransfer 0 1 1) = true := by
  decide +kernel

/-! Witnesses of the ports' and the packets' statements. -/

/-- A packet: opcode, slot, ARG0, ARG1, with TAG 5. -/
def packet (op slot arg0 arg1 : Nat) (body : List Byte) : Pkt :=
  ⟨leBytes 1 op ++ [0] ++ leBytes 1 slot ++ [0] ++ leBytes 4 body.length ++ leBytes 8 5 ++ leBytes 8 arg0 ++ leBytes 8 arg1
    ++ List.replicate 32 0, body, 5⟩

/-- A device that is READY and BOUND, every domain ON, with port 1 up, its return area set and packet q posted in window 31. -/
def hostState (q : Pkt) (x : Slot) : State := { State.reset with
  now := 5000, slots := [(7, x)]
  start := clocks
  link := { LinkState.reset with st := 2, rows := 1, cols := 1 }
  power := allOn
  ports := [(1, { Port.fresh with linkUp := true, configLoaded := true, returnSize := 131072, posted := [(31, q.post)]
                                  windows := [(31, ⟨q.header, q.payload⟩)], bufFree := 0x7FFFFFFF })] }

/-- A slot in a state, owned by port B. -/
def slotIn (st : SlotState) : Slot := { Slot.fresh with st := st, owner := 2, info := { CourseInfo.none with lapFrames := 1 } }

/-- A packet that may start on port 1. -/
def ready (q : Pkt) (x : Slot) : Prop := PacketReady (hostState q x) 1 q

theorem wit_PortWrites :
    (let s := hostState (packet 0 0 0 0 []) (slotIn .paused);
      s.reached 1 = true ∧ s.notSecure 1 .link = false ∧ s.notSecure 1 (.selective 4 true) = false ∧ (s.port 1).bufFree.getLsbD 30 = true ∧ (s.port 1).bufFree.getLsbD 31 = false
      ∧ (30 : Nat) < 32 ∧ (0x1FFF8 : Nat) < 0x20000 ∧ (0x1FFF8 = 0x1FFF8 → [(1 : Byte)].length ≠ 8) ∧ s.quiescent 1 = false
      ∧ s.reached 0 = false)
    ∧ (let s : State := { hostState (packet 0 0 0 0 []) (slotIn .paused) with ports := [(1, { Port.fresh with linkUp := true })] };
      s.quiescent 1 = true ∧ s.reached 1 = true ∧ (s.port 1).bufFree.getLsbD 31 = true ∧ s.notSecure 1 .link = false)
    ∧ (let s : State := { hostState (packet 0 0 0 0 []) (slotIn .paused) with
        ports := [(1, { Port.fresh with linkUp := true, ideRequired := true })] };
      s.reached 1 = true ∧ s.notSecure 1 .link = true) := by
  decide +kernel

/-- A response of 64 bytes and one of 128 that wait in port 1, none consumed, the tail at the given place. -/
def responding (tail head : Nat) (body : List Byte) (asked : Bool) : State := { hostState (packet 0 0 0 0 []) (slotIn .paused) with
  start := { clocks with resetAsked := if asked then some (0, 1) else none }
  ports := [(1, { Port.fresh with linkUp := true, returnSize := 131072, returnTail := tail, returnHead := head
                                  responses := [⟨2, 0xFF, 5, 0, 0, 0, body, false, true, .none⟩] })] }

theorem wit_PortResponses : (∀ x ∈ [(0, 0, 0), (131008, 0, 0), (131008, 131008, 64), (262144, 131072, 0)],
    let s := responding x.1 x.2.1 (List.replicate x.2.2 0) false;
    let r : Response := ⟨2, 0xFF, 5, 0, 0, 0, List.replicate x.2.2 0, false, true, .none⟩;
    s.porterOn = true ∧ s.answersReset 1 = false ∧ (s.port 1).responses.find? Response.postable = some r
    ∧ (s.port 1).hasReturn = true ∧ s.portSends 1 = true ∧ (s.port 1).returnTail % 64 = 0
    ∧ (s.port 1).hasRoom r.size = decide (x.1 < 262144) ∧ (s.port 1).padFor r.size = x.2.2)
    ∧ (responding 0 0 [] true).answersReset 1 = true ∧ ((responding 0 0 [] true).port 1).hasRoom 64 = true
    ∧ (hostState (packet 0 0 0 0 []) (slotIn .paused)).answersReset 1 = false
    ∧ (∀ r ∈ ((hostState (packet 0 0 0 0 []) (slotIn .paused)).port 1).responses, r.postable = false) := by decide +kernel

theorem wit_PortLinkEventsAndResets :
    (let s : State := { hostState (packet 0 0 0 0 []) (slotIn .paused) with ports := [] };
      (s.port 1).linkUp = false ∧ s.portTrains 1 = true ∧ (s.port 1).perst = false)
    ∧ (let s := hostState (packet 0 0 0 0 []) (slotIn .paused);
      (s.port 1).linkUp = true ∧ s.porterOn = true ∧ (s.port 1).configLoaded = true ∧ (s.port 1).perst = false)
    ∧ State.streamSecure { Port.fresh with ideSecure := true } 0 = true
    ∧ State.streamSecure { Port.fresh with selSecure := [4] } 4 = true := by decide +kernel

/-- Slot 7 of port 2 − o, with a takeover that waits. -/
def owned (o : Nat) (t : Option (Ticket × Nat)) : State := { hostState (packet 0 0 0 0 []) { slotIn .paused with owner := o, takeover := t } with
  ports := [(0, { Port.fresh with linkUp := true, returnSize := 131072 }), (1, { Port.fresh with linkUp := true, returnSize := 131072 })] }

theorem wit_Ownership_grace :
    (let s : State := { owned 1 (some (⟨1, 9, false⟩, 0)) with now := 160000000 };
      (s.slot 7).takeover = some (⟨1, 9, false⟩, 0) ∧ 0 + 1600000 * s.takeoverGrace ≤ s.now)
    ∧ (⟨1, 9, false⟩ : Ticket).port < 2 ∧ ({ slotIn .running with launchTicket := some ⟨0, 9, false⟩ }).launchTicket = some ⟨0, 9, false⟩ := by
  decide +kernel

theorem wit_Ownership_objects :
    (let s := owned 2 none; s.accepts (portPath 1) 0x1210 2 (leBytes 1 7) = true ∧ (s.slot 7).st ≠ .empty ∧ (s.slot 7).owner = 1 + 1
      ∧ s.probed 7 = false ∧ (s.port 0).linkUp = true ∧ (s.port 0).hasReturn = true)
    ∧ (let s := owned 1 none; s.accepts (portPath 1) 0x1210 3 (leBytes 1 7) = true ∧ (s.slot 7).owner = 2 - 1
      ∧ (s.slot 7).takeover = none ∧ s.probed 7 = false ∧ (s.slot 7).st = .paused ∧ (s.port 0).linkUp = true ∧ (s.port 0).d3hot = false)
    ∧ (let s : State := { owned 1 none with ports := [] }; (s.port 0).linkUp = false ∧ s.accepts (portPath 1) 0x1210 3 (leBytes 1 7) = true)
    ∧ (let s := owned 2 (some (⟨0, 9, false⟩, 0)); s.accepts (portPath 1) 0x1210 4 (leBytes 1 7) = true ∧ (s.slot 7).st ≠ .empty
      ∧ (s.slot 7).owner = 1 + 1 ∧ (s.slot 7).takeover = some (⟨0, 9, false⟩, 0) ∧ (⟨0, 9, false⟩ : Ticket).tag < 2 ^ 64) := by
  decide +kernel

theorem wit_PacketRefusals : (∀ x ∈ [(0x00, 1), (0x99, 0), (0x01, 2 ^ 24), (0x02, 2 ^ 24), (0x21, 0), (0x30, 2 ^ 32), (0x31, 2), (0x31, 3),
      (0x32, 4), (0x10, 0), (0x33, 0), (0x40, 1), (0x50, 4096), (0x60, 0), (0x20, 0)],
    let q := packet x.1 0 x.2 0 [];
    let s := hostState q (slotIn .paused);
    s.headPacket 1 = some q ∧ s.mayStartPacket 1 q.opcode = true ∧ q.refusal.isSome = true ∧ q.opcode = x.1)
    ∧ (∀ a ∈ [0x8000000000000001, 0x4000000000000000], ∀ op ∈ [0x10, 0x33], let q := packet op 8 0 a [];
      let s := hostState q (slotIn .paused);
      s.headPacket 1 = some q ∧ s.mayStartPacket 1 q.opcode = true ∧ q.refusal.isSome = true ∧ q.abandon = decide (a = 0x4000000000000000)
      ∧ q.last = decide (a = 0x8000000000000001)) := by decide +kernel

theorem wit_PacketsAnsweredAtOnce :
    (∀ x ∈ [(0x00, 0, 0), (0x50, 4095, 1), (0x50, 0, 16), (0x01, 0x11000, 0), (0x02, 0x14000, 0)],
      let q := packet x.1 0 x.2.1 x.2.2 (if x.1 = 2 then [0] else []);
      ready q (slotIn .paused) ∧ q.opcode = x.1 ∧ (x.1 ≤ 2 → q.arg1 < 2 ^ 31))
    ∧ (let q := packet 0x01 0 0x11000 0 []; (((hostState q (slotIn .paused)).startPacket 1).readObject (portPath 1) 0x1000 1).1 = 0)
    ∧ (let q := packet 0x02 0 0x14000 0 [0];
      (((hostState q (slotIn .paused)).startPacket 1).writeObject (portPath 1) 0x4000 1 q.body (some (q.ticket 1))).1 = some 0) := by
  unfold ready PacketReady; decide +kernel

/-- A header whose image has no section, 128 bytes long: 72 rows, columns 0 to 15. -/
def imageHead : List Byte :=
  asciiBytes "FLIOSCRS" ++ leBytes 2 1 ++ [1, 0, 72, 0, 16, 0] ++ leBytes 2 1 ++ [1, 1] ++ leBytes 4 1 ++ leBytes 4 1
    ++ leBytes 4 0 ++ leBytes 8 128 ++ List.replicate 88 0

/-- A slot whose image has passed checks 3 to 19, and whose digest has not come. -/
def slotLoading : Slot := { slotIn .loading with
  info := { CourseInfo.none with rows := 72, imageDigest := List.replicate 48 7 }, loadJob := some ⟨1, imageHead, 128, 0, 0⟩ }

/-- FINAL and ABANDON or LAST in ARG1. -/
def finalBit : Nat := 0x8000000000000000
def abandonBit : Nat := 0x4000000000000000

theorem wit_ImageLoads_chunks :
    (let q := packet 0x10 7 0 0x3FFF (List.replicate 127 0);
      ready q { slotIn .empty with owner := 0 } ∧ q.opcode = 0x10 ∧ (hostState q Slot.fresh).link.st = 2 ∧ q.abandon = false ∧ q.last = false
      ∧ ((hostState q Slot.fresh).slot q.slot).st = .empty ∧ q.arg0 = 0 ∧ q.body.length < 128)
    ∧ (let q := packet 0x10 7 0 abandonBit [];
      ready q slotLoading ∧ q.abandon = true ∧ ((hostState q slotLoading).slot q.slot).st = .loading
      ∧ ((hostState q slotLoading).slot q.slot).owner = 1 + 1
      ∧ ((hostState q slotLoading).slot q.slot).loadJob = some ⟨1, imageHead, 128, 0, 0⟩) := by
  unfold ready PacketReady; decide +kernel

/-- The last chunk of that image, with its digest or with another. -/
def lastChunk (b : Byte) : Pkt := packet 0x10 7 128 finalBit (List.replicate 48 b)
def lastLoad (b : Byte) : LoadJob := { (⟨1, imageHead, 128, 0, 0⟩ : LoadJob) with
  bytes := imageHead ++ (lastChunk b).body, nextOffset := 128 + (lastChunk b).len }

theorem wit_ImageLoads_final : (∀ b ∈ [7, 8], let q := lastChunk (BitVec.ofNat 8 b);
      let s := hostState q slotLoading;
      ready q slotLoading ∧ q.opcode = 0x10 ∧ s.link.st = 2 ∧ q.abandon = false ∧ q.last = true
      ∧ (s.slot q.slot).st = .loading ∧ (s.slot q.slot).owner = 1 + 1 ∧ (s.slot q.slot).loadJob = some ⟨1, imageHead, 128, 0, 0⟩
      ∧ q.arg0 = 128 ∧ q.arg0 ≠ 0 ∧ q.originRow = 0 ∧ q.originCol = 0 ∧ s.grid.deviceLost = 0
      ∧ (let j := lastLoad (BitVec.ofNat 8 b);
        (((s.startPacket 1).onSlot q.slot (fun x => { x with loadJob := some j })).loadBytes q.slot j true).1
          = if b = 7 then none else some 0x114)) := by
  unfold ready PacketReady; decide +kernel

theorem wit_DataCommandsStart :
    (let q := packet 0x20 0 0 0 (List.replicate 64 1);
      ready q (slotIn .paused) ∧ q.opcode = 0x20 ∧ ((hostState q (slotIn .paused)).startPacket 1).dataRefusal 1 q.arg0 (q.len / 64) true = none)
    ∧ (let q := packet 0x21 0 479 1 [];
      ready q (slotIn .paused) ∧ q.opcode = 0x21 ∧ ((hostState q (slotIn .paused)).startPacket 1).dataRefusal 1 q.arg0 q.arg1 false = none) := by
  unfold ready PacketReady; decide +kernel

theorem wit_LaunchAndHaltCommands :
    (∀ x ∈ [(0x30, 0), (0x30, 0xFFFFFFFF), (0x31, 0), (0x31, 1)], let q := packet x.1 7 x.2 0 [];
      let s := hostState q { slotIn .paused with lapNext := 0xFFFFFFFFFFFF };
      ready q { slotIn .paused with lapNext := 0xFFFFFFFFFFFF } ∧ (s.slot q.slot).owner = 1 + 1 ∧ s.probed q.slot = false
      ∧ q.opcode = x.1 ∧ q.arg0 = x.2 ∧ (s.slot q.slot).st = .paused ∧ (s.slot q.slot).lapNext ≠ 2 ^ 48 ∧ (s.slot q.slot).takeover = none)
    ∧ (let q := packet 0x31 7 0 0 []; let x : Slot := { slotIn .running with stage := .running 4990 };
      ready q x ∧ ((hostState q x).slot q.slot).st = .running ∧ ((hostState q x).startPacket 1).haltNow q.slot = false) := by
  unfold ready PacketReady; decide +kernel

/-- A seal of slot 7 with its SEEDS and TRAILER still to write, or a line of a bad block, and the seal area of port B of n bytes. -/
def sealJobOf (todo : List (Nat × List Byte × List Nat)) : SealJob := ⟨true, false, 1, ⟨1, 5, false⟩, 9, 3, todo, [], 0, none, none⟩
def sealing (n : Nat) (todo : List (Nat × List Byte × List Nat)) : State := {
  hostState (packet 0x32 7 1 0 []) { slotIn .sealing with sealJob := some (sealJobOf todo) } with
  sealAreas := [(1, leBytes 8 0 ++ leBytes 8 n)] }

theorem wit_SealWritesRecords :
    (∀ a ∈ [0, 1], let q := packet 0x32 7 a 0 [];
      let s : State := { hostState q (slotIn .paused) with sealAreas := [(1, leBytes 8 0 ++ leBytes 8 131072)] };
      PacketReady s 1 q ∧ q.opcode = 0x32 ∧ (s.slot q.slot).owner = 1 + 1 ∧ s.probed q.slot = false ∧ (s.slot q.slot).st = .paused
      ∧ 131072 ≤ s.sealLength 1 ∧ q.arg0 < 2)
    ∧ (∀ todo ∈ [[(2, [1, 2], []), (6, [], [])], [(6, [], [])]], let s := sealing 120 todo;
      s.porterOn = true ∧ (s.slot 7).sealJob = some (sealJobOf todo) ∧ (s.slot 7).st = .sealing
      ∧ (State.sealPorts (sealJobOf todo) (todo.headD (0, [], [])).1).all (s.sealRoom (State.sealSize (todo.headD (0, [], [])))) = true
      ∧ (s.sealPayload [] 7 (sealJobOf todo) (todo.headD (0, [], []))).1.isSome = true)
    ∧ (let s := sealing 65 [(2, [1, 2], [])];
      (State.sealPorts (sealJobOf [(2, [1, 2], [])]) 2).all (s.sealRoom (State.sealSize (2, [1, 2], []))) = false)
    ∧ (let todo := [(5, [], [lineOf 0 0 5, 1])]; let s := sealing 256 todo;
      (State.sealPorts (sealJobOf todo) 5).all (s.sealRoom (State.sealSize (todo.headD (0, [], [])))) = true
      ∧ (s.sealPayload [⟨lineOf 0 0 5, 0x10101, false⟩] 7 (sealJobOf todo) (5, [], [lineOf 0 0 5, 1])).1 = none) := by
  unfold PacketReady; decide +kernel

/-- An unseal that has taken the records up to the TRAILER, or not yet that one. -/
def unsealed (trailer : Bool) : UnsealJob := ⟨[], 64, 3, some 9, [], List.replicate 128 0, [], [], trailer⟩
def slotUnsealing (trailer : Bool) : Slot := { slotIn .unsealing with unsealJob := some (unsealed trailer) }
/-- An UNSEAL_LAST whose last bytes are n, fewer than a record's header. -/
def lastUnseal (n : Nat) : Pkt := packet 0x33 7 64 finalBit (List.replicate n 0)

theorem wit_UnsealSequence :
    (let q := packet 0x33 7 0 0 (List.replicate 63 0); let s := hostState q (slotIn .paused);
      ready q (slotIn .paused) ∧ q.opcode = 0x33 ∧ s.link.st = 2 ∧ (s.slot q.slot).owner = 1 + 1 ∧ s.probed q.slot = false
      ∧ q.abandon = false ∧ q.last = false ∧ q.arg0 = 0 ∧ (s.slot q.slot).st = .paused ∧ (s.slot q.slot).lapsDone = 0 ∧ q.body.length < 64)
    ∧ (let q := packet 0x33 7 0 abandonBit []; let s := hostState q (slotUnsealing false);
      ready q (slotUnsealing false) ∧ q.abandon = true ∧ (s.slot q.slot).st = .unsealing ∧ (s.slot q.slot).halt = [])
    ∧ (let q := lastUnseal 63; let s := hostState q (slotUnsealing false);
      let j := { unsealed false with buf := (unsealed false).buf ++ q.body, nextOffset := 64 + q.len };
      let u := State.unsealAll q.slot (j.buf.length / 64 + 1) ((s.startPacket 1).onSlot q.slot (fun x => { x with unsealJob := some j }));
      ready q (slotUnsealing false) ∧ q.last = true ∧ (s.slot q.slot).st = .unsealing ∧ (s.slot q.slot).unsealJob = some (unsealed false)
      ∧ q.arg0 = 64 ∧ u.1 = none ∧ (u.2.slot q.slot).unsealJob = some j ∧ j.trailer = false ∧ (u.2.slot q.slot).halt = []
      ∧ (u.2.slot q.slot).st = .unsealing) := by
  unfold ready PacketReady; decide +kernel

/-- The TRAILER record of a stream of which nothing but its header and payload has been hashed. -/
def trailerBytes : List Byte :=
  leBytes 2 6 ++ leBytes 2 0 ++ leBytes 4 56 ++ leBytes 8 3 ++ leBytes 8 9 ++ List.replicate 40 0 ++ sha384 [] ++ leBytes 8 3
def trailed : UnsealJob := { unsealed false with seeds := [0] }

theorem wit_UnsealSequence_trailer :
    let q := packet 0x33 7 64 finalBit trailerBytes;
    let x : Slot := { slotIn .unsealing with unsealJob := some trailed };
    let j := { trailed with buf := trailed.buf ++ q.body, nextOffset := 64 + q.len };
    let u := State.unsealAll q.slot (j.buf.length / 64 + 1)
      (((hostState q x).startPacket 1).onSlot q.slot (fun x => { x with unsealJob := some j }));
    ready q x ∧ q.last = true ∧ ((hostState q x).slot q.slot).st = .unsealing ∧ ((hostState q x).slot q.slot).unsealJob = some trailed
    ∧ q.arg0 = 64 ∧ u.1 = none ∧ (u.2.slot q.slot).unsealJob.any (fun e => e.trailer && e.buf.isEmpty) = true := by
  unfold ready PacketReady; decide +kernel

theorem wit_NotBoundRefusal : (∀ op ∈ [0x10, 0x33], ∀ x ∈ [(0, 1), (finalBit, 1), (abandonBit, 0)],
    let q := packet op 7 0 x.1 (List.replicate x.2 0);
    ∀ st ∈ [0, 1], let s : State := { hostState q (slotIn .empty) with link := { LinkState.reset with st := st } };
    PacketReady s 1 q ∧ s.link.st ≤ 1 ∧ q.opcode = op) := by
  unfold PacketReady; decide +kernel

/-- A MOGUL_RUN payload: lattice W, FREE, one sweep, one entry kept, one breakpoint. -/
def mogulPayload : List Byte := [0, 0, 0, 1] ++ leBytes 4 0 ++ leBytes 2 1 ++ List.replicate 6 0 ++ leBytes 4 0 ++ leBytes 2 1 ++ leBytes 2 0

/-- The problem of zeros keeps every rule of a problem. -/
theorem problemOk_zero (g : Nat) : problemOk (fun _ _ => 0) g = true := by
  have h : ∀ u v, placeOk (fun _ _ => 0) g u v = true := by
    intro u v
    unfold placeOk
    split
    · rfl
    · have hb : recBad (0 : BitVec 32) = false := by decide
      have he : (recEdges (0 : BitVec 32)).all (fun e => e.1 == 0) = true := by decide
      simp only [hb, Bool.not_false, Bool.true_and, List.all_eq_true] at he ⊢
      intro e hm
      simp [he e hm]
  simp only [problemOk, List.all_eq_true]
  exact fun p _ => h p.1 p.2

theorem wit_MogulRunAndAttest_run : let q := packet 0x40 0 0 0 mogulPayload;
    ready q (slotIn .paused) ∧ q.opcode = 0x40
    ∧ ((hostState q (slotIn .paused)).startPacket 1).mogulRefusal q.body (stCheck 8) = none ∧ fieldLE q.body 0 1 ≠ 1 := by
  refine ⟨by unfold ready PacketReady; decide +kernel, by decide, ?_, by decide +kernel⟩
  have h : ((hostState (packet 0x40 0 0 0 mogulPayload) (slotIn .paused)).startPacket 1).problem = fun _ _ => 0 := rfl
  have hp : State.payloadOk (packet 0x40 0 0 0 mogulPayload).body = true := by decide +kernel
  have hg : fieldLE (packet 0x40 0 0 0 mogulPayload).body 0 1 = 0 := by decide +kernel
  have h2 : fieldLE (packet 0x40 0 0 0 mogulPayload).body 2 1 = 0 := by decide +kernel
  have hd : (geomLattices 0).all (fun l => ((hostState (packet 0x40 0 0 0 mogulPayload) (slotIn .paused)).startPacket 1).isOn (34 + l))
      = true := by decide +kernel
  have ha : (geomLattices 0).any (fun l => (if l == 0 then
      ((hostState (packet 0x40 0 0 0 mogulPayload) (slotIn .paused)).startPacket 1).mogul.latW else
      ((hostState (packet 0x40 0 0 0 mogulPayload) (slotIn .paused)).startPacket 1).mogul.latE) != 0) = false := by decide +kernel
  have hs : ((hostState (packet 0x40 0 0 0 mogulPayload) (slotIn .paused)).startPacket 1).det.strict = false := by decide +kernel
  simp only [State.mogulRefusal, hp, hg, h2, hd, ha, hs, h, problemOk_zero]
  decide

theorem wit_MogulRunAndAttest_attest : let q := packet 0x60 7 0 0 (List.replicate 48 0); let s := hostState q (slotIn .halted);
    ready q (slotIn .halted) ∧ q.opcode = 0x60 ∧ (s.slot q.slot).st ≠ .empty ∧ (s.slot q.slot).st ≠ .loading ∧ s.probed q.slot = false := by
  unfold ready PacketReady; decide +kernel

theorem wit_LaunchAndHaltCommands_atBoundary : ∀ a ∈ [0, 1], let q := packet 0x31 7 a 0 [];
    let x : Slot := { slotIn .running with stage := .waiting };
    let s := hostState q x;
    ready q x ∧ (s.slot q.slot).owner = 1 + 1 ∧ s.probed q.slot = false ∧ q.opcode = 0x31 ∧ q.arg0 = a ∧ s.haltNow q.slot = true
    ∧ (s.slot q.slot).halt = [] := by
  unfold ready PacketReady; decide +kernel

theorem wit_DataCommandsStart_refused :
    (let q := packet 0x20 0 (2 ^ 24 * 480) 0 (List.replicate 64 1);
      ready q (slotIn .paused) ∧ ((hostState q (slotIn .paused)).startPacket 1).dataRefusal 1 q.arg0 (q.len / 64) true ≠ none)
    ∧ (let q := packet 0x21 0 349525 1 [];
      ready q (slotIn .paused) ∧ ((hostState q (slotIn .paused)).startPacket 1).dataRefusal 1 q.arg0 q.arg1 false ≠ none) := by
  unfold ready PacketReady; decide +kernel

theorem wit_PacketsAnsweredAtOnce_remote : ∀ x ∈ [(0x01, []), (0x02, [(0 : Byte)])],
    let q := packet x.1 0 0x11000 (2 ^ 31 + 2 ^ 16) x.2;
    ready q (slotIn .paused) ∧ q.opcode = x.1 ∧ ((hostState q (slotIn .paused)).startPacket 1).targetPath 1 q = none := by
  unfold ready PacketReady; decide +kernel

/-! Witnesses of the dictionary's statements. -/

/-- A device that is READY, every domain ON, port B up with its stream Secure, slot 7 owned by B. -/
def device (st : SlotState) : State := { hostState (packet 0 0 0 0 []) (slotIn st) with
  ports := [(1, { Port.fresh with linkUp := true, returnSize := 131072, ideSecure := true })] }
/-- The same with no course, so that configuration may be written. -/
def quietDevice : State := { device .empty with slots := [] }
/-- The same with settings of its determinism and its pool. -/
def drawing (strict lock : Bool) (pool : Nat) : State := { device .paused with
  det := { Det.reset with strict := strict, strictLock := lock, probe := { Det.reset.probe with slotSet := 7, cycleSet := 255 } }
  ent := { Entropy.reset with st := .ready, pool := List.replicate pool 3 } }

theorem wit_SeedAndStrictObjects :
    ((drawing false false 64).accepts .portB 0x4017 16 (List.replicate 14 0xFF) = true ∧ (drawing false false 64).probed 7 = false)
    ∧ (∀ b : Bool, (drawing b false 64).accepts .portB 0x4018 1 (leBytes 1 0xF7) = true) ∧ (0xF7 : BitVec 8).toNat / 8 % 2 = 0
    ∧ (0xF7 : BitVec 8).toNat % 8 = 7 ∧ ((drawing false false 64).slot 7).st ≠ .empty ∧ (drawing false false 64).ownedBy .portB 7 = true
    ∧ (drawing false false 64).ent.st ≠ .fatal ∧ 64 ≤ (drawing false false 64).ent.pool.length ∧ (drawing true false 0).det.strict = true
    ∧ ({ drawing false false 0 with slots := [] } : State).accepts .portB 0x4000 1 [1] = true
    ∧ (drawing false false 0).mogul.runW = none ∧ (drawing false false 0).mogul.runE = none
    ∧ (∀ b : Bool, ({ drawing true b 0 with slots := [] } : State).accepts .portB 0x4000 1 [0] = true)
    ∧ (drawing true true 0).det.strictLock = true ∧ (drawing true false 0).det.strictLock = false
    ∧ ({ drawing true false 0 with slots := [] } : State).accepts .portB 0x4000 2 [1] = true := by decide +kernel

/-- The oracle of port B in a mode. -/
def oracle (mode : Nat) : State := { device .paused with dict := { Dict.reset with
  oracles := (List.range 4).map (fun i => (i, { Oracle.fresh with mode := mode })) } }

theorem wit_DrawObjects :
    (∀ m ∈ [0, 3], (oracle m).readable .portB 0x4420 6 = true ∧ ((oracle m).oracleOf .portB).mode = m)
    ∧ (∀ n ∈ [64, 63], (drawing false false n).readable .portB 0x4410 1 = true ∧ (drawing false false n).ent.st ≠ .fatal
      ∧ (drawing false false n).ent.pool.length = n)
    ∧ (drawing false false 0).accepts .portB 0x4400 0x0A [1] = true
    ∧ (let s := drawing false false 0; s.accepts .portB 0x4040 3 [1] = true ∧ s.det.probe.slotSet = 7 ∧ (s.slot 7).st = .paused
      ∧ s.det.probe.cycleSet < s.lapLen 7 ∧ s.ownedBy .portB 7 = true ∧ s.det.probe.state ≠ 1 ∧ (s.slot 7).stage = .idle) := by
  decide +kernel

/-- Source 0x2FF pending for target 2 at priority 15, and source 1 active on the target's stack. -/
def interrupting : State := { device .paused with irq := { Irq.reset with
  sources := [(1, { Source.fresh with active := true, target := 2, prio := 3 }),
              (0x2FF, { Source.fresh with enable := true, target := 2, prio := 15, pending := true })]
  targets := [(2, ⟨some 3, [(none, 1)]⟩)] } }

theorem wit_InterruptObjects :
    (interrupting.readable .porter 0x2412 1 = true ∧ (interrupting.firstDeliverable 2).isSome = true)
    ∧ ((device .paused).readable .porter 0x2412 1 = true ∧ (device .paused).firstDeliverable 2 = none)
    ∧ (interrupting.accepts .porter 0x2412 2 (leBytes 2 1) = true ∧ (interrupting.target 2).stack = [(none, 1)] ∧ (1 : BitVec 16).toNat % 1024 = 1)
    ∧ (∀ n ∈ [0x2E0, 0x3FF], interrupting.accepts .portB 0x2420 1 (leBytes 2 n) = true ∧ 0x2E0 ≤ n % 1024)
    ∧ (∀ n ∈ [0, 1023], interrupting.accepts .portB (0x2404 + n / 256) (n % 256) (leBytes 4 (0x80000000 : BitVec 32).toNat) = true)
    ∧ (0x80000000 : BitVec 32).getLsbD 31 = true := by decide +kernel

theorem wit_EoiEndsTopSource :
    interrupting.accepts .porter 0x2412 2 (leBytes 2 1) = true ∧ (interrupting.target 2).stack = [(none, 1)]
    ∧ interrupting.accepts .porter 0x2412 2 (leBytes 2 2) = true ∧ (1 : Nat) ≠ (2 : BitVec 16).toNat % 1024
    ∧ (device .paused).accepts .porter 0x2412 2 (leBytes 2 2) = true ∧ ((device .paused).target 2).stack = [] := by decide +kernel

/-- A Logbook interval that ends now, with room and without. -/
def logging (count : Nat) : State := { device .paused with
  rink := 1600000, rinkRun := true
  log := { Logbook.reset with current := some (0, 1, true), count := count, writing := [⟨4094, 4, List.replicate 32 0, 0⟩] } }

theorem wit_Logbook :
    (∀ x ∈ [10, 3600000], (device .paused).accepts .portB 0x2600 2 (leBytes 4 x) = true)
    ∧ (device .paused).accepts .portB 0x2600 8 [0xC1] = true
    ∧ (∀ c ∈ [4094, 4096], let s := logging c; s.rinkRun = true ∧ s.log.current = some (0, 1, true) ∧ s.rink = 0 + 1600000 * 1)
    ∧ (logging 0).rink % 1600000 = 0
    ∧ (let s := logging 4094; s.log.writing = [⟨4094, 4, List.replicate 32 0, 0⟩] ∧ s.porterOn = true) := by decide +kernel

theorem wit_LogbookBins : (-5 : Int) ≤ 0 ∧ (0 : Int) < 1 ∧ 1 ≤ 14 ∧ (logging 0).log.current ≠ none := by decide +kernel

/-- A device whose keys and lock are set. -/
def locked (lock : Bool) : State := { quietDevice with flash := { Flash.factory with securityLock := lock, imageKeys := [(7, List.replicate 97 1)] } }

theorem wit_SecurityObjects :
    quietDevice.accepts .portB 0x5003 3 (List.replicate 4096 0) = true ∧ quietDevice.accepts .portB 0x5003 4 [0xC1] = true
    ∧ quietDevice.accepts .portB 0x5003 4 [0x5A] = true
    ∧ ((locked false).accepts .portB 0x5002 7 (List.replicate 97 2) = true ∧ (locked false).flash.securityLock = false)
    ∧ ((locked true).accepts .portB 0x5002 6 (List.replicate 97 2) = true ∧ Table.get [] 6 (locked true).flash.imageKeys = [])
    ∧ ((locked true).flash.securityLock = true ∧ allZero (Table.get [] 7 (locked true).flash.imageKeys) = false
      ∧ (locked true).accepts .portB 0x5002 7 (List.replicate 97 2) = true)
    ∧ (∀ b ∈ [0, 1], (locked false).accepts .portB 0x5001 1 [BitVec.ofNat 8 b] = true) ∧ (locked false).accepts .portB 0x5001 2 [1] = true
    ∧ quietDevice.accepts .portB 0x5005 1 (List.replicate 32 9) = true
    ∧ (∀ p ∈ [0, 3], ∀ x ∈ [0, 1], quietDevice.accepts .portB 0x5004 p (leBytes 1 x) = true ∧ (quietDevice.lport p).usedBy = 0xFF) := by
  decide +kernel

/-! Witnesses of the annealer's, the power domains' and start-up's statements. -/

/-- A run of a geometry, one sweep asked for. -/
def annealRun (geom : Nat) : MogulRun :=
  ⟨geom, 0, 1, 0, [⟨0, 1⟩], ⟨1, 5, false⟩, true, 0, 0, none, false, 0, 0, 0, 0, [], none, [], 0, 0, []⟩

/-- The device with a run on each lattice. -/
def annealing (f : MogulRun → MogulRun) : State := { device .paused with
  mogul := { Mogul.reset with latW := 1, latE := 1, runW := some (f (annealRun 0)), runE := some (f (annealRun 1)) } }

theorem wit_Annealer :
    ((annealing id).accepts .portB 0x4800 3 (leBytes 1 3) = true ∧ (3 : BitVec 8).getLsbD 0 = true ∧ (3 : BitVec 8).getLsbD 1 = true)
    ∧ (∀ x ∈ [(0, 0), (1, 255)], quietDevice.accepts .portB (0x4810 + x.1) x.2 (List.replicate 1024 0) = true
      ∧ (if x.1 = 0 then quietDevice.mogul.latW else quietDevice.mogul.latE) = 0)
    ∧ (∀ g ∈ [0, 1], ((annealing id).runOf g).isSome = true ∧ ((annealing id).runOf g).any (fun r => r.geom == g && !r.ended) = true
      ∧ ((annealing (fun r => { r with lastEnd := 5000 - State.sweepLen 0 })).runOf g).any (fun r =>
          (annealing (fun r => { r with lastEnd := 5000 - State.sweepLen 0 })).sweepDue r) = true
      ∧ ((annealing (fun r => { r with pending := [⟨0, 5000, 0, 0⟩] })).runOf g).any (fun r => r.pending == [⟨0, 5000, 0, 0⟩]) = true
      ∧ (annealing id).now = 5000
      ∧ ((annealing (fun r => { r with drainUntil := some 5000 })).runOf g).any (fun r => r.drainUntil == some 5000) = true
      ∧ ((annealing (fun r => { r with ended := true })).runOf g).any (fun r => r.ended && r.pending.isEmpty && r.drainUntil.isNone) = true)
    := by decide +kernel

/-- A segment of an exchange: OP, INDEX, SUB, XID 9, OFFSET 0, TOTAL and its data; an answer to one. -/
def segBytes (op index sub total : Nat) (data : List Byte) : List Byte :=
  leBytes 1 op ++ leBytes 1 data.length ++ leBytes 2 index ++ leBytes 1 sub ++ [0] ++ leBytes 2 9 ++ leBytes 4 0 ++ leBytes 4 total ++ data
def answerBytes (offset total : Nat) (data : List Byte) : List Byte :=
  leBytes 2 0 ++ leBytes 1 data.length ++ [0, 0] ++ leBytes 1 1 ++ leBytes 2 9 ++ leBytes 4 offset ++ leBytes 4 total ++ data

/-- One MCTP packet with a dictionary segment under the device's vendor ID. -/
def busBody (l : List Byte) : List Byte := mcVendor Config.pciVendorId.toNat ++ l
def busPackets (l : List Byte) : List McPacket := [⟨true, true, 0, busBody l⟩]

theorem wit_DictionaryExchanges_bus : ∀ l ∈ [segBytes 1 0x1000 1 4 [], segBytes 2 0x4000 1 1 [1]],
    mcMessage (busPackets l) = some (busBody l) ∧ (busBody l).take 3 = mcVendor Config.pciVendorId.toNat
    ∧ dictFormed ((busBody l).drop 3) = true ∧ (busBody l).drop 3 = l :=
  List.forall_mem_cons.mpr ⟨⟨rfl, rfl, rfl, rfl⟩, List.forall_mem_cons.mpr ⟨⟨rfl, rfl, rfl, rfl⟩, List.forall_mem_nil _⟩⟩

theorem wit_DictionaryExchanges_segments :
    (let g := dictSegOf (segBytes 1 0x1000 1 4 []);
      g.op.toNat ≤ 2 ∧ g.offset = 0 ∧ quietDevice.mayStart .mgmt 0 g.xid.toNat = true
      ∧ (quietDevice.readObject .mgmt g.index.toNat g.sub.toNat).1 = 0
      ∧ (quietDevice.readObject .mgmt g.index.toNat g.sub.toNat).2.1.length ≤ 96)
    ∧ (let g := dictSegOf (segBytes 2 0x2600 2 4 (leBytes 4 10));
      g.op.toNat ≤ 2 ∧ g.offset = 0 ∧ quietDevice.mayStart .mgmt 0 g.xid.toNat = true ∧ g.data.length ≤ g.total.toNat
      ∧ quietDevice.totalWrong .mgmt g = false)
    ∧ mcMessage [] = none := by decide +kernel

/-- A device of a 1 × 1 ring whose Lecel port 3 is UP, and a route to it, or to device 1. -/
def linkedDevice : State := { quietDevice with
  link := { LinkState.reset with st := 2, rows := 1, cols := 1, ports := [(3, { LecelPort.fresh with st := 2 })] } }

/-- A remote request of port B that waits since cc 0, to device 0, of an opcode with data. -/
def asked (op done : Nat) (data : List Byte) : RemoteReq := ⟨op, 5, false, 0, 9, 0, 0x4000, 1, data, done, false⟩
def remote (t : Nat) (q : RemoteReq) : State := { linkedDevice with now := t, ports := [(1, { Port.fresh with
  linkUp := true, remote := some q })] }

theorem wit_DictionaryExchanges_link :
    (linkedDevice.canSend 3 = true ∧ dictFormed (segBytes 1 0x1000 1 4 []) = true ∧ linkedDevice.forSelf noRoute = true
      ∧ linkedDevice.forSelf { noRoute with dcol := 1 } = false)
    ∧ (∀ x ∈ [(1, 0, answerBytes 1 2 [8]), (2, 0, answerBytes 0 1 [])],
      let q := asked x.1 x.2.1 [7]; let s := remote 15999999 q; let a := dictAnsOf x.2.2;
      s.canSend 3 = true ∧ s.forSelf noRoute = true ∧ (s.port 1).remote = some q ∧ (s.port 0).remote = none ∧ q.xid = a.xid
      ∧ q.addr = noRoute.source ∧ s.now < q.since + 16000000 ∧ a.status = 0 ∧ q.opcode = x.1
      ∧ (x.1 = 1 → a.offset = q.data.length ∧ a.total ≤ (q.data ++ a.data).length)
      ∧ (x.1 = 2 → a.offset = q.done ∧ q.data.length ≤ q.done + 96))
    ∧ (∀ t ∈ [15999999, 16000000], ((remote t (asked 1 0 [])).port 1).remote = some (asked 1 0 [])) := by decide +kernel

/-- A device with domain d in a given state. -/
def domainIs (d : Nat) (x : Domain) : State := { quietDevice with
  power := { Power.reset with comparators := [], domains := Table.put d x quietDevice.power.domains } }

theorem wit_DomainEntryAndWake :
    (let s := domainIs 35 { Domain.off with st := 0 };
      (∀ w ∈ [1, 2], s.accepts .portB 0x2001 35 (leBytes 1 w) = true ∧ s.dependentOn 35 = false ∧ s.domainInUse 35 w = false)
      ∧ s.held = false ∧ (s.domain 35).st = 0 ∧ s.mogulUses 35 = false)
    ∧ (∀ st ∈ [1, 2], let s := domainIs 35 { Domain.off with st := st };
      s.accepts .portB 0x2001 35 (leBytes 1 0) = true ∧ (s.domain 35).st = st ∧ (s.domain 35).armed = true ∧ s.requiredOn 35 = true)
    ∧ (let s := domainIs 35 { Domain.off with st := 3, since := 4936 }; (s.domain 35).st = 3 ∧ s.now = (s.domain 35).since + 64)
    ∧ (let s := domainIs 35 { Domain.off with st := 1, since := 4792, armed := false };
      (s.domain 35).st = 1 ∧ (s.domain 35).armed = false ∧ s.now = (s.domain 35).since + 208 ∧ s.held = false
      ∧ (s.domain 35).latched = false ∧ s.power.comparators = [])
    ∧ (let s := domainIs 35 { Domain.off with st := 4 };
      (s.domain 35).st = 4 ∧ s.requiredOn 35 = true ∧ s.stackReady 35 = true ∧ s.start.st = 2)
    ∧ (let s : State := { domainIs 0 { Domain.off with st := 4 } with start := { clocks with st := 0 } };
      (s.domain 0).st = 4 ∧ s.requiredOn 0 = true ∧ s.stackReady 0 = true ∧ s.bootAccepts = true ∧ s.start.st ≤ 1)
    ∧ quietDevice.requiredOn 35 = true ∧ (quietDevice.domain 35).st ≠ 4
    ∧ (let s := domainIs 1 { Domain.off with st := 4 }; (s.domain 1).st = 4 ∧ s.requiredOn 1 = true ∧ s.stackReady 1 = true ∧ s.start.st = 2 ∧ s.ent.st ≠ .fatal ∧ (s.cell 15).st ≠ .retired)
    ∧ quietDevice.accepts .portB 0x2000 1 (leBytes 8 (2 ^ 64 - 1)) = true := by decide +kernel

/-- A device whose supply, sensors and account are sampled. -/
def sampled (tj : Nat) (st : Nat) : State := { quietDevice with
  now := 160000000, start := { quietDevice.start with time0 := some 0 }
  thermal := { Thermal.reset with tjLimit := tj, state := st }
  louvre := { Louvre.reset with holdFrom := some 0 }
  slots := [(7, { Slot.fresh with stage := .waiting, waitSince := 158399999 })] }

theorem wit_ComparatorsAndSamples :
    (let s : State := { quietDevice with power := { quietDevice.power with comparators := [(5, ⟨0xC0000000, 0⟩)] } };
      let c := s.comparator 5;
      c.enabled = true ∧ (c.edgeMode && c.asserted) = false ∧ c.asserts 1 = true ∧ c.asserts 0 = false ∧ c.asserted = false ∧ c.releases 0 = false)
    ∧ (let c : Comparator := ⟨0xD2000005, 0⟩; (c.edgeMode && c.asserted) = true ∧ c.releases 0 = true ∧ c.releases 1172 = false)
    ∧ (let c : Comparator := ⟨0x92000005, 0⟩; c.enabled = true ∧ c.edgeMode = false ∧ c.asserted = true ∧ c.releases 1172 = false)
    ∧ (⟨0, 0⟩ : Comparator).enabled = false
    ∧ (let s : State := { sampled 95 0 with slots := [] };
      s.held = false ∧ s.start.time0 ≠ none ∧ (s.now - s.louvre.lastSample) % 1600 = 0 ∧ (∀ k < 8, (s.slot k).stage ≠ .waiting) ∧ s.porterOn = true)
    ∧ (let s := sampled 95 0; let limit : Int := 16 * (s.thermal.tjLimit : Int);
      s.thermal.state = 0 ∧ limit + 80 ≤ [(1600 : Int)].foldl max 0 ∧ [(1919 : Int)].foldl max 0 < 1920
      ∧ 1920 ≤ [(0 : Int)].foldl max 1920 ∧ [(0 : Int)].foldl max 1599 < limit + 80)
    ∧ (let s := sampled 95 1; s.thermal.state = 1 ∧ [(0 : Int)].foldl max 1519 < 16 * (s.thermal.tjLimit : Int))
    ∧ (let s := sampled 95 0; (s.slot 7).stage = .waiting ∧ (s.slot 7).admitted = false
      ∧ s.louvre.starveLimit * 1600 < s.now - (s.slot 7).waitSince)
    ∧ (let s := sampled 95 0; s.louvre.holdFrom = some 0 ∧ s.now = 0 + 160000000 ∧ s.louvre.hold = true) := by decide +kernel

/-- Power-on with changes to the start-up. -/
def starting (f : StartUp → StartUp) : State := { State.reset with now := 2000000, start := f { StartUp.powerOn with refclk := true } }

theorem wit_Resets :
    (starting (fun x => { x with pwrOk := false })).start.pwrOk = false
    ∧ (State.reset.start.resetN = true ∧ State.reset.start.pwrOk = true)
    ∧ ((starting (fun x => { x with resetN := false })).start.resetN = false ∧ (starting (fun x => { x with resetN := false })).start.pwrOk = true)
    ∧ (quietDevice.accepts .portB 0x1000 0x0C [0xA5] = true ∧ quietDevice.start.resetAsked = none)
    ∧ (let s := starting (fun x => { x with resetHeld := some 1984000 }); s.start.resetHeld = some 1984000 ∧ s.now = 1984000 + 16000)
    ∧ (let s := starting (fun x => { x with resetAsked := some (1999999, 2) }); s.pending = [] ∧ s.start.resetAsked = some (1999999, 2) ∧ 2 ≤ 2)
    ∧ (let s := starting (fun x => { x with resetAsked := some (400001, 1) }); s.start.resetAsked = some (400001, 1) ∧ 400001 + 1600000 ≤ s.now + 1)
    := by decide +kernel

/-- A stack's domain waking with every domain it requires ON. -/
def training (x : StackEnt) (st : Nat) : State := { domainIs 27 { Domain.off with st := 4 } with
  mem := { MemState.reset with stackTab := [(15, x)] }, start := { StartUp.powerOn with st := st, refclk := true } }

theorem wit_StartUpSequence :
    (State.reset.start.pwrOk = true ∧ State.reset.start.resetN = true ∧ State.reset.start.resetHeld = none ∧ State.reset.start.time0 = none
      ∧ State.reset.dict.lastReset ≠ 2)
    ∧ (let s := starting (fun x => { x with time0 := some 400000 }); s.sinceZero = some 1600000 ∧ s.start.st = 0 ∧ s.start.pllLock ≠ 3)
    ∧ (∀ die ∈ [0, 1], bitOf (starting (fun x => { x with pllLock := 3 })).start.pllLock die = 1)
    ∧ quietDevice.accepts .portB 0x2200 4 (leBytes 1 3) = true
    ∧ (let s := training StackEnt.fresh 1; (s.domain (12 + 15)).st = 4 ∧ (s.domain (12 + 15)).fromRet = false ∧ s.requiredOn (12 + 15) = true
      ∧ (s.stack 15).trained = false ∧ (s.stack 15).lost = false)
    ∧ (let good := fun (failed : Nat) => (List.range 32).filter (fun pc => !(BitVec.ofNat 32 failed).getLsbD pc);
      30 ≤ (good 3).length ∧ (good 7).length < 30)
    ∧ (let s := training { StackEnt.fresh with trained := true } 1; (s.stack 15).trained = true ∧ (s.stack 15).filled = false ∧ (s.domain (12 + 15)).st = 4)
    ∧ (let s : State := { quietDevice with start := { StartUp.powerOn with st := 1 } };
      s.start.st = 1 ∧ (∀ i < 16, s.isOn (12 + i) = true) ∧ (∀ d < 34, s.isOn d = true ∧ (s.domain d).padsHeld = false))
    ∧ (let s : State := { domainIs 0 { Domain.off with st := 4 } with start := StartUp.powerOn }; s.start.st = 0 ∧ (s.domain 0).st = 4)
    ∧ (quietDevice.isOn 1 = true ∧ quietDevice.sec.identity = 0 ∧ quietDevice.flash.pufGood = true
      ∧ ({ Flash.factory with pufGood := false }).pufGood = false)
    ∧ (let s := training { StackEnt.fresh with lost := true } 1; (s.domain (12 + 15)).st = 4 ∧ (s.domain (12 + 15)).fromRet = false
      ∧ s.requiredOn (12 + 15) = true ∧ (s.stack 15).trained = false ∧ (s.stack 15).lost = true)
    ∧ (∀ r b, let s : State := { domainIs 0 { Domain.off with st := 4 } with
        start := StartUp.powerOn, flash := { Flash.factory with recordGood := r, bankGood := b } };
      s.start.st = 0 ∧ (s.domain 0).st = 4 ∧ s.flash.recordGood = r ∧ s.flash.bankGood = b) := by decide +kernel

/-- RINK at a multiple of the SYNC_OUT period. -/
def syncing (n : Option Nat) : State := { State.reset with rink := 2 ^ 24, rinkRun := true, pins := { Pins.reset with syncShiftNext := n } }

theorem wit_PinEvents : State.reset.start.pwrOk = true
    ∧ (∀ n ∈ [none, some 16], (syncing n).rinkRun = true ∧ (syncing n).rink % 2 ^ (syncing n).pins.syncShift = 0 ∧ (syncing n).pins.syncShiftNext = n)
    ∧ (∀ x ∈ [16, 40], quietDevice.accepts .portB 0x2200 7 (leBytes 1 x) = true)
    ∧ (starting (fun x => { x with resetN := false })).start.resetN = false ∧ State.reset.start.resetN = true := by decide +kernel

/-! Witnesses of the entropy source's, the keys' and the responder's statements. -/

/-- A device ON whose entropy cell 15 is as given. -/
def cellIs (c : Cell) (e : Entropy) : State := { quietDevice with now := 200000, ent := { e with st := .ready, cells := [(15, c)] } }
/-- Raw bits 01 01 …, which pass both tests, and a block of ones, which fails at bit 40. -/
def alternating : BitVec 2048 := BitVec.ofNat 2048 ((2 ^ 2048 - 1) / 3)
def ones : BitVec 2048 := BitVec.allOnes 2048

theorem wit_EntropyAndKeys_cells :
    (let s := cellIs { Cell.fresh with on := true, since := 97600 } Entropy.reset;
      s.secureRuns = true ∧ (s.cell 15).on = true ∧ (s.cell 15).st = .settling ∧ s.now = (s.cell 15).since + 102400)
    ∧ (rctScan alternating 2048 0 0 false).1 = none ∧ aptFail alternating = none
    ∧ (∀ w ∈ [2, 3], let s := cellIs { Cell.fresh with on := true, st := .warming, warm := w, since := 68928 } Entropy.reset;
      (s.cell 15).on = true ∧ (s.cell 15).st = .warming ∧ (s.cell 15).warm = w ∧ s.now = (s.cell 15).since + 131072
      ∧ (s.cell 15).run = 0 ∧ (s.cell 15).last = false)
    ∧ (∀ x ∈ [(true, true), (false, true), (false, false)],
      let s := cellIs { Cell.fresh with on := true, st := .ready, since := 68928 } { Entropy.reset with
        keyWaits := x.1, cipherWaits := x.2, pool := List.replicate 1920 0 }
      (s.cell 15).st = .ready ∧ s.ent.st = .ready ∧ s.ent.keyWaits = x.1 ∧ s.ent.cipherWaits = x.2 ∧ s.ent.pool.length ≤ 1920)
    ∧ (∀ x ∈ [(1, 197376), (2, 197440)], let s := cellIs { Cell.fresh with on := true, st := .ready, since := 194816, failRun := x.1 } Entropy.reset;
      let bit := min ((rctScan ones 2048 0 (s.cell 15).run (s.cell 15).last).1.getD 2048) ((aptFail ones).getD 2048);
      s.cellRuns (s.cell 15) = true ∧ bit = 40 ∧ (s.cell 15).since + 64 * bit = 197376 ∧ (s.cell 15).failRun = x.1) := by decide +kernel

/-- A DRBG request waits; a key install waits with n bits in reserve; a trailer's signature is being made. -/
def keyed (st : SourceState) (n : Nat) : State := { quietDevice with
  ent := { Entropy.reset with st := st, drbgQueue := [⟨0, 1, [3], [], true⟩], drbgLive := true, drbgCount := 1048575, reserve := List.replicate n 0 }
  sec := { Security.reset with installs := [1], signing := some (.trailer 1 [7], 0) }
  ports := [(1, { Port.fresh with responses := [⟨0x60, 7, 5, 0, 0, 0, [], false, true, .signing⟩] })] }

theorem wit_EntropyAndKeys_uses :
    ((keyed .ready 0).isOn 1 = true ∧ (keyed .ready 0).ent.drbgQueue = [⟨0, 1, [3], [], true⟩] ∧ (keyed .ready 0).ent.st ≠ .fatal
      ∧ (keyed .ready 0).ent.drbgLive = true ∧ (keyed .ready 0).ent.reseedWaits = false ∧ (keyed .ready 0).ent.drbgCount < 2 ^ 20)
    ∧ ((keyed .ready 0).sec.installs = [1] ∧ (keyed .ready 0).sec.installed.contains 1 = false)
    ∧ 8 ≤ (keyed .ready 8).ent.reserve.length ∧ (keyed .ready 7).ent.reserve.length < 8 ∧ (keyed .ready 7).ent.st ≠ .fatal
    ∧ (keyed .fatal 7).ent.reserve.length < 8 ∧ (keyed .fatal 7).ent.st = .fatal ∧ 1 = State.ideKey 1 0
    ∧ quietDevice.ent.drbgQueue = []
    ∧ (let s : State := { quietDevice with sec := { Security.reset with signing := some (.spdm [7], 0) } };
      s.isOn 1 = true ∧ s.sec.signing = some (.spdm [7], 0) ∧ s.now ≤ 0 + 192000)
    ∧ (let s := keyed .ready 0; s.sec.signing = some (.trailer 1 [7], 0) ∧ s.now ≤ 0 + 192000
      ∧ (s.port 1).responses = [⟨0x60, 7, 5, 0, 0, 0, [], false, true, .signing⟩]
      ∧ Response.postable ⟨0x60, 7, 5, 0, 0, 0, [], false, true, .signing⟩ = false) := by decide +kernel

/-- An endpoint of a port, in a session or before one. -/
def endpointIs (session : Bool) (identity : Nat) : State := { device .paused with
  sec := { Security.reset with
           identity := identity
           spdm := [(1, ⟨1, true, true, session, !session⟩)]
           ide := [(1, ⟨[0], []⟩)], installed := [1] }
  ent := { Entropy.reset with st := .ready } }

theorem wit_ResponderAndManagementBus :
    (∀ b : Bool, let s := endpointIs b 1; let e := s.endpoint 1;
      s.respondsAt 1 = true ∧ (1 : Nat) < 2 ∧ e.version ≠ 0 ∧ e.capsDone = true ∧ e.algsDone = true ∧ e.handshake = !b ∧ e.session = b ∧ s.sec.identity ≠ 2
      ∧ s.ent.st ≠ .fatal ∧ (s.ideKeys 1).programmed.contains 0 = true ∧ s.sec.installed.contains 1 = true)
    ∧ (endpointIs true 2).sec.identity = 2 ∧ ((endpointIs true 1).measurement 2).isSome = true ∧ ((endpointIs true 1).measurement 0x17).isSome = true
    ∧ (endpointIs true 1).measurement 0xFE = none ∧ (endpointIs true 1).sec.installed.contains (State.ideKey 1 0) = true
    ∧ (endpointIs true 1).sec.installed.contains (State.ideKey 1 4) = false ∧ (endpointIs true 1).respondsAt 2 = true
    ∧ [(0 : Byte)].head? = some 0
    ∧ (1 : BitVec 8) ≠ 0 ∧ (0xFE : BitVec 8) ≠ 0xFF ∧ (device .paused).dict.i3cAddress < 0x80
    ∧ (0x38 : BitVec 7).toNat = 0x38 + (device .paused).start.addrPins % 8 ∧ (0x39 : BitVec 7).toNat ≠ 0x38 + (device .paused).start.addrPins % 8 := by
  decide +kernel

/-! Witnesses of the Lecel ports', binding's and agreement's statements. -/

/-- A bound device of a 2 × 2 torus with its four ports as given and slot 7 running its lap, at cc and RINK t. -/
def linked (t : Nat) (x : LecelPort) (y : Slot) : State := { device .paused with
  now := t, rink := t, rinkRun := true, slots := [(7, y)]
  grid := { Grid.reset with activeRows := 80, routers := [(127, Router.fresh)] }
  link := { LinkState.reset with st := 2, rows := 2, cols := 2, aligned := true, ports := (List.range 4).map (fun p => (p, x)) } }
/-- A port UP for the course of slot 7, and that course, two frames long. -/
def upPort : LecelPort := { LecelPort.fresh with st := 2, usedBy := 7 }
def linkLap : Slot := { slotRun with info := { slotRun.info with lapFrames := 2, devRows := 1, devCols := 1 } }
/-- The clean frame of that course from the device across port 0: Lecel frame 5, captured in cycle 9 of the lap. -/
def cleanFrame (s : State) : BitVec 5140 := BitVec.ofNat 5140 ((5 <<< 5134) + (((1 <<< 121) + (2 <<< 96) + (2 <<< 94) + (1 <<< 77)
  + (State.ctagOf (s.slot 7).info <<< 61)) <<< 4992))

theorem wit_LecelPorts_capture :
    (∀ st ∈ [1, 2], let s := linked 240 { upPort with st := st } linkLap;
      s.isOn (30 + 3) = true ∧ (s.domain (30 + 3)).padsHeld = false ∧ (s.frameCount + 16) % 256 = lecelStart 0 ∧ (s.lport 3).st = st
      ∧ s.grid.deviceLost = 0 ∧ s.quarantined = false ∧ s.portLap 3 = some (7, 240) ∧ (s.lport 3).fwd = [])
    ∧ (let s := linked 490 upPort linkLap; (s.frameCount + 16) % 256 = lecelStart 49 ∧ s.portLap 3 = some (7, 490)) := by decide +kernel

theorem wit_LecelPorts_frame :
    (let s := linked 5000 { LecelPort.fresh with st := 1 } (slotIn .paused);
      s.isOn 30 = true ∧ (s.domain 30).padsHeld = false ∧ (s.lport 0).st = 1 ∧ s.link.aligned = true ∧ (s.portLap 0).isNone = true
      ∧ (∀ k ∈ List.range 8, (s.slot k).info.pairs = false))
    ∧ (let s := linked 240 upPort linkLap; let f := cleanFrame s; let h := frameHeader f;
      let start := s.frameStart (frameFrc f) (frameLfn f);
      s.portLap 0 = some (7, 240) ∧ bitOf s.grid.coverPorts 0 = 0 ∧ s.link.aligned = true ∧ s.bound = true ∧ (s.lport 0).st = 2
      ∧ hdrField h 95 94 = 2 ∧ hdrField h 127 121 * 128 + hdrField h 120 114 = s.acrossAddr 0 ∧ hdrField h 97 96 = (0 + 2) % 4
      ∧ hdrField h 113 98 = (s.genEntry (s.acrossAddr 0)).gen ∧ hdrField h 93 78 = s.pid ∧ hdrField h 77 77 = 1
      ∧ hdrField h 76 61 = State.ctagOf (s.slot 7).info ∧ hdrField h 60 13 = (s.slot 7).lapNext ∧ (s.slot 7).lastLaunch + 16 ≤ start
      ∧ start < (s.slot 7).lastLaunch + s.lapLen 7 + 16) := by decide +kernel

theorem wit_LecelPorts_events :
    (let s := linked 5000 { upPort with due := [⟨5000, 0, 1, 7⟩] } (slotIn .paused);
      (s.lport 1).due = [⟨5000, 0, 1, 7⟩] ∧ s.now = 5000 ∧ Table.has (edgePlace 1 0).1 s.grid.routers = true)
    ∧ (∀ st ∈ [1, 3], let s := linked 5000 { LecelPort.fresh with st := st, inOrder := 64 } (slotIn .paused);
      (s.lport 3).st = st ∧ s.isOn (30 + 3) = true ∧ (s.domain (30 + 3)).padsHeld = false ∧ 64 ≤ (s.lport 3).inOrder ∧ (s.lport 3).cryptLive = 0)
    ∧ (let s := linked 5000 { upPort with lastFrame := 4824 } (slotIn .paused); s.canSend 3 = true ∧ (s.lport 3).lastFrame + 176 ≤ s.now)
    ∧ (let s : State := { linked 3200000000 { LecelPort.fresh with released := some 0, st := 1 } (slotIn .paused) with
          link := { LinkState.reset with ports := [(3, { LecelPort.fresh with released := some 0, st := 1 }), (0, { LecelPort.fresh with released := some 0, st := 1 })] } }
      (s.lport 3).released = some 0 ∧ (s.lport 3).st = 1 ∧ 0 + 3200000000 ≤ s.now ∧ (s.lport ((3 + 2) % 4)).st = 0
      ∧ s.ringBinds = true ∧ s.axisClosed 3 = false ∧ (s.lport 0).released = some 0 ∧ s.axisClosed 0 = false) := by decide +kernel

/-- A device not yet bound, its ports UP, its straps and the settings of its rings. -/
def ringing (straps : Nat) (f : LinkState → LinkState) : State := { linked 160000000 upPort (slotIn .paused) with
  start := { StartUp.powerOn with st := 2, refclk := true, straps := straps }
  link := f { LinkState.reset with ports := (List.range 4).map (fun p => (p, upPort)) } }

theorem wit_RingBinding :
    (∀ straps ∈ [0, 3], let s := ringing straps id;
      s.ringBinds = true ∧ s.quarantined = false ∧ (∀ p ∈ [0, 1, 2, 3], s.canSend p = true ∧ s.axisClosed p = false
        ∧ s.headsAxis p = decide (straps = 3)) ∧ s.link.closedNS = false ∧ s.link.closedEW = false)
    ∧ (0x7F : BitVec 8).toNat < 128 ∧ 0 < (0x80 : BitVec 8).toNat ∧ (0x80 : BitVec 8).toNat ≤ 128
    ∧ (let s := ringing 0 (fun l => { l with provCol := some 5, provRow := some 6, st := 1 });
      s.ringBinds = true ∧ s.link.provCol = some 5 ∧ s.link.provRow = some 6 ∧ s.headsAxis 3 = false ∧ s.headsAxis 0 = false)
    ∧ (let s := ringing 3 (fun l => { l with countEW := some 0 }); s.headsAxis 1 = true ∧ s.link.countEW = some 0 ∧ 0 + 160000000 ≤ s.now) := by
  decide +kernel

/-- A message from the device across, in its generation. -/
def fromAcross (bcast : Bool) (bseq : BitVec 16) : Route := ⟨0, 0, 1, 0, 0, bcast, bseq, 0, 0, 0, 0, false⟩

theorem wit_JoiningAndAlignment :
    (let s := ringing 0 (fun l => { l with ports := [(3, { upPort with joinWait := some 159000000 })] });
      s.canSend 3 = true ∧ s.quarantined = false ∧ s.link.offer = none ∧ s.bound = false ∧ (s.lport 3).joinWait ≠ none)
    ∧ (let s := ringing 0 (fun l => { l with ports := [(3, { upPort with joinWait := some 158400000 })] });
      (s.lport 3).joinWait = some 158400000 ∧ 158400000 + 1600000 ≤ s.now)
    ∧ (let s := linked 5000 upPort (slotIn .paused);
      (s.canSend 3 = true ∧ s.quarantined = false ∧ (s.genEntry (fromAcross false 0).source).gen = (fromAcross false 0).sgen.toNat)
      ∧ s.bound = true ∧ s.selfAddr < 65536 ∧ s.link.gen < 65536 ∧ (∀ k ∈ List.range 8, (s.slot k).halt = [])
      ∧ (fromAcross false 0).bcast = false ∧ (fromAcross false 0).dest = s.selfAddr ∧ (fromAcross false 0).bseq = 0
      ∧ genVerdict (s.genEntry 0x83).gen 0xFFFF = .accepted ∧ s.link.aligned = true)
    ∧ (let s : State := { linked 5000 { upPort with probeTa := some 100 } (slotIn .paused) with
          rink := 120, link := { (linked 5000 { upPort with probeTa := some 100 } (slotIn .paused)).link with col := 1 } }
      let td := BitVec.ofNat 64 s.halfCount; let ta : BitVec 64 := 100; let tb : BitVec 64 := 170; let tc : BitVec 64 := 170;
      s.parentPort = some 3 ∧ (s.lport 3).probeTa = some ta ∧ s.link.aligned = true
      ∧ (((td - ta).toInt - (tc - tb).toInt + 3) / 4).toNat ≤ 160 ∧ (((tb - ta).toInt - (td - tc).toInt) / 2).natAbs < 2)
    ∧ (let s : State := { linked (2 ^ 20) upPort (slotIn .paused) with link := { (linked (2 ^ 20) upPort (slotIn .paused)).link with row := 1 } };
      s.parentPort = some 0 ∧ s.bound = true ∧ s.link.aligned = true ∧ s.canSend 0 = true ∧ (s.lport 0).syncAt + 2 ^ 20 ≤ s.now) := by
  decide +kernel

/-- The course of slot 7 over two devices, waiting for a COMMIT of its lap. -/
def joint (f : Slot → Slot) (g : LinkState → LinkState) : State :=
  let s := linked 5000 upPort (f { slotRun with stage := .waiting, info := { slotRun.info with devRows := 2, devCols := 1 } });
  { s with link := g s.link }
/-- Its tag, and a COMMIT of it 24 cc ahead. -/
def jointTag : BitVec 16 := BitVec.ofNat 16 (State.ctagOf ((joint id id).slot 7).info)
def jointCommit : Proposal := ⟨jointTag, 0, 0, 5024, 0⟩
/-- A broadcast heard and waiting for child (3, 1), and this device's own waiting for (1, 2) and (3, 1). -/
def hearing : Bcast := ⟨128, 4, 0, [(3, 1)], 5000, false, ⟨4, 1, false, false, [], 0, []⟩, .genUpdate 1 1⟩
def ownCast (l : List (Nat × Nat)) : OwnBcast := ⟨4, some 7, (0, 0, 1, 1), l, 9000, ⟨4, 1, false, false, [], 0, []⟩, .genUpdate 1 1⟩

theorem wit_AgreementAndPairs_messages :
    (let s := joint id id; let r := fromAcross true 4;
      (s.canSend 0 = true ∧ s.quarantined = false ∧ (s.genEntry r.source).gen = r.sgen.toNat)
      ∧ r.bcast = true ∧ Table.get 0 r.source s.link.lastBseq ≠ r.bseq.toNat ∧ (s.childPorts r.source r.scope (some 0)).1 = []
      ∧ s.slotOfTag (jointTag + 1).toNat = none ∧ s.grid.deviceLost = 0)
    ∧ (let s := joint id id; let r := fromAcross false 0; let q := jointCommit;
      r.bcast = false ∧ r.dest = s.selfAddr ∧ r.bseq = 0 ∧ s.slotOfTag q.ctag.toNat = some 7 ∧ s.grid.deviceLost = 0
      ∧ q.lap.toNat = (s.slot 7).lapNext ∧ (s.slot 7).stage = .waiting ∧ (s.slot 7).st = .running ∧ q.action = 0 ∧ s.rink + 24 ≤ q.count.toNat)
    ∧ (let s := joint id (fun l => { l with own := some (ownCast [(0, 128), (1, 1)]) });
      s.link.own = some (ownCast [(0, 128), (1, 1)]) ∧ (ownCast [(0, 128), (1, 1)]).bseq = (4 : BitVec 16).toNat
      ∧ (ownCast [(0, 128), (1, 1)]).waiting = [(0, 128), (1, 1)] ∧ (1 : Nat) ≠ 0)
    ∧ (let s := joint id (fun l => { l with heard := [hearing] });
      hearing.origin ≠ s.selfAddr ∧ s.link.heard = [hearing] ∧ hearing.deadline ≤ s.now ∧ s.canSend hearing.parent = true) := by
  decide +kernel

/-- A member of a pair at its boundary, or 10,240 cc later. -/
def paired (f : Slot → Slot) : State := joint (fun x => f { x with
  st := .running, stage := .idle, pairState := 1, boundaryAt := 3976, provisional := some ⟨0, 0, [], (0, [])⟩
  info := { x.info with pairs := true, devCols := 1 } }) id

theorem wit_AgreementAndPairs_pairs :
    (let s := paired (fun x => { x with pairState := 1 }); let r := fromAcross false 0;
      (s.slot 7).info.pairs = true ∧ (s.canSend 3 = true ∧ s.quarantined = false ∧ (s.genEntry r.source).gen = r.sgen.toNat)
      ∧ r.dest = s.selfAddr ∧ s.slotOfTag (State.ctagOf (s.slot 7).info) = some 7
      ∧ (BitVec.ofNat 16 (State.ctagOf (s.slot 7).info)).toNat = State.ctagOf (s.slot 7).info ∧ (s.slot 7).pairState ≠ 2
      ∧ (s.slot 7).pairIn = none ∧ (s.slot 7).pairSent = none)
    ∧ (let s := paired (fun x => { x with pairSent := some (0, 3976, [], false) });
      (s.slot 7).pairSent = some (0, 3976, [], false) ∧ 3976 + 1024 ≤ s.now ∧ s.now < (s.slot 7).boundaryAt + 10240
      ∧ (s.slot 7).pairIn = none ∧ (s.slot 7).pairState = 1 ∧ s.quarantined = false ∧ s.canSend (s.partnerPort 7) = true)
    ∧ (let s : State := { paired id with now := 14216 }; let a := s.acrossAddr (s.partnerPort 7);
      (s.slot 7).info.pairs = true ∧ (s.slot 7).pairState = 1 ∧ (s.slot 7).provisional ≠ none ∧ (s.slot 7).confirmed = false
      ∧ (s.slot 7).pairIn = none ∧ (s.slot 7).boundaryAt + 10240 ≤ s.now ∧ (s.slot 7).lostAddrs.contains a = false
      ∧ (s.onSlot 7 (fun x => { x with lostAddrs := x.lostAddrs ++ [a] })).uncoverable 7 = false) := by decide +kernel

theorem wit_CoordinatorAndLosses :
    (let s := joint (fun x => { x with reproposeAt := some 5000 }) id;
      s.quarantined = false ∧ (s.slot 7).reproposeAt = some 5000 ∧ 5000 ≤ s.rink ∧ s.coordinates 7 = true ∧ s.link.own = none
      ∧ s.link.queue = [] ∧ s.wantedAction 7 ≠ none)
    ∧ (let s : State := { joint (fun x => { x with st := .replaying, faultBoundaryAt := some 0, lostAddrs := [0], info := { x.info with deviceIndex := 1 } })
          (fun l => { l with row := 1 }) with now := 100000 }
      (s.slot 7).faultBoundaryAt = some 0 ∧ (s.slot 7).st = .replaying ∧ s.coordinates 7 = false ∧ s.nextInLine 7 = true
      ∧ 0 + 2 * s.agreeSpan 7 ≤ s.now ∧ s.link.own = none)
    ∧ (let s := joint id id; let r := fromAcross false 0;
      (s.canSend 0 = true ∧ (s.genEntry r.source).gen = r.sgen.toNat) ∧ r.bcast = false ∧ r.dest = s.selfAddr ∧ r.bseq = 0
      ∧ (0x80 : BitVec 16).toNat ≠ s.selfAddr ∧ s.slotOfTag jointTag.toNat = some 7 ∧ (s.slot 7).lostAddrs.contains (0x80 : BitVec 16).toNat = false
      ∧ (s.slot 7).info.pairs = false ∧ (s.slot 7).halt = [] ∧ (0 : BitVec 16).toNat = s.selfAddr ∧ (0 : BitVec 16).toNat = s.link.gen)
    ∧ (let s : State := { paired (fun x => { x with st := .replaying }) with now := 483976 };
      (s.slot 7).info.pairs = true ∧ (s.slot 7).st = .replaying ∧ (s.slot 7).stage = .idle ∧ (s.slot 7).boundaryAt + 480000 ≤ s.now
      ∧ s.coordinates 7 = true ∧ s.inLayout 7 128 = true ∧ 128 ≠ s.selfAddr ∧ (s.slot 7).lostAddrs.contains 128 = false ∧ (s.slot 7).halt = []) := by
  decide +kernel

/-! Further clauses of those statements. -/

/-- A message of the Porter's for port 3, urgent or not, with the far buffer's places free. -/
def posting (b : Msg) : State :=
  let s := linked 240 { upPort with freeU := 1, freeN := 1 } linkLap;
  { s with link := { s.link with outbox := [⟨3, fromAcross false 0, b, 0, false, lecelFlits (fromAcross false 0) b 0⟩] } }

theorem wit_LecelPorts_transom : ∀ b ∈ [Msg.standDown 0 0 0, Msg.dictReq ⟨1, 0x1000, 1, 9, 0, 4, []⟩], let s := posting b;
    s.isOn (30 + 3) = true ∧ (s.domain (30 + 3)).padsHeld = false ∧ (s.frameCount + 16) % 256 = lecelStart 0 ∧ s.canSend 3 = true
    ∧ (s.nextFlit 3).isSome = true ∧ (linked 240 upPort linkLap).nextFlit 3 = none := by
  decide +kernel

/-- The Lecel payload of port 3 with one page: frame 0's slot 1 out of row 0, and frame 44's slot 1 in. -/
def lecelPage : List Byte := [1, 8] ++ List.replicate 14 0 ++ [0, 0x80] ++ List.replicate 3798 0 ++ List.replicate (76 * 44) 0 ++ [0, 0x80]
def pagedLap : Slot := { linkLap with info := { linkLap.info with lecel := lecelPage } }

theorem wit_LecelPorts_page :
    (let s := linked 240 upPort pagedLap;
      (s.egressFlit 3 7 240 0 1).isSome = true ∧ (1#38).getLsbD (1 - 1) = true ∧ bitOf s.grid.coverPorts 3 = 0 ∧ s.portLap 3 = some (7, 240)
      ∧ s.grid.deviceLost = 0 ∧ s.quarantined = false ∧ (s.lport 3).st = 2)
    ∧ (let s := linked 300 { upPort with lastLfn := 43 } pagedLap;
      s.expects 3 = true ∧ s.portLap 3 = some (7, 300) ∧ bitOf s.grid.coverPorts 3 = 0) := by decide +kernel

/-- A port under a key that the frame of zeros was not sealed with. -/
theorem wit_LecelPorts_sealed : ∀ n ∈ [62, 63], let s := linked 5000 { upPort with cryptLive := 1, key := List.replicate 32 7, authRun := n } linkLap;
    s.canSend 3 = true ∧ s.opened 3 0 = none ∧ (s.lport 3).authRun = n := by decide +kernel

theorem wit_LecelPorts_slot39 : (∀ w ∈ [0, 0xE, 0xF, 0xC, 0xD], let w : BitVec 128 := BitVec.ofNat 128 (w * 2 ^ 124);
      frameSlot (lecelBits 0 0 0 [] w) 39 = w)
    ∧ (let s := linked 5000 { upPort with rxUrgent := [1] } (slotIn .paused);
      s.canSend 3 = true ∧ s.opened 3 0 = some 0 ∧ s.link.aligned = true ∧ (s.portLap 3).isNone = true ∧ (∀ k ∈ List.range 8, (s.slot k).info.pairs = false)
      ∧ (s.lport 3).rxUrgent ≠ [] ∧ hdrField (frameHeader 0) 97 96 ≠ (3 + 2) % 4 ∧ (s.lport 3).st ≠ 5)
    ∧ (linked 5000 { upPort with tooLong := true } (slotIn .paused)).canSend 3 = true
    ∧ (linked 5000 { upPort with lastFrame := 4825 } (slotIn .paused)).now < 4825 + 176 := by decide +kernel

theorem wit_RingBinding_ns :
    (let s := ringing 3 (fun l => { l with countNS := some 0 });
      s.canSend 2 = true ∧ s.headsAxis 2 = true ∧ s.axisClosed 2 = false ∧ s.link.countNS = some 0 ∧ 0 + 160000000 ≤ s.now)
    ∧ (let s := ringing 0 id; (s.genEntry noRoute.source).gen = noRoute.sgen.toNat ∧ s.quarantined = false
      ∧ s.canSend 1 = true ∧ s.canSend 2 = true)
    ∧ (128 : Nat) < (0x81 : BitVec 8).toNat ∧ (0x80 : BitVec 8).toNat = 128 := by decide +kernel

/-- A device at column 1 of its row, aligned or not, with a probe outstanding since half count 100. -/
def probing (a : Bool) (t : Nat) : State :=
  let s := linked 5000 { upPort with probeTa := some 100 } (slotIn .paused);
  { s with rink := t, link := { s.link with col := 1, aligned := a } }

theorem wit_JoiningAndAlignment_probe :
    (∀ x ∈ [(true, 120), (false, 120), (true, 500)], let s := probing x.1 x.2;
      let td := s.rxStart 3 (fromAcross false 0) (.rinkSync 1 100 170 170);
      s.parentPort = some 3 ∧ (s.lport 3).probeTa = some 100 ∧ s.link.aligned = x.1 ∧ s.canSend 3 = true
      ∧ decide (160 < (((td - 100).toInt - (170 - 170 : BitVec 64).toInt + 3) / 4).toNat) = decide (x.2 = 500))
    ∧ (let s := probing true 120; let td := s.rxStart 3 (fromAcross false 0) (.rinkSync 1 100 190 190);
      2 ≤ (((190 - 100 : BitVec 64).toInt - (td - 190).toInt) / 2).natAbs ∧ (((td - 100).toInt - (0 : BitVec 64).toInt + 3) / 4).toNat ≤ 160)
    ∧ (let s := linked 5000 upPort (slotIn .paused); let r : Route := { fromAcross false 0 with dcol := 1 };
      r.dest ≠ s.selfAddr ∧ (s.portTowards r.dest).isSome = true ∧ (∀ q ∈ [0, 1, 2, 3], s.canSend q = true)
      ∧ (1 : BitVec 16).toNat ≠ s.selfAddr) := by decide +kernel

theorem wit_AgreementAndPairs_commits :
    (let s := joint id (fun l => { l with delivery := List.replicate 16 (.genUpdate 1 1) });
      16 ≤ (s.link.delivery.drop 0).length ∧ (s.link.delivery.drop 1).length < 16)
    ∧ (let s := joint id id; s.slotOfTag jointTag.toNat = some 7 ∧ (5023 : BitVec 64).toNat < s.rink + 24 ∧ (s.slot 7).halt = []) := by
  decide +kernel

theorem wit_AgreementAndPairs_compared : ∀ x ∈ [(0, true, false), (1, true, false), (1, false, true), (1, true, true)],
    let s := paired (fun y => { y with pairSent := some (0, 3976, [1], x.2.1), pairMiss := x.1, lapNext := 1 });
    (s.slot 7).pairSent = some (0, 3976, [1], x.2.1) ∧ (s.slot 7).provisional = some ⟨0, 0, [], (0, [])⟩ ∧ (s.slot 7).confirmed = false
    ∧ 0 = (s.slot 7).lapNext - 1 ∧ (s.slot 7).halt = [] ∧ s.grid.failing = [] ∧ s.grid.plan = none ∧ s.grid.unsettled = false
    ∧ s.mem.failing = [] ∧ s.mem.losing = [] ∧ (s.slot 7).pairMiss = x.1 ∧ (s.slot 7).pairEvidence = (false, false) := by
  decide +kernel

/-! Witnesses of the statements about every step. -/

theorem wit_StepKeepsSound : Sound State.reset ∧ ∃ t, step State.reset = .next t := by
  refine ⟨⟨rfl, ⟨rfl, fun c h => absurd h (by simp [State.reset, Grid.reset])⟩, fun h => absurd h (by decide), rfl⟩, ⟨_, rfl⟩⟩

theorem wit_BinaryNarrowing : (Rnd.rne = .rne ∨ Rnd.rne = .rtz) ∧ (Rnd.rtz = .rne ∨ Rnd.rtz = .rtz) ∧ (65535 : Nat) < 65536 := by decide

/-! Results worked out in the manual's examples. -/

/-- FP32 words of 6.5, 2.375 and −0.375 ("Number formats", worked example: narrowing one TELEMARK weight block). -/
def products : List (BitVec 32) := [0x40D00000, 0x40180000, 0xBEC00000]

/-- To nearest: 6, 2 and −0.5 in E2M1 (R111, worked example of "Number formats"). -/
theorem test_narrow_nearest : products.map (fun v => (narrow 7 .rne (fp32 v)).1) = [0x7, 0x4, 0x9] := by decide +kernel

/-- Stochastic with u = 20,480: 6, 3 and −0.5 (R115, the same example). -/
theorem test_narrow_stochastic : products.map (fun v => (narrow 7 (.sr 16 20480) (fp32 v)).1) = [0x7, 0x5, 0x9] := by decide +kernel

/-- CVTN_SR packs them as 0x957 and leaves what follows +0 (the same example). -/
theorem test_cvtnSr_packs : packedLanes 4 (fun i => (narrow 7 (.sr 16 20480) (fp32 (products.getD i 0))).1) = 0x957 := by decide +kernel

/-- The block scale of a block whose largest magnitude is 0.8125 is 124 (R94, the same example). -/
theorem test_vscale_example : (vscale 7 ((0x3F500000 :: 0x3E980000 :: 0xBD400000 :: List.replicate 29 (0 : BitVec 32)).map fp32)).1 = 0x7C := by
  decide +kernel

/-- The counter words of element 0xA50 at lap 100,000, draw 0, from x0 up ("CARVE-128 random streams", worked example). -/
theorem test_carve_counter : carveCtr 100000 0xA50 0 = (0x00000001_86A00000_0000000A_50000000 : BitVec 128) := by
  decide +kernel

/-- A response of 66,048 bytes at RETURN_TAIL 132,224 of a return area of 196,608 takes a PAD of 64,384 ("Host interface",
worked example). -/
theorem test_response_pad : ({ Port.fresh with returnSize := 196608, returnTail := 132224, returnHead := 66176 }).padFor 66048 = 64384
    ∧ ({ Port.fresh with returnSize := 196608, returnTail := 132224, returnHead := 66176 }).hasRoom 66048 = true
    ∧ ({ Port.fresh with returnSize := 196608, returnTail := 132224, returnHead := 128 }).hasRoom 66048 = false := by decide +kernel

/-- What one command leaves. -/
def after (c : Instr) (s : State) : State := match exec c s with | .next t => t | _ => s

/-- HBM_03 with pseudo-channel 5 failed before and 20 failing now: slices 94, 95, 108 and 109 stand at 100, 102, 115 and 117,
with no standby left ("Start-up and reset", worked example). -/
def shortStack : State := { quietDevice with
  start := { StartUp.powerOn with st := 1, refclk := true }
  power := { Power.reset with domains := Table.put 15 { Domain.off with st := 4 } quietDevice.power.domains }
  flash := { Flash.factory with pcFailed := [(3, 0x20)] } }

theorem test_training_example : let t := after (.hbmTrainingComplete 3 0x100000) shortStack;
    ([90, 94, 95, 108, 109, 119].map (fun j => (t.sliceEnt j).phys) = [96, 100, 102, 115, 117, 127])
    ∧ (t.stack 3).standby = [] ∧ (t.stack 3).failed = 0x100020 ∧ (t.stack 3).lost = false := by decide +kernel

/-- Sources 0x082 and 0x092 at priority 4, both stamped 0xFFFFFF00: CLAIM takes the lower number ("Interrupts and the
Logbook", worked example). -/
def nested : State := { device .paused with irq := { Irq.reset with
  sources := [(0x82, { Source.fresh with enable := true, target := 1, prio := 4, pending := true, stamp := 0x2FFFFFF00 }),
              (0x92, { Source.fresh with enable := true, target := 1, prio := 4, pending := true, stamp := 0x2FFFFFF00 })] } }

theorem test_claim_example : let t := after (.claim .portB 1) nested;
    t.dict.answer = some ⟨0, leBytes 8 0x84000082FFFFFF00⟩ ∧ (t.target 1).run = some 4
    ∧ (after (.eoi .portB 1 0x92) t).dict.answer = some ⟨0x15, []⟩ := by decide +kernel

/-- The Porter's target is claimed by the Porter's firmware, and by no port (R490). -/
theorem test_claim_porter : (after (.claim .portB 2) interrupting).dict.answer = some ⟨0x404, []⟩
    ∧ (after (.claim .porter 2) interrupting).dict.answer = some ⟨0, leBytes 8 0x8F0002FF00000000⟩ := by decide +kernel

/-- Integer lanes wrap (R69), and the first trap of a cycle stands (R85). -/
theorem test_iadd_wraps : ((after (.iadd 0 ⟨0, 1, 2, 2, 0⟩ false) (lapAt 0 { coreAt 0 (vxWord 10 0x8840) with v := [(2, 0xFFFFFFFF)] } Router.fresh)).core 0).inflight
    = [⟨0, 0, 4, true, .wV 1 allLanes 0xFFFFFFFE⟩] := by decide +kernel

/-- A write to STRICT_LOCK keeps the later clearing of STRICT out (R311). -/
theorem test_strictLock_holds : (after (.strict .portB 0) (after (.strictLock .portB 1)
    { drawing true false 0 with slots := [] })).det.strict = true := by decide +kernel

end Sys2Proof.Tests
end

/-! PROOFS of the family 01_organisation: start-up, the state at power-on, and the remedies of failed sites. -/

/-! The state after a power-on reset (O55): a table that lists nothing reads as its default. -/
namespace Sys2Proof.Machine
open State

/-- Every domain but AON is OFF until its first wake (R456). -/
theorem State.domainDefault_st (d : Nat) : (State.domainDefault d).st = 2 := by
  unfold State.domainDefault
  split <;> rfl

/-- Only the MOGUL domains are asked to stay OFF (R481). -/
theorem State.domainDefault_req (d : Nat) : (State.domainDefault d).req = if d < 34 then 0 else 2 := by
  unfold State.domainDefault
  by_cases h : d < 34
  · rw [if_neg (by omega), if_pos h]; rfl
  · rw [if_pos (by omega), if_neg h]

/-- No source is pending or active, the one listed for its priority included (R484). -/
theorem State.source_reset_quiet (n : Nat) : (State.reset.source n).pending = false ∧ (State.reset.source n).active = false := by
  rcases Table.get_or Source.fresh n Irq.reset.sources with h | h
  · rw [State.source, State.reset, h]; exact ⟨rfl, rfl⟩
  · rw [State.source, State.reset, (Prod.mk.inj (List.mem_singleton.mp h)).2]; exact ⟨rfl, rfl⟩

/-- Settles O55: the domains and the sources by the lemmas above, every other object by its value in the reset state. -/
theorem powerOnResetState : Obligations.PowerOnResetState :=
  ⟨sound_reset, rfl, fun _ => rfl, fun d _ => domainDefault_st d, fun d _ => domainDefault_req d, rfl, rfl, rfl, rfl, rfl,
    rfl, rfl, rfl, rfl, rfl, rfl, rfl, fun _ => rfl, rfl, rfl, rfl, source_reset_quiet, rfl⟩

/-! The identity key (O45): when the PUF array cannot be corrected, the signatures that wait are answered and wait no longer
(R532), so that more than IDENTITY_STATE changes. -/

/-- A signature goes to a port's response, not to the key block. -/
theorem State.giveSignature_sec (s : State) (p : Nat) (bytes : List Byte) : (s.giveSignature p bytes).sec = s.sec := by
  unfold State.giveSignature
  split <;> rfl

/-- The answer to a signature that cannot be made changes nothing of the key block. -/
theorem State.dropSignature_sec (s : State) (j : SigJob) : (s.dropSignature j).sec = s.sec := by
  cases j with
  | trailer p m => exact giveSignature_sec ..
  | spdm m => rfl

theorem State.foldl_dropSignature_sec (l : List SigJob) (s : State) : (l.foldl dropSignature s).sec = s.sec := by
  induction l generalizing s with
  | nil => rfl
  | cons j l ih => exact (ih _).trans (dropSignature_sec s j)

/-- After a derivation that fails the device has no identity, and no signature waits (R532). -/
theorem State.deriveIdentity_sec_of_bad_puf {s : State} (hon : s.isOn 1 = true) (hid : s.sec.identity = 0)
    (hpuf : s.flash.pufGood = false) : s.deriveIdentity.sec = { s.sec with identity := 2, sigQueue := [] } := by
  simp [State.deriveIdentity, hon, hid, hpuf, foldl_dropSignature_sec]

/-- SECURE is ON, the PUF array is beyond correction, and an SPDM answer waits for its signature. -/
def awaitingSignature : State := { State.reset with
  power := { Power.reset with domains := [(1, { Domain.off with st := 0 })] }
  flash := { Flash.factory with pufGood := false }
  sec := { Security.reset with sigQueue := [.spdm []] } }

/-- Refutes O45: its last clause has a failed derivation change IDENTITY_STATE alone, but the signatures that wait are answered
with it (R532), and the queue of `awaitingSignature` does not stay as it was. -/
theorem not_startUpSequence : ¬ Obligations.StartUpSequence := by
  intro h
  obtain ⟨-, -, -, -, -, -, -, -, -, -, hident⟩ := h awaitingSignature
  have hexec := (hident rfl rfl).2 rfl
  have hsec : awaitingSignature.deriveIdentity.sec = { awaitingSignature.sec with identity := 2 } :=
    congrArg State.sec (Host.Outcome.next.inj hexec)
  have hqueue : ([] : List SigJob) = [.spdm []] := by
    rw [deriveIdentity_sec_of_bad_puf rfl rfl rfl] at hsec
    exact congrArg Security.sigQueue hsec
  exact List.cons_ne_nil _ _ hqueue.symm

end Sys2Proof.Machine

/-! What leaves the grid, HBM and flash alone: signals, responses, and going on from a boundary (R290, R292, R485). -/
namespace Sys2Proof.Machine
open State

/-- A vector that is sent, or stays pending, changes its host port alone (R392, R491). -/
theorem State.msix_eq (s : State) (p v : Nat) : ∃ ports, s.msix p v = { s with ports := ports } := by
  unfold State.msix
  extract_lets q e
  split
  · exact ⟨s.ports, rfl⟩
  · split <;> exact ⟨_, rfl⟩

/-- r once target t's host has been signalled, when its first deliverable priority has risen from old to s (R491). -/
def State.signalled (old s : State) (t : Nat) (r : State) : State :=
  match s.bestPrio t with
  | some p => if ranksAbove (some p) (old.bestPrio t) then r.msix t (3 + p) else r
  | none => r

theorem State.signalled_eq (old s : State) (t : Nat) (r : State) : ∃ ports, signalled old s t r = { r with ports := ports } := by
  unfold State.signalled
  split
  · split
    · exact r.msix_eq ..
    · exact ⟨r.ports, rfl⟩
  · exact ⟨r.ports, rfl⟩

/-- Signalling changes host ports, ALERT and its pin alone (R491, R493). -/
theorem State.irqUpdate_eq (old s : State) :
    ∃ ports irq pins, irqUpdate old s = { s with ports := ports, irq := irq, pins := pins } := by
  have e : irqUpdate old s = (signalled old s 1 (signalled old s 0 s)).alertUpdate := rfl
  obtain ⟨p0, h0⟩ := signalled_eq old s 0 s
  obtain ⟨p1, h1⟩ := signalled_eq old s 1 (signalled old s 0 s)
  rw [e, h1, h0]
  exact ⟨p1, _, _, rfl⟩

/-- A source that fires changes the sources, host ports, ALERT and its pin, and the Logbook's counts (R485). -/
theorem State.fire_eq (s : State) (n : Nat) :
    ∃ ports irq pins log, s.fire n = { s with ports := ports, irq := irq, pins := pins, log := log } := by
  unfold State.fire
  split
  · exact ⟨_, _, _, _, rfl⟩
  · unfold State.onSource
    extract_lets f u
    obtain ⟨p, i, q, h⟩ := irqUpdate_eq s u
    exact ⟨p, i, q, _, by rw [h]; rfl⟩

/-- A response goes to host ports alone (R384, R391). -/
theorem State.answerTicket_eq (s : State) (t : Ticket) (opcode slot status value0 value1 : Nat) (payload : List Byte)
    (async : Bool) : ∃ ports, s.answerTicket t opcode slot status value0 value1 payload async = { s with ports := ports } := by
  have hresp : ∀ r, ∃ ports, s.respond t.port r = { s with ports := ports } := fun r => by
    unfold State.respond
    split <;> exact ⟨_, rfl⟩
  unfold State.answerTicket
  extract_lets u
  obtain ⟨p, hp⟩ := hresp ⟨opcode, slot, t.tag, status, value0, value1, payload, t.quiet, !async, .none⟩
  rw [show u = _ from hp]
  split <;> exact ⟨_, rfl⟩

/-- From s to t grid, memory and flash stand, and so does what f reads of each slot. -/
structure Stands {α : Type} (f : Slot → α) (s t : State) : Prop where
  grid : t.grid = s.grid
  mem : t.mem = s.mem
  flash : t.flash = s.flash
  slot : ∀ j, f (t.slot j) = f (s.slot j)

namespace Stands
variable {α : Type} {f : Slot → α}

theorem refl (s : State) : Stands f s s := ⟨rfl, rfl, rfl, fun _ => rfl⟩

theorem trans {s t u : State} (h : Stands f s t) (h' : Stands f t u) : Stands f s u :=
  ⟨h'.grid.trans h.grid, h'.mem.trans h.mem, h'.flash.trans h.flash, fun j => (h'.slot j).trans (h.slot j)⟩

/-- A change of slot k that f does not read, after what stands. -/
theorem onSlot {s u : State} {k : Nat} {g : Slot → Slot} (h : Stands f s u) (hg : f (g (u.slot k)) = f (u.slot k)) :
    Stands f s (u.onSlot k g) :=
  h.trans ⟨rfl, rfl, rfl, fun j => by
    rw [slot_onSlot_if]
    split
    · subst j; exact hg
    · rfl⟩

theorem fire (s : State) (n : Nat) : Stands f s (s.fire n) := by
  obtain ⟨_, _, _, _, e⟩ := s.fire_eq n
  rw [e]
  exact ⟨rfl, rfl, rfl, fun _ => rfl⟩

end Stands

/-- What decides whether a slot goes on by itself at its boundary: its course's layout, the devices lost from it and the halts
that wait; and the reloads that are due. -/
def Slot.standing (x : Slot) : (CourseInfo × List Nat × List (Ticket × Bool)) × List Nat := ((x.info, x.lostAddrs, x.halt), x.reloads)

/-- The slot's next launch is its own affair: no halt waits, and no other device shares its course (R291, R432). -/
def State.Alone (s : State) (k : Nat) : Prop := (s.slot k).halt = [] ∧ s.multi k = false

theorem State.multi_congr {s t : State} {k : Nat} (hi : (t.slot k).info = (s.slot k).info)
    (hl : (t.slot k).lostAddrs = (s.slot k).lostAddrs) : t.multi k = s.multi k := by
  unfold State.multi
  rw [hi, hl]

/-- A slot that is alone stays so while its layout, its lost devices and its halts stand. -/
theorem State.Alone.of_eq {s t : State} {k : Nat} (h : s.Alone k) (e : (t.slot k).standing.1 = (s.slot k).standing.1) : t.Alone k := by
  obtain ⟨hi, hl, hh⟩ : (t.slot k).info = (s.slot k).info ∧ (t.slot k).lostAddrs = (s.slot k).lostAddrs
      ∧ (t.slot k).halt = (s.slot k).halt := by simpa [Slot.standing] using e
  exact ⟨hh.trans h.1, (multi_congr hi hl).trans h.2⟩

theorem Stands.alone {s t : State} (h : Stands Slot.standing s t) {k : Nat} (hk : s.Alone k) : t.Alone k :=
  hk.of_eq (congrArg Prod.fst (h.slot k))

theorem Stands.halt {s t : State} (h : Stands Slot.standing s t) (k : Nat) : (t.slot k).halt = (s.slot k).halt :=
  congrArg (fun x => x.1.2.2) (h.slot k)

theorem State.stands_refund (s : State) (k : Nat) : Stands Slot.standing s (s.refund k) := by
  unfold State.refund
  split
  · exact .onSlot ⟨rfl, rfl, rfl, fun _ => rfl⟩ rfl
  · exact .refl s

theorem State.stands_endRunResponse (s : State) (k status : Nat) : Stands Slot.standing s (s.endRunResponse k status) := by
  unfold State.endRunResponse
  split
  · exact .refl s
  · next t _ =>
    obtain ⟨p, e⟩ := s.answerTicket_eq t 0x30 k status (s.slot k).lapNext 0 [] true
    rw [e]
    exact .onSlot ⟨rfl, rfl, rfl, fun _ => rfl⟩ rfl

theorem State.stands_answerHalts {s : State} {k : Nat} (status : Nat) (h : (s.slot k).halt = []) :
    Stands Slot.standing s (s.answerHalts k status) := by
  unfold State.answerHalts
  rw [h]
  exact .onSlot (.refl s) (by simp [Slot.standing, h])

/-- A slot that pauses with no halt waiting is not released (R290). -/
theorem State.stands_pauseSlot {s : State} {k : Nat} (counted : Bool) (h : (s.slot k).halt = []) :
    Stands Slot.standing s (s.pauseSlot k counted) := by
  have paused := ((s.stands_refund k).onSlot (k := k) (g := fun x => { x with
    st := .paused, stage := .idle, attempt := .first, lapsLeft := 0, waitSince := 0 }) rfl).trans (.fire _ (0x80 + 16 * k + 1))
  have answered := paused.trans (stands_answerHalts stPAUSED ((paused.halt k).trans h))
  have ended := answered.trans (stands_endRunResponse _ k (if counted then stOK else stPAUSED))
  have released : ∀ u : State, u.releaseFor k (s.slot k).halt = u := fun u => by rw [h]; rfl
  unfold State.pauseSlot
  extract_lets l u
  exact (released _).symm ▸ ended

/-- Going on from the boundary of a slot that is alone: it pauses, or asks for its next launch (R292). -/
theorem State.stands_resume {s : State} {k : Nat} (h : s.Alone k) : Stands Slot.standing s (s.resume k) := by
  obtain ⟨hh, hm⟩ := h
  simp only [State.resume, hh, hm, List.isEmpty_nil, Bool.not_true, Bool.and_false, Bool.false_and, Bool.false_eq_true, if_false]
  split
  · exact .refl s
  · split
    · exact stands_pauseSlot true hh
    · split
      · exact .refl s
      · exact .onSlot (.refl s) rfl

theorem State.stands_resumeAll {s : State} (h : ∀ k < 8, s.Alone k) : Stands Slot.standing s s.resumeAll := by
  have each : ∀ (l : List Nat) (u : State), (∀ k ∈ l, u.Alone k) → Stands Slot.standing u (l.foldl resume u) := by
    intro l
    induction l with
    | nil => exact fun u _ => .refl u
    | cons k l ih =>
      intro u hu
      have hk := stands_resume (hu k (List.mem_cons_self ..))
      exact hk.trans (ih _ fun j hj => hk.alone (hu j (List.mem_cons_of_mem _ hj)))
  exact each _ s fun k hk => h k (List.mem_range.mp hk)

end Sys2Proof.Machine

/-! STAGE, gate tables and reloads (R210, R225, R234, R510, R511). -/
namespace Sys2Proof.Machine
open State

@[simp] theorem State.site_setSite_self (s : State) (n : Nat) (x : Site) : (s.setSite n x).site n = x := Table.get_put_self ..

@[simp] theorem State.site_setSite_ne (s : State) {n q : Nat} (h : q ≠ n) (x : Site) : (s.setSite n x).site q = s.site q :=
  Table.get_put_ne _ h ..

/-- From s to t the router of a site has kept the values of STAGE message g: they stand at its site, nothing changes at another,
and the message is marked (R234). -/
structure StageKept (s t : State) (g : StageMsg) : Prop where
  staged : (t.site g.site).staged = some (g.fence, g.bypass, g.nsteer, g.ssteer)
  others : ∀ q, q ≠ g.site → t.site q = s.site q
  stages : t.grid.stages = s.grid.stages.map (fun (h : StageMsg) => if h == g then { h with applied := true } else h)
  cores : t.grid.cores = s.grid.cores
  slots : t.slots = s.slots
  mem : t.mem = s.mem

theorem State.stageKept_keepStage (s : State) (g : StageMsg) : StageKept s (s.keepStage g) g where
  staged := by unfold State.keepStage; rw [site_setSite_self]
  others q hq := by unfold State.keepStage; rw [site_setSite_ne _ hq]; rfl
  stages := rfl
  cores := rfl
  slots := rfl
  mem := rfl

/-- The flits of the channel, before and after, are no part of that. -/
theorem State.stageKept_setTransom (s : State) (g : StageMsg) (tr tr' : Transom) :
    StageKept s (((s.setTransom tr).keepStage g).setTransom tr') g := by
  obtain ⟨staged, others, stages, cores, slots, mem⟩ := stageKept_keepStage (s.setTransom tr) g
  exact ⟨staged, others, stages, cores, slots, mem⟩

/-- A STAGE message that is the one for a site carries that site's values. -/
theorem State.isStage_iff {site : Nat} {fence bypass : Bool} {n m : Int} {g : StageMsg} :
    State.isStage site fence bypass n m g = true
      ↔ g.site = site ∧ g.fence = fence ∧ g.bypass = bypass ∧ g.nsteer = n ∧ g.ssteer = m := by
  simp [State.isStage, and_assoc]

/-- STAGE reaches the router of a site without a core directly (assumption 34). -/
theorem State.stageSite_of_no_core {s : State} {site : Nat} {fence bypass : Bool} {n m : Int} {g : StageMsg}
    (hg : s.grid.stages.find? (State.isStage site fence bypass n m) = some g) (hc : s.coreAt site = none) :
    s.stageSite site fence bypass n m = s.keepStage g := by
  simp only [State.stageSite, hg, hc]

/-- STAGE leaves the channel at the router of the core that its site carries, which acknowledges it (R234). -/
theorem State.stageSite_of_core {s : State} {site c : Nat} {fence bypass : Bool} {n m : Int} {g : StageMsg}
    {l : List (BitVec 120)} {tr : Transom}
    (hg : s.grid.stages.find? (State.isStage site fence bypass n m) = some g) (hc : s.coreAt site = some c)
    (ht : s.grid.transom.takeAt c (State.isMessage tySTAGE destPorter g.seq) = some (l, tr)) :
    s.stageSite site fence bypass n m
      = ((s.setTransom tr).keepStage g).setTransom (tr.inject c (headerFlit destPorter c tySTAGE_ACK 1 g.seq 0) []) := by
  simp only [State.stageSite, hg, hc, ht]
  rfl

/-- The acknowledgement of a router without a core reaches the Porter directly (assumption 34). -/
theorem State.ackStage_of_no_core {s : State} {site : Nat} {g : StageMsg}
    (hg : s.grid.stages.find? (fun h => h.site == site && h.applied) = some g) (hc : s.coreAt site = none) :
    s.ackStage site = s.endStage g := by
  simp only [State.ackStage, hg, hc]

/-- The acknowledgement of a core's router leaves the channel at the Porter (R234). -/
theorem State.ackStage_of_core {s : State} {site c : Nat} {g : StageMsg} {l : List (BitVec 120)} {tr : Transom}
    (hg : s.grid.stages.find? (fun h => h.site == site && h.applied) = some g) (hc : s.coreAt site = some c)
    (ht : s.grid.transom.takePorter (State.isMessage tySTAGE_ACK c g.seq) = some (l, tr)) :
    s.ackStage site = (s.setTransom tr).endStage g := by
  simp only [State.ackStage, hg, hc, ht]

/-- While other STAGE messages are out, an acknowledgement only takes its own off the list (R234). -/
theorem State.endStage_of_more {s : State} {g : StageMsg} (h : s.grid.stages.filter (fun h => h.site != g.site) ≠ []) :
    s.endStage g = { s with grid := { s.grid with stages := s.grid.stages.filter (fun h => h.site != g.site) } } := by
  unfold State.endStage State.driveCommit
  split
  · rfl
  · simp [List.isEmpty_eq_false_iff.mpr h]

/-- COMMIT is driven once no STAGE is out, none is on its way, and the slots it names stand between laps (R234). -/
theorem State.driveCommit_of_ready {s : State} {p : SitePlan} (hs : s.grid.stages = []) (hc : s.grid.commit = none)
    (hp : s.grid.plan = some p) (hk : ∀ k ∈ State.planSlots p, s.betweenLaps k = true) :
    s.driveCommit = { s with grid := { s.grid with commit := some (s.now + 1, State.slotMask (State.planSlots p)) } } := by
  simp only [State.driveCommit, hp, hs, hc, List.isEmpty_nil, Option.isNone_none, Bool.and_self,
    List.all_eq_true.mpr hk, if_true]

/-- The last acknowledgement has COMMIT driven in the next cycle (R234, R511). -/
theorem State.endStage_of_last {s : State} {g : StageMsg} {p : SitePlan}
    (h : s.grid.stages.filter (fun h => h.site != g.site) = []) (hc : s.grid.commit = none) (hp : s.grid.plan = some p)
    (hk : ∀ k ∈ State.planSlots p, s.betweenLaps k = true) :
    s.endStage g = { s with grid := { s.grid with stages := [], commit := some (s.now + 1, State.slotMask (State.planSlots p)) } } := by
  unfold State.endStage
  rw [h]
  exact driveCommit_of_ready rfl hc hp hk

/-- What an acknowledgement that has reached the Porter, leaving the channel as tr, does to the messages that are out: the last
one has COMMIT driven (R225, R234, R511). -/
theorem State.exec_stageAck {s : State} {site : Nat} {g : StageMsg} {tr : Transom} (hs : g.site = site)
    (e : s.ackStage site = (s.setTransom tr).endStage g) :
    let rest := s.grid.stages.filter (fun h => h.site != site)
    (rest ≠ [] → exec (.stageAck site) s = .next { s with grid := { s.grid with transom := tr, stages := rest } })
      ∧ (∀ p, rest = [] → s.grid.commit = none → s.grid.plan = some p → (∀ k ∈ State.planSlots p, s.betweenLaps k = true) →
        exec (.stageAck site) s = .next { s with grid := { s.grid with
          transom := tr, stages := [], commit := some (s.now + 1, State.slotMask (State.planSlots p)) } }) := by
  subst hs
  have hexec : exec (.stageAck g.site) s = .next ((s.setTransom tr).endStage g) := congrArg Host.Outcome.next e
  exact ⟨fun h => hexec.trans (congrArg _ (endStage_of_more (s := s.setTransom tr) h)),
    fun p h hc hp hk => hexec.trans (congrArg _ (endStage_of_last (s := s.setTransom tr) h hc hp hk))⟩

/-! Gate tables (R210, R225). -/

/-- The entries that loading puts from position first + i on: an entry outside them stands. -/
theorem Table.get_foldl_put_out {α β : Type} (d : β) (f : α → β) (first : Nat) {e : Nat} (l : List α) (i : Nat) (t : Table β)
    (h : e < first + i ∨ first + i + l.length ≤ e) :
    Table.get d e ((l.zipIdx i).foldl (fun t x => Table.put (first + x.2) (f x.1) t) t) = Table.get d e t := by
  induction l generalizing i t with
  | nil => rfl
  | cons a l ih =>
    rw [List.length_cons] at h
    rw [List.zipIdx_cons, List.foldl_cons, ih (i + 1) _ (by omega), Table.get_put_ne _ (by omega)]

/-- The entries that loading puts from position first + i on: each stands at its place. -/
theorem Table.get_foldl_put_in {α β : Type} (d : β) (f : α → β) (first : Nat) (l : List α) (i : Nat) (t : Table β) (j : Nat)
    (h : j < l.length) :
    Table.get d (first + i + j) ((l.zipIdx i).foldl (fun t x => Table.put (first + x.2) (f x.1) t) t) = f l[j] := by
  induction l generalizing i t j with
  | nil => exact absurd h (Nat.not_lt_zero j)
  | cons a l ih =>
    rw [List.zipIdx_cons, List.foldl_cons]
    cases j with
    | zero => rw [Nat.add_zero, Table.get_foldl_put_out d f first l (i + 1) _ (by omega), Table.get_put_self]; rfl
    | succ j =>
      rw [show first + i + (j + 1) = first + (i + 1) + j by omega, ih (i + 1) _ j (Nat.lt_of_succ_lt_succ h)]
      rfl

/-- The gate table of a router that has taken entries from position first on. -/
def Router.loaded (r : Router) (first : Nat) (l : List (BitVec 128)) : Router :=
  { r with table := l.zipIdx.foldl (fun t e => Table.put (first + e.2) (rsWord e.1) t) r.table }

theorem Router.loaded_in (r : Router) (first : Nat) (l : List (BitVec 128)) (i : Nat) (h : i < l.length) :
    Table.get 0 (first + i) (r.loaded first l).table = rsWord l[i] :=
  Table.get_foldl_put_in 0 rsWord first l 0 r.table i h

theorem Router.loaded_out (r : Router) {first e : Nat} {l : List (BitVec 128)} (h : e < first ∨ first + l.length ≤ e) :
    Table.get 0 e (r.loaded first l).table = Table.get 0 e r.table :=
  Table.get_foldl_put_out 0 rsWord first l 0 r.table h

/-- A GATE_LOAD of the Porter's that comes between laps and fits the table lands (R225). -/
theorem State.loadGates_of_gateLoad {s : State} {n first : Nat} {h : BitVec 120} {l : List (BitVec 128)}
    (hh : State.isGateLoad n h = true) (hn : Table.has n s.grid.routers = true) (ho : s.attemptOpen (s.router n).slot = false)
    (hl : first + l.length ≤ 512) : s.loadGates n h first l = s.setRouter n ((s.router n).loaded first l) := by
  simp [State.loadGates, hh, hn, ho, Nat.not_lt.mpr hl, Router.loaded]

/-- Any other header carries no gate entries to this router (R225). -/
theorem State.loadGates_of_other {s : State} {n first : Nat} {h : BitVec 120} {l : List (BitVec 128)}
    (hh : State.isGateLoad n h = false) : s.loadGates n h first l = s := by
  simp [State.loadGates, hh]

/-! Reloads (R278, R510, R511). -/

/-- Core n as its golden record in HBM has it. -/
def State.goldenCore (s : State) (n : Nat) : Core :=
  let c := s.core n
  { c with
    data := Memory.ofBytes 0 (s.runBytes c.golden 0 c.dtop)
    instr := Memory.ofBytes 0 (s.runBytes c.golden c.dtop (16 * c.itop))
    windows := wordTable 64 8 (s.runBytes c.golden (c.dtop + 16 * c.itop) 384) }

/-- Router n with the gate table of its core's golden record, each entry with its check bytes. -/
def State.goldenRouter (s : State) (n : Nat) : Router :=
  let c := s.core n
  { s.router n with
    table := List.map (fun x => (x.1, rsWord x.2))
      (wordTable 128 16 (s.runBytes c.golden (c.dtop + 16 * c.itop + 384) (16 * c.gateCount))) }

theorem State.reloadCore_eq (s : State) (n : Nat) :
    s.reloadCore n = (s.setCore n (s.goldenCore n)).setRouter n (s.goldenRouter n) := rfl

theorem State.core_reloadCore (s : State) (m n : Nat) : (s.reloadCore m).core n = if n = m then s.goldenCore m else s.core n := by
  rw [reloadCore_eq, core_setRouter]
  split
  · subst n; exact core_setCore_self ..
  · exact core_setCore_ne s ‹_› _

theorem State.router_reloadCore (s : State) (m n : Nat) :
    (s.reloadCore m).router n = if n = m then s.goldenRouter m else s.router n := by
  rw [reloadCore_eq]
  split
  · subst n; exact router_setRouter_self ..
  · rw [router_setRouter_ne _ ‹_›, router_setCore]

/-- A reload leaves what a golden record is read by: a second one gives the same. -/
theorem State.goldenCore_reloadCore (s : State) (m n : Nat) : (s.reloadCore m).goldenCore n = s.goldenCore n := by
  unfold State.goldenCore
  rw [core_reloadCore]
  split
  · subst n; rfl
  · rfl

theorem State.goldenRouter_reloadCore (s : State) (m n : Nat) : (s.reloadCore m).goldenRouter n = s.goldenRouter n := by
  unfold State.goldenRouter
  rw [core_reloadCore, router_reloadCore]
  split
  · subst n; rfl
  · rfl

/-- Reloads change cores, routers and the count of reloads alone. -/
theorem State.reloadAll_eq (l : List Nat) (s : State) :
    ∃ cores routers n, s.reloadAll l = { s with grid := { s.grid with cores := cores, routers := routers, reloads := n } } := by
  induction l generalizing s with
  | nil => exact ⟨_, _, _, rfl⟩
  | cons m l ih =>
    obtain ⟨c, r, n, h⟩ := ih { s.reloadCore m with grid := { (s.reloadCore m).grid with reloads := satAdd 32 s.grid.reloads 1 } }
    exact ⟨c, r, n, h⟩

/-- Each core reloaded is as its golden record has it, with its router, and no other changes. -/
theorem State.reloadAll_golden (l : List Nat) (s : State) (n : Nat) :
    (s.reloadAll l).core n = (if n ∈ l then s.goldenCore n else s.core n)
      ∧ (s.reloadAll l).router n = (if n ∈ l then s.goldenRouter n else s.router n) := by
  induction l generalizing s with
  | nil => exact ⟨rfl, rfl⟩
  | cons m l ih =>
    obtain ⟨hc, hr⟩ := ih { s.reloadCore m with grid := { (s.reloadCore m).grid with reloads := satAdd 32 s.grid.reloads 1 } }
    refine ⟨hc.trans ?_, hr.trans ?_⟩
    · show (if n ∈ l then (s.reloadCore m).goldenCore n else (s.reloadCore m).core n) = _
      rw [goldenCore_reloadCore, core_reloadCore]
      by_cases hm : n = m <;> simp [hm]
    · show (if n ∈ l then (s.reloadCore m).goldenRouter n else (s.reloadCore m).router n) = _
      rw [goldenRouter_reloadCore, router_reloadCore]
      by_cases hm : n = m <;> simp [hm]

/-- Once the reload of a slot that is alone is complete, its cores and routers are reloaded, the slot has none left, and it goes
on (R511). -/
theorem State.completeReload_alone {s : State} {k : Nat} (hl : (s.slot k).reloads ≠ []) (ho : s.attemptOpen k = false)
    (hs : s.heldBySites k = false) (ha : s.Alone k) :
    Stands Slot.standing ((s.reloadAll (s.slot k).reloads).onSlot k (fun x => { x with reloads := [], reloadFrom := none }))
      (s.completeReload k) := by
  have e : s.completeReload k
      = ((s.reloadAll (s.slot k).reloads).onSlot k (fun x => { x with reloads := [], reloadFrom := none })).resume k := by
    simp [State.completeReload, hl, ho, hs]
  rw [e]
  refine stands_resume (Alone.of_eq (s := s) ha ?_)
  obtain ⟨_, _, _, hr⟩ := reloadAll_eq (s.slot k).reloads s
  rw [hr, slot_onSlot_self]
  rfl

/-- A complete reload leaves each core and router of it as the golden record has them, and every other as it was. -/
theorem State.completeReload_golden {s : State} {k : Nat} (hl : (s.slot k).reloads ≠ []) (ho : s.attemptOpen k = false)
    (hs : s.heldBySites k = false) (ha : s.Alone k) (n : Nat) :
    (s.completeReload k).core n = (if n ∈ (s.slot k).reloads then s.goldenCore n else s.core n)
      ∧ (s.completeReload k).router n = (if n ∈ (s.slot k).reloads then s.goldenRouter n else s.router n) := by
  have hg : (s.completeReload k).grid = (s.reloadAll (s.slot k).reloads).grid := (completeReload_alone hl ho hs ha).grid
  obtain ⟨hc, hr⟩ := reloadAll_golden (s.slot k).reloads s n
  exact ⟨Eq.trans (by simp only [State.core, hg]) hc, Eq.trans (by simp only [State.router, hg]) hr⟩

/-- A complete reload leaves none due, and changes nothing of HBM. -/
theorem State.completeReload_rest {s : State} {k : Nat} (hl : (s.slot k).reloads ≠ []) (ho : s.attemptOpen k = false)
    (hs : s.heldBySites k = false) (ha : s.Alone k) :
    ((s.completeReload k).slot k).reloads = [] ∧ (s.completeReload k).mem = s.mem := by
  have h := completeReload_alone hl ho hs ha
  obtain ⟨_, _, _, hr⟩ := reloadAll_eq (s.slot k).reloads s
  refine ⟨(congrArg Prod.snd (h.slot k)).trans ?_, ?_⟩
  · rw [slot_onSlot_self]; rfl
  · rw [h.mem, hr]; rfl

end Sys2Proof.Machine

/-! COMMIT of a remedy (R38, R222, R234, R239, R514). -/
namespace Sys2Proof.Machine
open State

/-- Setting bit 0 of a word whose bit 0 is clear adds one to its bits. -/
theorem State.bitSum_add_one {w : BitVec 16} (h : w.getLsbD 0 = false) : bitSum (w + 1) = bitSum w + 1 := by
  have hand : w &&& 1 = 0 := by
    ext i hi
    rcases Nat.eq_zero_or_pos i with rfl | hi'
    · simpa using h
    · simp [Nat.ne_of_gt hi']
  have hor : ∀ i, (w + 1).getLsbD i = (w.getLsbD i || (1 : BitVec 16).getLsbD i) := fun i => by
    rw [BitVec.add_eq_or_of_and_eq_zero w 1 hand, BitVec.getLsbD_or]
  have hrange : List.range 16 = 0 :: (List.range 15).map (· + 1) := List.range_succ_eq_map
  have hrest : ∀ i, (w + 1).getLsbD (i + 1) = w.getLsbD (i + 1) := fun i => by rw [hor]; simp
  have hfirst : (w + 1).getLsbD 0 = true := by rw [hor]; simp
  simp only [bitSum, hrange, List.filter_cons, List.filter_map, hfirst, h, if_true, Bool.false_eq_true, if_false,
    List.length_cons, List.length_map]
  congr 2
  exact List.filter_congr fun i _ => hrest i

/-- Every word that the Porter drives has even parity (R222). -/
theorem State.evenParity_schussWord (cmd slot arg : Nat) : evenParity (schussWord cmd slot arg) = true := by
  have hbit : (BitVec.ofNat 16 (cmd % 16 * 2 ^ 12 + slot % 8 * 2 ^ 9 + arg % 256 * 2)).getLsbD 0 = false := by
    have : (cmd % 16 * 2 ^ 12 + slot % 8 * 2 ^ 9 + arg % 256 * 2) % 2 = 0 := by omega
    rw [BitVec.getLsbD_ofNat, Nat.testBit_zero, this]
    rfl
  unfold schussWord
  extract_lets w
  split
  · assumption
  · next h =>
    simp only [evenParity, beq_iff_eq] at h ⊢
    rw [show bitSum (w + 1) = bitSum w + 1 from bitSum_add_one hbit]
    omega

/-- The Porter's word for a command is that command to every router (R222). -/
theorem State.schuss_schussWord (s : State) (cmd slot arg : Nat) (f : State → State) :
    s.schuss (schussWord cmd slot arg) (schussWord cmd slot arg) f = f s := by
  simp [State.schuss, evenParity_schussWord]

/-- COMMIT acts when it arrives, 24 cc after it was driven, and no slot it names runs a lap (R234). -/
theorem State.arriveCommit_of_due {s : State} {at_ mask : Nat} (hc : s.grid.commit = some (at_, mask)) (hn : s.now = at_ + 24)
    (hk : ∀ k < 8, bitOf mask k = 1 → s.betweenLaps k = true) :
    s.arriveCommit (schussWord 3 0 mask) = s.applyCommit mask := by
  have hall : ((List.range 8).filter (fun k => bitOf mask k == 1)).all s.betweenLaps = true :=
    List.all_eq_true.mpr fun k h => by
      obtain ⟨hr, hb⟩ := List.mem_filter.mp h
      exact hk k (List.mem_range.mp hr) (beq_iff_eq.mp hb)
  simp only [State.arriveCommit, hc, hn, hall, BEq.rfl, Bool.and_self, if_true]
  exact schuss_schussWord s 3 0 mask _

/-! The remedy: the site counts as failed, the mapping changes, and the cores it moves change their sites. -/

/-- The failed site counted, and the mapping as the plan has it. -/
def State.remapped (s : State) (p : SitePlan) (n : Nat) : State :=
  let u := s.countFailed n
  { u with grid := { u.grid with
    rowMap := p.rowMap, failing := u.grid.failing.erase n
    rowShifts := satAdd 32 u.grid.rowShifts p.shifts, rowRemaps := satAdd 32 u.grid.rowRemaps p.remaps } }

/-- Cores l at the sites that the mapping gives them. -/
def State.moveCores (s : State) (l : List Nat) : State := l.foldl (fun s c => s.setCore c { s.core c with site := s.siteFor c }) s

/-- The course of slot k has those of the cores l that are its own to reload, and its VERIFY window is open (R325, R511). -/
def State.openReload (l : List Nat) (s : State) (k : Nat) : State :=
  (s.openWindow k .recovery).onSlot k (fun x => { x with
    reloads := (x.reloads ++ l.filter (fun c => (s.core c).slot == k)).eraseDups, reloadFrom := some s.now })

/-- The slots of the cores l. -/
def State.slotsOf (s : State) (l : List Nat) : List Nat := (List.range 8).filter (fun k => l.any (fun c => (s.core c).slot == k))

/-- The failed site counted, the mapping as the plan has it, and every core where that mapping has it. -/
def State.rehoused (s : State) (p : SitePlan) (n : Nat) : State := (s.remapped p n).moveCores (s.remapped p n).movedCores

/-- A remedy step by step (R38, R325, R511, R514). -/
theorem State.applyRemedy_eq {s : State} {p : SitePlan} {n : Nat} (h : p.failed = some n) :
    s.applyRemedy p = (((s.rehoused p n).slotsOf (s.remapped p n).movedCores).foldl (openReload (s.remapped p n).movedCores)
      (s.rehoused p n)).reportSite := by
  simp only [State.applyRemedy, h]
  rfl

/-- The mapping does not depend on the cores. -/
@[simp] theorem State.siteFor_setCore (s : State) (n : Nat) (k : Core) (c : Nat) : (s.setCore n k).siteFor c = s.siteFor c := rfl

/-- Cores that move change the table of cores alone. -/
theorem State.moveCores_eq (l : List Nat) (s : State) :
    ∃ cores, s.moveCores l = { s with grid := { s.grid with cores := cores } } := by
  induction l generalizing s with
  | nil => exact ⟨_, rfl⟩
  | cons c l ih =>
    obtain ⟨cores, h⟩ := ih (s.setCore c { s.core c with site := s.siteFor c })
    exact ⟨cores, h⟩

/-- The site of a core once the cores l have moved. -/
theorem State.core_moveCores_site (l : List Nat) (s : State) (c : Nat) :
    ((s.moveCores l).core c).site = if c ∈ l then s.siteFor c else (s.core c).site := by
  induction l generalizing s with
  | nil => rfl
  | cons m l ih =>
    show ((State.moveCores (s.setCore m { s.core m with site := s.siteFor m }) l).core c).site = _
    rw [ih, siteFor_setCore]
    by_cases hc : c = m
    · subst c; simp
    · simp [hc]

/-- The value read at a listed key is listed. -/
theorem Table.mem_of_has {α : Type} (d : α) {k : Nat} {t : Table α} (h : Table.has k t = true) : (k, Table.get d k t) ∈ t := by
  induction t with
  | nil => simp [Table.has] at h
  | cons x t ih =>
    obtain ⟨k', w⟩ := x
    simp only [Table.has] at h
    simp only [Table.get]
    split
    · subst k'; exact List.mem_cons_self ..
    · simp_all

/-- A listed core that the mapping leaves at its site is not among the moved ones. -/
theorem State.site_of_not_moved {s : State} {c : Nat} (hc : Table.has c s.grid.cores = true) (h : c ∉ s.movedCores) :
    (s.core c).site = s.siteFor c := by
  by_contra hne
  exact h (List.mem_map.mpr ⟨(c, s.core c), List.mem_filter.mpr ⟨Table.mem_of_has _ hc, bne_iff_ne.mpr fun e => hne e.symm⟩, rfl⟩)

/-- Once the moved cores have moved, every listed core stands at the site the mapping gives it (R38). -/
theorem State.core_moveCores_moved {s : State} {c : Nat} (hc : Table.has c s.grid.cores = true) :
    ((s.moveCores s.movedCores).core c).site = s.siteFor c := by
  rw [core_moveCores_site]
  split
  · rfl
  · next h => exact site_of_not_moved hc h

/-- A VERIFY window and reloads change nothing of the grid, and nothing of what leaves a slot alone. -/
theorem State.stands_openReloads (l ks : List Nat) (s : State) :
    Stands (fun x => x.standing.1) s (ks.foldl (openReload l) s) := by
  induction ks generalizing s with
  | nil => exact .refl s
  | cons k ks ih => exact (Stands.onSlot (.onSlot (.refl s) rfl) rfl).trans (ih _)

/-! The sites of a plan take their new status (R234, R239). -/

/-- Sites of a plan, one after another. -/
def State.applySites (s : State) (l : Table Site) : State := l.foldl (fun s x => s.applySite x.1 x.2) s

/-- What site n becomes when it takes status x: its latches as they were staged. -/
def Site.taking (old x : Site) : Site :=
  match old.staged with
  | some (f, b, i, j) => { x with fence := f, bypass := b, nsteer := i, ssteer := j, staged := none }
  | none => { x with staged := none }

theorem State.applySite_eq (s : State) (n : Nat) (x : Site) : s.applySite n x = s.setSite n ((s.site n).taking x) := rfl

theorem State.applySites_eq (l : Table Site) (s : State) :
    ∃ sites, s.applySites l = { s with grid := { s.grid with sites := sites } } := by
  induction l generalizing s with
  | nil => exact ⟨_, rfl⟩
  | cons x l ih =>
    obtain ⟨sites, h⟩ := ih (s.applySite x.1 x.2)
    exact ⟨sites, h⟩

theorem State.site_applySites_out (l : Table Site) (s : State) {q : Nat} (h : Table.has q l = false) :
    (s.applySites l).site q = s.site q := by
  induction l generalizing s with
  | nil => rfl
  | cons x l ih =>
    obtain ⟨n, x⟩ := x
    have hne : ¬ n = q := fun e => by simp [Table.has, e] at h
    have hl : Table.has q l = false := by simpa [Table.has, hne] using h
    exact (ih (s.applySite n x) hl).trans (site_setSite_ne s (fun e => hne e.symm) _)

theorem State.site_applySites_in {l : Table Site} (hs : Table.sorted l = true) (s : State) {q : Nat} {x : Site} (h : (q, x) ∈ l) :
    (s.applySites l).site q = (s.site q).taking x := by
  rw [Table.sorted_iff] at hs
  induction l generalizing s with
  | nil => exact absurd h (List.not_mem_nil)
  | cons y l ih =>
    obtain ⟨n, y⟩ := y
    obtain ⟨hn, hl⟩ := List.pairwise_cons.mp hs
    show (State.applySites (s.applySite n y) l).site q = _
    rcases List.mem_cons.mp h with e | h
    · obtain ⟨rfl, rfl⟩ := Prod.mk.inj e
      rw [site_applySites_out l _ (Table.has_false_of fun c hc => Nat.ne_of_gt (hn c hc)), applySite_eq, site_setSite_self]
    · rw [ih hl (s.applySite n y) h, applySite_eq, site_setSite_ne s (Nat.ne_of_gt (hn _ h))]

/-! The COMMIT as a whole. -/

/-- What a site's status is read from: the site map and the changes since (R559). -/
theorem State.site_congr {s t : State} (hf : t.flash = s.flash) (hs : t.grid.sites = s.grid.sites) (q : Nat) :
    t.site q = s.site q := by
  simp only [State.site, State.siteDefault, hf, hs]

/-- What a core's place is read from: the failed sites and the mapping (R35). -/
theorem State.siteFor_congr {s t : State} (hf : t.flash = s.flash) (hs : t.grid.failedService = s.grid.failedService)
    (hm : t.grid.rowMap = s.grid.rowMap) (c : Nat) : t.siteFor c = s.siteFor c := by
  simp only [State.siteFor, State.columnOf, State.goodColumns, State.failedSites, State.mappedRow, hf, hs, hm]

/-- The grid of s after the remedy of site n by plan p, with the cores given (R38, R514). -/
def Grid.remedied (g : Grid) (p : SitePlan) (n : Nat) (cores : Table Core) : Grid := { g with
  rowMap := p.rowMap, failing := g.failing.erase n, failedService := g.failedService ++ [n], cores := cores
  rowShifts := satAdd 32 g.rowShifts p.shifts, rowRemaps := satAdd 32 g.rowRemaps p.remaps
  siteFailures := satAdd 32 g.siteFailures 1 }

/-- A site that fails in service for the first time. -/
theorem State.countFailed_of_new {s : State} {n : Nat} (hn : s.failedSites.contains n = false) :
    s.countFailed n = { s with grid := { s.grid with failedService := s.grid.failedService ++ [n] } } := by
  simp only [State.countFailed, hn, Bool.false_eq_true, if_false]

/-- What a remedy for site n leaves: the mapping and the counts, every listed core at its site, and all else that stands. -/
structure Remedied (s t : State) (p : SitePlan) (n : Nat) : Prop where
  grid : ∃ cores, t.grid = s.grid.remedied p n cores
  cores : ∀ c, Table.has c s.grid.cores = true → (t.core c).site = t.siteFor c
  flash : t.flash = s.flash
  mem : t.mem = s.mem
  alone : ∀ k, s.Alone k → t.Alone k

theorem State.remedied_applyRemedy {s : State} {p : SitePlan} {n : Nat} (hf : p.failed = some n)
    (hn : s.failedSites.contains n = false) : Remedied s (s.applyRemedy p) p n := by
  have hu : s.remapped p n = { s with grid := { s.grid.remedied p n s.grid.cores with siteFailures := s.grid.siteFailures } } := by
    rw [State.remapped, countFailed_of_new hn]
    rfl
  rw [applyRemedy_eq hf, State.rehoused]
  generalize s.remapped p n = u at hu
  obtain ⟨cores, hv⟩ := moveCores_eq u.movedCores u
  have hmoved : ∀ c, Table.has c u.grid.cores = true → ((u.moveCores u.movedCores).core c).site = u.siteFor c :=
    fun c => core_moveCores_moved
  generalize u.moveCores u.movedCores = v at hv hmoved
  have hopen := stands_openReloads u.movedCores (v.slotsOf u.movedCores) v
  generalize (v.slotsOf u.movedCores).foldl (openReload u.movedCores) v = w at hopen
  have hrep : Stands (fun x => x.standing.1) { w with grid := { w.grid with siteFailures := satAdd 32 w.grid.siteFailures 1 } }
      w.reportSite := .fire _ 8
  have hgrid : w.reportSite.grid = s.grid.remedied p n cores := by rw [hrep.grid, hopen.grid, hv, hu]; rfl
  have hflash : w.reportSite.flash = s.flash := by rw [hrep.flash, hopen.flash, hv, hu]
  have hslots : v.slots = s.slots := by rw [hv, hu]
  refine ⟨⟨cores, hgrid⟩, fun c hc => ?_, hflash, by rw [hrep.mem, hopen.mem, hv, hu], fun k hk => hk.of_eq ?_⟩
  · have hcore : w.reportSite.core c = v.core c := by simp only [State.core, hgrid, hv]; rfl
    rw [hcore, hmoved c (by rw [hu]; exact hc)]
    exact (siteFor_congr (by rw [hflash, hu]) (by rw [hgrid, hu]; rfl) (by rw [hgrid, hu]; rfl) c).symm
  · rw [hrep.slot k]
    exact (hopen.slot k).trans (by simp only [State.slot, hslots])

/-- The state in which every change of a plan has been made, and nothing has gone on yet. -/
def State.committed (s : State) (p : SitePlan) : State :=
  let u := (s.applyRemedy p).applySites p.sites
  { u with grid := { u.grid with commit := none, plan := none } }

/-- A COMMIT that names every site of its plan makes all its changes; then the slots go on (R38, R234). -/
theorem State.applyCommit_of_all {s : State} {p : SitePlan} {mask : Nat} (hp : s.grid.plan = some p)
    (ha : ∀ x ∈ p.sites, commitNames p mask x.1 = true) : s.applyCommit mask = (s.committed p).startSites.resumeAll := by
  have hall : p.sites.filter (fun x => commitNames p mask x.1) = p.sites := List.filter_eq_self.mpr ha
  have hnone : p.sites.filter (fun x => !commitNames p mask x.1) = [] :=
    List.filter_eq_nil_iff.mpr fun x hx => by simp [ha x hx]
  simp only [State.applyCommit, hp, hall, hnone, List.isEmpty_nil, if_true]
  rfl

/-- With nothing planned, nothing failing and nothing unsettled no change of sites begins. -/
theorem State.startSites_of_settled {s : State} (hp : s.grid.plan = none) (hu : s.grid.unsettled = false)
    (hf : s.grid.failing = []) : s.startSites = s := by
  simp [State.startSites, hp, hu, hf]

/-- From s to t a plan has been carried out: its remedy, and its sites' new status; no change is left in hand. -/
structure CarriedOut (s t : State) (p : SitePlan) (n : Nat) : Prop where
  grid : ∃ cores sites, t.grid = { s.grid.remedied p n cores with sites := sites, commit := none, plan := none }
  cores : ∀ c, Table.has c s.grid.cores = true → (t.core c).site = t.siteFor c
  planned : ∀ q x, (q, x) ∈ p.sites → t.site q = (s.site q).taking x
  others : ∀ q, Table.has q p.sites = false → t.site q = s.site q
  mem : t.mem = s.mem
  flash : t.flash = s.flash

theorem State.carriedOut_committed {s : State} {p : SitePlan} {n : Nat} (hf : p.failed = some n)
    (hn : s.failedSites.contains n = false) (hs : Table.sorted p.sites = true) : CarriedOut s (s.committed p) p n := by
  obtain ⟨⟨cores, hgrid⟩, hcores, hflash, hmem, -⟩ := remedied_applyRemedy hf hn
  obtain ⟨sites, he⟩ := applySites_eq p.sites (s.applyRemedy p)
  have hsite : ∀ q, (s.applyRemedy p).site q = s.site q := fun q => site_congr hflash (by rw [hgrid]; rfl) q
  have hlast : ∀ q, (s.committed p).site q = ((s.applyRemedy p).applySites p.sites).site q := fun _ => rfl
  have hgrid' : (s.committed p).grid = { s.grid.remedied p n cores with sites := sites, commit := none, plan := none } := by
    rw [State.committed, he, ← hgrid]
  exact {
    grid := ⟨cores, sites, hgrid'⟩
    cores := fun c hc => by rw [State.committed, he]; exact hcores c hc
    planned := fun q x hx => by rw [hlast, site_applySites_in hs _ hx, hsite]
    others := fun q hq => by rw [hlast, site_applySites_out _ _ hq, hsite]
    mem := by rw [State.committed, he]; exact hmem
    flash := by rw [State.committed, he]; exact hflash }

/-- Slots that are alone stay so while a plan is carried out. -/
theorem State.alone_committed {s : State} {p : SitePlan} {n k : Nat} (hf : p.failed = some n)
    (hn : s.failedSites.contains n = false) (h : s.Alone k) : (s.committed p).Alone k := by
  obtain ⟨sites, he⟩ := applySites_eq p.sites (s.applyRemedy p)
  rw [State.committed, he]
  exact (remedied_applyRemedy hf hn).alone k h

/-- What has been carried out stands while the slots go on. -/
theorem CarriedOut.stands {s t u : State} {p : SitePlan} {n : Nat} (h : CarriedOut s t p n) (hu : Stands Slot.standing t u) :
    CarriedOut s u p n := by
  have hsite : ∀ q, u.site q = t.site q := site_congr hu.flash (by rw [hu.grid])
  exact {
    grid := by rw [hu.grid]; exact h.grid
    cores := fun c hc => by
      rw [siteFor_congr hu.flash (by rw [hu.grid]) (by rw [hu.grid]) c, ← h.cores c hc]
      simp only [State.core, hu.grid]
    planned := fun q x hx => (hsite q).trans (h.planned q x hx)
    others := fun q hq => (hsite q).trans (h.others q hq)
    mem := hu.mem.trans h.mem
    flash := hu.flash.trans h.flash }

/-- A COMMIT that arrives in its cycle and names every site of the plan in hand carries it out (R38, R234, R239). -/
theorem State.carriedOut_arriveCommit {s : State} {p : SitePlan} {at_ mask n : Nat} (hs : Table.sorted p.sites = true)
    (hc : s.grid.commit = some (at_, mask)) (hnow : s.now = at_ + 24) (hp : s.grid.plan = some p) (hf : p.failed = some n)
    (hn : s.failedSites.contains n = false) (hk : ∀ k < 8, bitOf mask k = 1 → s.betweenLaps k = true)
    (ha : ∀ x ∈ p.sites, commitNames p mask x.1 = true) (hfail : s.grid.failing = [n]) (hu : s.grid.unsettled = false)
    (halone : ∀ k < 8, s.Alone k) : CarriedOut s (s.arriveCommit (schussWord 3 0 mask)) p n := by
  have h := carriedOut_committed hf hn hs
  obtain ⟨cores, sites, hg⟩ := h.grid
  have hsettled : (s.committed p).startSites = s.committed p :=
    startSites_of_settled (by rw [hg]) (by rw [hg]; exact hu) (by rw [hg]; simp [Grid.remedied, hfail])
  rw [arriveCommit_of_due hc hnow hk, applyCommit_of_all hp ha, hsettled]
  exact h.stands (stands_resumeAll fun k hlt => alone_committed hf hn (halone k hlt))

/-- A site that takes a new status has its state and place, and nothing staged. -/
theorem Site.taking_status (old x : Site) : (old.taking x).state = x.state ∧ (old.taking x).lx = x.lx
    ∧ (old.taking x).ly = x.ly ∧ (old.taking x).staged = none := by
  unfold Site.taking
  split <;> exact ⟨rfl, rfl, rfl, rfl⟩

/-- Its latches are those that were staged. -/
theorem Site.taking_staged {old : Site} (x : Site) {f b : Bool} {i j : Int} (h : old.staged = some (f, b, i, j)) :
    old.taking x = { x with fence := f, bypass := b, nsteer := i, ssteer := j, staged := none } := by
  simp [Site.taking, h]

/-! The statement. -/

/-- Settles O15, clause by clause: COMMIT, STAGE and its acknowledgement, gate tables, and reloads. -/
theorem siteRemedyAndReload : Obligations.SiteRemedyAndReload := by
  refine ⟨?commit, ?stage, ?gates, ?reload⟩
  case commit =>
    intro s p at_ mask n _ hs hc hnow hp hf hn hk ha hfail hu halone
    have h := carriedOut_arriveCommit hs hc hnow hp hf hn hk ha hfail hu halone
    obtain ⟨cores, sites, hg⟩ := h.grid
    refine ⟨_, rfl, by rw [hg], by rw [hg], ?_, by rw [hg]; rfl, ?_, by rw [hg]; rfl, by rw [hg]; rfl, by rw [hg]; rfl,
      h.cores, fun q x hx => ?_, h.others, by rw [h.mem]⟩
    · rw [hg]; simp [Grid.remedied, hfail]
    · rw [hg]; simp [Grid.remedied]
    · obtain ⟨hstate, hlx, hly, hnone⟩ := (s.site q).taking_status x
      rw [h.planned q x hx]
      exact ⟨hstate, hlx, hly, hnone, fun f b i j hst => by rw [Site.taking_staged x hst]; exact ⟨rfl, rfl, rfl, rfl⟩⟩
  case stage =>
    refine fun s site g => ⟨fun fence bypass n m hg _ => ?_, fun hg => ?_⟩
    · obtain ⟨rfl, rfl, rfl, hn, hm⟩ := isStage_iff.mp (List.find?_some hg)
      refine ⟨fun hc => ⟨_, congrArg Host.Outcome.next (stageSite_of_no_core hg hc), ?_, rfl⟩,
        fun c l tr hc ht => ⟨_, congrArg Host.Outcome.next (stageSite_of_core hg hc ht), ?_, rfl⟩⟩
      · obtain ⟨staged, others, stages, cores, slots, mem⟩ := s.stageKept_keepStage g
        exact ⟨hn ▸ hm ▸ staged, others, stages, cores, slots, mem⟩
      · obtain ⟨staged, others, stages, cores, slots, mem⟩ :=
          s.stageKept_setTransom g tr (tr.inject c (headerFlit destPorter c tySTAGE_ACK 1 g.seq 0) [])
        exact ⟨hn ▸ hm ▸ staged, others, stages, cores, slots, mem⟩
    · have hsite : g.site = site := by
        have := List.find?_some hg
        simp only [Bool.and_eq_true, beq_iff_eq] at this
        exact this.1
      exact ⟨fun hc => exec_stageAck hsite (ackStage_of_no_core hg hc),
        fun c l tr hc ht => exec_stageAck hsite (ackStage_of_core hg hc ht)⟩
  case gates =>
    exact fun s n first h l hn ho hl =>
      ⟨fun hh => ⟨(s.router n).loaded first l, congrArg Host.Outcome.next (loadGates_of_gateLoad hh hn ho hl),
        fun i hi => Router.loaded_in _ first l i hi, fun e he => Router.loaded_out _ he, rfl⟩,
      fun hh => congrArg Host.Outcome.next (loadGates_of_other hh)⟩
  case reload =>
    intro s k hl ho hs hh hm
    have hgolden := completeReload_golden hl ho hs ⟨hh, hm⟩
    obtain ⟨hdone, hmem⟩ := completeReload_rest hl ho hs ⟨hh, hm⟩
    refine ⟨s.completeReload k, rfl, hdone, fun n hn => ?_, fun n hn => ?_, by rw [hmem]⟩
    · obtain ⟨hc, hr⟩ := hgolden n
      rw [hc, hr, if_pos hn, if_pos hn]
      exact ⟨rfl, rfl, rfl, rfl⟩
    · obtain ⟨hc, hr⟩ := hgolden n
      rw [hc, hr, if_neg hn, if_neg hn]
      exact ⟨rfl, rfl⟩

end Sys2Proof.Machine

/-! PROOFS of the family 02_core: the operations of a bundle, laps, their boundaries, and trap reports. -/

/-! The operations of a bundle (R54 to R59): each is given to its core through one door, and only issues there. -/
namespace Sys2Proof.Machine
open State

/-- Every operation of a bundle is given to its own core's slot, and only issues there. -/
theorem exec_bundleOp {c : Instr} {n : Nat} {sl : OpSlot} {p : Nat → Bool} (s : State) (h : bundleOp c = some (n, sl, p)) :
    ∃ u f, exec c s = .next (s.onSlotOp n sl p u f) ∧ ∀ k x, Core.OnlyIssues k (f k x) := by
  cases c with
  | loop n arg u => cases h; exact ⟨u, _, rfl, fun _ _ => Core.onlyIssues_ctLoopOp ..⟩
  | endl n arg u => cases h; exact ⟨u, _, rfl, fun _ _ => Core.onlyIssues_ctEndlOp ..⟩
  | wait n arg u => cases h; exact ⟨u, _, rfl, fun _ _ => Core.onlyIssues_ctWaitOp ..⟩
  | endLap n arg u => cases h; exact ⟨u, _, rfl, fun _ _ => Core.onlyIssues_ctEndOp ..⟩
  | rdflag n arg u => cases h; exact ⟨u, _, rfl, fun _ _ => Core.onlyIssues_ctRead ..⟩
  | rdcc n arg u => cases h; exact ⟨u, _, rfl, fun _ _ => Core.onlyIssues_ctRead ..⟩
  | rdlap n arg u => cases h; exact ⟨u, _, rfl, fun _ _ => Core.onlyIssues_ctRead ..⟩
  | mma n f u => cases h; exact ⟨u, _, rfl, fun _ _ => Core.onlyIssues_mxOp ..⟩
  | mmal n f u => cases h; exact ⟨u, _, rfl, fun _ _ => Core.onlyIssues_mxOp ..⟩
  | fadd n f u => cases h; exact ⟨u, _, rfl, fun _ _ => Core.onlyIssues_vx2 ..⟩
  | fsub n f u => cases h; exact ⟨u, _, rfl, fun _ _ => Core.onlyIssues_vx2 ..⟩
  | fmul n f u => cases h; exact ⟨u, _, rfl, fun _ _ => Core.onlyIssues_vx2 ..⟩
  | fma n f u => cases h; exact ⟨u, _, rfl, fun _ _ => Core.onlyIssues_vxLanes ..⟩
  | fmin n f u => cases h; exact ⟨u, _, rfl, fun _ _ => Core.onlyIssues_vx2 ..⟩
  | fmax n f u => cases h; exact ⟨u, _, rfl, fun _ _ => Core.onlyIssues_vx2 ..⟩
  | fcmplt n f u => cases h; exact ⟨u, _, rfl, fun _ _ => Core.onlyIssues_vxCompare ..⟩
  | fcmpeq n f u => cases h; exact ⟨u, _, rfl, fun _ _ => Core.onlyIssues_vxCompare ..⟩
  | sel n f u => cases h; exact ⟨u, _, rfl, fun _ _ => Core.onlyIssues_vxSel ..⟩
  | iadd n f u => cases h; exact ⟨u, _, rfl, fun _ _ => Core.onlyIssues_vx2 ..⟩
  | isub n f u => cases h; exact ⟨u, _, rfl, fun _ _ => Core.onlyIssues_vx2 ..⟩
  | and n f u => cases h; exact ⟨u, _, rfl, fun _ _ => Core.onlyIssues_vx2 ..⟩
  | or n f u => cases h; exact ⟨u, _, rfl, fun _ _ => Core.onlyIssues_vx2 ..⟩
  | xor n f u => cases h; exact ⟨u, _, rfl, fun _ _ => Core.onlyIssues_vx2 ..⟩
  | shl n f u => cases h; exact ⟨u, _, rfl, fun _ _ => Core.onlyIssues_vx2 ..⟩
  | shr n f u => cases h; exact ⟨u, _, rfl, fun _ _ => Core.onlyIssues_vx2 ..⟩
  | imax n f u => cases h; exact ⟨u, _, rfl, fun _ _ => Core.onlyIssues_vx2 ..⟩
  | icmplt n f u => cases h; exact ⟨u, _, rfl, fun _ _ => Core.onlyIssues_vxCompare ..⟩
  | exp2 n f u => cases h; exact ⟨u, _, rfl, fun _ _ => Core.onlyIssues_vx1 ..⟩
  | log2 n f u => cases h; exact ⟨u, _, rfl, fun _ _ => Core.onlyIssues_vx1 ..⟩
  | rsqrt n f u => cases h; exact ⟨u, _, rfl, fun _ _ => Core.onlyIssues_vx1 ..⟩
  | rcp n f u => cases h; exact ⟨u, _, rfl, fun _ _ => Core.onlyIssues_vx1 ..⟩
  | cvtnRne n f u => cases h; exact ⟨u, _, rfl, fun _ _ => Core.onlyIssues_vxNarrow ..⟩
  | cvtnRtz n f u => cases h; exact ⟨u, _, rfl, fun _ _ => Core.onlyIssues_vxNarrow ..⟩
  | cvtnSr n f u => cases h; exact ⟨u, _, rfl, fun _ _ => Core.onlyIssues_vxNarrow ..⟩
  | cvtw n f u => cases h; exact ⟨u, _, rfl, fun _ _ => Core.onlyIssues_vxWiden ..⟩
  | vscale n f u => cases h; exact ⟨u, _, rfl, fun _ _ => Core.onlyIssues_vxScale ..⟩
  | shuf n f u => cases h; exact ⟨u, _, rfl, fun _ _ => Core.onlyIssues_vxShuf ..⟩
  | bcast n f u => cases h; exact ⟨u, _, rfl, fun _ _ => Core.onlyIssues_vxBcast ..⟩
  | vmaxi n f u => cases h; exact ⟨u, _, rfl, fun _ _ => Core.onlyIssues_vxPick ..⟩
  | vmini n f u => cases h; exact ⟨u, _, rfl, fun _ _ => Core.onlyIssues_vxPick ..⟩
  | vsum n f u => cases h; exact ⟨u, _, rfl, fun _ _ => Core.onlyIssues_vxSum ..⟩
  | lpadd n f u => cases h; exact ⟨u, _, rfl, fun _ _ => Core.onlyIssues_vxLp ..⟩
  | lpmul n f u => cases h; exact ⟨u, _, rfl, fun _ _ => Core.onlyIssues_vxLp ..⟩
  | raw n f u => cases h; exact ⟨u, _, rfl, fun _ _ => Core.onlyIssues_sxRaw ..⟩
  | norm32 n f u => cases h; exact ⟨u, _, rfl, fun _ _ => Core.onlyIssues_sxNorm32 ..⟩
  | norm16 n f u => cases h; exact ⟨u, _, rfl, fun _ _ => Core.onlyIssues_sxNorm16 ..⟩
  | gumb n f u => cases h; exact ⟨u, _, rfl, fun _ _ => Core.onlyIssues_sxGumb ..⟩
  | bernp n f u => cases h; exact ⟨u, _, rfl, fun _ _ => Core.onlyIssues_sxBern ..⟩
  | bernl n f u => cases h; exact ⟨u, _, rfl, fun _ _ => Core.onlyIssues_sxBern ..⟩
  | ldv n f u => cases h; exact ⟨u, _, rfl, fun _ _ => Core.onlyIssues_mvLdv ..⟩
  | stv n f u => cases h; exact ⟨u, _, rfl, fun _ _ => Core.onlyIssues_mvStv ..⟩
  | lds n f u => cases h; exact ⟨u, _, rfl, fun _ _ => Core.onlyIssues_mvLds ..⟩
  | sts n f u => cases h; exact ⟨u, _, rfl, fun _ _ => Core.onlyIssues_mvSts ..⟩
  | ldvx n f u => cases h; exact ⟨u, _, rfl, fun _ _ => Core.onlyIssues_mvLdvx ..⟩
  | stvx n f u => cases h; exact ⟨u, _, rfl, fun _ _ => Core.onlyIssues_mvStvx ..⟩
  | gath n f u lanes => cases h; exact ⟨u, _, rfl, fun _ _ => Core.onlyIssues_mvGath ..⟩
  | scat n f u => cases h; exact ⟨u, _, rfl, fun _ _ => Core.onlyIssues_mvScat ..⟩
  | tout n f u => cases h; exact ⟨u, _, rfl, fun _ _ => Core.onlyIssues_mvTout ..⟩
  | tpeek n f u => cases h; exact ⟨u, _, rfl, fun _ _ => Core.onlyIssues_mvTpeek ..⟩
  | sadd n f u => cases h; exact ⟨u, _, rfl, fun _ _ => Core.onlyIssues_mvScalar ..⟩
  | ssub n f u => cases h; exact ⟨u, _, rfl, fun _ _ => Core.onlyIssues_mvScalar ..⟩
  | sand n f u => cases h; exact ⟨u, _, rfl, fun _ _ => Core.onlyIssues_mvScalar ..⟩
  | sor n f u => cases h; exact ⟨u, _, rfl, fun _ _ => Core.onlyIssues_mvScalar ..⟩
  | sxor n f u => cases h; exact ⟨u, _, rfl, fun _ _ => Core.onlyIssues_mvScalar ..⟩
  | sshl n f u => cases h; exact ⟨u, _, rfl, fun _ _ => Core.onlyIssues_mvScalar ..⟩
  | sshr n f u => cases h; exact ⟨u, _, rfl, fun _ _ => Core.onlyIssues_mvScalar ..⟩
  | saddi n f u => cases h; exact ⟨u, _, rfl, fun _ _ => Core.onlyIssues_mvSaddi ..⟩
  | aaddi n f u => cases h; exact ⟨u, _, rfl, fun _ _ => Core.onlyIssues_mvAaddi ..⟩
  | afroms n f u => cases h; exact ⟨u, _, rfl, fun _ _ => Core.onlyIssues_mvAfroms ..⟩
  | sfroma n f u => cases h; exact ⟨u, _, rfl, fun _ _ => Core.onlyIssues_mvSfroma ..⟩
  | movvs n f u => cases h; exact ⟨u, _, rfl, fun _ _ => Core.onlyIssues_mvMovvs ..⟩
  | movsv n f u => cases h; exact ⟨u, _, rfl, fun _ _ => Core.onlyIssues_mvMovsv ..⟩
  | send n f u => cases h; exact ⟨u, _, rfl, fun _ _ => Core.onlyIssues_nxSend ..⟩
  | recv n f u => cases h; exact ⟨u, _, rfl, fun _ _ => Core.onlyIssues_nxRecv ..⟩
  | sendm n f u => cases h; exact ⟨u, _, rfl, fun _ _ => Core.onlyIssues_nxSendm ..⟩
  | recvm n f u => cases h; exact ⟨u, _, rfl, fun _ _ => Core.onlyIssues_nxRecvm ..⟩
  | mrd n f u => cases h; exact ⟨u, _, rfl, fun _ _ => Core.onlyIssues_nxMrd ..⟩
  | mwr n f u => cases h; exact ⟨u, _, rfl, fun _ _ => Core.onlyIssues_nxMwr ..⟩
  | _ => cases h

/-- An operation given to a core only issues there, its own upset included. -/
theorem Core.onlyIssues_given {k : Core} {x : LapCtx} {sl : OpSlot} {carried upset : Bool} {f : Core → Core}
    (hf : ∀ k, Core.OnlyIssues k (f k)) : Core.OnlyIssues k (k.given x sl carried upset f) :=
  .ite (.ite ((hf k).trans (Core.onlyIssues_trap ..)) (hf k)) (.refl k)

/-- An operation that the bundle does not carry, or that comes while no bundle is issued, leaves the core as it is. -/
theorem Core.given_of_not {k : Core} {x : LapCtx} {sl : OpSlot} {carried upset : Bool} {f : Core → Core}
    (h : k.canIssue x sl = false ∨ carried = false) : k.given x sl carried upset f = k := by
  rcases h with h | h <;> simp [Core.given, h]

/-- Settles O11: every operation goes through `State.onSlotOp` (`exec_bundleOp`), where the core's part is what an issue touches
(`Core.onlyIssues_given`). -/
theorem coreOperationFrame : Obligations.CoreOperationFrame := by
  intro c n sl p s t hop hexec
  obtain ⟨u, f, he, hf⟩ := exec_bundleOp s hop
  obtain rfl : s.onSlotOp n sl p u f = t := Host.Outcome.next.inj (he.symm.trans hexec)
  refine ⟨(s.core n).given (s.ctxOf n) sl (p (s.core n).bundle) u (fun k => f k (s.ctxOf n)), rfl, fun h => ?_, ?_⟩
  · exact Core.given_of_not (h.imp_right fun hc => by simpa [carries, hop] using hc)
  · obtain ⟨_, _, _, _, _, _, _, _, hk⟩ := Core.onlyIssues_given (x := s.ctxOf n) (sl := sl)
      (carried := p (s.core n).bundle) (upset := u) (k := s.core n) (fun k => hf k (s.ctxOf n))
    rw [hk]
    exact ⟨rfl, rfl, rfl, rfl, rfl, rfl, rfl, rfl, rfl, rfl, rfl, rfl, rfl⟩

end Sys2Proof.Machine

/-! What a core is once it has given an operation: one rule for each way an operation leaves something to come (R56, R58, R65). -/
namespace Sys2Proof.Machine
open State

/-- In the cycle at hand an operation of core n, whatever its upset, leaves the core as k' (R51). -/
def Runs (s : State) (n : Nat) (c : Bool → Instr) (k' : Core) : Prop :=
  ∀ u, carries s (c u) = true → exec (c u) s = .next (s.setCore n (k'.struck u))

/-- The last of an operation's trap rules is the upset of a word it reads (R51). -/
theorem Core.trap_tWORD (k : Core) : k.trap tWORD = k.struck true := by
  unfold Core.trap Core.struck
  cases h : k.trapNow with
  | none => rfl
  | some code => cases k; cases h; rfl

/-- An operation of a bundle that issues is what its slot makes of its core, and its upset after it. -/
theorem runs_of_issues {s : State} {n : Nat} {sl : OpSlot} {p : Nat → Bool} {c : Bool → Instr} {f : Core → LapCtx → Core}
    {k' : Core} (hi : Issues s n sl) (hop : ∀ u, bundleOp (c u) = some (n, sl, p))
    (he : ∀ u, exec (c u) s = .next (s.onSlotOp n sl p u f)) (hf : f (s.core n) (s.ctxOf n) = k') : Runs s n c k' := by
  intro u hc
  have hp : p (s.core n).bundle = true := by simpa [carries, hop u] using hc
  have hgiven : (s.core n).given (s.ctxOf n) sl (p (s.core n).bundle) u (fun k => f k (s.ctxOf n)) = k'.struck u := by
    rw [Core.given, hi.2, hp, hf]
    cases u with
    | false => rfl
    | true => exact k'.trap_tWORD
  rw [he u, State.onSlotOp, State.onCore, if_pos hi.1, hgiven]

namespace Core

/-- The core with the actions ms still to come. -/
def adding (k : Core) (ms : List Micro) : Core := { k with inflight := k.inflight ++ ms }

/-- The core whose bundle has issued slot sl. -/
def taking (k : Core) (sl : OpSlot) : Core := { k with issued := sl :: k.issued }

@[simp] theorem taking_ra (k : Core) (sl : OpSlot) : (k.taking sl).ra = k.ra := rfl
@[simp] theorem taking_rl (k : Core) (sl : OpSlot) : (k.taking sl).rl = k.rl := rfl

theorem gave_eq (k : Core) (sl : OpSlot) (ms : List Micro) : k.gave sl ms = (k.taking sl).adding ms := rfl

theorem adding_nil (k : Core) : k.adding [] = k := by simp [adding]

theorem adding_adding (k : Core) (l m : List Micro) : (k.adding l).adding m = k.adding (l ++ m) := by
  simp [adding, List.append_assoc]

theorem push_eq (k : Core) (x : LapCtx) (sl : OpSlot) (d : Nat) (act : CoreAct) :
    k.push x sl d act = k.adding [dueAt x sl d act] := rfl

theorem pushFlags_eq (k : Core) (x : LapCtx) (sl : OpSlot) (d : Nat) (f : BitVec 16) :
    k.pushFlags x sl d f = k.adding (flagsAt x sl d f) := by
  unfold pushFlags flagsAt
  split
  · exact (adding_nil k).symm
  · rfl

theorem overruns_of_fits {x : LapCtx} {d : Nat} (h : Fits x d) : overruns x d = false :=
  decide_eq_false (Nat.not_le.mpr h)

theorem writeV_of_fits {k : Core} {x : LapCtx} {sl : OpSlot} {lat r : Nat} {mask val : Lanes} {f : BitVec 16}
    (h : Fits x (lat - 1)) : k.writeV x sl lat r mask val f
      = k.adding (dueAt x sl (lat - 1) (.wV r mask val) :: flagsAt x sl (lat - 1) f) := by
  rw [writeV, overruns_of_fits h, pushFlags_eq, push_eq, adding_adding]
  rfl

theorem writeS_of_fits {k : Core} {x : LapCtx} {sl : OpSlot} {lat r : Nat} {val : BitVec 32} (h : Fits x (lat - 1)) :
    k.writeS x sl lat r val 0 = k.adding [dueAt x sl (lat - 1) (.wS r val)] := by
  rw [writeS, overruns_of_fits h]
  rfl

theorem writeA_of_fits {k : Core} {x : LapCtx} {sl : OpSlot} {lat r : Nat} {val : BitVec 24} (h : Fits x (lat - 1)) :
    k.writeA x sl lat r val = k.adding [dueAt x sl (lat - 1) (.wA r val)] := by
  rw [writeA, overruns_of_fits h]
  rfl

/-- An issue that may happen is the operation on the core whose slot is taken. -/
theorem issue_of_canIssue {k : Core} {x : LapCtx} {sl : OpSlot} {f : Core → Core} (h : k.canIssue x sl = true) :
    k.issue x sl f = f (k.taking sl) := by
  rw [issue, if_pos h]; rfl

/-- A core that issues has raised no trap in the cycle. -/
theorem trapNow_of_canIssue {k : Core} {x : LapCtx} {sl : OpSlot} (h : k.canIssue x sl = true) : k.trapNow = none := by
  unfold canIssue at h
  simp only [Bool.and_eq_true, beq_iff_eq] at h
  exact h.1.2

/-- A trap is kept when the cycle has none yet. -/
theorem trap_of_none {k : Core} {code : Nat} (h : k.trapNow = none) : k.trap code = { k with trapNow := some code } := by
  rw [trap, h]

/-- A slot that issues and breaks a rule leaves its trap. -/
theorem trap_taking {k : Core} {x : LapCtx} {sl : OpSlot} {code : Nat} (h : k.canIssue x sl = true) :
    (k.taking sl).trap code = k.trapped sl code :=
  trap_of_none (k := k.taking sl) (trapNow_of_canIssue (k := k) h)

/-- Bits at and above a number's size are clear. -/
theorem getLsbD_of_lt {w : Nat} {v : BitVec w} {i : Nat} (h : v.toNat < 2 ^ i) : v.getLsbD i = false :=
  Nat.testBit_lt_two_pow h

/-! VX (R69). -/

/-- A lane operation that fits the lap writes its lanes, and its flags with them (R56, R66, R69). -/
theorem vxLanes_of_fits {k : Core} {x : LapCtx} {f : VxFields} {lat : Nat} {g : Core → Nat → BitVec 32 × BitVec 16}
    (hc : k.canIssue x .vx = true) (h : Fits x (lat - 1)) :
    k.vxLanes x f lat g = k.gave .vx
      (dueAt x .vx (lat - 1) (.wV f.vd.toNat (laneMask (k.enabled f.pm)) (mkLanes (fun i => (g (k.taking .vx) i).1)))
        :: flagsAt x .vx (lat - 1) (laneFlags (k.enabled f.pm) (g (k.taking .vx)) 16)) := by
  rw [vxLanes, issue_of_canIssue hc, writeV_of_fits h]
  rfl

/-- A legal compare that fits writes its mask (R69). -/
theorem vxCompare_of_legal {k : Core} {x : LapCtx} {f : VxFields} {lat : Nat} {g : BitVec 32 → BitVec 32 → Bool}
    (hc : k.canIssue x .vx = true) (hd : f.vd.toNat < 16) (hpm : f.pm = 0) (h : Fits x (lat - 1)) :
    k.vxCompare x f lat g = k.gave .vx [dueAt x .vx (lat - 1) (.wS f.vd.toNat
      (laneBits (fun i => g (lane (k.rv f.va.toNat) i) (lane (k.rv f.vb.toNat) i))))] := by
  rw [vxCompare, issue_of_canIssue hc, getLsbD_of_lt (i := 4) hd, hpm, if_neg (by decide), writeS_of_fits h]
  rfl

/-- A legal SEL that fits writes each lane from the operand its mask bit names (R69). -/
theorem vxSel_of_legal {k : Core} {x : LapCtx} {f : VxFields} (hc : k.canIssue x .vx = true) (hm : f.vc.toNat < 16)
    (hpm : f.pm = 0) (h : Fits x 0) :
    k.vxSel x f = k.gave .vx [dueAt x .vx 0 (.wV f.vd.toNat allLanes (mkLanes (fun i =>
      if (k.rs f.vc.toNat).getLsbD i then lane (k.rv f.va.toNat) i else lane (k.rv f.vb.toNat) i)))] := by
  rw [vxSel, issue_of_canIssue hc, getLsbD_of_lt (i := 4) hm, hpm, if_neg (by decide)]
  exact writeV_of_fits (lat := 1) (f := 0) h

/-- A legal BCAST that fits writes the S register to every enabled lane (R69). -/
theorem vxBcast_of_legal {k : Core} {x : LapCtx} {f : VxFields} (hc : k.canIssue x .vx = true) (ha : f.va.toNat < 16)
    (h : Fits x 0) :
    k.vxBcast x f = k.gave .vx [dueAt x .vx 0 (.wV f.vd.toNat (laneMask (k.enabled f.pm)) (mkLanes (fun _ => k.rs f.va.toNat)))] := by
  rw [vxBcast, issue_of_canIssue hc, getLsbD_of_lt (i := 4) ha, if_neg (by decide)]
  exact writeV_of_fits (lat := 1) (f := 0) h

/-- What a VX operation of latency lat leaves to come when lane i gives r i: the enabled lanes' values and flags (R66). -/
def vxResult (k : Core) (x : LapCtx) (f : VxFields) (lat : Nat) (r : Nat → BitVec 32 × BitVec 16) : Core :=
  k.gave .vx (dueAt x .vx (lat - 1) (.wV f.vd.toNat (laneMask (k.enabled f.pm)) (mkLanes (fun i => (r i).1)))
    :: flagsAt x .vx (lat - 1) (laneFlags (k.enabled f.pm) r 16))

section
variable {k : Core} {x : LapCtx} {f : VxFields} {lat : Nat}

theorem vx2_of_fits {g : BitVec 32 → BitVec 32 → BitVec 32 × BitVec 16} (hc : k.canIssue x .vx = true)
    (h : Fits x (lat - 1)) :
    k.vx2 x f lat g = k.vxResult x f lat (fun i => g (lane (k.rv f.va.toNat) i) (lane (k.rv f.vb.toNat) i)) :=
  vxLanes_of_fits hc h

theorem vx1_of_fits {g : BitVec 32 → BitVec 32 × BitVec 16} (hc : k.canIssue x .vx = true) (h : Fits x (lat - 1)) :
    k.vx1 x f lat g = k.vxResult x f lat (fun i => g (lane (k.rv f.va.toNat) i)) :=
  vxLanes_of_fits hc h

theorem vx3_of_fits {g : BitVec 32 → BitVec 32 → BitVec 32 → BitVec 32 × BitVec 16} (hc : k.canIssue x .vx = true)
    (h : Fits x (lat - 1)) :
    k.vxLanes x f lat (fun k i => g (lane (k.rv f.va.toNat) i) (lane (k.rv f.vb.toNat) i) (lane (k.rv f.vc.toNat) i))
      = k.vxResult x f lat
        (fun i => g (lane (k.rv f.va.toNat) i) (lane (k.rv f.vb.toNat) i) (lane (k.rv f.vc.toNat) i)) :=
  vxLanes_of_fits hc h

theorem vxShuf_of_fits (hc : k.canIssue x .vx = true) (h : Fits x 1) :
    k.vxShuf x f = k.vxResult x f 2
      (fun i => (lane (k.rv f.va.toNat) ((lane (k.rv f.vb.toNat) i).toNat % 16), 0)) :=
  vxLanes_of_fits (lat := 2) hc h

/-- IMAX compares as signed numbers. -/
theorem vxImax_of_fits (hc : k.canIssue x .vx = true) (h : Fits x 0) :
    k.vx2 x f 1 (fun a b => (if a.slt b then b else a, 0)) = k.vxResult x f 1
      (fun i => (if (lane (k.rv f.va.toNat) i).toInt < (lane (k.rv f.vb.toNat) i).toInt
        then lane (k.rv f.vb.toNat) i else lane (k.rv f.va.toNat) i, 0)) := by
  rw [vx2_of_fits (lat := 1) hc h]
  simp only [BitVec.slt, decide_eq_true_eq]

end

end Core

/-- Settles O3: each operation issues as its lemma of one to three operands, of a compare, of SEL or of BCAST says. -/
theorem vxLaneAndMaskOperations : Obligations.VxLaneAndMaskOperations := by
  refine ⟨fun s n f hi => ⟨fun h => ?_, fun h => ?_, fun h => ?_, fun h => ?_, fun h => ?_⟩,
    fun s n f hi => ⟨fun hd hpm => ⟨fun h => ?_, fun h => ?_⟩, fun hm hpm h => ?_, fun ha h => ?_⟩⟩
  · exact ⟨runs_of_issues hi (fun _ => rfl) (fun _ => rfl) (Core.vx2_of_fits hi.2 h),
      runs_of_issues hi (fun _ => rfl) (fun _ => rfl) (Core.vx2_of_fits hi.2 h),
      runs_of_issues hi (fun _ => rfl) (fun _ => rfl) (Core.vx2_of_fits hi.2 h),
      runs_of_issues hi (fun _ => rfl) (fun _ => rfl) (Core.vx3_of_fits hi.2 h)⟩
  · exact ⟨runs_of_issues hi (fun _ => rfl) (fun _ => rfl) (Core.vx2_of_fits hi.2 h),
      runs_of_issues hi (fun _ => rfl) (fun _ => rfl) (Core.vx2_of_fits hi.2 h),
      runs_of_issues hi (fun _ => rfl) (fun _ => rfl) (Core.vxShuf_of_fits hi.2 h)⟩
  · exact ⟨runs_of_issues hi (fun _ => rfl) (fun _ => rfl) (Core.vx2_of_fits hi.2 h),
      runs_of_issues hi (fun _ => rfl) (fun _ => rfl) (Core.vx2_of_fits hi.2 h),
      runs_of_issues hi (fun _ => rfl) (fun _ => rfl) (Core.vx2_of_fits hi.2 h),
      runs_of_issues hi (fun _ => rfl) (fun _ => rfl) (Core.vx2_of_fits hi.2 h),
      runs_of_issues hi (fun _ => rfl) (fun _ => rfl) (Core.vx2_of_fits hi.2 h),
      runs_of_issues hi (fun _ => rfl) (fun _ => rfl) (Core.vx2_of_fits hi.2 h),
      runs_of_issues hi (fun _ => rfl) (fun _ => rfl) (Core.vx2_of_fits hi.2 h),
      runs_of_issues hi (fun _ => rfl) (fun _ => rfl) (Core.vxImax_of_fits hi.2 h)⟩
  · exact ⟨runs_of_issues hi (fun _ => rfl) (fun _ => rfl) (Core.vx1_of_fits hi.2 h),
      runs_of_issues hi (fun _ => rfl) (fun _ => rfl) (Core.vx1_of_fits hi.2 h),
      runs_of_issues hi (fun _ => rfl) (fun _ => rfl) (Core.vx1_of_fits hi.2 h)⟩
  · exact runs_of_issues hi (fun _ => rfl) (fun _ => rfl) (Core.vx1_of_fits hi.2 h)
  · exact ⟨runs_of_issues hi (fun _ => rfl) (fun _ => rfl) (Core.vxCompare_of_legal hi.2 hd hpm h),
      runs_of_issues hi (fun _ => rfl) (fun _ => rfl) (Core.vxCompare_of_legal hi.2 hd hpm h)⟩
  · exact runs_of_issues hi (fun _ => rfl) (fun _ => rfl) (Core.vxCompare_of_legal hi.2 hd hpm h)
  · exact runs_of_issues hi (fun _ => rfl) (fun _ => rfl) (Core.vxSel_of_legal hi.2 hm hpm h)
  · exact runs_of_issues hi (fun _ => rfl) (fun _ => rfl) (Core.vxBcast_of_legal hi.2 ha h)

/-! Conversions and reductions (R70, R94, R99, R100, R111, R116, R119). -/

namespace Core

section
variable {k : Core} {x : LapCtx} {f : VxFields}

/-- A narrowing to a legal format that fits writes the packed elements of the enabled lanes (R103, R111, R116). -/
theorem vxNarrow_of_legal {rnd : Core → Nat → Rnd} (hc : k.canIssue x .vx = true) (hv : f.vc.toNat < 16)
    (ht : narrowTarget f.vc.toNat = true) (h : Fits x 2) :
    k.vxNarrow x f rnd = k.gave .vx
      (dueAt x .vx 2 (.wV f.vd.toNat (packedMask (fmtWidth f.vc.toNat) (k.enabled f.pm))
          (packedLanes (fmtWidth f.vc.toNat)
            (fun i => (narrow f.vc.toNat (rnd (k.taking .vx) i) (fp32 (lane (k.rv f.va.toNat) i))).1)))
        :: flagsAt x .vx 2 (laneFlags (k.enabled f.pm)
          (fun i => (0, (narrow f.vc.toNat (rnd (k.taking .vx) i) (fp32 (lane (k.rv f.va.toNat) i))).2)) 16)) := by
  rw [vxNarrow, issue_of_canIssue hc, getLsbD_of_lt (i := 4) hv, Nat.mod_eq_of_lt hv]
  dsimp only
  rw [ht, if_neg (by decide)]
  exact writeV_of_fits (lat := 3) h

/-- A legal widening that fits writes the enabled lanes (R119). -/
theorem vxWiden_of_legal (hc : k.canIssue x .vx = true) (hv : f.vc.toNat < 16) (hb : f.vb.toNat < 4)
    (ht : widenSource f.vc.toNat f.vb.toNat = true) (h : Fits x 2) :
    k.vxWiden x f = k.gave .vx [dueAt x .vx 2 (.wV f.vd.toNat (laneMask (k.enabled f.pm))
      (mkLanes (fun i => widen f.vc.toNat (packed (fmtWidth f.vc.toNat) (16 * f.vb.toNat + i) (k.rv f.va.toNat)))))] := by
  rw [vxWiden, issue_of_canIssue hc, getLsbD_of_lt (i := 4) hv, Nat.mod_eq_of_lt hv, Nat.mod_eq_of_lt hb,
    Nat.div_eq_of_lt hb]
  dsimp only
  rw [ht, if_neg (by decide)]
  exact writeV_of_fits (lat := 3) (f := 0) h

/-- A legal VSCALE that fits writes the block scale to lane 0 (R94). -/
theorem vxScale_of_legal (hc : k.canIssue x .vx = true) (hv : f.vc.toNat < 16) (hlo : 3 ≤ f.vc.toNat)
    (hhi : f.vc.toNat ≤ 7) (hb : f.vb = 0) (ha : f.va.toNat % 2 = 0) (h : Fits x 3) :
    let r := vscale f.vc.toNat ((laneList (k.rv f.va.toNat) ++ laneList (k.rv (f.va.toNat + 1))).map fp32)
    k.vxScale x f = k.gave .vx (dueAt x .vx 3 (.wV f.vd.toNat (laneMask (k.enabled f.pm)) (lanesOf [BitVec.ofNat 32 r.1]))
      :: flagsAt x .vx 3 (if k.enabled f.pm 0 then r.2 else 0)) := by
  have hva : f.va.getLsbD 0 = false := by
    simpa [BitVec.getLsbD, Nat.testBit_zero] using ha
  rw [vxScale, issue_of_canIssue hc, getLsbD_of_lt (i := 4) hv, Nat.mod_eq_of_lt hv, hb, hva]
  dsimp only
  rw [decide_eq_true hlo, decide_eq_true hhi, if_neg (by decide)]
  exact writeV_of_fits (lat := 4) h

/-- VMAXI and VMINI write the best pair to lanes 0 and 1 (R70, R105). -/
theorem vxPick_of_fits {pick : Scored → Scored → Scored} (hc : k.canIssue x .vx = true) (h : Fits x 4) :
    let best := (tree16 pick ((laneList (k.rv f.va.toNat)).zip (laneList (k.rv f.vb.toNat)))).headD (0, 0)
    k.vxPick x f pick = k.gave .vx
      [dueAt x .vx 4 (.wV f.vd.toNat (laneMask (k.enabled f.pm)) (lanesOf [canonScore best.1, best.2]))] := by
  rw [vxPick, issue_of_canIssue hc]
  exact writeV_of_fits (lat := 5) (f := 0) h

/-- VSUM writes the tree's sum to lane 0, with the flags of every level when that lane is enabled (R66, R70). -/
theorem vxSum_of_fits (hc : k.canIssue x .vx = true) (h : Fits x 5) :
    let sum := (tree16 (fun (p q : BitVec 32 × BitVec 16) => ((fpAdd p.1 q.1).1, p.2 ||| q.2 ||| (fpAdd p.1 q.1).2))
      ((laneList (k.rv f.va.toNat)).map (fun a => (a, 0)))).headD (0, 0)
    k.vxSum x f = k.gave .vx (dueAt x .vx 5 (.wV f.vd.toNat (laneMask (k.enabled f.pm)) (lanesOf [sum.1]))
      :: flagsAt x .vx 5 (if k.enabled f.pm 0 then sum.2 else 0)) := by
  rw [vxSum, issue_of_canIssue hc]
  exact writeV_of_fits (lat := 6) h

/-- LPADD and LPMUL write both LP16 elements of each enabled lane (R99, R100). -/
theorem vxLp_of_fits {lat : Nat} {g : Nat → Nat → Nat × BitVec 16} (hc : k.canIssue x .vx = true) (h : Fits x (lat - 1)) :
    let e := fun j => g (packed 16 j (k.rv f.va.toNat)) (packed 16 j (k.rv f.vb.toNat))
    k.vxLp x f lat g = k.vxResult x f lat
      (fun i => (BitVec.ofNat 32 ((e (2 * i)).1 + 2 ^ 16 * (e (2 * i + 1)).1), (e (2 * i)).2 ||| (e (2 * i + 1)).2)) :=
  vxLanes_of_fits hc h

end

end Core

/-- Settles O4: narrowing, widening and the scale in their legal forms, and the reductions and LP16 operations, each by its
lemma above. -/
theorem vxConversionsAndReductions : Obligations.VxConversionsAndReductions := by
  refine ⟨fun s n f hi hv => ⟨fun ht h => ?narrow, fun hb ht h => ?widen, fun hlo hhi hb ha h => ?scale⟩,
    fun s n f hi => ⟨fun h => ?pick, fun h => ?sum, fun h => ?lpmul⟩⟩
  case narrow =>
    exact ⟨runs_of_issues hi (fun _ => rfl) (fun _ => rfl) (Core.vxNarrow_of_legal hi.2 hv ht h),
      runs_of_issues hi (fun _ => rfl) (fun _ => rfl) (Core.vxNarrow_of_legal hi.2 hv ht h),
      runs_of_issues hi (fun _ => rfl) (fun _ => rfl) (Core.vxNarrow_of_legal hi.2 hv ht h)⟩
  case widen => exact runs_of_issues hi (fun _ => rfl) (fun _ => rfl) (Core.vxWiden_of_legal hi.2 hv hb ht h)
  case scale => exact runs_of_issues hi (fun _ => rfl) (fun _ => rfl) (Core.vxScale_of_legal hi.2 hv hlo hhi hb ha h)
  case pick =>
    exact ⟨runs_of_issues hi (fun _ => rfl) (fun _ => rfl) (Core.vxPick_of_fits hi.2 h),
      runs_of_issues hi (fun _ => rfl) (fun _ => rfl) (Core.vxPick_of_fits hi.2 h)⟩
  case sum =>
    exact ⟨runs_of_issues hi (fun _ => rfl) (fun _ => rfl) (Core.vxSum_of_fits hi.2 h),
      runs_of_issues hi (fun _ => rfl) (fun _ => rfl) (Core.vxLp_of_fits hi.2 h)⟩
  case lpmul => exact runs_of_issues hi (fun _ => rfl) (fun _ => rfl) (Core.vxLp_of_fits hi.2 h)

end Sys2Proof.Machine

/-! SX and CT (R61, R62, R64, R71). -/
namespace Sys2Proof.Machine
open State
namespace Core

section
variable {k : Core} {x : LapCtx} {f : SxFields}

/-- An SX operation of legal form in a free slot runs on the core that has taken the slot and its interval (R58). -/
theorem sxIssue_of_free {interval : Nat} {bad : Bool} {g : Core → Core} (hc : k.canIssue x .sx = true)
    (hf : k.sxFree ≤ x.c) (hb : bad = false) :
    k.sxIssue x interval bad g = g { k.taking .sx with sxFree := x.c + interval } := by
  rw [sxIssue, issue_of_canIssue hc, hb, if_neg (by decide)]
  exact if_neg (Nat.not_lt.mpr hf)

/-- RAW writes word j of every lane's block to register j of four (R71, R148). -/
theorem sxRaw_of_legal {key : StreamKey} (hc : k.canIssue x .sx = true) (hf : k.sxFree ≤ x.c) (hd : f.vd.toNat % 4 = 0)
    (h : Fits x 23) :
    let kl := key ((k.rs f.ss.toNat).toNat % 2 ^ 16)
    k.sxRaw x f key = { k.gave .sx ((List.range 4).map (fun j => dueAt x .sx 23 (.wV (f.vd.toNat + j) allLanes
      (mkLanes (fun i => (carveBlock kl.1 (k.rawCtr f kl.2 i)).get j))))) with sxFree := x.c + 8 } := by
  rw [sxRaw, sxIssue_of_free hc hf (by simp [hd])]
  dsimp only
  rw [overruns_of_fits h, if_neg (by decide)]
  simp only [push_eq, adding_adding]
  rfl

/-- Operations whose S and A fields are reserved (R71). -/
theorem sxNorm32_of_legal (hc : k.canIssue x .sx = true) (hf : k.sxFree ≤ x.c) (hs : f.ss = 0) (ha : f.ap = 0)
    (h : Fits x 11) :
    k.sxNorm32 x f = { k.gave .sx [dueAt x .sx 11 (.wV f.vd.toNat allLanes
      (mkLanes (fun i => BitVec.ofNat 32 (k.normalLane f .fp32 i))))] with sxFree := x.c + 4 } := by
  rw [sxNorm32, sxIssue_of_free hc hf (by simp [hs, ha])]
  exact writeV_of_fits (lat := 12) (f := 0) h

theorem sxNorm16_of_legal (hc : k.canIssue x .sx = true) (hf : k.sxFree ≤ x.c) (hs : f.ss = 0) (ha : f.ap = 0)
    (h : Fits x 11) :
    k.sxNorm16 x f = { k.gave .sx [dueAt x .sx 11 (.wV f.vd.toNat allLanes
      (BitVec.ofNat 512 (packFrom 16 (k.normalLane f .bf16) 16)))] with sxFree := x.c + 4 } := by
  rw [sxNorm16, sxIssue_of_free hc hf (by simp [hs, ha])]
  exact writeV_of_fits (lat := 12) (f := 0) h

theorem sxGumb_of_legal (hc : k.canIssue x .sx = true) (hf : k.sxFree ≤ x.c) (hs : f.ss = 0) (ha : f.ap = 0)
    (h : Fits x 9) :
    k.sxGumb x f = { k.gave .sx [dueAt x .sx 9 (.wV f.vd.toNat allLanes
      (mkLanes (fun i => gumbelKey (lane (k.rv f.ve.toNat) i).toNat)))] with sxFree := x.c + 1 } := by
  rw [sxGumb, sxIssue_of_free hc hf (by simp [hs, ha])]
  exact writeV_of_fits (lat := 10) (f := 0) h

/-- BERNP and BERNL compare each element with its threshold, and raise the thresholds' flags (R172, R173). -/
theorem sxBern_of_legal {lat : Nat} {t : Nat → Nat × BitVec 16} (hc : k.canIssue x .sx = true) (hf : k.sxFree ≤ x.c)
    (ha : f.ap = 0) (he : f.ve.toNat % 2 = 0) (h : Fits x (lat - 1)) :
    k.sxBern x f lat t = { k.gave .sx
      (dueAt x .sx (lat - 1) (.wV f.vd.toNat allLanes (BitVec.ofNat 512 (packFrom 1 (fun j =>
          if k.pair16 (vuReg f) j < (t (k.pair16 f.ve.toNat j)).1 then 1 else 0) 64)))
        :: flagsAt x .sx (lat - 1) (bernFlags (fun j => t (k.pair16 f.ve.toNat j)) 64)) with sxFree := x.c + 1 } := by
  have hbad : bernBad f = false := by
    simpa [bernBad, ha, BitVec.getLsbD, Nat.testBit_zero] using he
  rw [sxBern, sxIssue_of_free hc hf hbad]
  exact writeV_of_fits h

/-- Thresholds without flags raise none. -/
theorem bernFlags_of_none {t : Nat → Nat × BitVec 16} (h : ∀ j, (t j).2 = 0) (n : Nat) : bernFlags t n = 0 := by
  induction n with
  | zero => rfl
  | succ n ih => simp [bernFlags, ih, h]

end
end Core

/-- Settles O5: each form through the issue that finds SX free (`Core.sxIssue_of_free`). -/
theorem sxOperations : Obligations.SxOperations := by
  intro s n f ⟨hi, hfree⟩
  refine ⟨fun hd h => ?raw, fun hs ha h => ⟨?norm32, ?norm16⟩, fun hs ha h => ?gumb, fun ha he h => ?bernp,
    fun ha he h => ?bernl⟩
  case raw => exact runs_of_issues hi (fun _ => rfl) (fun _ => rfl) (Core.sxRaw_of_legal hi.2 hfree hd h)
  case norm32 => exact runs_of_issues hi (fun _ => rfl) (fun _ => rfl) (Core.sxNorm32_of_legal hi.2 hfree hs ha h)
  case norm16 => exact runs_of_issues hi (fun _ => rfl) (fun _ => rfl) (Core.sxNorm16_of_legal hi.2 hfree hs ha h)
  case gumb => exact runs_of_issues hi (fun _ => rfl) (fun _ => rfl) (Core.sxGumb_of_legal hi.2 hfree hs ha h)
  case bernp =>
    have hbern := Core.sxBern_of_legal (lat := 3) (t := fun q => (q, 0)) hi.2 hfree ha he h
    rw [Core.bernFlags_of_none (fun _ => rfl)] at hbern
    exact runs_of_issues hi (fun _ => rfl) (fun _ => rfl) hbern
  case bernl => exact runs_of_issues hi (fun _ => rfl) (fun _ => rfl) (Core.sxBern_of_legal (lat := 5) hi.2 hfree ha he h)

/-! CT (R61, R62). -/

namespace Core

section
variable {k : Core} {x : LapCtx} {arg : BitVec 12}

/-- A CT operation of legal form runs on the core that has taken the slot. -/
theorem ctOp_of_legal {bad : Bool} {g : Core → Core} (hc : k.canIssue x .ct = true) (hb : bad = false) :
    k.ctOp x bad g = g (k.taking .ct) := by
  rw [ctOp, issue_of_canIssue hc, hb, if_neg (by decide)]

/-- The loop counter that a CT argument names: its bits 11:10. -/
theorem ctArg_counter (arg : BitVec 12) : bitsOf arg.toNat 11 10 = arg.toNat / 1024 := by
  rw [bitsOf, Nat.shiftRight_eq_div_pow, Nat.mod_eq_of_lt (by have := arg.isLt; omega)]

/-- LOOP on a counter at zero starts it (R61). -/
theorem ctLoopOp_of_zero (hc : k.canIssue x .ct = true) (h : (k.rl (arg.toNat / 1024)).count = 0) :
    k.ctLoopOp x arg = k.gave .ct [dueAt x .ct 0 (.ctLoop (arg.toNat / 1024) (arg.toNat % 1024 + 1))] := by
  rw [ctLoopOp, ctOp_of_legal hc rfl, ctArg_counter]
  exact if_neg (by simpa using h)

/-- LOOP on a counter that is not zero raises LOOP_FAULT (R62). -/
theorem ctLoopOp_of_ne_zero (hc : k.canIssue x .ct = true) (h : (k.rl (arg.toNat / 1024)).count ≠ 0) :
    k.ctLoopOp x arg = k.trapped .ct tLOOP := by
  rw [ctLoopOp, ctOp_of_legal hc rfl, ctArg_counter]
  exact (if_pos (by simpa using h)).trans (trap_taking hc)

/-- ENDL on a counter that is not zero counts it down (R61). -/
theorem ctEndlOp_of_ne_zero (hc : k.canIssue x .ct = true) (ha : arg.toNat % 1024 = 0)
    (h : (k.rl (arg.toNat / 1024)).count ≠ 0) :
    k.ctEndlOp x arg = k.gave .ct [dueAt x .ct 0 (.ctEndl (arg.toNat / 1024))] := by
  rw [ctEndlOp, ctOp_of_legal hc (by simp [ha]), ctArg_counter]
  exact if_neg (by simpa using h)

/-- ENDL on a counter that is zero raises LOOP_FAULT (R62). -/
theorem ctEndlOp_of_zero (hc : k.canIssue x .ct = true) (ha : arg.toNat % 1024 = 0)
    (h : (k.rl (arg.toNat / 1024)).count = 0) : k.ctEndlOp x arg = k.trapped .ct tLOOP := by
  rw [ctEndlOp, ctOp_of_legal hc (by simp [ha]), ctArg_counter]
  exact (if_pos (by simpa using h)).trans (trap_taking hc)

theorem ctWaitOp_of_legal (hc : k.canIssue x .ct = true) (ha : arg.toNat < 1024) :
    k.ctWaitOp x arg = k.gave .ct [dueAt x .ct 0 (.ctWait (arg.toNat + 1))] := by
  rw [ctWaitOp, ctOp_of_legal hc (by simp [Nat.div_eq_of_lt ha]), Nat.mod_eq_of_lt ha]
  rfl

theorem ctEndOp_of_legal (hc : k.canIssue x .ct = true) (ha : arg.toNat < 2048) :
    k.ctEndOp x arg = k.gave .ct [dueAt x .ct 0 (.ctEnd arg.toNat)] := by
  rw [ctEndOp, ctOp_of_legal hc (by simp [Nat.div_eq_of_lt ha]), Nat.mod_eq_of_lt ha]
  rfl

/-- RDFLAG, RDCC and RDLAP write their value to an S register (R61). -/
theorem ctRead_of_legal {bad : Bool} {r : Nat} {val : Core → BitVec 32} (hc : k.canIssue x .ct = true) (hb : bad = false)
    (h : Fits x 0) : k.ctRead x bad r val = k.gave .ct [dueAt x .ct 0 (.wS r (val (k.taking .ct)))] := by
  rw [ctRead, ctOp_of_legal hc hb]
  exact writeS_of_fits (lat := 1) h

/-- Bit 4 of RDLAP's argument names the upper half of the lap number (R61). -/
theorem getLsbD_four {arg : BitVec 12} (h : arg.toNat < 32) : arg.getLsbD 4 = decide (16 ≤ arg.toNat) := by
  rw [BitVec.getLsbD, Nat.testBit_eq_decide_div_mod_eq]
  exact decide_eq_decide.mpr (by omega)

end
end Core

/-- Settles O6: each operation runs on the core that has taken the CT slot (`Core.ctOp_of_legal`). -/
theorem ctOperations : Obligations.CtOperations := by
  intro s n arg hi
  refine ⟨fun h => ?loop, fun h ha => ?endl, fun ha => ?wait, fun ha => ?endLap, fun h ha => ⟨?rdflag, ?rdcc⟩,
    fun h ha => ?rdlap⟩
  case loop => exact runs_of_issues hi (fun _ => rfl) (fun _ => rfl) (Core.ctLoopOp_of_zero hi.2 h)
  case endl => exact runs_of_issues hi (fun _ => rfl) (fun _ => rfl) (Core.ctEndlOp_of_ne_zero hi.2 ha h)
  case wait => exact runs_of_issues hi (fun _ => rfl) (fun _ => rfl) (Core.ctWaitOp_of_legal hi.2 ha)
  case endLap => exact runs_of_issues hi (fun _ => rfl) (fun _ => rfl) (Core.ctEndOp_of_legal hi.2 ha)
  case rdflag =>
    refine runs_of_issues hi (fun _ => rfl) (fun _ => rfl) ?_
    rw [Core.ctRead_of_legal hi.2 (by simp [Nat.div_eq_of_lt ha]) h, Nat.mod_eq_of_lt ha]
    rfl
  case rdcc =>
    refine runs_of_issues hi (fun _ => rfl) (fun _ => rfl) ?_
    rw [Core.ctRead_of_legal hi.2 (by simp [Nat.div_eq_of_lt ha]) h, Nat.mod_eq_of_lt ha]
  case rdlap =>
    refine runs_of_issues hi (fun _ => rfl) (fun _ => rfl) ?_
    rw [Core.ctRead_of_legal hi.2 (by simp [Nat.div_eq_of_lt ha]) h, Core.getLsbD_four ha]
    simp only [decide_eq_true_eq]

/-- Settles O56: LOOP on a counter that is not zero, and ENDL on one that is, trap where they issue. -/
theorem loopFaults : Obligations.LoopFaults := fun _ _ arg hi =>
  ⟨by have := arg.isLt; omega,
    fun u h => runs_of_issues hi (fun _ => rfl) (fun _ => rfl) (Core.ctLoopOp_of_ne_zero hi.2 h) u,
    fun u h ha => runs_of_issues hi (fun _ => rfl) (fun _ => rfl) (Core.ctEndlOp_of_zero hi.2 ha h) u⟩

end Sys2Proof.Machine

/-! MX: the issue and the retirement of an MMA (R67, R68, R131, R133, R137). -/
namespace Sys2Proof.Machine
open State
namespace Core

/-- An MMA that may issue joins the ones in flight with its operands as they are now (R67, R68). -/
theorem mxOp_of_legal {k : Core} {x : LapCtx} {f : MxFields} {row : Core → Nat} (hc : k.canIssue x .mx = true)
    (hfree : k.mxFree ≤ x.c) (hf : mmaFormat f.fmt.toNat = true) (hp : mmaPart f.fmt.toNat f.part.toNat = true)
    (hh : k.heldByDrain x.c f.tile.toNat = false) (h : Fits x (if mmaSlow f.fmt.toNat then 9 else 6)) :
    k.mxOp x f row = { k.gave .mx [] with
      mxFree := x.c + (if mmaSlow f.fmt.toNat then 4 else 1)
      mmas := k.mmas ++ [⟨x.c, x.c + (if mmaSlow f.fmt.toNat then 9 else 6), f.fmt.toNat, f.tile.toNat, row (k.taking .mx),
        decide (f.acc = 1), f.part.toNat, k.rv f.va.toNat, k.columnGroup f.bg.toNat⟩] } := by
  have hheld : (k.taking .mx).heldByDrain x.c f.tile.toNat = false := hh
  rw [mxOp, issue_of_canIssue hc]
  dsimp only
  rw [hf, hp, if_neg (by decide), if_neg (show ¬ x.c < (k.taking .mx).mxFree from Nat.not_lt.mpr hfree), hheld,
    if_neg (by decide), overruns_of_fits h, if_neg (by decide), gave_eq, adding_nil]
  rfl

/-- From k to k' one row of a tile, and the flags that are due, may have changed, and nothing else that is named here. -/
structure RowOnly (tile row : Nat) (k k' : Core) : Prop where
  mmas : k'.mmas = k.mmas
  v : k'.v = k.v
  s : k'.s = k.s
  data : k'.data = k.data
  trapNow : k'.trapNow = k.trapNow
  entries : ∀ i, (∀ j < 16, i ≠ 256 * tile + 16 * row + j) →
    Table.get TileEntry.empty i k'.tiles = Table.get TileEntry.empty i k.tiles

namespace RowOnly
variable {tile row : Nat} {a b c : Core}

theorem refl (k : Core) : RowOnly tile row k k := ⟨rfl, rfl, rfl, rfl, rfl, fun _ _ => rfl⟩

theorem trans (h : RowOnly tile row a b) (h' : RowOnly tile row b c) : RowOnly tile row a c where
  mmas := h'.mmas.trans h.mmas
  v := h'.v.trans h.v
  s := h'.s.trans h.s
  data := h'.data.trans h.data
  trapNow := h'.trapNow.trans h.trapNow
  entries i hi := (h'.entries i hi).trans (h.entries i hi)

/-- A trap raised before and after is no part of that. -/
theorem trapping (h : RowOnly tile row a b) (code : Option Nat) :
    RowOnly tile row { a with trapNow := code } { b with trapNow := code } :=
  ⟨h.mmas, h.v, h.s, h.data, rfl, h.entries⟩

/-- An entry of another tile, or of another row, stands. -/
theorem entryAt (h : RowOnly tile row a b) {t r col : Nat} (hcol : col < 16) (hne : t ≠ tile ∨ r ≠ row) (hr : r < 16)
    (hrow : row < 16) : b.entryAt t r col = a.entryAt t r col :=
  h.entries _ fun j hj => by omega

end RowOnly

theorem rowOnly_insertOut (m : MmaOp) (k : Core) {j : Nat} (o : ChunkOut) (hj : j < 16) :
    RowOnly m.tile m.row k (insertOut m k j o) :=
  ⟨rfl, rfl, rfl, rfl, rfl, fun _ hi => Table.get_put_ne _ (hi j hj) ..⟩

theorem rowOnly_insertOuts (m : MmaOp) (l : List ChunkOut) (k : Core) (j : Nat) (hj : j + l.length ≤ 16) :
    RowOnly m.tile m.row k (insertOuts m k j l) := by
  induction l generalizing k j with
  | nil => exact .refl k
  | cons o l ih =>
    rw [List.length_cons] at hj
    exact (rowOnly_insertOut m k o (by omega)).trans (ih _ _ (by omega))

/-- Entries that no put of a row names stand. -/
theorem get_foldl_putRow (g : Nat → TileEntry) {base i : Nat} (l : List Nat) (t : Table TileEntry)
    (h : ∀ j ∈ l, i ≠ base + j) :
    Table.get TileEntry.empty i (l.foldl (fun t j => Table.put (base + j) (g j) t) t) = Table.get TileEntry.empty i t := by
  induction l generalizing t with
  | nil => rfl
  | cons j l ih =>
    rw [List.foldl_cons, ih _ fun j' hj' => h j' (List.mem_cons_of_mem _ hj'), Table.get_put_ne _ (h j (List.mem_cons_self ..))]

theorem rowOnly_freeRow (k : Core) (v : BitVec 5904) (tile row : Nat) : RowOnly tile row k (k.freeRow v tile row) := by
  have htiles := fun i hi => get_foldl_putRow (freeEntry v) (base := 256 * tile + 16 * row) (i := i) (List.range 16) k.tiles hi
  unfold freeRow
  generalize (List.range 16).foldl _ _ = t at htiles ⊢
  exact ⟨rfl, rfl, rfl, rfl, rfl, fun i hi => htiles i fun j hj => hi j (List.mem_range.mp hj)⟩

section
variable {k : Core} {x : LapCtx} {m : MmaOp} {ms : List MmaOp} {err : List Int}

/-- The core once its oldest MMA has left. -/
def retiring (k : Core) (ms : List MmaOp) : Core := { k with mmas := ms }

/-- The oldest MMA, in its retirement cycle, with every residue check passed (R131, R133). -/
theorem mmaRetire_of_pass (hm : k.mmas = m :: ms) (hx : x.live = true) (hr : m.retire = x.c)
    (hp : residuesPass m err = true) (u : Bool) (v : BitVec 5904) :
    k.mmaRetire x err u v = if u then ((insertOuts m (k.retiring ms) 0 (mmaOuts m err)).trap tWORD).freeRow v m.tile m.row
      else insertOuts m (k.retiring ms) 0 (mmaOuts m err) := by
  rw [residuesPass] at hp
  unfold mmaRetire
  rw [hm]
  dsimp only
  rw [hx, hr, hp, beq_self_eq_true]
  rfl

/-- With a residue check failed the row stands (R137). -/
theorem mmaRetire_of_fail (hm : k.mmas = m :: ms) (hx : x.live = true) (hr : m.retire = x.c)
    (hp : residuesPass m err = false) (ht : k.trapNow = none) (u : Bool) (v : BitVec 5904) :
    k.mmaRetire x err u v = { k with mmas := ms, trapNow := some tRESIDUE } := by
  rw [residuesPass] at hp
  unfold mmaRetire
  rw [hm]
  dsimp only
  rw [hx, hr, hp, beq_self_eq_true]
  exact trap_of_none (k := k.retiring ms) ht

/-- Sums that go into a row, and the word of the row that cannot be corrected, touch that row alone, and raise
WORD_UNCORRECTABLE (R51). -/
theorem spoiltRow (k : Core) (v : BitVec 5904) (ht : k.trapNow = none) :
    RowOnly m.tile m.row { k with trapNow := some tWORD }
      (((insertOuts m k 0 (mmaOuts m err)).trap tWORD).freeRow v m.tile m.row) := by
  have hins := rowOnly_insertOuts m (mmaOuts m err) k 0 (by simp [mmaOuts])
  rw [trap_of_none (hins.trapNow.trans ht)]
  exact (hins.trapping _).trans (rowOnly_freeRow ..)

end
end Core

theorem onCore_of_has {s : State} {n : Nat} {f : Core → LapCtx → Core} (h : Table.has n s.grid.cores = true) :
    s.onCore n f = s.setCore n (f (s.core n) (s.ctxOf n)) := if_pos h

/-- Settles O7: the issue holds tile, row and operands; a retirement adds its sums, loses a word that cannot be corrected, or
raises what its residue check found. -/
theorem mmaIssueAndRetirement : Obligations.MmaIssueAndRetirement := by
  refine ⟨fun s n f ⟨hi, hfree⟩ hf hp hh h => ?issue, fun s n err m ms hn hm hx hr => ⟨fun hp => ⟨?sums, fun ht => ?upset⟩,
    fun hp ht => ?residue⟩⟩
  case issue =>
    exact ⟨runs_of_issues hi (fun _ => rfl) (fun _ => rfl) (Core.mxOp_of_legal hi.2 hfree hf hp hh h),
      runs_of_issues hi (fun _ => rfl) (fun _ => rfl) (Core.mxOp_of_legal hi.2 hfree hf hp hh h)⟩
  case sums =>
    exact congrArg Host.Outcome.next ((onCore_of_has hn).trans (by rw [Core.mmaRetire_of_pass hm hx hr hp false]; rfl))
  case upset =>
    have hrow := Core.spoiltRow (m := m) (err := err) ((s.core n).retiring ms) (s.free 5904).1 ht
    refine ⟨_, _, congrArg Host.Outcome.next ((onCore_of_has (s := (s.free 5904).2) hn).trans
      (congrArg ((s.free 5904).2.setCore n) (Core.mmaRetire_of_pass hm hx hr hp true (s.free 5904).1))), rfl, ?_⟩
    exact ⟨hrow.mmas, hrow.trapNow, hrow.v, hrow.s, hrow.data, fun _ _ _ hc hne hlt hm => hrow.entryAt hc hne hlt hm⟩
  case residue =>
    intro u
    cases u with
    | false =>
      exact ⟨s.fresh, congrArg Host.Outcome.next ((onCore_of_has hn).trans
        (by rw [Core.mmaRetire_of_fail hm hx hr hp ht]; rfl))⟩
    | true =>
      exact ⟨s.fresh + 1, congrArg Host.Outcome.next ((onCore_of_has (s := (s.free 5904).2) hn).trans
        (congrArg ((s.free 5904).2.setCore n) (Core.mmaRetire_of_fail hm hx hr hp ht true _)))⟩

end Sys2Proof.Machine

/-! MV: loads and stores, gather and scatter, scalar, address and tile operations (R48, R49, R52, R66, R73 to R76). -/
namespace Sys2Proof.Machine
open State
namespace Core

/-- The core whose MV slot has issued, and is held until cycle c. -/
def takingMv (k : Core) (c : Nat) : Core := { k.taking .mv with mvFree := c }

@[simp] theorem takingMv_ra (k : Core) (c : Nat) : (k.takingMv c).ra = k.ra := rfl
@[simp] theorem takingMv_goldenData (k : Core) (c : Nat) : (k.takingMv c).goldenData = k.goldenData := rfl
@[simp] theorem takingMv_enabled (k : Core) (c : Nat) : (k.takingMv c).enabled = k.enabled := rfl
@[simp] theorem takingMv_gatherAddr (k : Core) (c : Nat) : (k.takingMv c).gatherAddr = k.gatherAddr := rfl
@[simp] theorem takingMv_heldByMma (k : Core) (c : Nat) : (k.takingMv c).heldByMma = k.heldByMma := rfl
@[simp] theorem takingMv_heldByDrain (k : Core) (c : Nat) : (k.takingMv c).heldByDrain = k.heldByDrain := rfl

section
variable {k : Core} {x : LapCtx}

/-- An MV operation of legal form in a free slot runs on the core that has taken the slot and its interval (R58). -/
theorem mvIssue_of_free {interval : Nat} {bad : Bool} {g : Core → Core} (hc : k.canIssue x .mv = true)
    (hf : k.mvFree ≤ x.c) (hb : bad = false) : k.mvIssue x interval bad g = g (k.takingMv (x.c + interval)) := by
  rw [mvIssue, issue_of_canIssue hc, hb, if_neg (by decide)]
  exact if_neg (Nat.not_lt.mpr hf)

/-- An MV operation that breaks a rule after its issue leaves its trap (R59). -/
theorem trap_takingMv {c code : Nat} (hc : k.canIssue x .mv = true) :
    (k.takingMv c).trap code = { k.trapped .mv code with mvFree := c } :=
  trap_of_none (k := k.takingMv c) (trapNow_of_canIssue (k := k) hc)

theorem inData_of_lt {a : Nat} (h : a < 0x30000) : inData a = true := decide_eq_true h

theorem inData_of_le {a : Nat} (h : 0x30000 ≤ a) : inData a = false := decide_eq_false (Nat.not_lt.mpr h)

theorem goldenData_of_le {a : Nat} (h : k.dtop ≤ a) : k.goldenData a = false := decide_eq_false (Nat.not_lt.mpr h)

/-- A load inside data SRAM reads one bank, and writes its register from the bytes there (R48, R73). -/
theorem loadAt_of_fits {a n : Nat} {wr : Core → Nat → Core} (ha : a < 0x30000) (h : Fits x 2) :
    k.loadAt x a n wr = wr (k.adding [dueAt x .mv 0 (.readBank (a / 0x4000))]) (k.dataNum a n) := by
  rw [loadAt, inData_of_lt ha, overruns_of_fits h]
  rfl

/-- A load outside data SRAM raises ADDRESS_RANGE (R49). -/
theorem loadAt_of_outside {a n : Nat} {wr : Core → Nat → Core} (ha : 0x30000 ≤ a) : k.loadAt x a n wr = k.trap tRANGE := by
  rw [loadAt, inData_of_le ha]
  rfl

/-- A store into the working region is to come (R73). -/
theorem storeAt_of_fits {sl : OpSlot} {a n mask val : Nat} (hg : k.dtop ≤ a) (ha : a < 0x30000) (h : Fits x 1) :
    k.storeAt x sl a n mask val = k.adding [dueAt x sl 1 (storeAct a n mask val)] := by
  rw [storeAt, inData_of_lt ha, goldenData_of_le hg, overruns_of_fits h]
  rfl

/-- A store into the golden region raises GOLDEN_WRITE (R52). -/
theorem storeAt_of_golden {sl : OpSlot} {a n mask val : Nat} (hg : a < k.dtop) (ha : a < 0x30000) :
    k.storeAt x sl a n mask val = k.trap tGOLDEN := by
  rw [storeAt, inData_of_lt ha, goldenData, decide_eq_true hg]
  rfl

/-- A store outside data SRAM raises ADDRESS_RANGE (R49). -/
theorem storeAt_of_outside {sl : OpSlot} {a n mask val : Nat} (ha : 0x30000 ≤ a) :
    k.storeAt x sl a n mask val = k.trap tRANGE := by
  rw [storeAt, inData_of_le ha]
  rfl

/-- LDV and LDVX, from the address adr into register r under the mask m (R73). -/
theorem mvLoadV_of_fits {bad : Bool} {adr : Core → Nat} {r : Nat} {m : Core → Lanes} (hc : k.canIssue x .mv = true)
    (hf : k.mvFree ≤ x.c) (hb : bad = false) (ha : adr (k.takingMv (x.c + 1)) < 0x30000) (h : Fits x 2) :
    k.mvIssue x 1 bad (fun k => k.loadAt x (adr k) 64 (fun k' v => k'.push x .mv 2 (.wV r (m k) (BitVec.ofNat 512 v))))
      = { k.gave .mv [dueAt x .mv 0 (.readBank (adr (k.takingMv (x.c + 1)) / 0x4000)),
          dueAt x .mv 2 (.wV r (m (k.takingMv (x.c + 1))) (BitVec.ofNat 512 (k.dataNum (adr (k.takingMv (x.c + 1))) 64)))] with
          mvFree := x.c + 1 } := by
  rw [mvIssue_of_free hc hf hb, loadAt_of_fits ha h, push_eq, adding_adding]
  rfl

/-- LDS writes its S register when lane 0 is enabled (R66, R73). -/
theorem mvLds_of_fits {f : MvM} (hc : k.canIssue x .mv = true) (hf : k.mvFree ≤ x.c) (hd : f.d.toNat < 16)
    (ha : addrOf (k.ra f.ab.toNat) (4 * f.off.toInt) 4 < 0x30000) (h : Fits x 2) :
    k.mvLds x f = { k.gave .mv (dueAt x .mv 0 (.readBank (addrOf (k.ra f.ab.toNat) (4 * f.off.toInt) 4 / 0x4000)) ::
      if k.enabled f.pm 0 then
        [dueAt x .mv 2 (.wS f.d.toNat (BitVec.ofNat 32 (k.dataNum (addrOf (k.ra f.ab.toNat) (4 * f.off.toInt) 4) 4)))]
      else []) with mvFree := x.c + 1 } := by
  rw [mvLds, mvIssue_of_free hc hf (getLsbD_of_lt (i := 4) hd), takingMv_ra, loadAt_of_fits ha h, takingMv_enabled]
  cases k.enabled f.pm 0 with
  | false => rfl
  | true =>
    rw [if_pos rfl, push_eq, adding_adding]
    rfl

/-- STV, STVX and STS at address adr, with their mask and value (R73). -/
theorem mvStore_of_fits {bad : Bool} {n : Nat} {adr mask val : Core → Nat} (hc : k.canIssue x .mv = true)
    (hf : k.mvFree ≤ x.c) (hb : bad = false) (hg : k.dtop ≤ adr (k.takingMv (x.c + 1)))
    (ha : adr (k.takingMv (x.c + 1)) < 0x30000) (h : Fits x 1) :
    k.mvIssue x 1 bad (fun k => k.storeAt x .mv (adr k) n (mask k) (val k))
      = { k.gave .mv [dueAt x .mv 1 (storeAct (adr (k.takingMv (x.c + 1))) n (mask (k.takingMv (x.c + 1)))
          (val (k.takingMv (x.c + 1))))] with mvFree := x.c + 1 } := by
  rw [mvIssue_of_free hc hf hb, storeAt_of_fits (k := k.takingMv (x.c + 1)) hg ha h]
  rfl

/-- STV into the golden region (R52). -/
theorem mvStv_of_golden {f : MvM} (hc : k.canIssue x .mv = true) (hf : k.mvFree ≤ x.c)
    (ha : addrOf (k.ra f.ab.toNat) (64 * f.off.toInt) 64 < 0x30000)
    (hg : addrOf (k.ra f.ab.toNat) (64 * f.off.toInt) 64 < k.dtop) :
    k.mvStv x f = { k.trapped .mv tGOLDEN with mvFree := x.c + 1 } := by
  rw [mvStv, mvIssue_of_free hc hf rfl, takingMv_ra, storeAt_of_golden (k := k.takingMv (x.c + 1)) hg ha, trap_takingMv hc]

/-- STV and LDV outside data SRAM (R49). -/
theorem mvStv_of_outside {f : MvM} (hc : k.canIssue x .mv = true) (hf : k.mvFree ≤ x.c)
    (ha : 0x30000 ≤ addrOf (k.ra f.ab.toNat) (64 * f.off.toInt) 64) :
    k.mvStv x f = { k.trapped .mv tRANGE with mvFree := x.c + 1 } := by
  rw [mvStv, mvIssue_of_free hc hf rfl, takingMv_ra, storeAt_of_outside ha, trap_takingMv hc]

theorem mvLdv_of_outside {f : MvM} (hc : k.canIssue x .mv = true) (hf : k.mvFree ≤ x.c)
    (ha : 0x30000 ≤ addrOf (k.ra f.ab.toNat) (64 * f.off.toInt) 64) :
    k.mvLdv x f = { k.trapped .mv tRANGE with mvFree := x.c + 1 } := by
  rw [mvLdv, mvIssue_of_free hc hf rfl, takingMv_ra, loadAt_of_outside ha, trap_takingMv hc]

/-- The lanes of a gather, none of them upset, each with its read (R73). -/
theorem gatherReads_eq (f : MvG) (adr : Nat → Nat) (n i : Nat) (k : Core) :
    gatherReads x f 0 adr n i k = k.adding ((List.range' i n).flatMap
      (fun j => [dueAt x .mv j (.readBank (adr j / 0x4000)), dueAt x .mv j (.gather f.d.toNat j (adr j))])) := by
  induction n generalizing i k with
  | zero => exact (adding_nil k).symm
  | succ n ih =>
    rw [gatherReads, if_neg (by simp), ih, push_eq, push_eq, adding_adding, adding_adding, List.range'_succ, List.flatMap_cons]
    rfl

/-- The lanes of a scatter, each with its write (R73). -/
theorem scatWrites_eq (f : MvG) (k0 : Core) (n i : Nat) (k : Core) :
    scatWrites x f k0 n i k = k.adding ((List.range' i n).map (fun j => dueAt x .mv (1 + j)
      (storeAct (k0.gatherAddr f j) 4 (if k0.enabled f.pm j then 0xF else 0) (lane (k0.rv f.d.toNat) j).toNat))) := by
  induction n generalizing i k with
  | zero => exact (adding_nil k).symm
  | succ n ih =>
    rw [scatWrites, ih, push_eq, adding_adding, List.range'_succ, List.map_cons]
    rfl

/-- None of 16 lanes or rows breaks a rule. -/
theorem any_range_eq_false {p : Nat → Bool} {n : Nat} (h : ∀ i < n, p i = false) : (List.range n).any p = false := by
  simpa using h

theorem mvGath_of_legal {f : MvG} (hc : k.canIssue x .mv = true) (hf : k.mvFree ≤ x.c) (hr : f.rsvd = 0)
    (ha : ∀ i < 16, k.gatherAddr f i < 0x30000) (h : Fits x 17) :
    k.mvGath x f 0 = { k.gave .mv (dueAt x .mv 17 (.wV f.d.toNat (laneMask (k.enabled f.pm)) 0) ::
      (List.range 16).flatMap (fun i => [dueAt x .mv i (.readBank (k.gatherAddr f i / 0x4000)),
        dueAt x .mv i (.gather f.d.toNat i (k.gatherAddr f i))])) with mvFree := x.c + 16 } := by
  rw [mvGath, mvIssue_of_free hc hf (by simp [hr]), takingMv_gatherAddr,
    any_range_eq_false fun i hi => by rw [inData_of_lt (ha i hi)]; rfl, if_neg (by decide), overruns_of_fits h,
    if_neg (by decide), gatherReads_eq, push_eq, adding_adding, List.range_eq_range']
  rfl

theorem mvScat_of_legal {f : MvG} (hc : k.canIssue x .mv = true) (hf : k.mvFree ≤ x.c) (hr : f.rsvd = 0)
    (ha : ∀ i < 16, k.gatherAddr f i < 0x30000) (hg : ∀ i < 16, k.dtop ≤ k.gatherAddr f i) (h : Fits x 16) :
    k.mvScat x f = { k.gave .mv ((List.range 16).map (fun i => dueAt x .mv (1 + i)
      (storeAct (k.gatherAddr f i) 4 (if k.enabled f.pm i then 0xF else 0) (lane (k.rv f.d.toNat) i).toNat))) with
      mvFree := x.c + 16 } := by
  rw [mvScat, mvIssue_of_free hc hf (by simp [hr]), takingMv_gatherAddr, takingMv_goldenData,
    any_range_eq_false fun i hi => by rw [inData_of_lt (ha i hi)]; rfl, if_neg (by decide),
    any_range_eq_false fun i hi => goldenData_of_le (hg i hi), if_neg (by decide), overruns_of_fits h,
    if_neg (by decide), scatWrites_eq, List.range_eq_range']
  rfl

end
end Core

/-- Settles O8: the vector and scalar accesses share one load and one store lemma; gather and scatter make theirs lane by lane. -/
theorem mvMemoryAccess : Obligations.MvMemoryAccess := by
  refine ⟨fun s n m i ⟨hi, hfree⟩ hr => ⟨fun ha h => ?ldv, fun ha h => ?ldvx, fun ha h hd => ?lds, fun hg ha h => ?stv,
    fun hg ha h => ?stvx, fun hg ha h hd => ?sts⟩, fun s n m ⟨hi, hfree⟩ => ⟨fun ha hg => ?golden, fun ha => ⟨?range, ?rangeLoad⟩⟩,
    fun s n f ⟨hi, hfree⟩ hr ha => ⟨fun h => ?gath, fun hg h => ?scat⟩⟩
  case ldv =>
    exact runs_of_issues hi (fun _ => rfl) (fun _ => rfl) (Core.mvLoadV_of_fits
      (adr := fun k => Core.addrOf (k.ra m.ab.toNat) (64 * m.off.toInt) 64) (m := fun k => laneMask (k.enabled m.pm))
      hi.2 hfree rfl ha h)
  case ldvx =>
    exact runs_of_issues hi (fun _ => rfl) (fun _ => rfl) (Core.mvLoadV_of_fits
      (adr := fun k => k.indexedAddr i) (m := fun k => laneMask (k.enabled i.pm)) hi.2 hfree (by simp [hr]) ha h)
  case lds => exact runs_of_issues hi (fun _ => rfl) (fun _ => rfl) (Core.mvLds_of_fits hi.2 hfree hd ha h)
  case stv =>
    exact runs_of_issues hi (fun _ => rfl) (fun _ => rfl) (Core.mvStore_of_fits
      (adr := fun k => Core.addrOf (k.ra m.ab.toNat) (64 * m.off.toInt) 64)
      (mask := fun k => Core.byteMask (k.enabled m.pm) 16) (val := fun k => (k.rv m.d.toNat).toNat) hi.2 hfree rfl hg ha h)
  case stvx =>
    exact runs_of_issues hi (fun _ => rfl) (fun _ => rfl) (Core.mvStore_of_fits
      (adr := fun k => k.indexedAddr i) (mask := fun k => Core.byteMask (k.enabled i.pm) 16)
      (val := fun k => (k.rv i.d.toNat).toNat) hi.2 hfree (by simp [hr]) hg ha h)
  case sts =>
    exact runs_of_issues hi (fun _ => rfl) (fun _ => rfl) (Core.mvStore_of_fits
      (adr := fun k => Core.addrOf (k.ra m.ab.toNat) (4 * m.off.toInt) 4)
      (mask := fun k => if k.enabled m.pm 0 then 0xF else 0) (val := fun k => (k.rs m.d.toNat).toNat)
      hi.2 hfree (Core.getLsbD_of_lt (i := 4) hd) hg ha h)
  case golden => exact runs_of_issues hi (fun _ => rfl) (fun _ => rfl) (Core.mvStv_of_golden hi.2 hfree ha hg)
  case range => exact runs_of_issues hi (fun _ => rfl) (fun _ => rfl) (Core.mvStv_of_outside hi.2 hfree ha)
  case rangeLoad => exact runs_of_issues hi (fun _ => rfl) (fun _ => rfl) (Core.mvLdv_of_outside hi.2 hfree ha)
  case gath => exact runs_of_issues hi (fun _ => rfl) (fun _ => rfl) (Core.mvGath_of_legal hi.2 hfree hr ha h)
  case scat => exact runs_of_issues hi (fun _ => rfl) (fun _ => rfl) (Core.mvScat_of_legal hi.2 hfree hr ha hg h)

/-! Scalar, address and tile operations (R73 to R76). -/

namespace Core

section
variable {k : Core} {x : LapCtx} {bad : Bool} {r : Nat}

/-- An MV operation that writes an S register (R73). -/
theorem mvWriteS_of_fits {lat : Nat} {val : Core → BitVec 32} (hc : k.canIssue x .mv = true) (hf : k.mvFree ≤ x.c)
    (hb : bad = false) (h : Fits x (lat - 1)) :
    k.mvIssue x 1 bad (fun k => k.writeS x .mv lat r (val k) 0)
      = { k.gave .mv [dueAt x .mv (lat - 1) (.wS r (val (k.takingMv (x.c + 1))))] with mvFree := x.c + 1 } := by
  rw [mvIssue_of_free hc hf hb, writeS_of_fits h]
  rfl

/-- An MV operation that writes an A register (R73). -/
theorem mvWriteA_of_fits {val : Core → BitVec 24} (hc : k.canIssue x .mv = true) (hf : k.mvFree ≤ x.c) (hb : bad = false)
    (h : Fits x 0) :
    k.mvIssue x 1 bad (fun k => k.writeA x .mv 1 r (val k))
      = { k.gave .mv [dueAt x .mv 0 (.wA r (val (k.takingMv (x.c + 1))))] with mvFree := x.c + 1 } := by
  rw [mvIssue_of_free hc hf hb, writeA_of_fits (lat := 1) h]
  rfl

/-- A scalar operation on two S registers (R73). -/
theorem mvScalar_of_legal {f : MvA} {g : BitVec 32 → BitVec 32 → BitVec 32} (hc : k.canIssue x .mv = true)
    (hf : k.mvFree ≤ x.c) (hr : f.rsvd = 0) (hd : f.d.toNat < 16) (hx : f.x.toNat < 16) (hy : f.y.toNat < 16) (h : Fits x 0) :
    k.mvScalar x f g = { k.gave .mv [dueAt x .mv 0 (.wS f.d.toNat (g (k.rs f.x.toNat) (k.rs f.y.toNat)))] with
      mvFree := x.c + 1 } :=
  mvWriteS_of_fits (lat := 1) (val := fun k => g (k.rs f.x.toNat) (k.rs f.y.toNat)) hc hf
    (by rw [hr, getLsbD_of_lt (i := 4) hd, getLsbD_of_lt (i := 4) hx, Nat.div_eq_of_lt hy]; rfl) h

/-- MOVSV writes one lane of a V register (R73). -/
theorem mvMovsv_of_legal {f : MvA} (hc : k.canIssue x .mv = true) (hf : k.mvFree ≤ x.c) (hr : f.rsvd = 0)
    (hx : f.x.toNat < 16) (hy : f.y.toNat < 16) (h : Fits x 0) :
    k.mvMovsv x f = { k.gave .mv [dueAt x .mv 0 (.wV f.d.toNat (laneMask (fun i => i == f.y.toNat))
      (mkLanes (fun _ => k.rs f.x.toNat)))] with mvFree := x.c + 1 } := by
  rw [mvMovsv, mvIssue_of_free hc hf (by rw [hr, getLsbD_of_lt (i := 4) hx, Nat.div_eq_of_lt hy]; rfl)]
  exact writeV_of_fits (lat := 1) (f := 0) h

/-- A TOUT that may issue holds its tile and collapses it in the next cycle (R74, R76). -/
theorem mvTout_of_legal {f : MvT} (hc : k.canIssue x .mv = true) (hf : k.mvFree ≤ x.c) (hr : f.rsvd = 0)
    (hfmt : f.fmt.toNat < 5) (hrnd : f.rnd ≠ 3) (hv : f.vr.toNat % 4 = 0)
    (ha : ∀ r < 16, k.dtop ≤ toutAddr (k.ra f.ab.toNat) f.fmt.toNat r ∧ toutAddr (k.ra f.ab.toNat) f.fmt.toNat r < 0x30000)
    (hm : k.heldByMma x.c f.tile.toNat = false) (hd : k.heldByDrain x.c f.tile.toNat = false) (h : Fits x 21) :
    k.mvTout x f = { k.gave .mv [dueAt x .mv 1 (.drain f.tile.toNat f.fmt.toNat f.rnd.toNat (k.ra f.ab.toNat).toNat
      ((List.range 4).map (fun i => k.rv (f.vr.toNat + i))))] with
      mvFree := x.c + 16, held := k.held ++ [⟨f.tile.toNat, x.c, x.c + 20⟩] } := by
  have hbad : (f.rsvd != 0 || decide (5 ≤ f.fmt.toNat) || f.rnd == 3 || f.vr.toNat % 4 != 0) = false := by
    rw [hr, beq_false_of_ne hrnd, hv, decide_eq_false (Nat.not_le.mpr hfmt)]
    rfl
  rw [mvTout, mvIssue_of_free hc hf hbad]
  dsimp only
  rw [takingMv_ra, takingMv_goldenData, takingMv_heldByMma, takingMv_heldByDrain,
    any_range_eq_false fun r hr => by rw [inData_of_lt (ha r hr).2]; rfl, if_neg (by decide),
    any_range_eq_false fun r hr => goldenData_of_le (ha r hr).1, if_neg (by decide), hm, hd, if_neg (by decide),
    overruns_of_fits h, if_neg (by decide)]
  rfl

section
variable {f : MvP} (hc : k.canIssue x .mv = true) (hf : k.mvFree ≤ x.c) (hr : f.rsvd = 0) (hr0 : f.rsvd0 = 0)
  (hv : f.vd.toNat % 2 = 0)
include hc hf hr hr0 hv

/-- A TPEEK of legal form in a free slot asks for DEBUG_ENABLE first, and for the tile (R75, R76). -/
theorem mvTpeek_of_free : k.mvTpeek x f = (
    let q := k.takingMv (x.c + 1)
    let e := k.entryAt f.tile.toNat f.row.toNat f.col.toNat
    if !x.debug then q.trap tDEBUG
    else if k.heldByMma x.c f.tile.toNat || k.heldByDrain x.c f.tile.toNat then q.trap tTILE
    else if overruns x 2 then q.trap tOVERRUN
    else (({ q with held := q.held ++ [⟨f.tile.toNat, x.c, x.c + 2⟩] } : Core).push x .mv 2
        (.wV f.vd.toNat allLanes (lanesOf (e.values.map (fun v => v.extractLsb' 0 32) ++ [e.occ.zeroExtend 32])))).push
        x .mv 2 (.wV (f.vd.toNat + 1) allLanes (lanesOf (e.values.map (fun v => (v.extractLsb' 32 8).zeroExtend 32))))) := by
  have hbad : (f.rsvd != 0 || f.rsvd0 != 0 || f.vd.getLsbD 0) = false := by
    simpa [hr, hr0, BitVec.getLsbD, Nat.testBit_zero] using hv
  rw [mvTpeek, mvIssue_of_free hc hf hbad]
  rfl

/-- Without DEBUG_ENABLE, TPEEK raises DEBUG_OFF (R75). -/
theorem mvTpeek_of_no_debug (hdbg : x.debug = false) :
    k.mvTpeek x f = { k.trapped .mv tDEBUG with mvFree := x.c + 1 } := by
  rw [mvTpeek_of_free hc hf hr hr0 hv, hdbg]
  exact trap_takingMv hc

/-- With it, TPEEK holds its tile and writes the entry's values to two registers (R75, R76). -/
theorem mvTpeek_of_debug (hdbg : x.debug = true) (hm : k.heldByMma x.c f.tile.toNat = false)
    (hd : k.heldByDrain x.c f.tile.toNat = false) (h : Fits x 2) :
    let e := k.entryAt f.tile.toNat f.row.toNat f.col.toNat
    k.mvTpeek x f = { k.gave .mv
      [dueAt x .mv 2 (.wV f.vd.toNat allLanes
        (lanesOf (e.values.map (fun v => v.extractLsb' 0 32) ++ [e.occ.zeroExtend 32]))),
       dueAt x .mv 2 (.wV (f.vd.toNat + 1) allLanes (lanesOf (e.values.map (fun v => (v.extractLsb' 32 8).zeroExtend 32))))] with
      mvFree := x.c + 1, held := k.held ++ [⟨f.tile.toNat, x.c, x.c + 2⟩] } := by
  rw [mvTpeek_of_free hc hf hr hr0 hv, hdbg, hm, hd, overruns_of_fits h]
  dsimp only
  rw [if_neg (by decide), if_neg (by decide), if_neg (by decide), push_eq, push_eq, adding_adding]
  rfl

end

end
end Core

/-- Settles O9: scalar and address operations write through the slot that finds MV free; TOUT and TPEEK by their lemmas. -/
theorem mvScalarAndTileOperations : Obligations.MvScalarAndTileOperations := by
  refine ⟨fun s n f ⟨hi, hfree⟩ hr => ⟨fun h => ⟨fun hd hx hy => ?scalar, fun hd hx => ?saddi, fun hd hx => ?aaddi,
    fun hd hx hy => ?afroms, fun hd hx hy => ?sfroma, fun hx hy => ?movsv⟩, fun h hd hy => ?movvs⟩,
    fun s n ⟨hi, hfree⟩ => ⟨fun f hr hfmt hrnd hv ha hm hd h => ?tout, fun f hr hr0 hv => ⟨fun hdbg => ?off,
      fun hdbg hm hd h => ?tpeek⟩⟩⟩
  case scalar =>
    have scalar := fun (g : BitVec 32 → BitVec 32 → BitVec 32) =>
      Core.mvScalar_of_legal (g := g) (f := f) hi.2 hfree hr hd hx hy h
    exact ⟨runs_of_issues hi (fun _ => rfl) (fun _ => rfl) (scalar _), runs_of_issues hi (fun _ => rfl) (fun _ => rfl) (scalar _),
      runs_of_issues hi (fun _ => rfl) (fun _ => rfl) (scalar _), runs_of_issues hi (fun _ => rfl) (fun _ => rfl) (scalar _),
      runs_of_issues hi (fun _ => rfl) (fun _ => rfl) (scalar _), runs_of_issues hi (fun _ => rfl) (fun _ => rfl) (scalar _),
      runs_of_issues hi (fun _ => rfl) (fun _ => rfl) (scalar _)⟩
  case saddi =>
    exact runs_of_issues hi (fun _ => rfl) (fun _ => rfl) (Core.mvWriteS_of_fits (lat := 1)
      (val := fun k => k.rs f.x.toNat + f.y.signExtend 32) hi.2 hfree
      (by rw [hr, Core.getLsbD_of_lt (i := 4) hd, Core.getLsbD_of_lt (i := 4) hx]; rfl) h)
  case aaddi =>
    exact runs_of_issues hi (fun _ => rfl) (fun _ => rfl) (Core.mvWriteA_of_fits
      (val := fun k => k.ra f.x.toNat + 64 * f.y.signExtend 24) hi.2 hfree
      (by rw [hr, Nat.div_eq_of_lt hd, Nat.div_eq_of_lt hx]; rfl) h)
  case afroms =>
    exact runs_of_issues hi (fun _ => rfl) (fun _ => rfl) (Core.mvWriteA_of_fits
      (val := fun k => (k.rs f.x.toNat).extractLsb' 0 24) hi.2 hfree
      (by rw [hr, Nat.div_eq_of_lt hd, Core.getLsbD_of_lt (i := 4) hx, hy]; rfl) h)
  case sfroma =>
    exact runs_of_issues hi (fun _ => rfl) (fun _ => rfl) (Core.mvWriteS_of_fits (lat := 1)
      (val := fun k => (k.ra f.x.toNat).zeroExtend 32) hi.2 hfree
      (by rw [hr, Core.getLsbD_of_lt (i := 4) hd, Nat.div_eq_of_lt hx, hy]; rfl) h)
  case movsv => exact runs_of_issues hi (fun _ => rfl) (fun _ => rfl) (Core.mvMovsv_of_legal hi.2 hfree hr hx hy h)
  case movvs =>
    exact runs_of_issues hi (fun _ => rfl) (fun _ => rfl) (Core.mvWriteS_of_fits (lat := 2)
      (val := fun k => lane (k.rv f.x.toNat) f.y.toNat) hi.2 hfree
      (by rw [hr, Core.getLsbD_of_lt (i := 4) hd, Nat.div_eq_of_lt hy]; rfl) h)
  case tout =>
    exact runs_of_issues hi (fun _ => rfl) (fun _ => rfl) (Core.mvTout_of_legal hi.2 hfree hr hfmt hrnd hv ha hm hd h)
  case off => exact runs_of_issues hi (fun _ => rfl) (fun _ => rfl) (Core.mvTpeek_of_no_debug hi.2 hfree hr hr0 hv hdbg)
  case tpeek =>
    exact runs_of_issues hi (fun _ => rfl) (fun _ => rfl) (Core.mvTpeek_of_debug hi.2 hfree hr hr0 hv hdbg hm hd h)

end Sys2Proof.Machine

/-! NX and the memory slots (R51, R52, R77 to R79, R209, R252, R253). -/
namespace Sys2Proof.Machine
open State
namespace Core

@[simp] theorem taking_memInjectAt (k : Core) (sl : OpSlot) : (k.taking sl).memInjectAt = k.memInjectAt := rfl
@[simp] theorem taking_memEjectAt (k : Core) (sl : OpSlot) : (k.taking sl).memEjectAt = k.memEjectAt := rfl

section
variable {k : Core} {x : LapCtx}

/-- An NX operation of legal form runs on the core that has taken the slot. -/
theorem nxOp_of_legal {bad : Bool} {g : Core → Core} (hc : k.canIssue x .nx = true) (hb : bad = false) :
    k.nxOp x bad g = g (k.taking .nx) := by
  rw [nxOp, issue_of_canIssue hc, hb, if_neg (by decide)]

/-- The two flits of 32 bytes, to be injected in the next cycle (R77, R209). -/
def flitPair (x : LapCtx) (v : Nat) : List Micro :=
  [dueAt x .nx 1 (.inject 0 (BitVec.ofNat 128 v) false), dueAt x .nx 1 (.inject 1 (BitVec.ofNat 128 (v >>> 128)) false)]

theorem injectPair_eq (k : Core) (v : Nat) : k.injectPair x v = k.adding (flitPair x v) := by
  rw [injectPair, push_eq, push_eq, adding_adding]
  rfl

section
variable {f : NxReg} (hc : k.canIssue x .nx = true) (hr : f.rsvd = 0)
include hc hr

theorem nxSend_of_free (hm : k.memInjectAt (x.c + 1) = false) :
    k.nxSend x f = k.gave .nx (flitPair x ((k.rv f.v.toNat).toNat >>> (256 * f.h.toNat))) := by
  rw [nxSend, nxOp_of_legal hc (by simp [hr]), taking_memInjectAt, hm, if_neg (by decide), injectPair_eq]
  rfl

/-- A memory flit of the next cycle keeps SEND out (R253). -/
theorem nxSend_of_busy (hm : k.memInjectAt (x.c + 1) = true) : k.nxSend x f = k.trapped .nx tBUSY := by
  rw [nxSend, nxOp_of_legal hc (by simp [hr]), taking_memInjectAt, hm, if_pos rfl, trap_taking hc]

theorem nxRecv_of_free {x0 x1 : Flit} (hm : k.memEjectAt x.c = false) (h : Fits x 0) :
    k.nxRecv x f x0 x1 = k.gave .nx [dueAt x .nx 0 (.wV f.v.toNat (BitVec.ofNat 512 ((2 ^ 256 - 1) <<< (256 * f.h.toNat)))
      (BitVec.ofNat 512 ((x0.toNat + x1.toNat * 2 ^ 128) <<< (256 * f.h.toNat))))] := by
  rw [nxRecv, nxOp_of_legal hc (by simp [hr]), taking_memEjectAt, hm, if_neg (by decide)]
  exact writeV_of_fits (lat := 1) (f := 0) h

/-- A read deposit in this cycle keeps RECV out (R253). -/
theorem nxRecv_of_busy {x0 x1 : Flit} (hm : k.memEjectAt x.c = true) : k.nxRecv x f x0 x1 = k.trapped .nx tBUSY := by
  rw [nxRecv, nxOp_of_legal hc (by simp [hr]), taking_memEjectAt, hm, if_pos rfl, trap_taking hc]

end

section
variable {g : NxMem} (hc : k.canIssue x .nx = true) (hr : g.rsvd = 0)
include hc hr

theorem nxSendm_of_free (hm : k.memInjectAt (x.c + 1) = false)
    (ha : addrOf (k.ra g.ab.toNat) (32 * g.off.toInt) 32 < 0x30000) :
    k.nxSendm x g = k.gave .nx (dueAt x .nx 0 (.readBank (addrOf (k.ra g.ab.toNat) (32 * g.off.toInt) 32 / 0x4000)) ::
      flitPair x (k.dataNum (addrOf (k.ra g.ab.toNat) (32 * g.off.toInt) 32) 32)) := by
  rw [nxSendm, nxOp_of_legal hc (by simp [hr]), taking_memInjectAt, taking_ra]
  dsimp only
  rw [hm, if_neg (by decide), inData_of_lt ha, if_neg (by decide), injectPair_eq, push_eq, adding_adding]
  rfl

theorem nxSendm_of_busy (hm : k.memInjectAt (x.c + 1) = true) : k.nxSendm x g = k.trapped .nx tBUSY := by
  rw [nxSendm, nxOp_of_legal hc (by simp [hr]), taking_memInjectAt]
  dsimp only
  rw [hm, if_pos rfl, trap_taking hc]

theorem nxRecvm_of_free {x0 x1 : Flit} (hm : k.memEjectAt x.c = false)
    (hg : k.dtop ≤ addrOf (k.ra g.ab.toNat) (32 * g.off.toInt) 32)
    (ha : addrOf (k.ra g.ab.toNat) (32 * g.off.toInt) 32 < 0x30000) (h : Fits x 1) :
    k.nxRecvm x g x0 x1 = k.gave .nx [dueAt x .nx 1
      (storeAct (addrOf (k.ra g.ab.toNat) (32 * g.off.toInt) 32) 32 (2 ^ 32 - 1) (x0.toNat + x1.toNat * 2 ^ 128))] := by
  rw [nxRecvm, nxOp_of_legal hc (by simp [hr]), taking_memEjectAt, hm, if_neg (by decide), taking_ra,
    storeAt_of_fits (k := k.taking .nx) hg ha h]
  rfl

theorem nxRecvm_of_busy {x0 x1 : Flit} (hm : k.memEjectAt x.c = true) : k.nxRecvm x g x0 x1 = k.trapped .nx tBUSY := by
  rw [nxRecvm, nxOp_of_legal hc (by simp [hr]), taking_memEjectAt, hm, if_pos rfl, trap_taking hc]

end

section
variable {f : NxSlot} (hc : k.canIssue x .nx = true) (hr : f.rsvd = 0) (hs : f.slot ≠ 3)
include hc hr hs

/-- The request that an MRD or MWR leaves with its slot (R78). -/
theorem nxMrd_of_legal (hg : k.dtop ≤ k.lineAddr f)
    (ha : k.lineAddr f < 0x30000 ∨ (0x80000 + 16 * k.itop ≤ k.lineAddr f ∧ k.lineAddr f < 0x88000))
    (h : k.returnCycle f.slot.toNat x.c < x.len) :
    k.nxMrd x f = k.gave .nx [dueAt x .nx 0 (.request f.slot.toNat ⟨false, k.rs f.ss.toNat, k.lineAddr f, x.c⟩)] := by
  have hplace : (!inData (k.lineAddr f) && !inInstr (k.lineAddr f)) = false := by
    rcases ha with ha | ⟨hlo, hhi⟩
    · rw [inData_of_lt ha]; rfl
    · simp only [inInstr, decide_eq_true hhi, decide_eq_true (show 0x80000 ≤ k.lineAddr f by omega)]; simp
  have hgolden : (k.goldenData (k.lineAddr f) || (inInstr (k.lineAddr f) && decide ((k.lineAddr f - 0x80000) / 16 < k.itop)))
      = false := by
    rw [goldenData_of_le hg]
    rcases ha with ha | ⟨hlo, hhi⟩
    · rw [inInstr, decide_eq_false (by omega)]; rfl
    · rw [decide_eq_false (p := (k.lineAddr f - 0x80000) / 16 < k.itop) (by omega), Bool.and_false]; rfl
  rw [nxMrd, nxOp_of_legal hc (by rw [hr, beq_false_of_ne hs]; rfl)]
  exact (if_neg (ne_true_of_eq_false hplace)).trans ((if_neg (ne_true_of_eq_false hgolden)).trans
    (if_neg (Nat.not_le.mpr h)))

theorem nxMwr_of_legal (ha : k.lineAddr f < 0x30000)
    (h : k.sendCycle f.slot.toNat (k.servingFrame f.slot.toNat x.c) < x.len) :
    k.nxMwr x f = k.gave .nx [dueAt x .nx 0 (.request f.slot.toNat ⟨true, k.rs f.ss.toNat, k.lineAddr f, x.c⟩)] := by
  rw [nxMwr, nxOp_of_legal hc (by rw [hr, beq_false_of_ne hs]; rfl)]
  have hplace : (!inData (k.lineAddr f)) = false := by rw [inData_of_lt ha]; rfl
  exact (if_neg (ne_true_of_eq_false hplace)).trans (if_neg (Nat.not_le.mpr h))

end

/-! Memory slots (R252). -/

/-- What a memory slot does d cycles after its send or return cycle, which no bundle's trap cancels. -/
def memDue (x : LapCtx) (d : Nat) (act : CoreAct) : Micro := ⟨x.c, x.c + d, 0, false, act⟩

theorem pushMem_eq (k : Core) (d : Nat) (act : CoreAct) : k.pushMem x d act = k.adding [memDue x d act] := rfl

/-- The flits of a request that leaves, and of a write's line behind it (R252, R254). -/
def sentMicros (x : LapCtx) (r : MemReq) (flit : Flit) (line : Nat) : List Micro :=
  [memDue x 1 (.inject 0 flit true), memDue x 0 (.readBank (r.addr / 0x4000)),
    memDue x 1 (.inject 1 (lineFlit line 0) true), memDue x 3 (.inject 0 (lineFlit line 1) true),
    memDue x 3 (.inject 1 (lineFlit line 2) true), memDue x 5 (.inject 0 (lineFlit line 3) true)]

section
variable {n slot : Nat} {r : MemReq} (hl : x.live = true) (hf : x.fenced = false)
  (hs : k.sendCycle slot (x.c / 256) = x.c)
  (hr : Table.get none slot (k.reqs.map (fun r => (r.1, some r.2))) = some r) (hi : r.issue < x.c)
include hl hf hs hr hi

/-- The send cycle of a slot whose latest request is a read (R252). -/
theorem memSend_of_read (hw : r.write = false) (u : Bool) (free : Lanes) :
    let w := k.windowAt slot (x.c / 256)
    k.memSend x n slot u free = { k with
      reqs := Table.erase slot k.reqs
      inflight := k.inflight ++ [memDue x 1 (.inject 0 (requestFlit r.write w (windowBlock w r.line x.lap) n) true)]
      returns := k.returns ++ [⟨slot, x.c + winField w 9 0, x.c, r.addr, none⟩] } := by
  unfold memSend
  rw [hl, hf, hs, hr, if_neg (by simp)]
  dsimp only
  rw [if_neg (Nat.not_le.mpr hi), hw]
  rfl

/-- The send cycle of a slot whose latest request is a write (R252). -/
theorem memSend_of_write (hw : r.write = true) (free : Lanes) :
    let w := k.windowAt slot (x.c / 256)
    k.memSend x n slot false free = { k with
      reqs := Table.erase slot k.reqs
      inflight := k.inflight ++ sentMicros x r (requestFlit r.write w (windowBlock w r.line x.lap) n) (k.dataNum r.addr 64) } := by
  unfold memSend
  rw [hl, hf, hs, hr, if_neg (by simp)]
  dsimp only
  rw [if_neg (Nat.not_le.mpr hi), hw]
  simp only [if_true, Bool.false_eq_true, if_false, pushMem_eq, adding_adding]
  rfl

/-- A write whose line cannot be corrected (R51). -/
theorem memSend_of_upset (hw : r.write = true) (ht : k.trapNow = none) (free : Lanes) :
    let w := k.windowAt slot (x.c / 256)
    k.memSend x n slot true free = { k with
      reqs := Table.erase slot k.reqs
      inflight := k.inflight ++ sentMicros x r (requestFlit r.write w (windowBlock w r.line x.lap) n) free.toNat
      trapNow := some tWORD } := by
  unfold memSend
  rw [hl, hf, hs, hr, if_neg (by simp)]
  dsimp only
  rw [if_neg (Nat.not_le.mpr hi), hw, if_pos rfl, if_pos rfl, if_pos rfl]
  simp only [trap, pushMem, ht, List.append_assoc]
  rfl

end

/-- The return cycle of a read deposits its four flits (R79, R252). -/
theorem memReturn_of_due {slot : Nat} {x0 x1 : Flit} {r : MemReturn} (hl : x.live = true)
    (hr : k.returns.find? (fun r => r.slot == slot && r.ret == x.c) = some r) :
    let line := (r.r01.getD (0, 0)).1.toNat + 2 ^ 128 * (r.r01.getD (0, 0)).2.toNat + 2 ^ 256 * x0.toNat + 2 ^ 384 * x1.toNat
    k.memReturn x slot x0 x1 = { k with
      returns := k.returns.filter (fun r => !(r.slot == slot && r.ret == x.c))
      inflight := k.inflight ++ [memDue x 0 (if 0x80000 ≤ r.addr ∧ r.addr < 0x88000 then
        .deposit (r.addr - 0x80000) (BitVec.ofNat 512 line) else .store r.addr (BitVec.allOnes 64) (BitVec.ofNat 512 line))] } := by
  unfold memReturn
  rw [hr, hl]
  simp only [Bool.not_true, Bool.false_eq_true, if_false, inInstr, Bool.and_eq_true, decide_eq_true_eq]
  split <;> rfl

end
end Core

/-- Settles O10: a mesh operation finds its port free or busy; a memory slot acts at its send and its return cycle. -/
theorem nxFlitsAndMemorySlots : Obligations.NxFlitsAndMemorySlots := by
  refine ⟨fun s n f g hi hr hrg => ⟨fun hm => ⟨?send, fun ha => ?sendm⟩, fun hm => ⟨?sendBusy, ?sendmBusy⟩,
    fun hm => ⟨fun h => ?recv, fun hg ha h => ?recvm⟩, fun hm => ⟨?recvBusy, ?recvmBusy⟩⟩,
    fun s n f hi hr hs => ⟨fun hg ha h => ?mrd, fun ha h => ?mwr⟩,
    fun s n slot hn hl => ⟨fun r hr hi hf hs => ?slotSend, fun r hr => ?slotReturn⟩⟩
  case send => exact runs_of_issues hi (fun _ => rfl) (fun _ => rfl) (Core.nxSend_of_free hi.2 hr hm)
  case sendm => exact runs_of_issues hi (fun _ => rfl) (fun _ => rfl) (Core.nxSendm_of_free hi.2 hrg hm ha)
  case sendBusy => exact runs_of_issues hi (fun _ => rfl) (fun _ => rfl) (Core.nxSend_of_busy hi.2 hr hm)
  case sendmBusy => exact runs_of_issues hi (fun _ => rfl) (fun _ => rfl) (Core.nxSendm_of_busy hi.2 hrg hm)
  case recv => exact runs_of_issues hi (fun _ => rfl) (fun _ => rfl) (Core.nxRecv_of_free hi.2 hr hm h)
  case recvm => exact runs_of_issues hi (fun _ => rfl) (fun _ => rfl) (Core.nxRecvm_of_free hi.2 hrg hm hg ha h)
  case recvBusy => exact runs_of_issues hi (fun _ => rfl) (fun _ => rfl) (Core.nxRecv_of_busy hi.2 hr hm)
  case recvmBusy => exact runs_of_issues hi (fun _ => rfl) (fun _ => rfl) (Core.nxRecvm_of_busy hi.2 hrg hm)
  case mrd => exact runs_of_issues hi (fun _ => rfl) (fun _ => rfl) (Core.nxMrd_of_legal hi.2 hr hs hg ha h)
  case mwr => exact runs_of_issues hi (fun _ => rfl) (fun _ => rfl) (Core.nxMwr_of_legal hi.2 hr hs ha h)
  case slotSend =>
    refine ⟨fun hw u => ?_, fun hw => ⟨?_, fun ht => ?_⟩⟩
    · cases u with
      | false =>
        exact ⟨s.fresh, congrArg Host.Outcome.next ((onCore_of_has hn).trans (congrArg (s.setCore n)
          (Core.memSend_of_read hl hf hs hr hi hw false 0)))⟩
      | true =>
        exact ⟨s.fresh + 1, congrArg Host.Outcome.next ((onCore_of_has (s := (s.free 512).2) hn).trans
          (congrArg ((s.free 512).2.setCore n) (Core.memSend_of_read hl hf hs hr hi hw true (s.free 512).1)))⟩
    · exact congrArg Host.Outcome.next ((onCore_of_has hn).trans (congrArg (s.setCore n)
        (Core.memSend_of_write hl hf hs hr hi hw 0)))
    · exact ⟨(s.free 512).1, congrArg Host.Outcome.next ((onCore_of_has (s := (s.free 512).2) hn).trans
        (congrArg ((s.free 512).2.setCore n) (Core.memSend_of_upset hl hf hs hr hi hw ht (s.free 512).1)))⟩
  case slotReturn =>
    exact congrArg Host.Outcome.next ((onCore_of_has hn).trans (congrArg (s.setCore n) (Core.memReturn_of_due hl hr)))

end Sys2Proof.Machine

/-! The launch of a lap (R53, R55, R64, R130, R158, R212, R222, R230, R289). -/
namespace Sys2Proof.Machine
open State

/-- A change of slot k, the grid, the Louvre, and of memory's controllers and links alone leaves what a lap command leaves. -/
theorem SameBut.of_eq {k : Nat} {s t : State} {slots : Table Slot} {grid : Grid} {mem : MemState} {louvre : Louvre}
    (e : t = { s with slots := slots, grid := grid, mem := mem, louvre := louvre }) (ho : ∀ j, j ≠ k → t.slot j = s.slot j)
    (hh : mem.hbm = s.mem.hbm) (hm : mem.meta_ = s.mem.meta_) : SameBut k s t := by
  refine ⟨ho, ?_⟩
  rw [e]
  exact ⟨rfl, rfl, hh, hm, rfl, rfl, rfl, rfl, rfl, rfl, rfl, rfl⟩

/-- From s to t slot k alone has changed, and of it what f reads stands. -/
structure OnlySlot {α : Type} (k : Nat) (f : Slot → α) (s t : State) : Prop where
  rest : ∃ slots, t = { s with slots := slots }
  others : ∀ j, j ≠ k → t.slot j = s.slot j
  kept : f (t.slot k) = f (s.slot k)

namespace OnlySlot
variable {α : Type} {k : Nat} {f : Slot → α} {s t u : State}

theorem refl (s : State) : OnlySlot k f s s := ⟨⟨s.slots, rfl⟩, fun _ _ => rfl, rfl⟩

theorem trans (h : OnlySlot k f s t) (h' : OnlySlot k f t u) : OnlySlot k f s u := by
  obtain ⟨_, rfl⟩ := h.rest
  obtain ⟨slots, e⟩ := h'.rest
  exact ⟨⟨slots, e⟩, fun j hj => (h'.others j hj).trans (h.others j hj), h'.kept.trans h.kept⟩

/-- A change of slot k that f does not read. -/
theorem onSlot {g : Slot → Slot} (h : f (g (s.slot k)) = f (s.slot k)) : OnlySlot k f s (s.onSlot k g) :=
  ⟨⟨_, rfl⟩, fun _ hj => slot_onSlot_ne s hj g, by rw [slot_onSlot_self, h]⟩

end OnlySlot

/-! LAUNCH is driven (R158, R289). -/

/-- What PAIR_STATE at the first launch of a run leaves of its slot. -/
def Slot.launching (x : Slot) : LapStage × (Table (BitVec 112) × BitVec 16) × Bool × Nat :=
  (x.stage, (x.latched, x.seedsPending), x.launched, x.lapNext)

theorem State.onlySlot_pairAtLaunch (s : State) (k : Nat) : OnlySlot k Slot.launching s (s.pairAtLaunch k) := by
  unfold State.pairAtLaunch
  extract_lets x u
  have hfresh : OnlySlot k Slot.launching s u := .onSlot rfl
  split
  · exact .refl s
  · split
    · exact hfresh.trans ((OnlySlot.onSlot rfl).trans (.onSlot rfl))
    · exact hfresh

/-- A first attempt whose count comes in 24 cc has LAUNCH driven for it, with the seeds as they stand (R289). -/
theorem State.driveLaunch_of_first {s : State} {k l : Nat} (hs : (s.slot k).stage = .committed l)
    (ha : (s.slot k).attempt = .first) (hp : (s.slot k).pledged = false) (hr : s.rinkRun = true) (hl : s.rink + 24 = l) :
    let u := (((s.onSlot k (fun x => { x with
      stage := .driven l, pledged := false, strictHeld := x.strictHeld && (s.det.strict || x.attempt == .probe) })).latchSeeds
        k).pairAtLaunch k)
    s.driveLaunch k = { u with grid := { u.grid with coverPorts := u.coverMask k } } := by
  simp [State.driveLaunch, hs, ha, hp, hr, hl]

/-- The seeds that a launch latches are those of before its cycle (R158, R289). -/
theorem Slot.takeSeeds_eq (x : Slot) (t : Nat) : x.takeSeeds t = { x with
    latched := if x.seedsAt = some t then x.seedsBefore else x.seeds
    seedsPending := if x.seedsAt = some t then x.seedsNew else 0 } := by
  unfold Slot.takeSeeds
  by_cases h : x.seedsAt = some t <;> simp [h]

/-- What latching the seeds leaves of its slot. -/
theorem State.launching_latchSeeds (s : State) (k : Nat) :
    ((s.latchSeeds k).slot k).launching = ((s.slot k).stage,
      (if (s.slot k).seedsAt = some s.now then (s.slot k).seedsBefore else (s.slot k).seeds,
        if (s.slot k).seedsAt = some s.now then (s.slot k).seedsNew else 0), true, (s.slot k).lapNext) := by
  rw [latchSeeds, slot_onSlot_self, Slot.takeSeeds_eq]
  rfl

/-! LAUNCH arrives (R53, R64, R212, R222). -/

/-- Slot x in the cycle of its launch count (R222, R289). -/
def Slot.arriving (x : Slot) (s : State) (probe : Bool) : Slot :=
  { x with
    stage := .running s.now, lastLaunch := s.rink, attemptNo := x.attemptNo + 1
    admitted := false, faults := [], faultDrive := none, evidence := false, blocksBad := []
    abortAt := if probe then some (s.now + s.det.probe.cycle + 1) else none
    pairIn := if probe then x.pairIn else none, pairSent := if probe then x.pairSent else none
    st := if x.attempt == .replay then .replaying else x.st }

/-- The state in the cycle of slot k's launch count, before its grid starts. -/
def State.arriving (s : State) (k : Nat) : State :=
  let u := s.onSlot k (fun x => x.arriving s ((s.slot k).attempt == .probe))
  { u with louvre := { u.louvre with
    spans := u.louvre.spans ++ [(⟨k, (s.slot k).info.energyBound, u.lapLen k, u.now, u.now + u.lapLen k⟩ : Span)] } }

theorem State.slot_arriving (s : State) (k : Nat) :
    (s.arriving k).slot k = (s.slot k).arriving s ((s.slot k).attempt == .probe) :=
  slot_onSlot_self s k (fun x => x.arriving s ((s.slot k).attempt == .probe))

theorem State.slot_arriving_ne (s : State) {j k : Nat} (hj : j ≠ k) : (s.arriving k).slot j = s.slot j :=
  slot_onSlot_ne s hj (fun x => x.arriving s ((s.slot k).attempt == .probe))

theorem State.arriveLaunch_of_first {s : State} {k l : Nat} {errs : Table (BitVec 160)} (hs : (s.slot k).stage = .driven l)
    (ha : (s.slot k).attempt = .first) (hr : s.rinkRun = true) (hl : s.rink = l) :
    s.arriveLaunch k errs = (s.arriving k).startGrid k true errs := by
  delta State.arriveLaunch State.arriving Slot.arriving
  dsimp only
  rw [hs]
  dsimp only
  rw [if_neg (by simp [hr, hl]), ha]
  rw [if_neg (by decide), beq_self_eq_true, Bool.true_or]

/-- With every latched gate entry readable, launching routers is all that happens to them (R210, R212). -/
theorem State.launchRouters_of_readable {s : State} {k : Nat} {errs : Table (BitVec 160)}
    (h : ∀ n, (Router.entryRead (Table.get 0 n errs)).isSome = true) :
    s.launchRouters k errs = { s with grid := { s.grid with routers := (Table.mapVals
      (fun n r => if r.slot == k then r.launch (Table.get 0 n errs) else r) s.grid.routers) } } := by
  have hnone : ∀ l : List (Nat × Router), l.filter (fun r => (Router.entryRead (Table.get 0 r.1 errs)).isNone) = [] :=
    fun l => List.filter_eq_nil_iff.mpr fun r _ => by rw [← Option.not_isSome, h r.1]; decide
  delta State.launchRouters
  dsimp only
  rw [hnone]
  rfl

/-- The launch of the routers leaves every core. -/
theorem State.core_launchRouters {s : State} {k : Nat} {errs : Table (BitVec 160)}
    (h : ∀ n, (Router.entryRead (Table.get 0 n errs)).isSome = true) (n : Nat) :
    (s.launchRouters k errs).core n = s.core n := by
  rw [launchRouters_of_readable h]
  rfl

/-- What a launch of the routers of slot k does to a listed router. -/
theorem State.router_launchRouters {s : State} {k : Nat} {errs : Table (BitVec 160)}
    (h : ∀ n, (Router.entryRead (Table.get 0 n errs)).isSome = true) {n : Nat} (hn : Table.has n s.grid.routers = true) :
    (s.launchRouters k errs).router n =
      if (s.router n).slot == k then (s.router n).launch (Table.get 0 n errs) else s.router n := by
  rw [launchRouters_of_readable h, State.router]
  exact Table.get_mapVals _ _ _ _ hn

/-- The grid of slot k takes the entries that the lap before named (R64, R212). -/
def State.takeEntries (s : State) (k : Nat) : State :=
  (s.onCores k (fun c => { c with entry := c.entryNext })).onRouters k (fun r => { r with entry := r.entryNext })

theorem State.core_takeEntries {s : State} {k n : Nat} (hn : Table.has n s.grid.cores = true) :
    (s.takeEntries k).core n =
      if (s.core n).slot == k then { s.core n with entry := (s.core n).entryNext } else s.core n :=
  core_onCores s k _ n hn

theorem State.router_takeEntries {s : State} {k n : Nat} (hn : Table.has n s.grid.routers = true) :
    (s.takeEntries k).router n =
      if (s.router n).slot == k then { s.router n with entry := (s.router n).entryNext } else s.router n :=
  router_onRouters _ k _ n hn

/-- The slice controllers become c. -/
def State.withCtl (s : State) (c : Table SliceCtl) : State := { s with mem := { s.mem with ctl := c } }

/-- Slices of slot k at lap cycle 0: controllers empty, fingerprints zero; nothing but controllers changes (R318). -/
theorem State.cleanSlices_eq (s : State) (k : Nat) : ∃ c, (s.clearSlices k).zeroSliceFps k = s.withCtl c := by
  obtain ⟨c, hc⟩ := clearSlices_eq s k
  obtain ⟨c', hc'⟩ := zeroSliceFps_eq (s.clearSlices k) k
  exact ⟨c', by rw [hc', hc]; rfl⟩

theorem State.startGrid_true (s : State) (k : Nat) (errs : Table (BitVec 160)) :
    s.startGrid k true errs = ((((s.takeEntries k).clearSlices k).zeroSliceFps k).onCores k (fun q => q.launch
      ((s.takeEntries k).site q.site).fence)).launchRouters k errs := by
  delta State.startGrid State.takeEntries
  dsimp only
  rw [if_pos rfl]

/-- Lap cycle 0 of a first attempt, in its order: entries are taken, slices cleaned, cores and routers launched. -/
theorem State.startGrid_first (s : State) (k : Nat) (errs : Table (BitVec 160)) :
    ∃ c, s.startGrid k true errs = (((s.takeEntries k).withCtl c).onCores k
      (fun q => q.launch (s.site q.site).fence)).launchRouters k errs := by
  obtain ⟨c, hc⟩ := cleanSlices_eq (s.takeEntries k) k
  have hsite : ∀ q, (s.takeEntries k).site q = s.site q := site_congr rfl rfl
  exact ⟨c, by simp only [startGrid_true, hc, hsite]⟩

/-- The change of each core and each router at lap cycle 0 of a first attempt; besides them the slice controllers alone
change (R53, R64, R212). -/
theorem State.startGrid_of_readable {s : State} {k : Nat} {errs : Table (BitVec 160)}
    (h : ∀ n, (Router.entryRead (Table.get 0 n errs)).isSome = true) :
    (∃ cores routers ctl, s.startGrid k true errs =
      { s with grid := { s.grid with cores := cores, routers := routers }, mem := { s.mem with ctl := ctl } })
    ∧ (∀ n, Table.has n s.grid.cores = true → (s.startGrid k true errs).core n = (if (s.core n).slot = k
        then Core.launch { s.core n with entry := (s.core n).entryNext } (s.fenced n) else s.core n))
    ∧ (∀ n, Table.has n s.grid.routers = true → (s.startGrid k true errs).router n = (if (s.router n).slot = k
        then Router.launch { s.router n with entry := (s.router n).entryNext } (Table.get 0 n errs) else s.router n)) := by
  obtain ⟨c, hc⟩ := startGrid_first s k errs
  rw [hc]
  refine ⟨⟨_, _, c, by rw [launchRouters_of_readable h]; rfl⟩, fun n hn => ?_, fun n hn => ?_⟩
  · have hhas : Table.has n ((s.takeEntries k).withCtl c).grid.cores = true := (Table.has_mapVals _ _ _).trans hn
    have htake : ((s.takeEntries k).withCtl c).core n = (s.takeEntries k).core n := rfl
    rw [core_launchRouters h, core_onCores _ _ _ _ hhas, htake, core_takeEntries hn]
    by_cases hk : (s.core n).slot = k <;> simp [hk, fenced]
  · generalize hf : (fun q : Core => q.launch (s.site q.site).fence) = f
    have hhas : Table.has n (((s.takeEntries k).withCtl c).onCores k f).grid.routers = true :=
      (Table.has_mapVals _ _ _).trans hn
    have htake : (((s.takeEntries k).withCtl c).onCores k f).router n = (s.takeEntries k).router n := rfl
    rw [router_launchRouters h hhas, htake, router_takeEntries hn]
    by_cases hk : (s.router n).slot = k <;> simp [hk]

/-- LAUNCH in the cycle of its count is lap cycle 0 of slot k (R53, R64, R212, R222, R289). -/
theorem State.arriveLaunch_changes {s : State} {k l : Nat} {errs : Table (BitVec 160)} (hs : (s.slot k).stage = .driven l)
    (hr : s.rinkRun = true) (hl : s.rink = l) (ha : (s.slot k).attempt = .first)
    (he : ∀ n, (Router.entryRead (Table.get 0 n errs)).isSome = true) :
    let t := s.arriveLaunch k errs
    (t.slot k).stage = .running s.now ∧ (t.slot k).lastLaunch = s.rink
      ∧ (t.slot k).attemptNo = (s.slot k).attemptNo + 1 ∧ (t.slot k).faults = [] ∧ (t.slot k).abortAt = none
      ∧ (∀ n, Table.has n s.grid.cores = true → t.core n = (if (s.core n).slot = k
          then Core.launch { s.core n with entry := (s.core n).entryNext } (s.fenced n) else s.core n))
      ∧ (∀ n, Table.has n s.grid.routers = true → t.router n = (if (s.router n).slot = k
          then Router.launch { s.router n with entry := (s.router n).entryNext } (Table.get 0 n errs) else s.router n))
      ∧ SameBut k s t := by
  obtain ⟨⟨cores, routers, ctl, hgrid⟩, hcores, hrouters⟩ := startGrid_of_readable (s := s.arriving k) (k := k) he
  rw [arriveLaunch_of_first hs ha hr hl]
  have hslot : ∀ j, ((s.arriving k).startGrid k true errs).slot j = (s.arriving k).slot j := fun j => by rw [hgrid]; rfl
  have hk : ((s.arriving k).slot k).stage = .running s.now ∧ ((s.arriving k).slot k).lastLaunch = s.rink
      ∧ ((s.arriving k).slot k).attemptNo = (s.slot k).attemptNo + 1 ∧ ((s.arriving k).slot k).faults = []
      ∧ ((s.arriving k).slot k).abortAt = none := by
    rw [slot_arriving, ha]
    exact ⟨rfl, rfl, rfl, rfl, rfl⟩
  obtain ⟨hstage, hlast, hno, hfaults, habort⟩ := hk
  intro t
  refine ⟨?_, ?_, ?_, ?_, ?_, hcores, hrouters, ?_⟩
  · rw [hslot, hstage]
  · rw [hslot, hlast]
  · rw [hslot, hno]
  · rw [hslot, hfaults]
  · rw [hslot, habort]
  · exact .of_eq hgrid (fun j hj => (hslot j).trans (slot_arriving_ne s hj)) rfl rfl

/-- LAUNCH is driven 24 cc before its count (R158, R289). -/
theorem State.driveLaunch_changes {s : State} {k l : Nat} (hs : (s.slot k).stage = .committed l)
    (ha : (s.slot k).attempt = .first) (hp : (s.slot k).pledged = false) (hr : s.rinkRun = true) (hl : s.rink + 24 = l) :
    ((s.driveLaunch k).slot k).launching = (.driven l,
      (if (s.slot k).seedsAt = some s.now then (s.slot k).seedsBefore else (s.slot k).seeds,
        if (s.slot k).seedsAt = some s.now then (s.slot k).seedsNew else 0), true, (s.slot k).lapNext)
    ∧ (s.driveLaunch k).grid.cores = s.grid.cores ∧ (s.driveLaunch k).grid.routers = s.grid.routers
    ∧ SameBut k s (s.driveLaunch k) := by
  rw [driveLaunch_of_first hs ha hp hr hl]
  generalize hu : s.onSlot k (fun x => { x with
    stage := .driven l, pledged := false, strictHeld := x.strictHeld && (s.det.strict || x.attempt == .probe) }) = u
  have hslot : ((u.latchSeeds k).slot k).launching = (.driven l,
      (if (s.slot k).seedsAt = some s.now then (s.slot k).seedsBefore else (s.slot k).seeds,
        if (s.slot k).seedsAt = some s.now then (s.slot k).seedsNew else 0), true, (s.slot k).lapNext) := by
    rw [launching_latchSeeds, ← hu, slot_onSlot_self]
    rfl
  obtain ⟨⟨slots, hrest⟩, hothers, hkept⟩ := onlySlot_pairAtLaunch (u.latchSeeds k) k
  generalize (u.latchSeeds k).pairAtLaunch k = v at *
  have hv : v = { s with slots := slots } := by rw [hrest, ← hu]; rfl
  have hvother : ∀ j, j ≠ k → v.slot j = s.slot j := fun j hj => by
    rw [hothers j hj, latchSeeds, slot_onSlot_ne _ hj, ← hu, slot_onSlot_ne _ hj]
  refine ⟨hkept.trans hslot, by rw [hv], by rw [hv], .of_eq (by rw [hv]) hvother rfl rfl⟩

/-! A core at lap cycle 0 (R53, R55, R64, R130, R230). -/

theorem Core.trap_eq (k : Core) (code : Nat) : ∃ t, k.trap code = { k with trapNow := t } := by
  unfold trap
  split
  · exact ⟨k.trapNow, rfl⟩
  · exact ⟨some code, rfl⟩

/-- The fetch of a bundle sets the program counter, and may raise a trap (R55, R59). -/
theorem Core.fetch_eq (k : Core) : ∃ t, k.fetch = { k with pc := k.next, trapNow := t } := by
  have htrap := trap_eq { k with pc := k.next }
  simp only [fetch]
  split_ifs
  · exact htrap _
  · exact htrap _
  · exact ⟨k.trapNow, rfl⟩

/-- A core that issues at lap cycle 0 fetches, unlike one behind a fence (R230). -/
theorem Core.launch_eq (k : Core) (fence : Bool) :
    k.launch fence = if k.idleRec || fence then k.launch true else (k.launch true).fetch := by
  cases fence <;> cases h : k.idleRec <;> simp [launch, h]

/-- Launched cores differ by their fetch alone. -/
theorem Core.launch_eq_fenced (k : Core) (fence : Bool) :
    ∃ pc t, k.launch fence = { k.launch true with pc := pc, trapNow := t } := by
  rw [launch_eq]
  split
  · exact ⟨_, _, rfl⟩
  · obtain ⟨t, ht⟩ := (k.launch true).fetch_eq
    exact ⟨_, t, ht⟩

/-- Nothing of the lap before is left in a core that has launched but its memories' lasting parts (R53, R64, R130). -/
theorem Core.launch_clears (k : Core) (fence : Bool) (r a : Nat) :
    let z := k.launch fence
    z.rv r = 0 ∧ z.rs r = 0 ∧ z.ra r = 0 ∧ (z.rl r).count = 0 ∧ z.flags = 0
      ∧ (∀ tile row col, z.entryAt tile row col = TileEntry.empty)
      ∧ (a < k.dtop → z.data.read a = k.data.read a) ∧ (k.dtop ≤ a → a < 0x30000 → z.data.read a = 0)
      ∧ z.instr = k.instr ∧ z.issueAt = 0 ∧ z.phase = (if k.idleRec then .ended else .running) := by
  obtain ⟨pc, t, hz⟩ := launch_eq_fenced k fence
  have hdata : (k.launch fence).data = k.data.clearRange k.dtop 0x30000 := by rw [hz]; simp [launch, dataTop]
  intro z
  refine ⟨?_, ?_, ?_, ?_, ?_, fun tile row col => ?_, fun h => ?_, fun h h' => ?_, ?_, ?_, ?_⟩
  case refine_7 => rw [hdata, Memory.read_clearRange, if_neg (by omega)]
  case refine_8 => rw [hdata, Memory.read_clearRange, if_pos ⟨h, h'⟩]
  all_goals
    simp only [z, hz]
    simp [launch, rv, rs, ra, rl, entryAt, Table.get]

/-- Where a core that has launched goes on: at its entry, but behind a fence (R55, R230). -/
theorem Core.launch_next (k : Core) (fence : Bool) (hi : k.idleRec = false) :
    (fence = false → (k.launch fence).pc = k.entry) ∧ (fence = true → (k.launch fence).trapNow = none) := by
  refine ⟨fun hf => ?_, fun hf => ?_⟩
  · obtain ⟨t, ht⟩ := (k.launch true).fetch_eq
    rw [launch_eq, hi, hf, if_neg (by decide), ht]
    simp [launch]
  · simp [launch, hf]

/-- Any other word of even parity on the schuss lines is not this LAUNCH (R222). -/
theorem State.schuss_of_other {s : State} {word w : BitVec 16} {f : State → State} (he : State.evenParity word = true)
    (h : word ≠ w) : s.schuss word w f = s := by
  simp [schuss, he, h]

/-- Settles O12: the driven LAUNCH, its arrival and the launch of one core, each by its lemma above. -/
theorem lapLaunch : Obligations.LapLaunch := by
  unfold Obligations.LapLaunch
  refine ⟨fun s k l hs ha hp hr hl => ?_, fun s k l errs hs hr hl => ⟨fun ha he => ?_, fun w he hw => ?_⟩,
    fun k fence r a => ?_⟩
  · obtain ⟨hk, hcores, hrouters, hsame⟩ := driveLaunch_changes hs ha hp hr hl
    simp only [Slot.launching, Prod.mk.injEq] at hk
    obtain ⟨hstage, ⟨hlatched, hpending⟩, hlaunched, hnext⟩ := hk
    refine ⟨s.driveLaunch k, rfl, hstage, fun h => ?_, fun h => ?_, hlaunched, hnext, hcores, hrouters, hsame⟩
    · rw [hlatched, hpending, if_neg h, if_neg h]; exact ⟨rfl, rfl⟩
    · rw [hlatched, hpending, if_pos h, if_pos h]; exact ⟨rfl, rfl⟩
  · exact ⟨s.arriveLaunch k errs, congrArg _ (schuss_schussWord ..), arriveLaunch_changes hs hr hl ha he⟩
  · exact congrArg _ (schuss_of_other he hw)
  · obtain ⟨hv, hs, ha, hl, hf, ht, hgolden, hzero, hinstr, hissue, hphase⟩ := k.launch_clears fence r a
    refine ⟨hv, hs, ha, hl, hf, ht, hgolden, hzero, hinstr, hissue, fun hi => ⟨?_, k.launch_next fence hi⟩, fun hi => ?_⟩
    · rw [hphase, hi]; rfl
    · rw [hphase, hi]; rfl

end Sys2Proof.Machine

/-! The end of a lap (O13) in a device whose router table lists a number twice: the cores of that clause are asked to stand in
a table whose keys rise, the routers are not. -/
namespace Sys2Proof.Machine
open State

/-- A router of slot k whose gate sequence runs. -/
def Router.runningIn (k : Nat) : Router :=
  { Router.fresh with slot := k, seq := { Router.fresh.seq with phase := .running } }

/-- Slot 0 is in the last cycle of a lap of one frame. Router 0 is one of slot 1, and a router of slot 0 stands behind it
under the same number. -/
def routerTwiceAtLapEnd : State := { State.reset with
  now := 255
  slots := [(0, { Slot.fresh with stage := .running 0, info := { Slot.fresh.info with lapFrames := 1 } })]
  grid := { Grid.reset with routers := [(0, Router.runningIn 1), (0, Router.runningIn 0)] } }

/-- The lap's end takes router 0 for one of slot 0 that has reached no STOP. -/
theorem seqNext_endLap_routerTwiceAtLapEnd :
    ((routerTwiceAtLapEnd.endLap 0).router 0).seqNext.isSome = true := by
  decide

/-- Refutes O13: in the last cycle of slot 0's lap in `routerTwiceAtLapEnd` router 0 is of slot 1, so that nothing of it
should change, but the entry of slot 0 listed behind it makes LAP_END stop it. The clause asks for `Table.sorted` of the
cores and not of the routers. -/
theorem not_lapLinesAndEnd : ¬ Obligations.LapLinesAndEnd := by
  intro h
  obtain ⟨-, -, -, -, hend, -⟩ := h
  obtain ⟨t, hexec, -, -, hrouters, -⟩ := hend routerTwiceAtLapEnd 0 rfl rfl
  have ht : t = routerTwiceAtLapEnd.endLap 0 := (Host.Outcome.next.inj hexec).symm
  have hkept : t.router 0 = Router.runningIn 1 := hrouters 0 rfl
  have hchanged := seqNext_endLap_routerTwiceAtLapEnd
  rw [← ht, hkept] at hchanged
  exact absurd hchanged (by decide)

end Sys2Proof.Machine

/-! Trap reports, dead sites and Porters that disagree (R84, R223, R226, R230, R514, R515, R516, R527). -/
namespace Sys2Proof.Machine
open State

/-! Trap reports (R226). -/

/-- The Porter's acknowledgement of report seq of src enters the channel tr (R226). -/
def Transom.acknowledging (tr : Transom) (src seq : Nat) : Transom :=
  tr.inject (0x4000 + coreY src) (headerFlit src 0xFFF0 2 1 seq 0) []

/-- The Porter has a report it has not had before: it acknowledges it, marks it and counts it (R84, R226). -/
def State.receiving (s : State) (src : Nat) (router : Bool) (seq : Nat) (tr : Transom) : State :=
  { s with grid := { s.grid with
    transom := tr.acknowledging src seq, trapReports := satAdd 32 s.grid.trapReports 1
    reports := s.grid.reports.map (fun q => if State.isReport src router seq q then { q with received := true } else q) } }

section
variable {s : State} {src seq : Nat} {router : Bool} {r : TrapReport} {m : List (BitVec 120)} {tr : Transom}
  (hfind : s.grid.reports.find? (State.isReport src router seq) = some r)
  (hother : s.grid.reports.any (State.isReport src (!router) seq) = false)
include hfind

section
variable (hm : s.grid.transom.takePorter (State.isMessage 1 src seq) = some (m, tr))
include hother hm

/-- A report that comes again is acknowledged again, and not entered (R226). -/
theorem State.takeReport_of_received (hr : r.received = true) :
    s.takeReport src router seq = s.setTransom (tr.acknowledging src seq) := by
  simp [State.takeReport, tyTRAP_REPORT, hm, hother, setTransom, urgent, hfind, hr, Transom.acknowledging, tyTRAP_ACK, destPorter]

/-- A report that comes first is entered as its payload says it, when it is a course's (R84, R226, R229). -/
theorem State.takeReport_of_new (hr : r.received = false) :
    s.takeReport src router seq =
      if 8 ≤ bitsOf (hdrPayload (m.headD 0)) 63 60 then s.receiving src router seq tr
      else (s.receiving src router seq tr).enterFirst (bitsOf (hdrPayload (m.headD 0)) 63 60) r.attempt
        ⟨src, bitsOf (hdrPayload (m.headD 0)) 71 64, bitsOf (hdrPayload (m.headD 0)) 59 42, bitsOf (hdrPayload (m.headD 0)) 41 31⟩ := by
  simp [State.takeReport, tyTRAP_REPORT, hm, hother, setTransom, urgent, hfind, hr, Transom.acknowledging, tyTRAP_ACK, destPorter,
    setReport, receiving]

end

/-- Not yet acknowledged, a report is sent again after 1,024 cc: a core's not past a set fence latch (R226, R230). -/
theorem State.resendReport_of_due (hd : s.now = r.sent + 1024) :
    s.resendReport src router seq =
      let u := s.setReport src router seq (fun q => { q with sent := s.now })
      if !router && (s.site r.site).fence then
        { u with grid := { u.grid with fenceDrops := satAdd 64 s.grid.fenceDrops 1 } }
      else u.setTransom (s.grid.transom.inject src (reportFlit r) []) := by
  simp only [State.resendReport, hfind]
  rw [if_neg (by simp [hd])]
  rfl

/-- The acknowledgement that has reached the sender takes the report off its list (R226). -/
theorem State.ackReport_of_taken (hm : s.grid.transom.takeAt src (State.isMessage 2 0xFFF0 seq) = some (m, tr)) :
    s.ackReport src router seq = (s.setTransom tr).dropReport src router seq := by
  have hany : s.grid.reports.any (State.isReport src router seq) = true :=
    List.any_eq_true.mpr ⟨r, List.mem_of_find?_eq_some hfind, List.find?_some hfind⟩
  simp only [State.ackReport, tyTRAP_ACK, destPorter, hm, hany, if_true]

end

/-- FIRST_TRAP takes an entry when it holds none (R84). -/
theorem State.firstTrap_enterFirst {s : State} {k a : Nat} {r : FaultRec} (h : (s.slot k).firstTrap = 0) :
    ((s.enterFirst k a r).slot k).firstTrap = trapWord k r := by
  simp [State.enterFirst, h]

theorem State.slot_enterFirst_ne (s : State) {k j : Nat} (hj : j ≠ k) (a : Nat) (r : FaultRec) :
    (s.enterFirst k a r).slot j = s.slot j := slot_onSlot_ne s hj _

/-- What a report of slot number k leaves, entered or, of no course, counted alone (R229). -/
theorem State.receiving_entered (s : State) (src : Nat) (router : Bool) (seq : Nat) (tr : Transom) (k a : Nat) (f : FaultRec) :
    let t := if 8 ≤ k then s.receiving src router seq tr else (s.receiving src router seq tr).enterFirst k a f
    t.grid = (s.receiving src router seq tr).grid ∧ (k < 8 → (s.slot k).firstTrap = 0 → (t.slot k).firstTrap = trapWord k f)
      ∧ SameBut k s t := by
  intro t
  by_cases hk : 8 ≤ k
  · have ht : t = s.receiving src router seq tr := if_pos hk
    exact ⟨by rw [ht], fun h => absurd hk (by omega), .of_eq ht (fun j _ => by rw [ht]; rfl) rfl rfl⟩
  · have ht : t = (s.receiving src router seq tr).enterFirst k a f := if_neg hk
    exact ⟨by rw [ht]; rfl, fun _ h0 => by rw [ht]; exact firstTrap_enterFirst h0,
      .of_eq ht (fun j hj => by rw [ht, slot_enterFirst_ne _ hj]; rfl) rfl rfl⟩

/-! Changes of sites that begin (R234). -/

/-- From s to t the Porter has put a plan and its messages on their way, and nothing else has changed. -/
def State.Planned (s t : State) : Prop :=
  ∃ plan unsettled stages commit transom porterSeq, t = { s with grid := { s.grid with
    plan := plan, unsettled := unsettled, stages := stages, commit := commit, transom := transom, porterSeq := porterSeq } }

theorem State.Planned.refl (s : State) : s.Planned s := ⟨_, _, _, _, _, _, rfl⟩

theorem State.Planned.trans {s t u : State} (h : s.Planned t) (h' : t.Planned u) : s.Planned u := by
  obtain ⟨_, _, _, _, _, _, rfl⟩ := h
  obtain ⟨p, n, g, c, tr, q, rfl⟩ := h'
  exact ⟨p, n, g, c, tr, q, rfl⟩

theorem State.planned_sendStage (s : State) (n : Nat) (x : Site) : s.Planned (s.sendStage n x) := by
  unfold State.sendStage
  extract_lets m g u
  have hu : s.Planned u := ⟨_, _, _, _, _, _, rfl⟩
  split
  · exact hu
  · exact hu.trans ⟨_, _, _, _, _, _, rfl⟩

theorem State.planned_driveCommit (s : State) : s.Planned s.driveCommit := by
  unfold State.driveCommit
  split
  · exact .refl s
  · split
    · exact ⟨_, _, _, _, _, _, rfl⟩
    · exact .refl s

theorem State.planned_beginPlan (s : State) (p : SitePlan) : s.Planned (s.beginPlan p) := by
  have hstages : ∀ (l : List (Nat × Site)) (t : State), t.Planned (l.foldl (fun t x => t.sendStage x.1 x.2) t) := by
    intro l
    induction l with
    | nil => exact fun t => .refl t
    | cons x l ih => exact fun t => (planned_sendStage t x.1 x.2).trans (ih _)
  unfold State.beginPlan
  extract_lets g t
  have ht : s.Planned t := ⟨_, _, _, _, _, _, rfl⟩
  split
  · exact .refl s
  · exact ht.trans ((hstages _ t).trans (planned_driveCommit _))

theorem State.planned_startSites (s : State) : s.Planned s.startSites := by
  unfold State.startSites
  split
  · exact .refl s
  · split
    · exact .trans ⟨_, _, _, _, _, _, rfl⟩ (planned_beginPlan ..)
    · split
      · exact planned_beginPlan ..
      · exact .refl s

/-! Dead sites (R514, R515). -/

/-- A site decided as failed is on the list, or counts as failed already (R514). -/
theorem State.decideFailed_eq {s : State} {n : Nat} (hn : n < 10560) :
    ∃ failing, s.decideFailed n = { s with grid := { s.grid with failing := failing } } ∧ (n ∈ failing ∨ n ∈ s.failedSites) := by
  unfold State.decideFailed
  split
  · next h =>
    have hmem : n ∈ s.grid.failing ∨ n ∈ s.failedSites := by
      simpa [siteCount, Nat.not_le.mpr hn] using h
    exact ⟨_, rfl, hmem⟩
  · exact ⟨_, rfl, .inl (by simp)⟩

/-- What follows the trip of a site's monitor: from the state u in which it is driven or raised, the site fails, and changes may
begin (R514). -/
theorem State.startSites_decideFailed (u : State) {n : Nat} (hn : n < 10560) :
    ∃ grid, (u.decideFailed n).startSites = { u with grid := grid } ∧ (n ∈ grid.failing ∨ n ∈ u.failedSites)
      ∧ grid.cores = u.grid.cores ∧ grid.deviceDrives = u.grid.deviceDrives := by
  obtain ⟨failing, hf, hmem⟩ := decideFailed_eq (s := u) hn
  obtain ⟨_, _, _, _, _, _, hp⟩ := planned_startSites (u.decideFailed n)
  generalize u.decideFailed n = v at hf hp
  subst hf
  exact ⟨_, hp, hmem, rfl, rfl⟩

/-- What a fault of a slice, a port or a monitor leaves of its slot. -/
def Slot.raised (x : Slot) : List FaultRec × Option Nat := (x.faults, x.faultDrive)

/-- FIRST_TRAP is no part of the faults of an attempt. -/
theorem State.onlySlot_enterFirst (s : State) (k a : Nat) (r : FaultRec) : OnlySlot k Slot.raised s (s.enterFirst k a r) := by
  refine .onSlot ?_
  simp only [Slot.raised, apply_ite Slot.faults, apply_ite Slot.faultDrive, ite_self]

/-- A fault raised while the attempt can still have one is kept, and FAULT is driven (R223). -/
theorem State.raiseNow_of_going {s : State} {k : Nat} (h : s.lapGoing k = true) (core code : Nat) :
    (∃ slots, s.raiseNow k core code = { s with slots := slots })
      ∧ (∀ j, j ≠ k → (s.raiseNow k core code).slot j = s.slot j)
      ∧ ((s.raiseNow k core code).slot k).faults = (s.slot k).faults ++ [⟨core, code, s.faultCycle k, 0⟩]
      ∧ ((s.raiseNow k core code).slot k).faultDrive.isSome = true := by
  have hraise : s.raiseNow k core code = (((s.keepFault k ⟨core, code, s.faultCycle k, 0⟩).onSlot k (fun x => { x with
      faultDrive := some (x.faultDrive.getD s.now) })).enterFirst k (s.slot k).attemptNo ⟨core, code, s.faultCycle k, 0⟩) := by
    simp [State.raiseNow, State.raise, h]
  rw [hraise]
  generalize hu : ((s.keepFault k ⟨core, code, s.faultCycle k, 0⟩).onSlot k (fun x => { x with
      faultDrive := some (x.faultDrive.getD s.now) })) = u
  obtain ⟨⟨slots, hrest⟩, hothers, hkept⟩ := u.onlySlot_enterFirst k (s.slot k).attemptNo ⟨core, code, s.faultCycle k, 0⟩
  simp only [Slot.raised, Prod.mk.injEq] at hkept
  refine ⟨⟨slots, by rw [hrest, ← hu]; rfl⟩, fun j hj => ?_, ?_, ?_⟩
  · rw [hothers j hj, ← hu, slot_onSlot_ne _ hj, keepFault, slot_onSlot_ne _ hj]
  · rw [hkept.1, ← hu]; simp [keepFault]
  · rw [hkept.2, ← hu]; simp

/-- A site of a course whose monitor trips faults its attempt (R515). -/
theorem State.deadSite_of_owned {s : State} {site c k : Nat} (hc : s.coreAt site = some c) (hk : s.ownerOf site = some k) :
    s.deadSite site = ((s.raiseNow k c 0x3A).decideFailed site).startSites := by
  simp only [State.deadSite, hc, hk]

/-- One of no course drives DEVICE (R223). -/
theorem State.deadSite_of_unowned {s : State} {site : Nat} (hk : s.ownerOf site = none) :
    s.deadSite site = (State.decideFailed { s with grid := { s.grid with
      deviceDrives := s.now :: s.grid.deviceDrives } } site).startSites := by
  simp only [State.deadSite, hk]
  cases s.coreAt site <;> with_reducible rfl

/-! Halts (R285). -/

/-- From s to t the grid, memory and every slot but k stand, no time has passed, and of slot k what f reads stands. -/
structure Beside {α : Type} (k : Nat) (f : Slot → α) (s t : State) : Prop where
  grid : t.grid = s.grid
  mem : t.mem = s.mem
  now : t.now = s.now
  others : ∀ j, j ≠ k → t.slot j = s.slot j
  kept : f (t.slot k) = f (s.slot k)

namespace Beside
variable {α β : Type} {k : Nat} {f : Slot → α} {s t u : State}

theorem refl (s : State) : Beside k f s s := ⟨rfl, rfl, rfl, fun _ _ => rfl, rfl⟩

theorem trans (h : Beside k f s t) (h' : Beside k f t u) : Beside k f s u :=
  ⟨h'.grid.trans h.grid, h'.mem.trans h.mem, h'.now.trans h.now, fun j hj => (h'.others j hj).trans (h.others j hj),
    h'.kept.trans h.kept⟩

/-- What f reads of slot k holds what g reads. -/
theorem of_reads {g : Slot → β} (h : Beside k f s t) (p : α → β) (hp : ∀ x, p (f x) = g x) : Beside k g s t :=
  ⟨h.grid, h.mem, h.now, h.others, by rw [← hp, h.kept, hp]⟩

/-- A change of slot k that f does not read, after what stands. -/
theorem onSlot {g : Slot → Slot} (h : Beside k f s u) (hg : f (g (u.slot k)) = f (u.slot k)) : Beside k f s (u.onSlot k g) :=
  h.trans ⟨rfl, rfl, rfl, fun _ hj => slot_onSlot_ne u hj g, by rw [slot_onSlot_self, hg]⟩

/-- A change of none of these parts. -/
theorem of_slots (hg : t.grid = s.grid) (hm : t.mem = s.mem) (hn : t.now = s.now) (hs : t.slots = s.slots) : Beside k f s t := by
  have hslot : ∀ j, t.slot j = s.slot j := fun j => by simp only [State.slot, hs]
  exact ⟨hg, hm, hn, fun j _ => hslot j, by rw [hslot]⟩

theorem fire (s : State) (n : Nat) : Beside k f s (s.fire n) := by
  obtain ⟨_, _, _, _, e⟩ := s.fire_eq n
  exact .of_slots (by rw [e]) (by rw [e]) (by rw [e]) (by rw [e])

theorem answerTicket (s : State) (t : Ticket) (opcode slot status value0 value1 : Nat) (payload : List Byte) (async : Bool) :
    Beside k f s (s.answerTicket t opcode slot status value0 value1 payload async) := by
  obtain ⟨_, e⟩ := s.answerTicket_eq t opcode slot status value0 value1 payload async
  exact .of_slots (by rw [e]) (by rw [e]) (by rw [e]) (by rw [e])

end Beside

/-- What a course is at its boundary: its layout and the devices lost from it, its state, what waits for an answer, its counts,
its attempt, and what is left of its recovery. -/
structure CourseState where
  info : CourseInfo
  lostAddrs : List Nat
  st : SlotState
  reason : HaltReason
  halt : List (Ticket × Bool)
  ticket : Option Ticket
  lapNext : Nat
  lapsDone : Nat
  counted : Bool
  lapsLeft : Nat
  boundaryAt : Nat
  digestDue : List DigestJob
  attempt : AttemptKind
  run : List FaultRec
  faultBoundaryAt : Option Nat
  reloads : List Nat
  rebuilding : List Nat

/-- Slot x as a course at its boundary. -/
def Slot.course (x : Slot) : CourseState :=
  ⟨x.info, x.lostAddrs, x.st, x.reason, x.halt, x.launchTicket, x.lapNext, x.lapsDone, x.counted, x.lapsLeft, x.boundaryAt,
    x.digestDue, x.attempt, x.run, x.faultBoundaryAt, x.reloads, x.rebuilding⟩

/-- That, and the stage of its lap. -/
def Slot.staged (x : Slot) : LapStage × CourseState := (x.stage, x.course)

theorem Slot.staged_inj {x y : Slot} (h : x.staged = y.staged) : x.stage = y.stage ∧ x.course = y.course := Prod.mk.inj h

theorem State.beside_refund (s : State) (k : Nat) : Beside k Slot.staged s (s.refund k) := by
  unfold State.refund
  split
  · exact .onSlot (.of_slots rfl rfl rfl rfl) rfl
  · exact .refl s

theorem State.beside_abortBy (s : State) (k t : Nat) : Beside k Slot.staged s (s.abortBy k t) := .onSlot (.refl s) rfl

/-- What a course is at its boundary but for what waits for an answer. -/
def Slot.unasked (x : Slot) : LapStage × CourseState := (x.stage, { x.course with halt := [], ticket := none })

/-- The answer to the run's LAUNCH, if it waits, is the end of its ticket (R290). -/
theorem State.beside_endRunResponse (s : State) (k status : Nat) :
    Beside k Slot.unasked s (s.endRunResponse k status)
      ∧ ((s.endRunResponse k status).slot k).launchTicket = none
      ∧ ((s.endRunResponse k status).slot k).halt = (s.slot k).halt := by
  unfold State.endRunResponse
  split
  · next h => exact ⟨.refl s, h, rfl⟩
  · next t _ =>
    have ht := Beside.answerTicket (k := k) (f := Slot.staged) s t 0x30 k status (s.slot k).lapNext 0 [] true
    refine ⟨.onSlot (ht.of_reads (fun x => (x.1, { x.2 with halt := [], ticket := none })) fun _ => rfl) rfl, ?_, ?_⟩
    · rw [slot_onSlot_self]
    · rw [slot_onSlot_self]
      exact congrArg (fun x => x.2.halt) ht.kept

/-- With no halt waiting, answering them all changes nothing (R291). -/
theorem State.beside_answerHalts {s : State} {k : Nat} (status : Nat) (h : (s.slot k).halt = []) :
    Beside k Slot.staged s (s.answerHalts k status) := by
  unfold State.answerHalts
  rw [h]
  exact .onSlot (.refl s) (by simp [Slot.staged, Slot.course, h])

/-- The counts that a halt leaves. -/
def Slot.counts (x : Slot) : Nat × Nat := (x.lapNext, x.boundaryAt)

/-- The answers that end a run whose halts have been answered: nothing of its slot changes but its ticket (R285, R290). -/
theorem State.endsRun {s : State} {k : Nat} (status status' : Nat) (h : (s.slot k).halt = []) :
    Beside k Slot.unasked s ((s.endRunResponse k status).answerHalts k status')
      ∧ (((s.endRunResponse k status).answerHalts k status').slot k).launchTicket = none := by
  obtain ⟨hrun, hticket, hhalt⟩ := s.beside_endRunResponse k status
  have hanswer := beside_answerHalts status' (hhalt.trans h)
  refine ⟨hrun.trans (hanswer.of_reads (fun x => (x.1, { x.2 with halt := [], ticket := none })) fun _ => rfl), ?_⟩
  exact (congrArg (fun x => x.2.ticket) hanswer.kept).trans hticket

/-- A slot with a course and no halt waiting enters HALTED: no other slot, grid or memory changes, its run is over, and one
that stood at its boundary stays there (R285). -/
theorem State.haltSlot_changes {s : State} {k : Nat} (why : HaltReason) (hst : (s.slot k).st ≠ .empty)
    (hh : (s.slot k).halt = []) :
    let t := s.haltSlot k why
    Beside k Slot.counts s t ∧ ((s.slot k).stage = .idle → (t.slot k).stage = .idle)
      ∧ (t.slot k).st = .halted ∧ (t.slot k).reason = why ∧ (t.slot k).launchTicket = none := by
  unfold State.haltSlot
  rw [if_neg (by simpa using hst)]
  extract_lets s1 s2 s3 s4 s5 t
  have h1 : Beside k Slot.course s s1 ∧ ((s.slot k).stage = .idle → (s1.slot k).stage = .idle) := by
    have hkept : ∀ u, Beside k Slot.staged s u → Beside k Slot.course s u
        ∧ ((s.slot k).stage = .idle → (u.slot k).stage = .idle) := fun u hu =>
      ⟨hu.of_reads Prod.snd fun _ => rfl, (congrArg Prod.fst hu.kept).trans⟩
    have hrefund := (s.beside_refund k).of_reads (g := Slot.course) Prod.snd fun _ => rfl
    unfold s1
    split
    · exact hkept _ (s.beside_abortBy k (s.now + 24))
    · exact hkept _ (.refl s)
    all_goals exact ⟨hrefund.onSlot rfl, fun _ => by rw [slot_onSlot_self]⟩
  obtain ⟨hs1, hidle1⟩ := h1
  have hs2 : Beside k Slot.staged s1 s2 := by
    simp only [s2]
    split
    · exact .answerTicket ..
    · exact .refl s1
  have hs3 : Beside k Slot.staged s2 s3 := by
    simp only [s3]
    split
    · exact .fire ..
    · exact .refl s2
  have hhalt3 : (s3.slot k).halt = [] :=
    (congrArg (fun x => x.2.halt) (hs2.trans hs3).kept).trans ((congrArg CourseState.halt hs1.kept).trans hh)
  have hs4 : Beside k (fun x => (x.stage, x.counts)) s3 s4 := .onSlot (.refl s3) rfl
  have hs5 : Beside k Slot.staged s4 s5 := .fire ..
  have hslot4 : (s4.slot k).halt = [] ∧ (s4.slot k).st = .halted ∧ (s4.slot k).reason = why := by
    simp only [s4, slot_onSlot_self]
    exact ⟨hhalt3, trivial, trivial⟩
  obtain ⟨hend, hticket⟩ := endsRun (s := s5) (k := k) why.status stOK ((congrArg (fun x => x.2.halt) hs5.kept).trans hslot4.1)
  have hrelease : ∀ u : State, u.releaseFor k (s.slot k).halt = u := fun u => by rw [hh]; rfl
  rw [show t = _ from hrelease _]
  have hs7 := (hs5.of_reads (g := Slot.unasked) (fun x => (x.1, { x.2 with halt := [], ticket := none })) fun _ => rfl).trans hend
  have hresting := hs4.trans (hs7.of_reads (fun x => (x.1, x.2.lapNext, x.2.boundaryAt)) fun _ => rfl)
  have hall := (hs2.trans hs3).of_reads (g := fun x => (x.stage, x.counts)) (fun x => (x.1, x.2.lapNext, x.2.boundaryAt)) fun _ => rfl
  have hfrom1 := hall.trans hresting
  refine ⟨(hs1.of_reads (fun x => (x.lapNext, x.boundaryAt)) fun _ => rfl).trans (hfrom1.of_reads Prod.snd fun _ => rfl),
    fun hi => (congrArg Prod.fst hfrom1.kept).trans (hidle1 hi), ?_, ?_, hticket⟩
  · exact (congrArg (fun x => x.2.st) hs7.kept).trans hslot4.2.1
  · exact (congrArg (fun x => x.2.reason) hs7.kept).trans hslot4.2.2

/-- An EMPTY slot does not halt. -/
theorem State.haltSlot_of_empty {s : State} {k : Nat} (why : HaltReason) (h : (s.slot k).st = .empty) : s.haltSlot k why = s := by
  unfold State.haltSlot
  exact if_pos (by simp [h])

/-- Halting the slots of a list, none with a halt waiting: each that holds a course is HALTED, for this reason, and no other
slot, grid or memory changes. -/
theorem State.foldl_haltSlot (why : HaltReason) (l : List Nat) (s : State) (hl : l.Nodup) (hh : ∀ k ∈ l, (s.slot k).halt = []) :
    let t := l.foldl (fun s k => s.haltSlot k why) s
    t.grid = s.grid ∧ t.mem = s.mem ∧ (∀ j, j ∉ l → t.slot j = s.slot j)
      ∧ (∀ k ∈ l, (s.slot k).st ≠ .empty → (t.slot k).st = .halted ∧ (t.slot k).reason = why) := by
  induction l generalizing s with
  | nil => exact ⟨rfl, rfl, fun _ _ => rfl, fun _ hk => absurd hk (List.not_mem_nil)⟩
  | cons k l ih =>
    obtain ⟨hk, hl⟩ := List.nodup_cons.mp hl
    have hone : (s.haltSlot k why).grid = s.grid ∧ (s.haltSlot k why).mem = s.mem
        ∧ (∀ j, j ≠ k → (s.haltSlot k why).slot j = s.slot j) ∧ ((s.slot k).st ≠ .empty →
          ((s.haltSlot k why).slot k).st = .halted ∧ ((s.haltSlot k why).slot k).reason = why) := by
      by_cases he : (s.slot k).st = .empty
      · rw [haltSlot_of_empty why he]
        exact ⟨rfl, rfl, fun _ _ => rfl, fun h => absurd he h⟩
      · obtain ⟨⟨hg, hm, -, hothers, -⟩, -, hst, hreason, -⟩ := haltSlot_changes why he (hh k (List.mem_cons_self ..))
        exact ⟨hg, hm, hothers, fun _ => ⟨hst, hreason⟩⟩
    obtain ⟨hg1, hm1, hothers1, hhalt1⟩ := hone
    have hne : ∀ j ∈ l, j ≠ k := fun j hj e => hk (e ▸ hj)
    obtain ⟨hg, hm, hothers, hhalt⟩ := ih (s.haltSlot k why) hl fun j hj => by
      rw [hothers1 j (hne j hj)]; exact hh j (List.mem_cons_of_mem _ hj)
    refine ⟨hg.trans hg1, hm.trans hm1, fun j hj => ?_, fun j hj hst => ?_⟩
    · rw [List.mem_cons, not_or] at hj
      exact (hothers j hj.2).trans (hothers1 j hj.1)
    · rcases List.mem_cons.mp hj with rfl | hj
      · rw [List.foldl_cons, hothers j hk]; exact hhalt1 hst
      · exact hhalt j hj (by rwa [hothers1 j (hne j hj)])

/-- A lost device keeps the cause, and its courses halt (R516). -/
theorem State.loseDevice_halts {s : State} (cause : Nat) (hd : s.grid.deviceLost = 0) (hh : ∀ k < 8, (s.slot k).halt = []) :
    (s.loseDevice cause).grid = { s.grid with deviceLost := cause } ∧ (s.loseDevice cause).mem = s.mem
      ∧ (∀ k < 8, (s.slot k).st ≠ .empty →
          ((s.loseDevice cause).slot k).st = .halted ∧ ((s.loseDevice cause).slot k).reason = .deviceLost) := by
  obtain ⟨hg, hm, -, hhalt⟩ := foldl_haltSlot .deviceLost (List.range 8)
    { s with grid := { s.grid with deviceLost := cause } } List.nodup_range fun k hk => hh k (List.mem_range.mp hk)
  have hlose : s.loseDevice cause = (List.range 8).foldl (fun s k => s.haltSlot k .deviceLost)
      { s with grid := { s.grid with deviceLost := cause } } := by
    unfold State.loseDevice
    exact if_neg (by simp [hd])
  rw [hlose]
  exact ⟨hg, hm, fun k hk hst => hhalt k (List.mem_range.mpr hk) hst⟩

/-- Settles O16: a report's reception, its repetition and its acknowledgement, a dead site with and without a course, and the
loss of the device, each by its lemma above. -/
theorem reportsAndFailures : Obligations.ReportsAndFailures := by
  unfold Obligations.ReportsAndFailures
  refine ⟨fun s src seq router r hfind hother => ?_, fun s => ⟨fun site hsite => ⟨fun c k hc hk hg => ?_, fun hk => ?_⟩,
    fun hd hh => ?_, fun hd => ?_⟩⟩
  · refine ⟨fun m tr hm => ⟨fun hr => ?_, fun hr => ?_⟩, fun hd => ⟨fun hf => ?_, fun hcore hf => ?_⟩, fun m tr hm => ?_⟩
    · exact congrArg _ (takeReport_of_received hfind hother hm hr)
    · obtain ⟨hgrid, htrap, hsame⟩ := receiving_entered s src router seq tr (bitsOf (hdrPayload (m.headD 0)) 63 60) r.attempt
        ⟨src, bitsOf (hdrPayload (m.headD 0)) 71 64, bitsOf (hdrPayload (m.headD 0)) 59 42, bitsOf (hdrPayload (m.headD 0)) 41 31⟩
      rw [← takeReport_of_new hfind hother hm hr] at hgrid htrap hsame
      exact ⟨_, rfl, congrArg Grid.transom hgrid, congrArg Grid.trapReports hgrid, congrArg Grid.reports hgrid, htrap, hsame,
        (congrArg Grid.cores hgrid).trans rfl⟩
    · refine congrArg _ ((resendReport_of_due hfind hd).trans ?_)
      exact if_neg (by rcases hf with h | h <;> simp [h])
    · refine congrArg _ ((resendReport_of_due hfind hd).trans ?_)
      exact if_pos (by simp [hcore, hf])
    · exact congrArg _ (ackReport_of_taken hfind hm)
  · obtain ⟨⟨slots, hrest⟩, hothers, hfaults, hdrive⟩ := raiseNow_of_going hg c 0x3A
    obtain ⟨grid, ht, hfailing, hcores, -⟩ := startSites_decideFailed (s.raiseNow k c 0x3A) hsite
    rw [← deadSite_of_owned hc hk] at ht
    have hslot : ∀ j, (s.deadSite site).slot j = (s.raiseNow k c 0x3A).slot j := fun j => by rw [ht]; rfl
    rw [hrest] at ht hfailing hcores
    refine ⟨_, rfl, (congrArg Slot.faults (hslot k)).trans hfaults, ?_, ?_,
      .of_eq ht (fun j hj => (hslot j).trans (hothers j hj)) rfl rfl, (congrArg (fun t => t.grid.cores) ht).trans hcores⟩
    · rw [hslot, hdrive]
    · rw [ht]; exact hfailing
  · obtain ⟨grid, ht, hfailing, hcores, hdrives⟩ := startSites_decideFailed { s with grid := { s.grid with
      deviceDrives := s.now :: s.grid.deviceDrives } } hsite
    rw [← deadSite_of_unowned hk] at ht
    refine ⟨_, rfl, ?_⟩
    rw [ht]
    exact ⟨hdrives, hfailing, rfl, hcores, rfl⟩
  · obtain ⟨hgrid, hmem, hhalt⟩ := loseDevice_halts 4 hd hh
    exact ⟨_, rfl, congrArg Grid.deviceLost hgrid, hhalt, congrArg MemState.hbm hmem, (congrArg Grid.cores hgrid).trans rfl⟩
  · exact congrArg _ (if_pos (by simpa using hd))

end Sys2Proof.Machine

/-! How a slot goes on from its boundary (R290 to R292, R432, R433, R473). -/
namespace Sys2Proof.Machine
open State

/-! The Louvre's decision, and what a device answers to a proposal (R433, R473). -/

theorem State.agreesLaunch_congr {s t : State} {k : Nat} (h : (t.slot k).course = (s.slot k).course) :
    t.agreesLaunch k = s.agreesLaunch k := by
  have hi : (t.slot k).info = (s.slot k).info := congrArg CourseState.info h
  have hl : (t.slot k).lostAddrs = (s.slot k).lostAddrs := congrArg CourseState.lostAddrs h
  have ha : (t.slot k).attempt = (s.slot k).attempt := congrArg CourseState.attempt h
  simp only [State.agreesLaunch, multi_congr hi hl, hi, ha]

theorem State.observe_beside (s : State) (k m : Nat) (v : Int) : Beside k Slot.staged s (s.observe m v) := by
  unfold State.observe
  split
  · exact .refl s
  · exact .of_slots rfl rfl rfl rfl

theorem State.commitCount_beside (s : State) (k l : Nat) : Beside k Slot.course s (s.commitCount k l) := .onSlot (.refl s) rfl

/-- A decision on slot k leaves its course as it is; it has its launch count from another device when launches are agreed. -/
theorem State.decideLap_beside (s : State) (k : Nat) :
    Beside k Slot.course s (s.decideLap k).1 ∧ (s.agreesLaunch k = true → Beside k Slot.staged s (s.decideLap k).1) := by
  unfold State.decideLap
  extract_lets l1 s1 l2 s2 s3 s4
  have hs1 : Beside k Slot.staged s s1 := .of_slots rfl rfl rfl rfl
  split
  · have hs2 : Beside k Slot.staged s1 s2 := .of_slots rfl rfl rfl rfl
    have hs3 : Beside k Slot.staged s2 s3 := observe_beside ..
    have hs4 : Beside k Slot.staged s s4 := .onSlot (hs1.trans (hs2.trans hs3)) rfl
    have hc : Beside k Slot.course s s4 := hs4.of_reads Prod.snd fun _ => rfl
    have ha : s4.agreesLaunch k = s.agreesLaunch k := agreesLaunch_congr hc.kept
    rw [ha]
    refine ⟨?_, fun h => by simpa [h] using hs4⟩
    split
    · exact hc
    · exact hc.trans (commitCount_beside ..)
  · exact ⟨.trans (hs1.of_reads Prod.snd fun _ => rfl) (.of_slots rfl rfl rfl rfl), fun _ => hs1.trans (.of_slots rfl rfl rfl rfl)⟩

/-- So does an admission that is held. -/
theorem State.holdAdmission_beside (s : State) (k : Nat) :
    Beside k Slot.course s (s.holdAdmission k).1 ∧ (s.agreesLaunch k = true → Beside k Slot.staged s (s.holdAdmission k).1) := by
  unfold State.holdAdmission
  split
  · exact ⟨.refl s, fun _ => .refl s⟩
  · generalize hu : s.onSlot k (fun x => { x with waitSince := if x.waitSince == 0 then s.now - 1 else x.waitSince }) = u
    have hs : Beside k Slot.staged s u := hu ▸ .onSlot (.refl s) rfl
    have hc : Beside k Slot.course s u := hs.of_reads Prod.snd fun _ => rfl
    obtain ⟨hd, hd'⟩ := u.decideLap_beside k
    exact ⟨hc.trans hd, fun h => hs.trans (hd' ((agreesLaunch_congr hc.kept).trans h))⟩

theorem State.earliestReady_beside (s : State) (k : Nat) {α : Type} (j : Nat) (f : Slot → α) :
    Beside j f s (s.earliestReady k).2 := by
  unfold State.earliestReady
  extract_lets x f'
  split
  · exact .refl s
  · split
    · exact .refl s
    · exact .of_slots rfl rfl rfl rfl

/-- The answer to a proposal changes no more than one slot, which wants the action proposed, and not its course; nor, where
launches are agreed, the stage of its lap (R433). -/
theorem State.answerProposal_beside (s : State) (q : Proposal) :
    ∃ k, ((s.answerProposal q).1.slots = s.slots ∨ s.wantedAction k = some q.action.toNat)
      ∧ Beside k Slot.course s (s.answerProposal q).1
      ∧ (s.agreesLaunch k = true → Beside k Slot.staged s (s.answerProposal q).1) := by
  unfold State.answerProposal
  split
  · exact ⟨0, .inl rfl, .refl s, fun _ => .refl s⟩
  · next k _ =>
    dsimp only
    refine ⟨k, ?_⟩
    split
    · exact ⟨.inl rfl, .refl s, fun _ => .refl s⟩
    · next h =>
      have hwants : s.wantedAction k = some q.action.toNat := by
        simp only [Bool.or_eq_true, Bool.not_eq_true', not_or, Bool.not_eq_false, Bool.and_eq_true] at h
        exact eq_of_beq h.2.1
      refine ⟨.inr hwants, ?_⟩
      split
      · exact ⟨s.earliestReady_beside k k _, fun _ => s.earliestReady_beside k k _⟩
      · split
        · exact ⟨.refl s, fun _ => .refl s⟩
        · obtain ⟨hc, hs⟩ := s.holdAdmission_beside k
          split <;> dsimp only
          · exact ⟨hc.onSlot rfl, fun ha => (hs ha).onSlot rfl⟩
          · exact ⟨hc, hs⟩

/-- A broadcast that starts is the links' affair (R431). -/
theorem State.startBcast_eq (s : State) (slot : Option Nat) (sc : Scope) (body : Msg) (bseq : Nat) (own : TallyBody) :
    ∃ link, s.startBcast slot sc body bseq own = { s with link := link } := by
  have hsend : ∀ (l : List (Nat × Nat)) (r : Route) (u : State),
      ∃ link, l.foldl (fun u c => u.sendOn c.1 r body) u = { u with link := link } := by
    intro l r
    induction l with
    | nil => exact fun u => ⟨u.link, rfl⟩
    | cons c l ih =>
      intro u
      obtain ⟨link, h⟩ : ∃ link, u.sendOn c.1 r body = { u with link := link } := by
        unfold State.sendOn State.queueMsg
        split
        · split <;> exact ⟨_, rfl⟩
        · exact ⟨u.link, rfl⟩
      obtain ⟨link', h'⟩ := ih (u.sendOn c.1 r body)
      exact ⟨link', by rw [List.foldl_cons, h', h]⟩
  unfold State.startBcast
  extract_lets r kids split u tally
  obtain ⟨link, h⟩ := hsend kids r s
  exact ⟨_, by rw [show u = _ from h]⟩

/-- A slot wants the action of a probe exactly when it probes; a HALTED one wants no other (R330, R433). -/
theorem State.wantedAction_cases {s : State} {k a : Nat} (h : s.wantedAction k = some a) :
    a ≤ 2 ∧ (a = 2 → s.probing k = true) ∧ ((s.slot k).st = .halted → a = 2) := by
  unfold State.wantedAction at h
  extract_lets x at h
  split at h
  · next hp =>
    cases h
    exact ⟨by decide, fun _ => hp, fun _ => rfl⟩
  · split at h
    · next hst =>
      have hne : (s.slot k).st ≠ .halted := fun e => by simp [x, e] at hst
      split at h <;> cases h <;> exact ⟨by decide, fun e => absurd e (by decide), fun e => absurd e hne⟩
    · cases h

/-- From s to t memory, the grid and every HALTED slot stand, and no time has passed. -/
structure HaltedStand (s t : State) : Prop where
  grid : t.grid = s.grid
  mem : t.mem = s.mem
  now : t.now = s.now
  halted : ∀ j, (s.slot j).st = .halted → t.slot j = s.slot j

/-- A broadcast that proposes waits in the links' queue, or starts with this device's own answer (R431, R432). -/
theorem State.broadcast_propose (s : State) (slot : Option Nat) (sc : Scope) (q : Proposal) :
    (∃ link, s.broadcast slot sc (.propose q) = { s with link := link })
      ∨ ∃ link link', s.broadcast slot sc (.propose q) = { (({ s with link := link } : State).answerProposal q).1 with link := link' } := by
  unfold State.broadcast
  split
  · exact .inl ⟨s.link, rfl⟩
  · split
    · exact .inl ⟨_, rfl⟩
    · obtain ⟨link', h⟩ := startBcast_eq (s.takeBseq.2.answerProposal q).1 slot sc (.propose q) s.takeBseq.1
        (s.takeBseq.2.answerProposal q).2
      exact .inr ⟨_, link', h⟩

/-- The proposal of a slot that is not HALTED reaches no HALTED slot; it leaves the slot's course as it is, and the stage of its
lap where launches are agreed (R432, R433). -/
theorem State.proposeLap_changes {s : State} {k : Nat} (hst : (s.slot k).st ≠ .halted) :
    HaltedStand s (s.proposeLap k) ∧ (s.agreesLaunch k = true → ((s.proposeLap k).slot k).staged = (s.slot k).staged) := by
  unfold State.proposeLap
  split
  · exact ⟨⟨rfl, rfl, rfl, fun _ _ => rfl⟩, fun _ => rfl⟩
  · next a ha =>
    obtain ⟨hle, htwo, -⟩ := wantedAction_cases ha
    dsimp only
    generalize hl : roundUpTo 256 (s.rink + s.agreeSpan k) = l
    generalize hq : (⟨BitVec.ofNat 16 (ctagOf (s.slot k).info), BitVec.ofNat 48 (s.slot k).lapNext, BitVec.ofNat 8 a,
      BitVec.ofNat 64 l, BitVec.ofNat 32 (if a == 2 then s.det.probe.cycle else 0)⟩ : Proposal) = q
    have hqa : q.action.toNat = a := by rw [← hq]; simp; omega
    generalize hu : s.onSlot k (fun x => { x with proposed := some (x.lapNext, l), reproposeAt := none }) = u
    have hsu : Beside k Slot.staged s u := hu ▸ .onSlot (.refl s) rfl
    have hne : ∀ j, (s.slot j).st = .halted → j ≠ k := fun j hj e => hst (e ▸ hj)
    rcases u.broadcast_propose (some k) (s.layoutScope k) q with ⟨link, e⟩ | ⟨link, link', e⟩
    · rw [e]
      exact ⟨⟨hsu.grid, hsu.mem, hsu.now, fun j hj => hsu.others j (hne j hj)⟩, fun _ => hsu.kept⟩
    · generalize hv : ({ u with link := link } : State) = v at e
      have huv : Beside k Slot.staged u v := hv ▸ .of_slots rfl rfl rfl rfl
      have hsv := hsu.trans huv
      obtain ⟨k', hk', hc, hs⟩ := v.answerProposal_beside q
      rw [e]
      refine ⟨⟨hc.grid.trans hsv.grid, hc.mem.trans hsv.mem, hc.now.trans hsv.now, fun j hj => ?_⟩, fun hag => ?_⟩
      · have hvj : v.slot j = s.slot j := hsv.others j (hne j hj)
        rcases hk' with hslots | hwants
        · exact (congrArg (Table.get Slot.fresh j) hslots).trans hvj
        · refine (hc.others j fun hjk => ?_).trans hvj
          rw [hqa] at hwants
          obtain ⟨-, htwo', hhalted⟩ := wantedAction_cases hwants
          have hdet : v.det = s.det := by rw [← hv, ← hu]; rfl
          have ha2 : a = 2 := hhalted (by rw [← hjk, hvj, hj])
          have hk := htwo ha2
          have hk' := htwo' ha2
          simp only [State.probing, hdet, Bool.and_eq_true, beq_iff_eq] at hk hk'
          exact hne j hj (hjk.trans (hk'.2.symm.trans hk.2))
      · by_cases hkk : k = k'
        · subst hkk
          have hag' : v.agreesLaunch k = true := (agreesLaunch_congr (hsv.of_reads Prod.snd fun _ => rfl).kept).trans hag
          exact ((hs hag').kept).trans hsv.kept
        · exact (congrArg Slot.staged (hc.others k hkk)).trans hsv.kept

/-! Pausing (R290, R291). -/

/-- What a pause leaves of its slot: the lap, the laps done, and what came of them. -/
def Slot.laps (x : Slot) : Nat × Nat × Nat × List DigestJob := (x.lapNext, x.lapsDone, x.boundaryAt, x.digestDue)

/-- Slot k enters PAUSED, before the answers. -/
def State.pausing (s : State) (k : Nat) : State :=
  ((s.refund k).onSlot k (fun x => { x with st := .paused, stage := .idle, attempt := .first, lapsLeft := 0, waitSince := 0 })).fireSlot k 1

theorem State.pauseSlot_eq (s : State) (k : Nat) (counted : Bool) : s.pauseSlot k counted =
    (((s.pausing k).answerHalts k stPAUSED).endRunResponse k (if counted then stOK else stPAUSED)).releaseFor k (s.slot k).halt := rfl

theorem State.pausing_changes (s : State) (k : Nat) :
    Beside k (fun x => (x.laps, x.halt)) s (s.pausing k)
      ∧ ((s.pausing k).slot k).st = .paused ∧ ((s.pausing k).slot k).stage = .idle ∧ ((s.pausing k).slot k).lapsLeft = 0 := by
  unfold State.pausing
  generalize hu : (s.refund k).onSlot k (fun x => { x with
    st := .paused, stage := .idle, attempt := .first, lapsLeft := 0, waitSince := 0 }) = u
  have hsu : Beside k (fun x => (x.laps, x.halt)) s u := hu ▸ .onSlot ((s.beside_refund k).of_reads
    (fun x => ((x.2.lapNext, x.2.lapsDone, x.2.boundaryAt, x.2.digestDue), x.2.halt)) fun _ => rfl) rfl
  have hk : (u.slot k).st = .paused ∧ (u.slot k).stage = .idle ∧ (u.slot k).lapsLeft = 0 := by
    rw [← hu, slot_onSlot_self]; exact ⟨rfl, rfl, rfl⟩
  have hfire : Beside k id u (u.fireSlot k 1) := .fire u _
  have hslot : (u.fireSlot k 1).slot k = u.slot k := hfire.kept
  rw [hslot]
  exact ⟨hsu.trans (.fire u _), hk⟩

/-- A slot that no halt waits for pauses: its run is over, and it stands at its boundary (R290). -/
theorem State.pauseSlot_changes {s : State} {k : Nat} (counted : Bool) (hh : (s.slot k).halt = []) :
    let t := s.pauseSlot k counted
    Beside k Slot.laps s t ∧ (t.slot k).st = .paused ∧ (t.slot k).stage = .idle ∧ (t.slot k).lapsLeft = 0
      ∧ (t.slot k).launchTicket = none := by
  obtain ⟨hs, hst, hstage, hleft⟩ := s.pausing_changes k
  have hanswer := beside_answerHalts (s := s.pausing k) (k := k) stPAUSED ((congrArg Prod.snd hs.kept).trans hh)
  obtain ⟨hrun, hticket, -⟩ := ((s.pausing k).answerHalts k stPAUSED).beside_endRunResponse k (if counted then stOK else stPAUSED)
  have hend := (hanswer.of_reads (g := Slot.unasked) (fun x => (x.1, { x.2 with halt := [], ticket := none })) fun _ => rfl).trans hrun
  have ht : s.pauseSlot k counted =
      ((s.pausing k).answerHalts k stPAUSED).endRunResponse k (if counted then stOK else stPAUSED) := by
    rw [pauseSlot_eq, hh]; rfl
  intro t
  rw [show t = _ from ht]
  refine ⟨(hs.of_reads Prod.fst fun _ => rfl).trans
    (hend.of_reads (fun x => (x.2.lapNext, x.2.lapsDone, x.2.boundaryAt, x.2.digestDue)) fun _ => rfl), ?_, ?_, ?_, hticket⟩
  · exact (congrArg (fun x => x.2.st) hend.kept).trans hst
  · exact (congrArg Prod.fst hend.kept).trans hstage
  · exact (congrArg (fun x => x.2.lapsLeft) hend.kept).trans hleft

/-- From s to t every slot but k stands, with HBM and the count of laps that failed. -/
structure Elsewhere (k : Nat) (s t : State) : Prop where
  lapFaults : t.grid.lapFaults = s.grid.lapFaults
  hbm : t.mem.hbm = s.mem.hbm
  others : ∀ j, j ≠ k → t.slot j = s.slot j

namespace Elsewhere
variable {k : Nat} {s t u : State}

theorem refl (s : State) : Elsewhere k s s := ⟨rfl, rfl, fun _ _ => rfl⟩

theorem trans (h : Elsewhere k s t) (h' : Elsewhere k t u) : Elsewhere k s u :=
  ⟨h'.lapFaults.trans h.lapFaults, h'.hbm.trans h.hbm, fun j hj => (h'.others j hj).trans (h.others j hj)⟩

end Elsewhere

theorem Beside.elsewhere {α : Type} {k : Nat} {f : Slot → α} {s t : State} (h : Beside k f s t) : Elsewhere k s t :=
  ⟨by rw [h.grid], by rw [h.mem], h.others⟩

theorem State.respond_elsewhere (s : State) (k p : Nat) (r : Response) : Elsewhere k s (s.respond p r) := by
  unfold State.respond
  split <;> exact ⟨rfl, rfl, fun _ _ => rfl⟩

/-- A slot that becomes EMPTY takes nothing from the others, and HBM is cleared later (R291). -/
theorem State.emptySlot_elsewhere (s : State) (k : Nat) : Elsewhere k s (s.emptySlot k) := by
  unfold State.emptySlot
  extract_lets x d s1 s2 g l s3 g'
  have hs1 : Elsewhere k s s1 := by
    unfold s1
    split
    · split
      · exact respond_elsewhere ..
      · exact ⟨rfl, rfl, fun _ _ => rfl⟩
    · exact .refl s
  have hs2 : Elsewhere k s1 s2 := (s1.beside_refund k).elsewhere.trans ⟨rfl, rfl, fun _ _ => rfl⟩
  have hs3 : Elsewhere k s2 s3 := ⟨rfl, rfl, fun j hj => Table.get_erase_ne _ hj _⟩
  have hs := hs1.trans (hs2.trans hs3)
  split
  · exact hs.trans ⟨rfl, rfl, fun _ _ => rfl⟩
  · exact hs

theorem State.answerHalts_elsewhere (s : State) (k status : Nat) : Elsewhere k s (s.answerHalts k status) := by
  have hanswer : ∀ (l : List (Ticket × Bool)) (u : State), Elsewhere k u
      (l.foldl (fun u h => u.answerTicket h.1 0x31 k status (u.slot k).lapNext 0 [] false) u) := by
    intro l
    induction l with
    | nil => exact .refl
    | cons h l ih => exact fun u => (Beside.answerTicket (f := Slot.laps) u ..).elsewhere.trans (ih _)
  unfold State.answerHalts
  exact (hanswer (s.slot k).halt s).trans (Beside.elsewhere (f := Slot.laps) (.onSlot (.refl _) rfl))

theorem State.releaseFor_elsewhere (s : State) (k : Nat) (l : List (Ticket × Bool)) : Elsewhere k s (s.releaseFor k l) := by
  unfold State.releaseFor
  split
  · exact emptySlot_elsewhere s k
  · exact .refl s

theorem State.pauseSlot_elsewhere (s : State) (k : Nat) (counted : Bool) : Elsewhere k s (s.pauseSlot k counted) := by
  have hanswer := (s.pausing_changes k).1.elsewhere.trans ((s.pausing k).answerHalts_elsewhere k stPAUSED)
  have hend := hanswer.trans (((s.pausing k).answerHalts k stPAUSED).beside_endRunResponse k
    (if counted then stOK else stPAUSED)).1.elsewhere
  rw [pauseSlot_eq]
  exact hend.trans (releaseFor_elsewhere ..)

/-! Going on from a boundary (R292). -/

/-- From s to t every HALTED slot stands, with HBM and the count of laps that failed. -/
structure Onward (s t : State) : Prop where
  lapFaults : t.grid.lapFaults = s.grid.lapFaults
  hbm : t.mem.hbm = s.mem.hbm
  halted : ∀ j, (s.slot j).st = .halted → t.slot j = s.slot j

theorem Onward.refl (s : State) : Onward s s := ⟨rfl, rfl, fun _ _ => rfl⟩

theorem Onward.trans {s t u : State} (h : Onward s t) (h' : Onward t u) : Onward s u :=
  ⟨h'.lapFaults.trans h.lapFaults, h'.hbm.trans h.hbm, fun j hj =>
    (h'.halted j (by rw [h.halted j hj, hj])).trans (h.halted j hj)⟩

theorem HaltedStand.onward {s t : State} (h : HaltedStand s t) : Onward s t := ⟨by rw [h.grid], by rw [h.mem], h.halted⟩

/-- A change of a slot that is not HALTED. -/
theorem Elsewhere.onward {k : Nat} {s t : State} (h : Elsewhere k s t) (hk : (s.slot k).st ≠ .halted) : Onward s t :=
  ⟨h.lapFaults, h.hbm, fun j hj => h.others j fun e => hk (e ▸ hj)⟩

theorem State.askAdmission_beside (s : State) (k : Nat) : Beside k Slot.course s (s.askAdmission k) := .onSlot (.refl s) rfl

/-- A slot that goes on from its boundary, or does not, takes nothing from a HALTED one (R285, R292). -/
theorem State.resume_onward (s : State) (k : Nat) : Onward s (s.resume k) := by
  unfold State.resume
  dsimp only
  split
  · exact .refl s
  · next h =>
    have hk : (s.slot k).st ≠ .halted := fun e => h (by simp [e])
    split
    · exact (s.pauseSlot_elsewhere k true).onward hk
    · split
      · exact (s.pauseSlot_elsewhere k false).onward hk
      · split
        · exact .refl s
        · split
          · split
            · exact (proposeLap_changes hk).1.onward
            · exact .refl s
          · exact (s.askAdmission_beside k).elsewhere.onward hk

theorem State.resumeAll_onward (s : State) : Onward s s.resumeAll := by
  have each : ∀ (l : List Nat) (u : State), Onward u (l.foldl resume u) := by
    intro l
    induction l with
    | nil => exact .refl
    | cons k l ih => exact fun u => (u.resume_onward k).trans (ih _)
  exact each _ s

/-- Slot k stands at its boundary with its course running, no halt waiting, and no change of its sites in the way (R292). -/
structure State.GoesOn (s : State) (k : Nat) : Prop where
  going : (s.slot k).st = .running ∨ (s.slot k).st = .replaying
  stage : (s.slot k).stage = .idle
  held : s.heldBySites k = false
  halt : (s.slot k).halt = []

/-- Its run is over: the slot pauses (R292 step 4). -/
theorem State.resume_of_runOver {s : State} {k : Nat} (h : s.GoesOn k) (ho : runOver (s.slot k) = true) :
    s.resume k = s.pauseSlot k true := by
  obtain ⟨hst, hstage, hheld, -⟩ := h
  unfold State.resume
  rcases hst with hst | hst <;> simp [hst, hstage, hheld, ho]

/-- Its run is not over: its course stands, and its next lap is sought, at once when the slot is one by itself with nothing of its
recovery left (R292 step 5). -/
theorem State.resume_of_not_runOver {s : State} {k : Nat} (h : s.GoesOn k) (ho : runOver (s.slot k) = false)
    (ha : (s.slot k).attempt ≠ .probe) :
    let t := s.resume k
    HaltedStand s t ∧ (t.slot k).course = (s.slot k).course ∧ ((t.slot k).stage = .idle ∨ (t.slot k).stage = .waiting)
      ∧ (s.multi k = false → ((s.slot k).info.pairs = true → (s.slot k).attempt ≠ .first) → (s.slot k).reloads = [] →
          (s.slot k).rebuilding = [] → (t.slot k).stage = .waiting) := by
  obtain ⟨hst, hstage, hheld, hhalt⟩ := h
  have hnot : (s.slot k).st ≠ .halted := by rcases hst with e | e <;> simp [e]
  have hstands : HaltedStand s s := ⟨rfl, rfl, rfl, fun _ _ => rfl⟩
  have hgo : (!((s.slot k).st == .running || (s.slot k).st == .replaying) || (s.slot k).stage != .idle || s.heldBySites k) = false := by
    rcases hst with e | e <;> simp [e, hstage, hheld]
  unfold State.resume
  dsimp only
  rw [if_neg (Bool.eq_false_iff.mp hgo), if_neg (by simp [ho]), if_neg (by simp [hhalt])]
  split
  · next hb =>
    refine ⟨hstands, rfl, .inl hstage, fun hm hp hr hrb => ?_⟩
    have : s.atBoundary k = true := by
      simp [State.atBoundary, hstage, hr, hrb, hheld]
      by_cases hpairs : (s.slot k).info.pairs = true
      · exact .inr (hp hpairs)
      · exact .inl (.inl (by simpa using hpairs))
    simp [this] at hb
  · split
    · next hm =>
      split
      · obtain ⟨hs, hstaged⟩ := proposeLap_changes hnot
        have hag : s.agreesLaunch k = true := by simp [State.agreesLaunch, ha, hm]
        have hk := hstaged hag
        refine ⟨hs, congrArg Prod.snd hk, .inl ((congrArg Prod.fst hk).trans hstage), fun e => by simp [e] at hm⟩
      · exact ⟨hstands, rfl, .inl hstage, fun e => by simp [e] at hm⟩
    · have hask := s.askAdmission_beside k
      have hw : ((s.askAdmission k).slot k).stage = .waiting := by simp [State.askAdmission]
      exact ⟨⟨hask.grid, hask.mem, hask.now, fun j hj => hask.others j fun e => hnot (e ▸ hj)⟩, hask.kept, .inr hw,
        fun _ _ _ _ => hw⟩

end Sys2Proof.Machine

/-! The boundary of a lap (R287, R290 to R292, R320, R510). -/
namespace Sys2Proof.Machine
open State

/-- No change of sites or of memory's maps waits for a boundary. -/
structure State.Settled (s : State) : Prop where
  failing : s.grid.failing = []
  plan : s.grid.plan = none
  unsettled : s.grid.unsettled = false
  memFailing : s.mem.failing = []
  memLosing : s.mem.losing = []

namespace State.Settled
variable {s t : State}

theorem settleMemory (h : s.Settled) : s.settleMemory = s := by
  simp [State.settleMemory, h.memFailing, h.memLosing]

theorem startSites (h : s.Settled) : s.startSites = s := startSites_of_settled h.plan h.unsettled h.failing

theorem faultedSites (h : s.Settled) : s.faultedSites = s := by
  have hnone : s.grid.failing.find? (fun n => (s.remedyPlan n).isNone) = none := by rw [h.failing]; rfl
  simp only [State.faultedSites, hnone, h.startSites]

theorem held (h : s.Settled) (k : Nat) : s.heldBySites k = false := by
  simp [State.heldBySites, h.plan, h.unsettled, h.failing]

theorem beside {α : Type} {k : Nat} {f : Slot → α} (h : s.Settled) (hb : Beside k f s t) : t.Settled :=
  ⟨by rw [hb.grid, h.failing], by rw [hb.grid, h.plan], by rw [hb.grid, h.unsettled], by rw [hb.mem, h.memFailing],
    by rw [hb.mem, h.memLosing]⟩

end State.Settled

/-! The grid at a boundary (R65, R83, R222). -/

/-- From s to t cores, routers, slice controllers and edge links alone have changed. -/
def State.GridRests (s t : State) : Prop :=
  ∃ cores routers ctl edgeIn, t = { s with
    grid := { s.grid with cores := cores, routers := routers }, mem := { s.mem with ctl := ctl, edgeIn := edgeIn } }

theorem State.GridRests.settled {s t : State} (h : s.GridRests t) (hs : s.Settled) : t.Settled := by
  obtain ⟨_, _, _, _, rfl⟩ := h
  exact ⟨hs.failing, hs.plan, hs.unsettled, hs.memFailing, hs.memLosing⟩

/-- Cores of slot k change by f, and what its routers, slices and edges had in flight is gone. -/
def State.stopWith (s : State) (k : Nat) (f : Core → Core) : State :=
  (((s.onCores k f).onRouters k Router.stop).clearSlices k).clearEdges k

theorem State.stopWith_eq (s : State) (k : Nat) (f : Core → Core) : ∃ routers ctl edgeIn, s.stopWith k f = { s with
    grid := { s.grid with cores := (s.onCores k f).grid.cores, routers := routers }
    mem := { s.mem with ctl := ctl, edgeIn := edgeIn } } := by
  obtain ⟨c, hc⟩ := clearSlices_eq ((s.onCores k f).onRouters k Router.stop) k
  unfold State.stopWith
  rw [hc]
  exact ⟨_, c, _, rfl⟩

theorem State.gridRests_stopWith (s : State) (k : Nat) (f : Core → Core) : s.GridRests (s.stopWith k f) := by
  obtain ⟨r, c, e, h⟩ := s.stopWith_eq k f
  exact ⟨_, r, c, e, h⟩

theorem State.core_stopWith {s : State} {k n : Nat} (f : Core → Core) (hn : Table.has n s.grid.cores = true) :
    (s.stopWith k f).core n = if (s.core n).slot == k then f (s.core n) else s.core n := by
  obtain ⟨r, c, e, h⟩ := s.stopWith_eq k f
  rw [h]
  exact core_onCores s k f n hn

theorem State.gridRests_restGrid (s : State) (k : Nat) : s.GridRests (s.restGrid k) := by
  obtain ⟨r, c, e, h⟩ := s.stopWith_eq k Core.stop
  have hstop : s.restGrid k = (s.stopWith k Core.stop).onCores k Core.rest := rfl
  rw [hstop, h]
  exact ⟨_, r, c, e, rfl⟩

/-! A clean boundary (R287, R290, R292, R320). -/

/-- The course of a slot once a lap of it is complete (R287, R320). -/
def CourseState.completed (c : CourseState) (now : Nat) (input : List Byte) : CourseState :=
  { c with
    st := .running, lapNext := c.lapNext + 1, lapsDone := c.lapsDone + 1, lapsLeft := if c.counted then c.lapsLeft - 1 else 0
    boundaryAt := now, digestDue := c.digestDue ++ [⟨now + 6144, c.lapNext, input⟩], attempt := .first, run := [] }

theorem State.verifyLap_beside (s : State) (k : Nat) : Beside k Slot.staged s (s.verifyLap k) := by
  unfold State.verifyLap
  split
  · exact .trans (.onSlot (.refl s) rfl) (.fire ..)
  · exact .refl s

theorem State.clearMiss_beside (s : State) (k : Nat) : Beside k Slot.staged s (s.onSlot k (fun x => { x with pairMiss := 0 })) :=
  .onSlot (.refl s) rfl

/-- A lap completes: its slot goes on from the boundary, with the lap counted and its digest due (R287, R290, R320). -/
theorem State.completeLap_resumes {s : State} {k : Nat} (hs : s.Settled) :
    ∃ u : State, s.completeLap k = u.resume k ∧ u.Settled ∧ u.mem.hbm = s.mem.hbm ∧ u.now = s.now ∧ (u.slot k).stage = .idle
      ∧ (u.slot k).course = (s.slot k).course.completed s.now (s.digestInput k)
      ∧ (∀ n, Table.has n s.grid.cores = true → (s.core n).slot = k →
          (u.core n).phase = .boundary ∧ (u.core n).data = (s.core n).data) := by
  unfold State.completeLap
  extract_lets x input deep s1 s2 s3 s4 s5 s6
  have hs2 : Beside k Slot.staged s s2 := by
    refine (observe_beside s k 8 deep).trans ?_
    unfold s2
    split
    · exact .fire ..
    · exact .refl s1
  have hs4 : s4 = s2.stopWith k (fun c => { c.stop with phase := .boundary }) := rfl
  have hrests : s2.GridRests s4 := hs4 ▸ s2.gridRests_stopWith k _
  obtain ⟨_, _, _, _, h4⟩ := id hrests
  have hslot4 : s4.slot k = s2.slot k := by rw [h4]; rfl
  have hcourse4 : (s4.slot k).course = (s.slot k).course := by
    rw [hslot4]; exact (hs2.of_reads Prod.snd fun _ => rfl).kept
  have hnow4 : s4.now = s.now := by rw [h4]; exact hs2.now
  have hs5 : (s5.slot k).stage = .idle ∧ (s5.slot k).course = (s4.slot k).course.completed s4.now input := by
    simp only [s5, slot_onSlot_self, true_and]
    simp only [recovered, Slot.course, CourseState.completed]
    cases (s4.slot k).faultSince <;> rfl
  have hs6 : Beside k Slot.staged s5 s6 := by
    unfold s6
    split
    · exact .refl s5
    · exact clearMiss_beside s5 k
  have hu : Beside k Slot.staged s5 (s6.verifyLap k) := hs6.trans (s6.verifyLap_beside k)
  have hs45 : Beside k (fun _ => ()) s4 s5 := .onSlot (.refl s4) rfl
  have hsettled : (s6.verifyLap k).Settled := ((hrests.settled (hs.beside hs2)).beside hs45).beside hu
  obtain ⟨hstage, hcourse⟩ := Slot.staged_inj hu.kept
  refine ⟨s6.verifyLap k, ?_, hsettled, ?_, ?_, hstage.trans hs5.1, ?_, fun n hn hk => ?_⟩
  · rw [hsettled.settleMemory, State.afterLap, hsettled.startSites]
  · rw [hu.mem]
    exact (congrArg (fun t => t.mem.hbm) h4).trans (congrArg MemState.hbm hs2.mem)
  · exact hu.now.trans hnow4
  · rw [hcourse, hs5.2, hcourse4, hnow4]
  · have hcore2 : s2.core n = s.core n := by simp only [State.core, hs2.grid]
    have hcore : (s6.verifyLap k).core n = s4.core n := by simp only [State.core, hu.grid]; rfl
    rw [hcore, hs4, core_stopWith _ (by rw [hs2.grid]; exact hn), hcore2, if_pos (beq_iff_eq.mpr hk)]
    exact ⟨rfl, rfl⟩

/-- A clean boundary in its cycle completes the lap (R287). -/
theorem State.lapBoundary_of_clean {s : State} {k a : Nat} {errs : List BlockErr} (hr : (s.slot k).stage = .running a)
    (hn : s.now = a + s.lapLen k + 24) (hst : (s.slot k).st ≠ .halted) (hf : (s.slot k).faults = [])
    (ha : (s.slot k).abortAt = none) : s.lapBoundary k errs = s.completeLap k := by
  have hdue : s.boundaryDue k = some s.now := by simp [State.boundaryDue, hr, hn]
  simp [State.lapBoundary, hdue, hst, hf, ha]

/-- A run is over after the last lap it counts, and after the last lap number (R292, R315). -/
theorem Slot.runOver_completed {x y : Slot} {now : Nat} {input : List Byte} (h : y.course = x.course.completed now input) :
    State.runOver y = true ↔
      (x.counted = true ∧ (if x.counted = true then x.lapsLeft - 1 else 0) = 0) ∨ x.lapNext + 1 = 2 ^ 48 := by
  have hfirst : y.attempt = .first := congrArg CourseState.attempt h
  have hcounted : y.counted = x.counted := congrArg CourseState.counted h
  have hleft : y.lapsLeft = if x.counted = true then x.lapsLeft - 1 else 0 := congrArg CourseState.lapsLeft h
  have hnext : y.lapNext = x.lapNext + 1 := congrArg CourseState.lapNext h
  simp only [State.runOver, hfirst, hcounted, hleft, hnext, State.lapLimit, beq_self_eq_true, Bool.true_and, Bool.or_eq_true,
    Bool.and_eq_true, beq_iff_eq]

/-- The boundary of a lap without a fault (R287, R290, R292, R315, R320). -/
theorem State.cleanBoundary {s : State} {k a : Nat} {errs : List BlockErr} (hr : (s.slot k).stage = .running a)
    (hn : s.now = a + s.lapLen k + 24) (hst : (s.slot k).st ≠ .halted) (hf : (s.slot k).faults = [])
    (ha : (s.slot k).abortAt = none) (hh : (s.slot k).halt = []) (hs : s.Settled) :
    let left := if (s.slot k).counted = true then (s.slot k).lapsLeft - 1 else 0
    let ends := ((s.slot k).counted = true ∧ left = 0) ∨ (s.slot k).lapNext + 1 = 2 ^ 48
    let t := s.lapBoundary k errs
    (ends → (t.slot k).st = .paused ∧ (t.slot k).lapsLeft = 0 ∧ (t.slot k).launchTicket = none ∧ (t.slot k).stage = .idle)
      ∧ (¬ ends → (t.slot k).st = .running ∧ (t.slot k).lapsLeft = left ∧ (t.slot k).launchTicket = (s.slot k).launchTicket
        ∧ (∀ a, (t.slot k).stage ≠ .running a) ∧ (s.multi k = false → (s.slot k).info.pairs = false →
          (s.slot k).reloads = [] → (s.slot k).rebuilding = [] → (t.slot k).stage = .waiting))
      ∧ (t.slot k).laps = ((s.slot k).lapNext + 1, (s.slot k).lapsDone + 1, s.now,
          (s.slot k).digestDue ++ [⟨s.now + 6144, (s.slot k).lapNext, s.digestInput k⟩])
      ∧ (∀ n, Table.has n s.grid.cores = true → (s.core n).slot = k → (t.core n).phase = .boundary
          ∧ (t.core n).data = (s.core n).data)
      ∧ t.mem.hbm = s.mem.hbm ∧ t.now = s.now := by
  intro left ends t
  obtain ⟨u, hu, hsettled, hhbm, hnow, hstage, hcourse, hcores⟩ := completeLap_resumes (k := k) hs
  have ht : t = u.resume k := (lapBoundary_of_clean hr hn hst hf ha).trans hu
  have hgoes : u.GoesOn k := ⟨.inl (congrArg CourseState.st hcourse), hstage, hsettled.held k,
    (congrArg CourseState.halt hcourse).trans hh⟩
  have hlaps : (u.slot k).laps = ((s.slot k).lapNext + 1, (s.slot k).lapsDone + 1, s.now,
      (s.slot k).digestDue ++ [⟨s.now + 6144, (s.slot k).lapNext, s.digestInput k⟩]) :=
    congrArg (fun c : CourseState => (c.lapNext, c.lapsDone, c.boundaryAt, c.digestDue)) hcourse
  have hover : runOver (u.slot k) = true ↔ ends := Slot.runOver_completed hcourse
  have hcoresOf : ∀ v : State, v.grid = u.grid → ∀ n, Table.has n s.grid.cores = true → (s.core n).slot = k →
      (v.core n).phase = .boundary ∧ (v.core n).data = (s.core n).data := fun v hv n hn hk => by
    have hcore : v.core n = u.core n := by simp only [State.core, hv]
    rw [hcore]; exact hcores n hn hk
  by_cases he : ends
  · rw [resume_of_runOver hgoes (hover.mpr he)] at ht
    obtain ⟨hb, hpaused, hidle, hleft, hticket⟩ := pauseSlot_changes true hgoes.halt
    rw [← ht] at hb hpaused hidle hleft hticket
    exact ⟨fun _ => ⟨hpaused, hleft, hticket, hidle⟩, fun h => absurd he h, hb.kept.trans hlaps, hcoresOf t hb.grid,
      (congrArg MemState.hbm hb.mem).trans hhbm, hb.now.trans hnow⟩
  · have hnot : runOver (u.slot k) = false := Bool.eq_false_iff.mpr fun h => he (hover.mp h)
    have hfirst : (u.slot k).attempt = .first := congrArg CourseState.attempt hcourse
    obtain ⟨hb, hc, hsought, hwaits⟩ := resume_of_not_runOver hgoes hnot (by rw [hfirst]; decide)
    rw [← ht] at hb hc hsought hwaits
    have hcourse' := hc.trans hcourse
    have hinfo : (u.slot k).info = (s.slot k).info := congrArg CourseState.info hcourse
    have hmulti : u.multi k = s.multi k := multi_congr hinfo (congrArg CourseState.lostAddrs hcourse)
    have hwaiting : s.multi k = false → (s.slot k).info.pairs = false → (s.slot k).reloads = [] →
        (s.slot k).rebuilding = [] → (t.slot k).stage = .waiting := fun hm hp hr hrb =>
      hwaits (hmulti.trans hm) (fun h => by rw [hinfo, hp] at h; cases h) ((congrArg CourseState.reloads hcourse).trans hr)
        ((congrArg CourseState.rebuilding hcourse).trans hrb)
    refine ⟨fun h => absurd h he, fun _ => ⟨congrArg CourseState.st hcourse', congrArg CourseState.lapsLeft hcourse',
      congrArg CourseState.ticket hcourse', fun a h => ?_, hwaiting⟩, ?_, hcoresOf t hb.grid,
      (congrArg MemState.hbm hb.mem).trans hhbm, hb.now.trans hnow⟩
    · rcases hsought with e | e <;> rw [e] at h <;> cases h
    · exact (congrArg (fun c : CourseState => (c.lapNext, c.lapsDone, c.boundaryAt, c.digestDue)) hc).trans hlaps

/-! A slot that comes to rest (R65, R285, R287). -/

/-- Slot k comes to rest at its boundary. -/
def State.atRest (s : State) (k : Nat) : State :=
  (s.restGrid k).onSlot k (fun x => { x with stage := .idle, abortAt := none, faultDrive := none, boundaryAt := s.now })

theorem State.atRest_changes (s : State) (k : Nat) :
    let t := s.atRest k
    (s.Settled → t.Settled) ∧ t.grid.lapFaults = s.grid.lapFaults ∧ t.mem.hbm = s.mem.hbm
      ∧ (t.slot k).stage = .idle ∧ (t.slot k).course = { (s.slot k).course with boundaryAt := s.now } := by
  have hrests := s.gridRests_restGrid k
  unfold State.atRest
  generalize s.restGrid k = u at *
  have hu : Beside k (fun _ => ()) u (u.onSlot k (fun x => { x with
    stage := .idle, abortAt := none, faultDrive := none, boundaryAt := s.now })) := .onSlot (.refl u) rfl
  refine ⟨fun hs => (hrests.settled hs).beside hu, ?_⟩
  obtain ⟨_, _, _, _, rfl⟩ := hrests
  rw [slot_onSlot_self]
  exact ⟨rfl, rfl, rfl, rfl⟩

/-- No boundary falls in another cycle (R287). -/
theorem State.lapBoundary_of_not_due {s : State} {k : Nat} {errs : List BlockErr} (h : s.boundaryDue k ≠ some s.now) :
    s.lapBoundary k errs = s := by
  simp [State.lapBoundary, h]

/-- A slot that has halted only comes to rest (R285, R287). -/
theorem State.lapBoundary_of_halted {s : State} {k : Nat} {errs : List BlockErr} (hd : s.boundaryDue k = some s.now)
    (hst : (s.slot k).st = .halted) :
    s.lapBoundary k errs = ((s.atRest k).settleMemory.faultedSites).resumeAll := by
  unfold State.lapBoundary
  rw [if_neg (by simp [hd]), if_pos (by simp [hst])]
  rfl

/-- What is left of a halted slot once its boundary has passed, though others go on (R287, R291). -/
theorem State.haltedBoundary {s : State} {k : Nat} {errs : List BlockErr} (hd : s.boundaryDue k = some s.now)
    (hst : (s.slot k).st = .halted) (hs : s.Settled) :
    let t := s.lapBoundary k errs
    (t.slot k).st = .halted ∧ (t.slot k).stage = .idle ∧ (t.slot k).boundaryAt = s.now
      ∧ (t.slot k).reason = (s.slot k).reason ∧ (t.slot k).lapNext = (s.slot k).lapNext
      ∧ t.grid.lapFaults = s.grid.lapFaults := by
  intro t
  obtain ⟨hsettled, hfaults, -, hstage, hcourse⟩ := s.atRest_changes k
  have ht : t = (s.atRest k).resumeAll := by
    rw [show t = _ from lapBoundary_of_halted hd hst, (hsettled hs).settleMemory, (hsettled hs).faultedSites]
  have hgo := (s.atRest k).resumeAll_onward
  rw [← ht] at hgo
  have hslot := hgo.halted k ((congrArg CourseState.st hcourse).trans hst)
  rw [hslot]
  exact ⟨(congrArg CourseState.st hcourse).trans hst, hstage, congrArg CourseState.boundaryAt hcourse,
    congrArg CourseState.reason hcourse, congrArg CourseState.lapNext hcourse, hgo.lapFaults.trans hfaults⟩

/-! A faulted boundary (R88, R285, R287, R510). -/

/-- A faulted attempt is counted (R287). -/
def State.countFault (s : State) : State :=
  ({ s with grid := { s.grid with lapFaults := satAdd 64 s.grid.lapFaults 1 } }).tallyEvent 5 1

theorem State.lapBoundary_of_faulted {s : State} {k : Nat} {errs : List BlockErr} (hd : s.boundaryDue k = some s.now)
    (hst : (s.slot k).st ≠ .halted) (hf : (s.slot k).faults ≠ []) :
    s.lapBoundary k errs = if hasLapFault (s.slot k).faults then s.countFault.replayBoundary k errs
      else ((((s.countFault.atRest k).tallyEvent 7 1).haltSlot k .programFault).settleMemory.faultedSites).resumeAll := by
  unfold State.lapBoundary
  rw [if_neg (by simp [hd]), if_neg (by simp [hst]), if_neg (by simp [hf])]
  rfl

/-- Program faults alone halt the course, and the run is over (R88, R285, R287). -/
theorem State.programFaultBoundary {s : State} {k : Nat} {errs : List BlockErr} (hd : s.boundaryDue k = some s.now)
    (hst : (s.slot k).st ≠ .halted) (hne : (s.slot k).st ≠ .empty) (hf : (s.slot k).faults ≠ [])
    (hl : hasLapFault (s.slot k).faults = false) (hh : (s.slot k).halt = []) (hs : s.Settled) :
    let t := s.lapBoundary k errs
    (t.slot k).st = .halted ∧ (t.slot k).reason = .programFault ∧ (t.slot k).lapNext = (s.slot k).lapNext
      ∧ (t.slot k).launchTicket = none ∧ (t.slot k).stage = .idle ∧ t.grid.lapFaults = satAdd 64 s.grid.lapFaults 1
      ∧ t.mem.hbm = s.mem.hbm := by
  intro t
  obtain ⟨hsettled, hfaults, hhbm, hstage, hcourse⟩ := s.countFault.atRest_changes k
  have hcounted : s.countFault.Settled := ⟨hs.failing, hs.plan, hs.unsettled, hs.memFailing, hs.memLosing⟩
  generalize hu : (s.countFault.atRest k).tallyEvent 7 1 = u
  have hsu : Beside k Slot.staged (s.countFault.atRest k) u := hu ▸ .of_slots rfl rfl rfl rfl
  obtain ⟨hustage, hucourse⟩ := Slot.staged_inj hsu.kept
  have hcourse' := hucourse.trans hcourse
  obtain ⟨hb, hidle, hhalted, hreason, hticket⟩ := haltSlot_changes (s := u) (k := k) .programFault
    (fun e => hne ((congrArg CourseState.st hcourse').symm.trans e)) ((congrArg CourseState.halt hcourse').trans hh)
  have hv := ((hsettled hcounted).beside hsu).beside hb
  have ht : t = (u.haltSlot k .programFault).resumeAll := by
    rw [show t = _ from lapBoundary_of_faulted hd hst hf, if_neg (by simp [hl]), hu, hv.settleMemory, hv.faultedSites]
  have hgo := (u.haltSlot k .programFault).resumeAll_onward
  rw [← ht] at hgo
  have hnext : ((u.haltSlot k .programFault).slot k).lapNext = (s.slot k).lapNext :=
    (congrArg Prod.fst hb.kept).trans (congrArg CourseState.lapNext hcourse')
  rw [hgo.halted k hhalted]
  refine ⟨hhalted, hreason, hnext, hticket, hidle (hustage.trans hstage), ?_, ?_⟩
  · rw [hgo.lapFaults, hb.grid, hsu.grid, hfaults]; rfl
  · rw [hgo.hbm, hb.mem, hsu.mem, hhbm]; rfl

/-- What a course is at its boundary but for the entries of its faulted attempts, and the blocks that failed in the last. -/
def Slot.unrun (x : Slot) : (LapStage × CourseState) × List Nat := ((x.stage, { x.course with run := [] }), x.blocksBad)

theorem State.foldl_loseLink_beside {α : Type} (k : Nat) (f : Slot → α) (l : List Nat) (s : State) :
    Beside k f s (l.foldl loseLink s) := by
  induction l generalizing s with
  | nil => exact .refl s
  | cons p l ih =>
    have hlose : Beside k f s (s.loseLink p) := .of_slots rfl rfl rfl rfl
    exact hlose.trans (ih _)

/-- The escalations of R513 for the first faulted attempt of a lap: its entry is kept, and no more than Lecel links are lost. -/
theorem State.escalate_of_first {s : State} {k : Nat} (r : FaultRec) (hr : (s.slot k).run = []) :
    Beside k Slot.unrun s (s.escalate k r) ∧ (passedOver r = false → ((s.escalate k r).slot k).run = [r]) := by
  unfold State.escalate
  split
  · next h => exact ⟨.refl s, fun h' => by simp [h'] at h⟩
  · dsimp only
    simp only [hr]
    rw [if_neg (by simp)]
    generalize hu : List.foldl loseLink s _ = u
    have hsu : Beside k Slot.unrun s u := hu ▸ foldl_loseLink_beside k _ _ s
    exact ⟨hsu.onSlot rfl, fun _ => by rw [slot_onSlot_self]⟩

/-- With no block to repair, what failed in the attempt is remembered alone (R268). -/
theorem State.repairFailed_beside {s : State} {k : Nat} (errs : List BlockErr) (h : (s.slot k).blocksBad = []) :
    Beside k Slot.staged s (s.repairFailed k errs) := by
  unfold State.repairFailed
  dsimp only
  rw [h]
  exact .onSlot (.refl s) rfl

/-- The slot of a faulted attempt is to replay its lap, which moves these cores (R287, R510). -/
def CourseState.toReplay (c : CourseState) (now : Nat) (moved : List Nat) : CourseState :=
  { c with
    st := .replaying, attempt := .replay, boundaryAt := now, faultBoundaryAt := some now, run := [], digestDue := []
    reloads := (c.reloads ++ moved).eraseDups }

/-- A faulted attempt with a lap fault: its slot goes on with a replay, once its first entry has been looked at (R287, R510,
R513). -/
theorem State.replayBoundary_resumes {s : State} {k : Nat} {errs : List BlockErr} {r : FaultRec} (hs : s.Settled)
    (hf : firstRec (s.slot k).faults = some r) (hr : (s.slot k).run = []) (hb : (s.slot k).blocksBad = []) :
    ∃ u : State, s.replayBoundary k errs = u.resume k ∧ u.Settled ∧ u.grid.lapFaults = s.grid.lapFaults
      ∧ u.mem.hbm = s.mem.hbm ∧ (u.slot k).stage = .idle ∧ (passedOver r = false → (u.slot k).run = [r])
      ∧ { (u.slot k).course with run := [], digestDue := [] }
        = (s.slot k).course.toReplay s.now (reloadsOf (s.slot k).faults) := by
  unfold State.replayBoundary
  extract_lets x s1 s2 s3 s4
  have hrests : s.GridRests s1 := s.gridRests_restGrid k
  have hsettled1 := hrests.settled hs
  have h1 : s1.grid.lapFaults = s.grid.lapFaults ∧ s1.mem.hbm = s.mem.hbm ∧ s1.now = s.now ∧ s1.slot k = s.slot k := by
    obtain ⟨_, _, _, _, h⟩ := hrests
    rw [h]
    exact ⟨rfl, rfl, rfl, rfl⟩
  obtain ⟨hfaults1, hhbm1, hnow1, hslot1⟩ := h1
  have h12 : Beside k (fun _ => ()) s1 s2 := .onSlot (.refl s1) rfl
  have h2 : (s2.slot k).stage = .idle ∧ (s2.slot k).run = [] ∧ (s2.slot k).blocksBad = [] ∧
      { (s2.slot k).course with run := [], digestDue := [] } = (s.slot k).course.toReplay s.now (reloadsOf (s.slot k).faults) := by
    simp only [s2, slot_onSlot_self, hslot1, hnow1]
    exact ⟨trivial, hr, hb, rfl⟩
  obtain ⟨hstage2, hrun2, hbad2, hcourse2⟩ := h2
  have h3 : s3 = s2.escalate k r := by simp only [s3, x, hf]
  obtain ⟨h23, hrun⟩ := escalate_of_first r hrun2
  rw [← h3] at h23 hrun
  have h34 : Beside k Slot.staged s3 (s3.repairFailed k errs) :=
    repairFailed_beside errs ((congrArg Prod.snd h23.kept).trans hbad2)
  have hsettled4 : (s3.repairFailed k errs).Settled := ((hsettled1.beside h12).beside h23).beside h34
  have hs4 : s4 = s3.repairFailed k errs := hsettled4.settleMemory
  rw [hs4, hsettled4.faultedSites]
  obtain ⟨hstage4, hcourse4⟩ := Slot.staged_inj h34.kept
  refine ⟨_, rfl, hsettled4, ?_, ?_, ?_, fun hp => ?_, ?_⟩
  · rw [h34.grid, h23.grid, h12.grid, hfaults1]
  · rw [h34.mem, h23.mem, h12.mem, hhbm1]
  · exact hstage4.trans ((congrArg (fun x => x.1.1) h23.kept).trans hstage2)
  · exact (congrArg CourseState.run hcourse4).trans (hrun hp)
  · rw [hcourse4, ← hcourse2]
    exact congrArg (fun x => { x.1.2 with digestDue := [] }) h23.kept

/-- A lap fault has the lap replayed: the slot is REPLAYING at the same lap, with the attempt's first entry kept, and its next
launch is sought (R88, R287, R510, R513). -/
theorem State.lapFaultBoundary {s : State} {k : Nat} {errs : List BlockErr} {r : FaultRec} (hd : s.boundaryDue k = some s.now)
    (hst : (s.slot k).st ≠ .halted) (hf : (s.slot k).faults ≠ []) (hl : hasLapFault (s.slot k).faults = true)
    (hr : firstRec (s.slot k).faults = some r) (hrun : (s.slot k).run = []) (hbad : (s.slot k).blocksBad = [])
    (hh : (s.slot k).halt = []) (hs : s.Settled) :
    let t := s.lapBoundary k errs
    (t.slot k).st = .replaying ∧ (t.slot k).attempt = .replay ∧ (t.slot k).lapNext = (s.slot k).lapNext
      ∧ (passedOver r = false → (t.slot k).run = [r]) ∧ (t.slot k).faultBoundaryAt = some s.now
      ∧ t.grid.lapFaults = satAdd 64 s.grid.lapFaults 1 ∧ t.mem.hbm = s.mem.hbm
      ∧ (s.multi k = false → (s.slot k).info.pairs = false → (s.slot k).reloads = [] → (s.slot k).rebuilding = [] →
          reloadsOf (s.slot k).faults = [] → (t.slot k).stage = .waiting) := by
  intro t
  obtain ⟨u, hu, hsettled, hfaults, hhbm, hstage, hkept, hcourse⟩ := replayBoundary_resumes (s := s.countFault) (errs := errs)
    ⟨hs.failing, hs.plan, hs.unsettled, hs.memFailing, hs.memLosing⟩ hr hrun hbad
  have ht : t = u.resume k := by rw [show t = _ from lapBoundary_of_faulted hd hst hf, if_pos hl, hu]
  have hreplay : (u.slot k).attempt = .replay := congrArg CourseState.attempt hcourse
  have hgoes : u.GoesOn k := ⟨.inr (congrArg CourseState.st hcourse), hstage, hsettled.held k,
    (congrArg CourseState.halt hcourse).trans hh⟩
  obtain ⟨hb, hc, -, hwaits⟩ := resume_of_not_runOver hgoes (by simp [runOver, hreplay]) (by rw [hreplay]; decide)
  rw [← ht] at hb hc hwaits
  have hinfo : (u.slot k).info = (s.slot k).info := congrArg CourseState.info hcourse
  have hmulti : u.multi k = s.multi k := multi_congr hinfo (congrArg CourseState.lostAddrs hcourse)
  have hreloads : (u.slot k).reloads = ((s.slot k).reloads ++ reloadsOf (s.slot k).faults).eraseDups :=
    congrArg CourseState.reloads hcourse
  refine ⟨(congrArg CourseState.st hc).trans (congrArg CourseState.st hcourse), (congrArg CourseState.attempt hc).trans hreplay,
    (congrArg CourseState.lapNext hc).trans (congrArg CourseState.lapNext hcourse),
    fun hp => (congrArg CourseState.run hc).trans (hkept hp),
    (congrArg CourseState.faultBoundaryAt hc).trans (congrArg CourseState.faultBoundaryAt hcourse), ?_, ?_,
    fun hm _ hr hrb hro => ?_⟩
  · rw [hb.grid, hfaults]; rfl
  · rw [hb.mem, hhbm]; rfl
  · exact hwaits (hmulti.trans hm) (fun _ => by rw [hreplay]; decide) (by rw [hreloads, hr, hro]; rfl)
      ((congrArg CourseState.rebuilding hcourse).trans hrb)

/-- Settles O14: a clean boundary, a halted slot's, and a faulted one with program faults alone or with a lap fault, each by its
lemma above. -/
theorem lapBoundaries : Obligations.LapBoundaries := by
  unfold Obligations.LapBoundaries
  refine ⟨fun s k a errs _ hr hn hst hf ha hh hfail hplan huns hmf hml => ?_, fun s k errs _ => ⟨fun hd => ?_,
    fun hd hh hfail hplan huns hmf hml => ⟨fun hst => ?_, fun hst hne hf => ⟨fun hl => ?_, fun r hl hr hrun hbad => ?_⟩⟩⟩⟩
  · obtain ⟨hends, hgoes, hlaps, hcores, hhbm, hnow⟩ :=
      cleanBoundary (errs := errs) hr hn hst hf ha hh ⟨hfail, hplan, huns, hmf, hml⟩
    simp only [Slot.laps, Prod.mk.injEq] at hlaps
    obtain ⟨hnext, hdone, hat, hdue⟩ := hlaps
    exact ⟨_, rfl, hends, hgoes, hnext, hdone, hat, hdue, hcores, hhbm, hnow⟩
  · exact congrArg _ (lapBoundary_of_not_due hd)
  · exact ⟨_, rfl, haltedBoundary hd hst ⟨hfail, hplan, huns, hmf, hml⟩⟩
  · obtain ⟨hhalted, hreason, hnext, hticket, hidle, hfaults, hhbm⟩ :=
      programFaultBoundary (errs := errs) hd hst hne hf hl hh ⟨hfail, hplan, huns, hmf, hml⟩
    exact ⟨_, rfl, hhalted, hreason, hnext, hticket, hidle, hfaults, fun _ => hhbm⟩
  · exact ⟨_, rfl, lapFaultBoundary hd hst hf hl hr hrun hbad hh ⟨hfail, hplan, huns, hmf, hml⟩⟩

end Sys2Proof.Machine

/-! PROOFS of the family 03_number_formats: narrowing to BIN1. -/

/-! Narrowing to BIN1 (R114, R118). -/
namespace Sys2Proof.Machine

theorem narrow_bin (r : Rnd) (v : FpVal) : narrow 12 r v = narrowBin r v := rfl

/-- A finite value is below zero when its sign is set and its magnitude is not zero (R105). -/
@[simp] theorem fin_lt_zero (neg : Bool) (m : Nat) (e : Int) :
    (FpVal.fin neg m e).lt (.fin false 0 0) = (neg && m != 0) := by
  rcases Nat.eq_zero_or_pos m with rfl | hm
  · simp [FpVal.lt, finLt, finAdd]
  · have hk : 0 < m * 2 ^ (e - min e 0).toNat := Nat.mul_pos hm (Nat.two_pow_pos _)
    have hm0 : (m != 0) = true := bne_iff_ne.mpr hm.ne'
    simp only [FpVal.lt, finLt, finAdd, hm0]
    generalize m * 2 ^ (e - min e 0).toNat = k at hk
    cases neg <;> simp [hk, hk.ne']

/-- To nearest and toward zero, the bit of a number says that it is not below zero (R114). -/
theorem narrowBin_of_nearest {r : Rnd} (hr : r = .rne ∨ r = .rtz) {v : FpVal} (hv : v ≠ .nan) :
    narrowBin r v = (if v.lt (.fin false 0 0) then 0 else 1, 0) := by
  cases v with
  | nan => exact absurd rfl hv
  | inf neg | fin neg m e => obtain rfl | rfl := hr <;> rfl

/-- |x| · 32768 of R118 as a quotient: the numerator that `binThreshold` takes. -/
def binNum (m : Nat) (e : Int) : Nat := if 0 ≤ e then m * 2 ^ e.toNat * 32768 else m * 32768

/-- The denominator of that quotient. -/
def binDen (e : Int) : Nat := if 0 ≤ e then 1 else 2 ^ (-e).toNat

theorem binThreshold_neg (m : Nat) (e : Int) :
    binThreshold (.fin true m e) = 32768 - (binNum m e + binDen e - 1) / binDen e := by
  change (if 32768 ≤ (binNum m e + binDen e - 1) / binDen e then 0
    else 32768 - (binNum m e + binDen e - 1) / binDen e) = _
  split <;> omega

theorem binThreshold_nonneg (m : Nat) (e : Int) :
    binThreshold (.fin false m e) = min 65536 (32768 + binNum m e / binDen e) := rfl

theorem binDen_pos (e : Int) : 0 < binDen e := by
  unfold binDen
  split
  · exact Nat.one_pos
  · exact Nat.two_pow_pos _

theorem binNum_div_binDen (m : Nat) (e : Int) : (binNum m e / binDen e : ℚ) = m * (2 : ℚ) ^ e * 32768 := by
  unfold binNum binDen
  split
  case isTrue h =>
    obtain ⟨n, rfl⟩ := Int.eq_ofNat_of_zero_le h
    simp
  case isFalse h =>
    obtain ⟨n, hn⟩ := Int.eq_ofNat_of_zero_le (show 0 ≤ -e by omega)
    obtain rfl : e = -(n : Int) := by omega
    simp
    ring

/-- A quotient of naturals rounded up is the natural division rounded up, which the model writes as (a + b − 1) / b. -/
theorem ceil_div_eq_add_pred_div (a : Nat) {b : Nat} (hb : 0 < b) : ⌈(a / b : ℚ)⌉₊ = (a + b - 1) / b := by
  rw [← Nat.ceilDiv_eq_add_pred_div]
  refine eq_of_forall_ge_iff fun c => ?_
  rw [Nat.ceil_le, div_le_iff₀' (by exact_mod_cast hb), ceilDiv_le_iff_le_mul hb]
  exact_mod_cast Iff.rfl

theorem floor_neg_div (a : Nat) {b : Nat} (hb : 0 < b) : ⌊-(a / b : ℚ)⌋ = -((a + b - 1) / b : Nat) := by
  rw [Int.floor_neg, ← ceil_div_eq_add_pred_div a hb, Int.natCast_ceil_eq_ceil (by positivity)]

/-- t of R118 by the floor of x · 32768: the clamp of x to −1 and 1 is one of that floor to −32768 and 32768. -/
theorem floor_clamp (x : ℚ) :
    min ⌊(max (-1) (min 1 x) + 1) / 2 * 65536⌋ 65536 = max 0 (min 65536 (⌊x * 32768⌋ + 32768)) := by
  have h : (max (-1) (min 1 x) + 1) / 2 * 65536 = max ((0 : Int) : ℚ) (min ((65536 : Int) : ℚ) (x * 32768 + 32768)) := by
    push_cast
    grind
  rw [h, Int.floor_mono.map_max, Int.floor_mono.map_min, Int.floor_intCast, Int.floor_intCast, Int.floor_add_ofNat]
  omega

/-- `binThreshold` of a finite value is t of R118. -/
theorem binThreshold_eq_floor (neg : Bool) (m : Nat) (e : Int) :
    let x : ℚ := (if neg then -1 else 1) * m * (2 : ℚ) ^ e
    (binThreshold (.fin neg m e) : Int) = min ⌊(max (-1) (min 1 x) + 1) / 2 * 65536⌋ 65536 := by
  intro x
  rw [floor_clamp]
  cases neg
  case false =>
    have hx : x * 32768 = binNum m e / binDen e := by simp [x, binNum_div_binDen]
    rw [hx, Rat.floor_natCast_div_natCast, binThreshold_nonneg, ← Int.natCast_ediv]
    generalize binNum m e / binDen e = q
    omega
  case true =>
    have hx : x * 32768 = -(binNum m e / binDen e : ℚ) := by simp [x, binNum_div_binDen]
    rw [hx, floor_neg_div _ (binDen_pos e), binThreshold_neg]
    generalize (binNum m e + binDen e - 1) / binDen e = q
    omega

/-- Settles O60: to nearest and toward zero by the sign of the value, stochastically by the threshold of R118. -/
theorem binaryNarrowing : Obligations.BinaryNarrowing := by
  unfold Obligations.BinaryNarrowing
  simp only [narrow_bin]
  refine ⟨fun r hr => ⟨rfl, narrowBin_of_nearest hr (by simp), narrowBin_of_nearest hr (by simp), fun neg m e => ?_⟩,
    fun neg m e u _ => ?_⟩
  · rw [narrowBin_of_nearest hr (by simp), fin_lt_zero]
    simp
  · rw [← binThreshold_eq_floor]
    simp [narrowBin]

end Sys2Proof.Machine

/-! PROOFS of the family 05_carve_generator: seeds, STRICT, the oracle, the entropy port, DRBG_RESEED and probes. -/

/-! Accesses whose own read or write answers at once (R442, R451). -/
namespace Sys2Proof.Machine
open State

theorem State.accessWrite_eq_answered {s t : State} {v : Path} {i sub st : Nat} {b : List Byte}
    (h : s.accepts v i sub b = true) (hw : s.writeOwn v i sub b none = (some st, t)) :
    s.accessWrite v i sub b = t.answered st [] := by
  rw [accessWrite_of_accepts h, hw]
  rfl

theorem State.accessRead_eq_answered {s t : State} {v : Path} {i sub st : Nat} {data : List Byte}
    (h : s.readable v i sub = true) (hr : s.readOwn v i sub = (st, data, t)) :
    s.accessRead v i sub = t.answered st data := by
  rw [accessRead_of_readable h, hr]
  rfl

theorem ofLE_leBytes_one (x : BitVec 8) : ofLE (leBytes 1 x.toNat) = x.toNat := by
  simp [leBytes, ofLE]

end Sys2Proof.Machine

/-! Seeds, seeds from noise, STRICT and its lock (R158, R197, R289, R311). -/
namespace Sys2Proof.Machine
open State

/-- Slot x once its seed slot i is written in the cycle now: the seeds before the cycle's first write are kept beside (R289). -/
def Slot.withSeed (now i : Nat) (b : List Byte) (x : Slot) : Slot := { x with
  seeds := Table.put i (BitVec.ofNat 112 (ofLE b)) x.seeds, seedsPending := x.seedsPending ||| (1 <<< i)
  seedsAt := some now
  seedsBefore := (if x.seedsAt = some now then x.seedsBefore else x.seeds)
  seedsNew := (if x.seedsAt = some now then x.seedsNew else 0) ||| (1 <<< i) }

theorem State.setSeed_eq (s : State) (k i : Nat) (b : List Byte) :
    s.setSeed k i b = s.onSlot k (Slot.withSeed s.now i b) := by
  simp [State.setSeed, State.onSlot, Slot.withSeed]

/-- The seeds of slot k stand at 0x4010 + k, from sub-index 1 (R158). -/
theorem State.writeOwn_seed {s : State} {v : Path} {k i : Nat} {b : List Byte} {t : Option Ticket} (hk : k < 8)
    (hp : s.probed k = false) :
    s.writeOwn v (0x4010 + k) (i + 1) b t = (some stOK, s.onSlot k (Slot.withSeed s.now i b)) := by
  have hdraws : s.writeOwn v (0x4010 + k) (i + 1) b t = s.writeDraws v (0x4010 + k) (i + 1) b := by
    unfold State.writeOwn
    rw [if_neg (by omega), if_neg (by omega), if_neg (by omega), if_pos (by omega)]
  rw [hdraws]
  unfold State.writeDraws
  split
  case h_6 => simp [hp, setSeed_eq, wrote]
  all_goals omega

section
variable {s : State} {v : Path} {x : Nat} (hbit : x / 8 % 2 = 0) (hst : (s.slot (x % 8)).st ≠ .empty)
  (howned : s.ownedBy v (x % 8) = true)
include hbit hst howned

/-- SEED_FROM_NOISE of an owned slot that holds a course (R197, R310). -/
theorem State.writeNoiseSeed_of_owned : s.writeNoiseSeed v x =
    if s.det.strict then
      ({ s with det := { s.det with strictRefusals := satAdd 32 s.det.strictRefusals 1 } }).refuse stSTRICT_REFUSED
    else if s.ent.st == .fatal then s.refuse stNOISE_FATAL
    else if s.ent.pool.length < 64 then s.refuse stNO_ENTROPY
    else if s.probed (x % 8) then s.refuse stPROBE_BUSY
    else (({ s with ent := { s.ent with pool := s.ent.pool.drop 14 } }).setSeed (x % 8) (x / 16 % 16)
      (s.ent.pool.take 14)).wrote := by
  have hb : bitOf x 3 = 0 := by simpa [bitOf, Nat.shiftRight_eq_div_pow] using hbit
  simp [State.writeNoiseSeed, hb, hst, howned]

/-- The seed is the next 14 bytes of the pool (R197). -/
theorem State.writeNoiseSeed_of_ready (hx : x < 256) (hs : s.det.strict = false) (hf : s.ent.st ≠ .fatal)
    (hpool : 64 ≤ s.ent.pool.length) (hp : s.probed (x % 8) = false) :
    s.writeNoiseSeed v x = (some stOK, { s with ent := { s.ent with pool := s.ent.pool.drop 14 } }.onSlot (x % 8)
      (Slot.withSeed s.now (x / 16) (s.ent.pool.take 14))) := by
  have hi : x / 16 % 16 = x / 16 := by omega
  rw [writeNoiseSeed_of_owned hbit hst howned, hi]
  simp [hs, hf, Nat.not_lt.mpr hpool, hp, setSeed_eq, wrote]

end

theorem exec_seedFromNoise {s t : State} {v : Path} {x : BitVec 8} {st : Nat}
    (ha : s.accepts v 0x4018 1 (leBytes 1 x.toNat) = true) (hw : s.writeNoiseSeed v x.toNat = (some st, t)) :
    exec (.seedFromNoise v x) s = .next (t.answered st []) := by
  have hown : s.writeOwn v 0x4018 1 (leBytes 1 x.toNat) none = s.writeNoiseSeed v x.toNat :=
    congrArg (s.writeNoiseSeed v) (ofLE_leBytes_one x)
  exact congrArg Host.Outcome.next (accessWrite_eq_answered ha (hown.trans hw))

theorem State.writeStrict_one {s : State} (hw : s.mogul.runW = none) (he : s.mogul.runE = none) :
    s.writeStrict 1 = (some stOK, { s with det := { s.det with strict := true } }) := by
  simp [State.writeStrict, hw, he, wrote]

/-- STRICT is cleared unless STRICT_LOCK is set (R311). -/
theorem State.writeStrict_zero (s : State) : s.writeStrict 0 =
    if s.det.strictLock then s.refuse stSTRICT_LOCKED else ({ s with det := { s.det with strict := false } }).wrote := rfl

/-- STRICT_LOCK is set, once STRICT is (R311). -/
theorem State.writeOwn_strictLock {s : State} (v : Path) (h : s.det.strict = true) :
    s.writeOwn v 0x4000 2 [1] none = (some stOK, { s with det := { s.det with strictLock := true } }) := by
  change s.inRange (true && s.det.strict) _ = _
  rw [h]
  rfl

/-- Settles O35: each object by its own write, which the accepted access answers. -/
theorem seedAndStrictObjects : Obligations.SeedAndStrictObjects := by
  unfold Obligations.SeedAndStrictObjects
  intro s v done seeded
  refine ⟨fun k i b hk hi ha hp => ?_, fun x ha hbit => ?_, fun ha hw he => ?_, fun ha => ⟨fun hl => ?_, fun hl => ?_⟩,
    fun ha hs => ?_⟩
  · have hexec : exec (.seed v k i b) s = .next (s.accessWrite v (0x4010 + k) (i + 1) b) := by
      change execSeed v k i b s = _
      simp [execSeed, among, hk, hi]
    rw [hexec, accessWrite_eq_answered ha (writeOwn_seed hk hp)]
    rfl
  · intro k hst howned
    have hseed := writeNoiseSeed_of_owned hbit hst howned
    refine ⟨fun hs => exec_seedFromNoise ha ?_, fun hs hf hpool hp => exec_seedFromNoise ha ?_,
      fun hs hf => exec_seedFromNoise ha ?_, fun hs hf hpool => exec_seedFromNoise ha ?_⟩
    · rw [hseed, if_pos hs]; rfl
    · exact writeNoiseSeed_of_ready hbit hst howned (by omega) hs hf hpool hp
    · rw [hseed, hs, hf]; rfl
    · rw [hseed, hs]
      simp [hf, hpool, refuse, stNO_ENTROPY]
  · exact congrArg Host.Outcome.next (accessWrite_eq_answered ha (writeStrict_one hw he))
  · have hwrite : s.writeOwn v 0x4000 1 [0] none = (some stOK, { s with det := { s.det with strict := false } }) :=
      (writeStrict_zero s).trans (if_neg (by simp [hl]))
    exact congrArg Host.Outcome.next (accessWrite_eq_answered ha hwrite)
  · have hwrite : s.writeOwn v 0x4000 1 [0] none = (some stSTRICT_LOCKED, s) := (writeStrict_zero s).trans (if_pos hl)
    exact congrArg Host.Outcome.next (accessWrite_eq_answered ha hwrite)
  · exact congrArg Host.Outcome.next (accessWrite_eq_answered ha (writeOwn_strictLock v hs))

end Sys2Proof.Machine

/-! The oracle, the entropy port, DRBG_RESEED and PROBE_GO (R168, R169, R330, R331, R369, R370). -/
namespace Sys2Proof.Machine
open State

/-! The oracle, the entropy port and DRBG_RESEED. -/

theorem exec_oracleOut {s : State} {v : Path} (h : s.readable v 0x4420 6 = true) {st : Nat} {data : List Byte}
    (hr : s.oracleRead v = (st, data)) : exec (.oracleOut v) s = .next (s.answered st data) := by
  have hown : s.readOwn v 0x4420 6 = (st, data, s) := congrArg (fun r => (r.1, r.2, s)) hr
  exact congrArg Host.Outcome.next (accessRead_eq_answered h hown)

section
variable {s : State} (hf : s.ent.st ≠ .fatal)
include hf

theorem State.entropyRead_of_ready (hp : 64 ≤ s.ent.pool.length) : s.entropyRead =
    (stOK, s.ent.pool.take 64, { s with ent := { s.ent with pool := s.ent.pool.drop 64 } }) := by
  simp [State.entropyRead, hf, Nat.not_lt.mpr hp]

theorem State.entropyRead_of_short (hp : s.ent.pool.length < 64) : s.entropyRead = (stNO_ENTROPY, [], s) := by
  simp [State.entropyRead, hf, hp]

theorem State.writeReseed_of_not_fatal :
    s.writeReseed 1 = (some stOK, { s with ent := { s.ent with reseedWaits := true, keyWaits := true } }) := by
  simp [State.writeReseed, hf, wrote]

end

theorem State.entropyRead_of_fatal {s : State} (hf : s.ent.st = .fatal) : s.entropyRead = (stNOISE_FATAL, [], s) := by
  simp [State.entropyRead, hf]

/-! PROBE_GO (R330, R331). -/

/-- From s to t memory, the grid and the determinism stand, and the attempt of every slot. -/
structure AttemptsStand (s t : State) : Prop where
  grid : t.grid = s.grid
  mem : t.mem = s.mem
  det : t.det = s.det
  attempt : ∀ j, (t.slot j).attempt = (s.slot j).attempt

theorem Beside.attemptsStand {k : Nat} {s t : State} (h : Beside k Slot.course s t) (hdet : t.det = s.det) :
    AttemptsStand s t := by
  refine ⟨h.grid, h.mem, hdet, fun j => ?_⟩
  by_cases hj : j = k
  · subst hj
    exact congrArg CourseState.attempt h.kept
  · rw [h.others j hj]

@[simp] theorem State.observe_det (s : State) (m : Nat) (x : Int) : (s.observe m x).det = s.det := by
  unfold State.observe
  split <;> rfl

@[simp] theorem State.decideLap_det (s : State) (k : Nat) : (s.decideLap k).1.det = s.det := by
  unfold State.decideLap
  dsimp only
  split
  · dsimp only
    split <;> simp [State.commitCount]
  · rfl

@[simp] theorem State.holdAdmission_det (s : State) (k : Nat) : (s.holdAdmission k).1.det = s.det := by
  unfold State.holdAdmission
  split <;> simp

@[simp] theorem State.earliestReady_det (s : State) (k : Nat) : (s.earliestReady k).2.det = s.det := by
  unfold State.earliestReady
  dsimp only
  split
  · rfl
  · split <;> rfl

@[simp] theorem State.answerProposal_det (s : State) (q : Proposal) : (s.answerProposal q).1.det = s.det := by
  unfold State.answerProposal
  split
  · rfl
  · dsimp only
    split
    · rfl
    · split
      · simp
      · split
        · rfl
        · split <;> simp

/-- A proposal changes no attempt (R432, R433). -/
theorem State.proposeLap_attemptsStand (s : State) (k : Nat) : AttemptsStand s (s.proposeLap k) := by
  unfold State.proposeLap
  split
  · exact ⟨rfl, rfl, rfl, fun _ => rfl⟩
  · next a _ =>
    extract_lets x l q
    generalize hu : s.onSlot k (fun x => { x with proposed := some (x.lapNext, l), reproposeAt := none }) = u
    have hsu : AttemptsStand s u := hu ▸ Beside.attemptsStand (.onSlot (.refl s) rfl) rfl
    obtain ⟨hgrid, hmem, hdet, hattempt⟩ := hsu
    rcases u.broadcast_propose (some k) (s.layoutScope k) q with ⟨link, e⟩ | ⟨link, link', e⟩
    · rw [e]
      exact ⟨hgrid, hmem, hdet, hattempt⟩
    · obtain ⟨k', -, hc, -⟩ := ({ u with link := link } : State).answerProposal_beside q
      obtain ⟨hgrid', hmem', hdet', hattempt'⟩ := hc.attemptsStand (answerProposal_det _ q)
      rw [e]
      exact ⟨hgrid'.trans hgrid, hmem'.trans hmem, hdet'.trans hdet, fun j => (hattempt' j).trans (hattempt j)⟩

/-- The probe of the slot and cycle set has begun: it waits for the Louvre, or for the agreement of the devices (R330). -/
def State.probeBegun (s : State) : State :=
  ({ s with det := { s.det with probe := { s.det.probe with
    slot := s.det.probe.slotSet, cycle := s.det.probe.cycleSet, state := 1, lap := (s.slot s.det.probe.slotSet).lapNext
    endAt := 0, cores := [], slices := [] } } } : State).onSlot s.det.probe.slotSet (fun x => { x with attempt := .probe })

/-- A slot that PROBE_GO may probe: it is PAUSED, or HALTED for a fault of its program (R331). -/
def Slot.probeable (x : Slot) : Prop :=
  x.st = .paused ∨ (x.st = .halted ∧ (x.reason = .programFault ∨ x.reason = .diverged))

section
variable {s : State} {v : Path} (hst : (s.slot s.det.probe.slotSet).probeable)
  (hcycle : s.det.probe.cycleSet < s.lapLen s.det.probe.slotSet) (howned : s.ownedBy v s.det.probe.slotSet = true)
  (hfree : s.det.probe.state ≠ 1) (hidle : (s.slot s.det.probe.slotSet).stage = .idle)
include hst hcycle howned hfree hidle

/-- PROBE_GO begins the probe, and its lap is sought at once (R330, R331). -/
theorem State.writeProbe_of_probeable : s.writeProbe v 1 = (some stOK,
    if s.probeBegun.agreesLaunch s.det.probe.slotSet then
      (if s.probeBegun.coordinates s.det.probe.slotSet then s.probeBegun.proposeLap s.det.probe.slotSet else s.probeBegun)
    else s.probeBegun.askAdmission s.det.probe.slotSet) := by
  have hne : (s.slot s.det.probe.slotSet).st ≠ .empty := by
    rcases hst with h | ⟨h, -⟩ <;> simp [h]
  have hgo : ((s.slot s.det.probe.slotSet).st == .paused || (s.slot s.det.probe.slotSet).st == .halted
      && ((s.slot s.det.probe.slotSet).reason == .programFault || (s.slot s.det.probe.slotSet).reason == .diverged)) = true := by
    simpa [Slot.probeable] using hst
  unfold State.writeProbe
  dsimp only
  rw [if_neg (by simp [Nat.not_le.mpr hcycle]), if_neg (by simp [hne]), if_neg (by simp [howned]), if_neg (by simp [hfree]),
    if_neg (by simp [hgo, hidle])]
  rfl

/-- What it leaves is the probe begun, as far as memory, the grid, the determinism and the attempts go. -/
theorem State.writeProbe_attemptsStand : ∃ t, s.writeProbe v 1 = (some stOK, t) ∧ AttemptsStand s.probeBegun t := by
  refine ⟨_, writeProbe_of_probeable hst hcycle howned hfree hidle, ?_⟩
  split
  · split
    · exact proposeLap_attemptsStand ..
    · exact ⟨rfl, rfl, rfl, fun _ => rfl⟩
  · exact (askAdmission_beside ..).attemptsStand rfl

end

/-- Settles O36: the reads and DRBG_RESEED answer at once; PROBE_GO leaves its probe begun. -/
theorem drawObjects : Obligations.DrawObjects := by
  unfold Obligations.DrawObjects
  intro s v
  refine ⟨fun hr => ?_, fun hr hf => ?_, fun hr hf => ⟨fun hp => ?_, fun hp => ?_⟩, fun ha hf => ?_, fun ha => ?_⟩
  · intro o key ctr
    have hmode {m : Nat} (hm : o.mode = m) : (s.oracleOf v).mode = m := hm
    refine ⟨fun hm => exec_oracleOut hr ?_, fun hm => exec_oracleOut hr ?_, fun hm => exec_oracleOut hr ?_,
      fun hm => exec_oracleOut hr ?_, fun hm => exec_oracleOut hr ?_⟩
    all_goals
      rw [State.oracleRead, hmode hm]
      rfl
  · exact congrArg Host.Outcome.next (accessRead_eq_answered hr (entropyRead_of_fatal hf))
  · exact congrArg Host.Outcome.next (accessRead_eq_answered hr (entropyRead_of_ready hf hp))
  · exact congrArg Host.Outcome.next (accessRead_eq_answered hr (entropyRead_of_short hf hp))
  · exact congrArg Host.Outcome.next (accessWrite_eq_answered ha (writeReseed_of_not_fatal hf))
  · intro k hst hcycle howned hfree hidle
    obtain ⟨t, hwrite, hgrid, hmem, hdet, hattempt⟩ := writeProbe_attemptsStand hst hcycle howned hfree hidle
    have hprobe : t.det.probe = s.probeBegun.det.probe := congrArg Det.probe hdet
    have hk : (s.probeBegun.slot k).attempt = .probe := by simp [probeBegun, k]
    exact ⟨t.answered 0 [], congrArg Host.Outcome.next (accessWrite_eq_answered ha hwrite), congrArg Probe.state hprobe,
      congrArg Probe.slot hprobe, congrArg Probe.cycle hprobe, congrArg Probe.lap hprobe, (hattempt k).trans hk, rfl,
      congrArg MemState.hbm hmem, congrArg Grid.cores hgrid⟩

end Sys2Proof.Machine

/-! PROOFS of the family 07_gate_mesh: gate entries, the reduction ALU, link transfers, the slices' traffic, and Lecel ports. -/

/-! The gate sequence (R210, R212, R213, R229). -/
namespace Sys2Proof.Machine
open State

/-! Hold registers that cannot be corrected (R229). -/

@[simp] theorem State.holdUpset_of_clear {n : Nat} {holds : BitVec 3} {s : State} {h : Nat} (hb : holds.getLsbD h = false) :
    State.holdUpset n holds s h = s := by
  simp [State.holdUpset, hb]

theorem State.holdUpset_of_set {n : Nat} {holds : BitVec 3} {s : State} {h : Nat} (hb : holds.getLsbD h = true) :
    State.holdUpset n holds s h = ((s.free 128).2.setHold n h (s.free 128).1).routerFault n 0x30 := by
  simp [State.holdUpset, hb, Router.fFLIT]

/-- In a cycle in which every hold register can be corrected nothing befalls them. -/
@[simp] theorem State.holdUpsets_zero (s : State) (n : Nat) : s.holdUpsets n 0 = s := by
  unfold State.holdUpsets
  split
  · exact rfl
  · rfl

theorem State.holdUpsets_of_live {s : State} {n : Nat} (hl : s.routerLive n = true) (holds : BitVec 3) :
    s.holdUpsets n holds = State.holdUpset n holds (State.holdUpset n holds (State.holdUpset n holds s 0) 1) 2 := by
  simp [State.holdUpsets, hl]

/-! The end of a run (R212, R213). -/

/-- A router that enters an entry runs it, or, past the last entry, faults (R213). -/
theorem Router.enter_phase (tbl : Table (BitVec 160)) (q : GateSeq) (e c : Nat) (back : GateBack) (x : BitVec 128) :
    (Router.enter tbl q e c back x).phase = if 511 < e then .faulted else .running := by
  unfold Router.enter
  split <;> rfl

section
variable {r : Router} {c : Nat} {x : BitVec 128}

theorem Router.advance_of_next (h : gateCtl r.current = 0) :
    r.advance c x = some (Router.enter r.table r.seq (r.seq.e + 1) (c + 1) .none x) := by
  simp [Router.advance, h]

theorem Router.advance_of_loopA (h : gateCtl r.current = 1) (hl : 1 < r.seq.la) : r.advance c x =
    some (Router.enter r.table { r.seq with la := r.seq.la - 1 } r.seq.startA (c + 1) .a x) := by
  have hpos : r.seq.la ≠ 0 := by omega
  have hleft : r.seq.la - 1 ≠ 0 := by omega
  simp [Router.advance, h, hpos, hleft]

theorem Router.advance_of_lastA (h : gateCtl r.current = 1) (hl : r.seq.la = 1) : r.advance c x =
    some (Router.enter r.table { r.seq with la := 0 } (r.seq.e + 1) (c + 1) .none x) := by
  simp [Router.advance, h, hl]

theorem Router.advance_of_noneA (h : gateCtl r.current = 1) (hl : r.seq.la = 0) : r.advance c x = none := by
  simp [Router.advance, h, hl]

theorem Router.advance_of_loopB (h : gateCtl r.current = 2) (hl : 1 < r.seq.lb) : r.advance c x =
    some (Router.enter r.table { r.seq with lb := r.seq.lb - 1 } r.seq.startB (c + 1) .b x) := by
  have hpos : r.seq.lb ≠ 0 := by omega
  have hleft : r.seq.lb - 1 ≠ 0 := by omega
  simp [Router.advance, h, hpos, hleft]

theorem Router.advance_of_lastB (h : gateCtl r.current = 2) (hl : r.seq.lb = 1) : r.advance c x =
    some (Router.enter r.table { r.seq with lb := 0 } (r.seq.e + 1) (c + 1) .none x) := by
  simp [Router.advance, h, hl]

theorem Router.advance_of_noneB (h : gateCtl r.current = 2) (hl : r.seq.lb = 0) : r.advance c x = none := by
  simp [Router.advance, h, hl]

theorem Router.advance_of_stop (h : gateCtl r.current = 3) : r.advance c x = some { r.seq with phase := .stopped } := by
  simp [Router.advance, h]

end

/-- A run that does not end in this cycle goes on. -/
theorem State.gateEnd_of_goes_on {s : State} {n c : Nat} (hc : s.lapCycle (s.router n).slot = some c)
    (he : (s.router n).seq.runEnd ≠ c) (ctl : Nat) (err : BitVec 160) : s.gateEnd n ctl err = s := by
  simp [State.gateEnd, hc, he]

/-- The sequencing state of router n from the next cycle on. -/
def State.nextSeq (s : State) (n : Nat) (q : GateSeq) : State := s.setRouter n { s.router n with seqNext := some q }

section
variable {s : State} {n c : Nat} {err : BitVec 160} {x : BitVec 128} {q : GateSeq}
  (hc : s.lapCycle (s.router n).slot = some c) (hl : s.routerLive n = true) (hrun : (s.router n).running = true)
  (he : (s.router n).seq.runEnd = c) (hn : (s.router n).seqNext = none)
include hc hl hrun he hn

/-- The end of a run takes the router to the entry it enters; one past the last raises GATE_OVERRUN (R213). -/
theorem State.gateEnd_of_entered (hx : Router.entryRead err = some x) {p : GateSeq} {e : Nat} {back : GateBack}
    (ha : (s.router n).advance c x = some (Router.enter (s.router n).table p e (c + 1) back x)) :
    let q := Router.enter (s.router n).table p e (c + 1) back x
    s.gateEnd n (gateCtl (s.router n).current) err =
      if q.phase = .faulted then (s.nextSeq n q).routerFault n 0x38 else s.nextSeq n q := by
  have hp := Router.enter_phase (s.router n).table p e (c + 1) back x
  by_cases h : 511 < e
  · rw [if_pos h] at hp
    simp [State.gateEnd, Router.endRun, hc, hl, hrun, he, hn, hx, ha, hp, State.nextSeq, Router.fOVERRUN]
  · rw [if_neg h] at hp
    simp [State.gateEnd, Router.endRun, hc, hl, hrun, he, hn, hx, ha, hp, State.nextSeq]

/-- An entry that cannot be corrected is not applied (R229). -/
theorem State.gateEnd_of_uncorrectable (hx : Router.entryRead err = none) (ha : (s.router n).advance c 0#128 = some q)
    (hq : q.phase = .running) : s.gateEnd n (gateCtl (s.router n).current) err =
      (s.nextSeq n { q with phase := .stopped }).routerFault n 0x31 := by
  simp [State.gateEnd, Router.endRun, hc, hl, hrun, he, hn, hx, ha, hq, State.nextSeq, Router.fGATEUNC]

/-- STOP brings the router to rest, and names the entry of the next lap (R212). -/
theorem State.gateEnd_of_stop (h : gateCtl (s.router n).current = 3) : s.gateEnd n 3 err = s.setRouter n { s.router n with
    seqNext := some { (s.router n).seq with phase := .stopped }, entryNext := gateField (s.router n).current 120 112 } := by
  simp [State.gateEnd, Router.endRun, hc, hl, hrun, he, hn, h, Router.advance_of_stop h]

/-- The end of a loop without a lap left raises GATE_LOOP (R213). -/
theorem State.gateEnd_of_no_lap_left (ha : ∀ x, (s.router n).advance c x = none) :
    s.gateEnd n (gateCtl (s.router n).current) err =
      (s.nextSeq n { (s.router n).seq with phase := .faulted }).routerFault n 0x39 := by
  simp [State.gateEnd, Router.endRun, hc, hl, hrun, he, hn, ha, State.nextSeq, Router.fLOOP]

end

/-- While a lap of slot k runs its attempt can still have a fault (R287). -/
theorem State.lapGoing_of_lapCycle {s : State} {k c : Nat} (h : s.lapCycle k = some c) : s.lapGoing k = true := by
  unfold State.lapCycle at h
  unfold State.lapGoing State.lapStart
  split at h
  · next a hs =>
    obtain ⟨hlt, -⟩ := Option.ite_none_right_eq_some.mp h
    simpa [hs] using hlt
  · cases h

/-- A router's fault is kept with those of its slot's attempt, and drives FAULT (R229). -/
theorem State.slot_routerFault {s : State} {n : Nat} (h : s.lapGoing (s.router n).slot = true) (code : Nat) :
    let k := (s.router n).slot
    ((s.routerFault n code).slot k).faults = (s.slot k).faults ++ [⟨n, code, s.faultCycle k, 0⟩]
      ∧ ((s.routerFault n code).slot k).faultDrive = some ((s.slot k).faultDrive.getD s.now) := by
  intro k
  have hslot : (s.routerFault n code).slot k = (s.raise k ⟨n, code, s.faultCycle k, 0⟩).slot k := by
    simp only [State.routerFault, h, if_true]
    rfl
  rw [hslot, State.raise, if_pos h, State.keepFault, onSlot_onSlot, slot_onSlot_self]
  exact ⟨rfl, rfl⟩

/-- Settles O19: each control code by what its run's end makes of the sequence, and the faults by their own lemmas. -/
theorem gateEntries : Obligations.GateEntries := by
  constructor
  · intro s n c err holds hc hl hrun hn r q ends set goes entry
    have hends : ∀ {ctl : Nat} {t : State}, gateCtl r.current = ctl → s.gateEnd n (gateCtl r.current) err = t →
        Host.Outcome.next ((s.gateEnd n ctl err).holdUpsets n holds) = ends t := fun hctl h => by rw [← hctl, h]
    refine ⟨fun he => ⟨fun x hx => ?_, fun hx h0 hlt => ?_, fun h3 => ?_⟩, fun he => ?_⟩
    · have entered : ∀ {ctl e : Nat} {p : GateSeq} {back : GateBack}, gateCtl r.current = ctl →
          r.advance c x = some (entry p e back x) →
          Host.Outcome.next ((s.gateEnd n ctl err).holdUpsets n holds) = goes (entry p e back x) :=
        fun hctl ha => hends hctl (gateEnd_of_entered hc hl hrun he hn hx ha)
      exact ⟨fun h0 => entered h0 (Router.advance_of_next h0),
        fun h1 => ⟨fun ha => entered h1 (Router.advance_of_loopA h1 ha), fun ha => entered h1 (Router.advance_of_lastA h1 ha)⟩,
        fun h2 => ⟨fun hb => entered h2 (Router.advance_of_loopB h2 hb), fun hb => entered h2 (Router.advance_of_lastB h2 hb)⟩⟩
    · have hphase := Router.enter_phase r.table q (q.e + 1) (c + 1) .none 0
      rw [if_neg (by omega)] at hphase
      exact hends h0 (gateEnd_of_uncorrectable hc hl hrun he hn hx (Router.advance_of_next h0) hphase)
    · exact hends h3 (h3 ▸ gateEnd_of_stop hc hl hrun he hn h3)
    · have goesOn : ∀ ctl, Host.Outcome.next ((s.gateEnd n ctl err).holdUpsets n holds) = ends s :=
        fun ctl => by rw [gateEnd_of_goes_on hc he]
      exact ⟨goesOn 0, goesOn 1, goesOn 2, goesOn 3⟩
  · intro s n c err hc hl r s'
    refine ⟨fun hrun he hn => ?_, fun he => ?_, fun _ code => slot_routerFault (lapGoing_of_lapCycle hc) code⟩
    · have loops : ∀ {ctl : Nat}, gateCtl r.current = ctl → (∀ x, r.advance c x = none) →
          Host.Outcome.next (φ := Fault) (ρ := Refusal) ((s.gateEnd n ctl err).holdUpsets n 0) = .next (s'.routerFault n 0x39) :=
        fun hctl ha => by rw [holdUpsets_zero, ← hctl, gateEnd_of_no_lap_left hc hl hrun he hn ha]; rfl
      exact ⟨fun h1 ha => loops h1 fun _ => Router.advance_of_noneA h1 ha,
        fun h2 hb => loops h2 fun _ => Router.advance_of_noneB h2 hb⟩
    · have upset : ∀ holds, exec (.gateNext n err holds) s = .next
          (State.holdUpset n holds (State.holdUpset n holds (State.holdUpset n holds s 0) 1) 2) := fun holds => by
        rw [← holdUpsets_of_live hl, show exec (.gateNext n err holds) s = .next ((s.gateEnd n 0 err).holdUpsets n holds) from rfl,
          gateEnd_of_goes_on hc he]
      refine ⟨⟨(s.free 128).1, ?_⟩, ⟨(s.free 128).1, ?_⟩, ⟨(s.free 128).1, ?_⟩⟩
      · rw [upset, holdUpset_of_set (h := 0) rfl, holdUpset_of_clear (h := 1) rfl, holdUpset_of_clear (h := 2) rfl]; rfl
      · rw [upset, holdUpset_of_clear (h := 0) rfl, holdUpset_of_set (h := 1) rfl, holdUpset_of_clear (h := 2) rfl]; rfl
      · rw [upset, holdUpset_of_clear (h := 0) rfl, holdUpset_of_clear (h := 1) rfl, holdUpset_of_set (h := 2) rfl]; rfl
end Sys2Proof.Machine

/-! The reduction ALU (R215 to R220). -/
namespace Sys2Proof.Machine
open State

/-- An operation that the entry does not name does nothing (R215). -/
theorem State.aluStep_of_other {s : State} {n code : Nat} (h : (s.router n).aopNow ≠ code) (mismatch : Bool)
    (op : Router → Flit → Flit → Router) (bad : Flit → Flit → Router → Router) : s.aluStep n code mismatch op bad = s := by
  simp [State.aluStep, h]

section
variable {s : State} {n code : Nat} (hl : s.routerLive n = true) (ha : (s.router n).aopNow = code)
  (op : Router → Flit → Flit → Router) (bad : Flit → Flit → Router → Router)
include hl ha

/-- The operation that the entry names is done on the cycle's operands (R215). -/
theorem State.aluStep_of_agree : s.aluStep n code false op bad =
    s.setRouter n (op (s.router n) (s.injected n 0) (s.injected n 1)) := by
  simp [State.aluStep, hl, ha]

/-- Where the two copies disagree the registers get free values, and REDUCE_MISMATCH is raised (R216). -/
theorem State.aluStep_of_mismatch : ∃ f g, s.aluStep n code true op bad =
    ({ s with fresh := s.fresh + 2 }.setRouter n (bad f g (op (s.router n) (s.injected n 0) (s.injected n 1)))).routerFault n 0x32 := by
  refine ⟨(s.free 128).1, ((s.free 128).2.free 128).1, ?_⟩
  simp only [State.aluStep, hl, ha, Bool.not_true, bne_self_eq_false, Bool.or_self, Bool.false_eq_true, if_false, if_true]
  rfl

end

section
variable {r : Router} (i0 i1 : Flit)

/-- ADD of the operands, each under its WID bit (R218). -/
theorem Router.aluOp_of_add (h : r.aopNow = 1) :
    let o := fun i => (r.operands i0 i1).getD i 0
    let wid := fun b => decide (gateField r.current b b = 1)
    r.aluOp i0 i1 = { r with
      aluNext := some (Router.aluAdd (wid 28) (wid 26) (o 0) (o 2), Router.aluAdd (wid 27) (wid 25) (o 1) (o 3)) } := by
  simp only [Router.aluOp, h]
  rfl

/-- MAX_IDX of the operands (R219). -/
theorem Router.aluOp_of_max (h : r.aopNow = 2) :
    let o := fun i => (r.operands i0 i1).getD i 0
    r.aluOp i0 i1 = { r with aluNext := some (Router.aluPick higher (o 0) (o 2), Router.aluPick higher (o 1) (o 3)) } := by
  simp only [Router.aluOp, h]

/-- MIN_IDX of the operands (R219). -/
theorem Router.aluOp_of_min (h : r.aopNow = 3) :
    let o := fun i => (r.operands i0 i1).getD i 0
    r.aluOp i0 i1 = { r with aluNext := some (Router.aluPick lower (o 0) (o 2), Router.aluPick lower (o 1) (o 3)) } := by
  simp only [Router.aluOp, h]

/-- TOP8_SECOND merges the halves captured before with the operands (R220). -/
theorem Router.top8Second_of_captured {f0 f1 f2 f3 : Flit} (h : r.top8.getD [0, 0, 0, 0] = [f0, f1, f2, f3]) :
    let o := fun i => (r.operands i0 i1).getD i 0
    let m := Router.mergeTop 8 (Router.pairsOf [f0, f1, o 0, o 1]) (Router.pairsOf [f2, f3, o 2, o 3])
    let p := fun q => Router.pairFlit (m.getD (2 * q) (0, 0)) (m.getD (2 * q + 1) (0, 0))
    r.top8Second i0 i1 = { r with aluNext := some (p 0, p 1), top8LateNext := some (p 2, p 3) } := by
  simp only [Router.top8Second, h]
  rfl

end

/-- Settles O20: an operation that is named is done, or leaves free values where the copies disagree; any other does nothing. -/
theorem reductionAlu : Obligations.ReductionAlu := by
  intro s n holds hl r o wid ends put bad alu
  have agree : ∀ {code : Nat} {op : Router → Flit → Flit → Router} {b : Flit → Flit → Router → Router} {r' : Router},
      r.aopNow = code → op r (s.injected n 0) (s.injected n 1) = r' →
      Host.Outcome.next ((s.aluStep n code false op b).holdUpsets n holds) = put r' := fun hc hr => by
    rw [aluStep_of_agree hl hc, hr]
  have mismatch : ∀ {code : Nat} {op : Router → Flit → Flit → Router} {b : Flit → Flit → Router → Router} {r' : Router},
      r.aopNow = code → op r (s.injected n 0) (s.injected n 1) = r' →
      ∃ f g, Host.Outcome.next ((s.aluStep n code true op b).holdUpsets n holds) = bad (b f g r') := fun hc hr => by
    obtain ⟨f, g, e⟩ := aluStep_of_mismatch hl hc _ _
    exact ⟨f, g, by rw [e, hr]⟩
  have other : ∀ {code : Nat} {op : Router → Flit → Flit → Router} {b : Flit → Flit → Router → Router} (x : Bool),
      r.aopNow ≠ code → Host.Outcome.next ((s.aluStep n code x op b).holdUpsets n holds) = ends s := fun x hc => by
    rw [aluStep_of_other hc]
  refine ⟨fun h => ?_, fun h => ?_, fun h => ?_, fun h => ?_, fun f0 f1 f2 f3 h hf => ?_,
    fun x => ⟨other x, other x, other x, other x, other x⟩⟩
  · have spoilt := mismatch (b := State.badResult) h (Router.aluOp_of_add _ _ h)
    exact ⟨agree h (Router.aluOp_of_add _ _ h), spoilt⟩
  · have spoilt := mismatch (b := State.badResult) h (Router.aluOp_of_max _ _ h)
    exact ⟨agree h (Router.aluOp_of_max _ _ h), spoilt⟩
  · have spoilt := mismatch (b := State.badResult) h (Router.aluOp_of_min _ _ h)
    exact ⟨agree h (Router.aluOp_of_min _ _ h), spoilt⟩
  · obtain ⟨-, -, e⟩ := mismatch (op := Router.top8First) (b := fun _ _ r => r) h rfl
    exact ⟨agree h rfl, e⟩
  · obtain ⟨f, g, e⟩ := mismatch (b := State.badMerge) h (Router.top8Second_of_captured _ _ hf)
    exact ⟨agree h (Router.top8Second_of_captured _ _ hf), f, g, g, f, e⟩
end Sys2Proof.Machine

/-! The merge of two lists of eight (R181, R220, R221). -/
namespace Sys2Proof.Machine
open State

/-- A merge of n pairs is the first n of the whole merge, when the two lists hold so many (R220). -/
theorem Router.mergeTop_eq_take_merge (n : Nat) (a b : List Scored) (h : n ≤ a.length + b.length) :
    Router.mergeTop n a b = (a.merge b Router.atOrAbove).take n := by
  fun_induction Router.mergeTop n a b with
  | case1 => rw [List.take_zero]
  | case2 n a as b bs hab ih =>
    rw [List.cons_merge_cons, if_pos hab, List.take_succ_cons, ih (by simp only [List.length_cons] at *; omega)]
  | case3 n a as b bs hab ih =>
    rw [List.cons_merge_cons, if_neg hab, List.take_succ_cons, ih (by simp only [List.length_cons] at *; omega)]
  | case4 n a as ih =>
    rw [ih (by simp only [List.length_cons] at *; omega), List.merge_right, List.merge_right, List.take_succ_cons]
  | case5 n b bs ih =>
    rw [ih (by simp only [List.length_cons] at *; omega), List.nil_merge, List.nil_merge, List.take_succ_cons]
  | case6 n ih => exact absurd h (by simp)

/-- A pair ranks at or above another by score, equal scores by the second value (R181). -/
theorem Router.atOrAbove_iff (p q : Scored) : Router.atOrAbove p q = true ↔
    scoreKey nanHigh q.1 < scoreKey nanHigh p.1
      ∨ scoreKey nanHigh p.1 = scoreKey nanHigh q.1 ∧ p.2.toNat ≤ q.2.toNat := by
  simp [Router.atOrAbove]

theorem Router.atOrAbove_trans (p q r : Scored) (hpq : Router.atOrAbove p q = true) (hqr : Router.atOrAbove q r = true) :
    Router.atOrAbove p r = true := by
  rw [atOrAbove_iff] at *
  omega

theorem Router.atOrAbove_total (p q : Scored) : (Router.atOrAbove p q || Router.atOrAbove q p) = true := by
  rw [Bool.or_eq_true, atOrAbove_iff, atOrAbove_iff]
  omega

/-- Settles O21: the merge is the first eight of the whole merge, which is a falling arrangement of the sixteen. -/
theorem top8MergeKeepsHighest : Obligations.Top8MergeKeepsHighest := by
  intro a b ha hb hfa hfb m
  have hm : m = (a.merge b Router.atOrAbove).take 8 := Router.mergeTop_eq_take_merge 8 a b (by omega)
  have hsplit : m ++ (a.merge b Router.atOrAbove).drop 8 = a.merge b Router.atOrAbove := by rw [hm, List.take_append_drop]
  have hfall := List.pairwise_merge Router.atOrAbove_trans Router.atOrAbove_total a b hfa hfb
  rw [← hsplit] at hfall
  obtain ⟨hfirst, -, habove⟩ := List.pairwise_append.mp hfall
  exact ⟨by rw [hm, List.length_take, List.length_merge]; omega, hfirst, _,
    (List.Perm.of_eq hsplit).trans (List.merge_perm_append _), habove⟩
end Sys2Proof.Machine

/-! Link transfers (R200, R201, R203, R224, R229, R236, R514). -/
namespace Sys2Proof.Machine
open State

section
variable {s : State} {n d t : Nat} {err : BitVec 160}

/-- A reserved cycle's transfer is the transom channel's (R203). -/
theorem State.receiveLink_of_transom (ht : s.transomTransfer n d t = true) :
    s.receiveLink n d t err = s.receiveTransom n d err := by
  simp [State.receiveLink, ht]

/-- Across a stripe boundary a scheduled transfer is not decoded (R236). -/
theorem State.receiveLink_of_crossing (ht : s.transomTransfer n d t = false) (hx : s.leavesStripe n d = true) :
    s.receiveLink n d t err = s := by
  simp [State.receiveLink, ht, hx]

/-- Within a stripe a scheduled transfer is received (R201). -/
theorem State.receiveLink_of_scheduled (hn : n < 0x2800) (hy : coreY n < s.grid.activeRows)
    (ht : s.transomTransfer n d t = false) (hx : s.leavesStripe n d = false) :
    s.receiveLink n d t err = s.receiveScheduled n d t err := by
  simp [State.receiveLink, ht, hx, Nat.not_le.mpr hn, Nat.not_le.mpr hy]

/-- A router in a lap has the flit on its input port. -/
theorem State.putInput_of_live (hl : s.routerLive n = true) (hh : Table.has n s.grid.routers = true) (p : Nat) (f : Flit) :
    s.putInput n p f = s.setRouter n { s.router n with inputs := Table.put p f (s.router n).inputs } := by
  simp [State.putInput, hl, hh]

theorem State.putInput_of_absent (hh : Table.has n s.grid.routers = false) (p : Nat) (f : Flit) : s.putInput n p f = s := by
  simp [State.putInput, hh]

/-- An uncorrectable transfer counts (R201), and its flit is a free value. -/
def State.linkFailed (s : State) : State :=
  { s with fresh := s.fresh + 1, grid := { s.grid with linkUncorrectable := satAdd 64 s.grid.linkUncorrectable 1 } }

/-- The fault of a transfer that cannot be corrected is its router's (R229). -/
theorem State.receiveScheduled_of_failed (he : rsDecode (errSymbols err) = .failed) : s.receiveScheduled n d t err =
    let u := s.linkFailed.putInput n (2 * d + t) (s.free 128).1
    if Table.has n u.grid.routers then u.routerFault n 0x30 else u.idleRouterFault n 0x30 := by
  simp only [State.receiveScheduled, he]
  rfl

/-- A router of a lap raises FLIT_UNCORRECTABLE (R229). -/
theorem State.receiveScheduled_of_failed_live (he : rsDecode (errSymbols err) = .failed) (hl : s.routerLive n = true)
    (hh : Table.has n s.grid.routers = true) : ∃ f, s.receiveScheduled n d t err =
      (s.linkFailed.setRouter n { s.router n with inputs := Table.put (2 * d + t) f (s.router n).inputs }).routerFault n 0x30 := by
  refine ⟨(s.free 128).1, ?_⟩
  rw [receiveScheduled_of_failed he, putInput_of_live (s := s.linkFailed) hl hh]
  exact if_pos (Table.has_put_self ..)

/-- A router of no course reports it, and drives DEVICE (R229). -/
theorem State.receiveScheduled_of_failed_idle (he : rsDecode (errSymbols err) = .failed)
    (hh : Table.has n s.grid.routers = false) : s.receiveScheduled n d t err = s.linkFailed.idleRouterFault n 0x30 := by
  rw [receiveScheduled_of_failed he, putInput_of_absent (s := s.linkFailed) hh]
  exact if_neg (ne_true_of_eq_false hh)

/-- The first fault of an idle router within a second leaves its site in service (R514). -/
theorem State.idleRouterFault_of_first (h : ∀ x ∈ s.grid.idleFaults, x.1 ≠ s.siteFor n) (code : Nat) :
    ∃ seqs reports transom, s.idleRouterFault n code = { s with grid := { s.grid with
      idleFaults := (s.siteFor n, s.now) :: s.grid.idleFaults, deviceDrives := s.now :: s.grid.deviceDrives
      seqs := seqs, reports := reports, transom := transom } } := by
  have hrecent : ¬ (s.grid.idleFaults.any (fun x => x.1 == s.siteFor n && decide (s.now < x.2 + oneSecond))) = true := by
    simp only [List.any_eq_true, Bool.and_eq_true, beq_iff_eq]
    rintro ⟨x, hx, hsite, -⟩
    exact h x hx hsite
  exact ⟨_, _, _, if_neg hrecent⟩

/-- A transom transfer joins its message, or takes it with it (R224); what is counted is of the link (R201). -/
theorem State.receiveTransom_eq (s : State) (n d : Nat) (err : BitVec 160) :
    ∃ slots linkCorrected, s.receiveTransom n d err = { s with slots := slots, grid := { s.grid with
      linkCorrected := linkCorrected
      transomDrops := (if rsDecode (errSymbols err) = .failed then satAdd 32 s.grid.transomDrops 1 else s.grid.transomDrops)
      transom := (match rsDecode (errSymbols err) with
        | .clean l | .corrected l => s.grid.transom.receive s.now n d (residualFlit l)
        | .failed => s.grid.transom.drop s.now n d) } } := by
  unfold State.receiveTransom
  cases rsDecode (errSymbols err) with
  | clean l => exact ⟨s.slots, s.grid.linkCorrected, rfl⟩
  | corrected l => exact ⟨s.slots, _, rfl⟩
  | failed => exact ⟨_, s.grid.linkCorrected, rfl⟩

end

/-- Settles O22. -/
theorem linkTransferReceived : Obligations.LinkTransferReceived := by
  intro s n d t err holds hn hy r ends flit put corrected
  have arrives : ∀ {u : State}, s.receiveLink n d t err = u → exec (.linkTransfer n d t err holds) s = ends u :=
    fun h => congrArg ends h
  have quiet : ∀ {u : State}, s.receiveLink n d t err = u → exec (.linkTransfer n d t err 0) s = .next u :=
    fun h => congrArg Host.Outcome.next ((holdUpsets_zero _ n).trans h)
  refine ⟨fun ht hx => arrives (receiveLink_of_crossing ht hx), fun ht hx hh hl => ?_, fun ht => ?_, fun ht hx hh hidle he => ?_⟩
  · have hsched := receiveLink_of_scheduled (err := err) hn hy ht hx
    refine ⟨fun x hc => ?_, fun x hc => ?_, fun hf => ?_⟩
    · exact arrives (hsched.trans (by simp only [State.receiveScheduled, hc]; exact putInput_of_live hl hh _ _))
    · exact arrives (hsched.trans (by simp only [State.receiveScheduled, hc]; exact putInput_of_live (s := corrected) hl hh _ _))
    · obtain ⟨f, e⟩ := receiveScheduled_of_failed_live (d := d) (t := t) hf hl hh
      exact ⟨f, arrives (hsched.trans e)⟩
  · obtain ⟨slots, linkCorrected, e⟩ := receiveTransom_eq s n d err
    refine ⟨_, quiet ((receiveLink_of_transom ht).trans e), rfl, rfl, rfl, rfl, fun hf => ?_, fun x hx => ?_⟩
    · simp only [hf]
    · rcases hx with hx | hx <;> simp only [hx]
  · obtain ⟨_, _, _, e⟩ := idleRouterFault_of_first (s := s.linkFailed) hidle 0x30
    exact ⟨_, quiet ((receiveLink_of_scheduled hn hy ht hx).trans ((receiveScheduled_of_failed_idle he hh).trans e)), rfl, rfl, rfl,
      rfl, rfl⟩
end Sys2Proof.Machine

/-! Bytes of a line, and what a write of one leaves (R242, R246). -/
namespace Sys2Proof

/-! Bytes of a number, and cells that lie elsewhere (R242). -/

theorem leBytes_length (n v : Nat) : (leBytes n v).length = n := by
  induction n generalizing v with
  | zero => rfl
  | succ n ih => simp [leBytes, ih]

theorem getElem_leBytes (n v i : Nat) (h : i < (leBytes n v).length) : (leBytes n v)[i] = BitVec.ofNat 8 (v / 256 ^ i) := by
  induction n generalizing v i with
  | zero => simp [leBytes] at h
  | succ n ih =>
    cases i with
    | zero => simp [leBytes]
    | succ i =>
      simp only [leBytes, List.getElem_cons_succ]
      rw [ih, Nat.div_div_eq_div_mul, Nat.pow_succ']

/-- Byte i of the 64 bytes of a line. -/
theorem getElem_lanesBytes (d : Lanes) (i : Nat) (h : i < (lanesBytes d).length) :
    (lanesBytes d)[i] = d.extractLsb' (8 * i) 8 := by
  have hpow : (256 : Nat) ^ i = 2 ^ (8 * i) := by rw [Nat.pow_mul]
  simp only [lanesBytes]
  rw [getElem_leBytes, hpow, ← Nat.shiftRight_eq_div_pow]
  rfl

theorem sliceBytes_lanesBytes (d : Lanes) : sliceBytes (lanesBytes d) 0 64 = lanesBytes d := by
  have hlen : (lanesBytes d).length = 64 := leBytes_length ..
  simp [sliceBytes, hlen, List.take_of_length_le]

theorem Memory.read_shifted (m : Memory) (src dst n i : Nat) (h : i < n) :
    Memory.read (m.shifted src dst n) (dst + i) = m.read (src + i) := by
  induction m with
  | nil => rfl
  | cons c m ih =>
    obtain ⟨k, v⟩ := c
    have hcons : Memory.shifted ((k, v) :: m) src dst n =
        if src ≤ k ∧ k < src + n then (k - src + dst, v) :: Memory.shifted m src dst n else Memory.shifted m src dst n := by
      by_cases hk : src ≤ k ∧ k < src + n <;> simp [Memory.shifted, hk]
    simp only [Memory.read, Table.get] at ih ⊢
    rw [hcons]
    by_cases hi : k = src + i
    · rw [if_pos hi, if_pos (by omega), Table.get, if_pos (by omega)]
    · rw [if_neg hi, ← ih]
      split
      · rw [Table.get, if_neg (by omega)]
      · rfl

end Sys2Proof

namespace Sys2Proof.Machine
open State

/-! Writes of a line (R242, R246). -/

section
variable (s : State) (la wsrc : Nat) (d : Lanes) (poison : Bool)

/-- A write of a line is of memory alone, and its place stands. -/
theorem State.placeOf_writeLine (data : List Byte) (l : Nat) :
    (s.writeLine la data wsrc poison).placeOf l = s.placeOf l := rfl

theorem State.hbm_writeLine (data : List Byte) : (s.writeLine la data wsrc poison).mem.hbm =
    Table.overlay s.mem.hbm (64 * s.placeOf la) 64
      ((Memory.ofBytes 0 (sliceBytes data 0 64)).shifted 0 (64 * s.placeOf la) 64) := rfl

theorem State.meta_writeLine (data : List Byte) : (s.writeLine la data wsrc poison).mem.meta_ =
    Table.overlay s.mem.meta_ (s.placeOf la) 1 [(s.placeOf la, s.metaOf la wsrc poison)] := by
  simp only [State.writeLine, State.writeLines, List.range_one, List.map_cons, List.map_nil, Nat.add_zero]
  rfl

/-- The line's 64 bytes are those written. -/
theorem State.read_writeLine_in {i : Nat} (hi : i < 64) :
    (s.writeLine la (lanesBytes d) wsrc poison).mem.hbm.read (64 * s.placeOf la + i) = d.extractLsb' (8 * i) 8 := by
  have hlen : i < (lanesBytes d).length := by rw [lanesBytes, leBytes_length]; exact hi
  rw [hbm_writeLine, sliceBytes_lanesBytes, Memory.read, Table.get_overlay_in _ (by omega) (by omega)]
  rw [← Memory.read, Memory.read_shifted _ _ _ _ _ hi, Memory.read_ofBytes 0 _ i hlen, getElem_lanesBytes]

/-- No other byte of memory changes. -/
theorem State.read_writeLine_out (data : List Byte) {a : Nat} (h : a < 64 * s.placeOf la ∨ 64 * s.placeOf la + 64 ≤ a) :
    (s.writeLine la data wsrc poison).mem.hbm.read a = s.mem.hbm.read a := by
  rw [hbm_writeLine]
  exact Table.get_overlay_out _ (Memory.shifted_within _ _ _ _) h

/-- The line's META is that of the write (R246). -/
theorem State.metaAt_writeLine (data : List Byte) :
    (s.writeLine la data wsrc poison).metaAt la = s.metaOf la wsrc poison := by
  rw [State.metaAt, placeOf_writeLine, meta_writeLine, Table.get_overlay_in _ (Nat.le_refl _) (Nat.lt_succ_self _)]
  exact if_pos rfl

/-- A write leaves of each controller but what it holds and will write back. -/
theorem State.ctl_writeLine (data : List Byte) (j : Nat) : ∃ held scrubWb,
    (s.writeLine la data wsrc poison).ctl j = { s.ctl j with held := held, scrubWb := scrubWb } :=
  ⟨_, _, Sys2Proof.Table.get_mapVals SliceCtl.fresh _ j s.mem.ctl rfl⟩

end

end Sys2Proof.Machine

/-! What a slice takes: request flits and edge transfers (R201, R254 to R257, R267). -/
namespace Sys2Proof.Machine
open State

/-! What a slice raises (R267). -/

/-- A fault of a slice whose stack a course reaches stops the lap of that course. -/
theorem State.sliceFault_of_owned {s : State} {j k : Nat} (hk : s.ownerOfStack (sliceStack j) = some k) (code : Nat) :
    s.sliceFault j code = s.raiseNow k (0x8000 + j) code := by
  simp only [State.sliceFault, hk]

/-! Requests (R254, R257, R267). -/

/-- From s to t controller j has other flits and requests, and of the other controllers, HBM and the cores nothing changes. -/
structure State.TookRequest (s t : State) (j : Nat) (inbound : List InFlit) (reqs : List SliceReq) : Prop where
  inbound : (t.ctl j).inbound = inbound
  reqs : (t.ctl j).reqs = reqs
  others : ∀ q, q ≠ j → t.ctl q = s.ctl q
  hbm : t.mem.hbm = s.mem.hbm
  cores : t.grid.cores = s.grid.cores

/-- Controller j takes the request flits of period p that arrive now. -/
def State.takingRequest (s : State) (j p : Nat) : State :=
  s.setCtl j { s.ctl j with
    inbound := (s.ctl j).inbound.filter (fun i => !(i.role == 0 && i.period == p && i.at_ == s.now)) }

theorem State.tookRequest_takingRequest (s : State) (j p : Nat) : s.TookRequest (s.takingRequest j p) j
    ((s.ctl j).inbound.filter (fun i => !(i.role == 0 && i.period == p && i.at_ == s.now))) (s.ctl j).reqs where
  inbound := by rw [State.takingRequest, ctl_setCtl_self]
  reqs := by rw [State.takingRequest, ctl_setCtl_self]
  others _ hq := ctl_setCtl_ne s hq _
  hbm := rfl
  cores := rfl

/-- A fault raised with it changes nothing of it. -/
theorem State.TookRequest.raiseNow {s t : State} {j : Nat} {inbound : List InFlit} {reqs : List SliceReq}
    (h : s.TookRequest t j inbound reqs) {k : Nat} (hg : t.lapGoing k = true) (core code : Nat) :
    s.TookRequest (t.raiseNow k core code) j inbound reqs := by
  obtain ⟨⟨slots, e⟩, -⟩ := raiseNow_of_going hg core code
  rw [e]
  exact ⟨h.inbound, h.reqs, h.others, h.hbm, h.cores⟩

section
variable {s : State} {j p : Nat} {i : InFlit}
  (hi : (s.ctl j).inbound.find? (fun i => i.role == 0 && i.period == p && i.at_ == s.now) = some i)
include hi

/-- OP 0 asks for nothing, and neither does OP 3 (R254). -/
theorem State.memoryRequest_of_none (ho : reqOp i.flit = 0 ∨ reqOp i.flit = 3) : s.memoryRequest j p = s.takingRequest j p := by
  simp only [State.memoryRequest, hi, beq_iff_eq, Bool.or_eq_true, if_pos ho]
  rfl

variable (ho : ¬ (reqOp i.flit = 0 ∨ reqOp i.flit = 3))
include ho

/-- A request that names another slice or period (R267). -/
theorem State.memoryRequest_of_misrouted (hm : reqSlice i.flit ≠ j ∨ reqPeriod i.flit ≠ p) :
    s.memoryRequest j p = (s.takingRequest j p).sliceFault j 0x42 := by
  simp only [State.memoryRequest, hi, beq_iff_eq, bne_iff_ne, Bool.or_eq_true, if_neg ho, if_pos hm]
  rfl

variable (hm : ¬ (reqSlice i.flit ≠ j ∨ reqPeriod i.flit ≠ p))
include hm

/-- A write to a read-only window (R267). -/
theorem State.memoryRequest_of_readonly (hw : reqNowr i.flit = true) :
    s.memoryRequest j p = (s.takingRequest j p).sliceFault j 0x43 := by
  simp only [State.memoryRequest, hi, beq_iff_eq, bne_iff_ne, Bool.or_eq_true, if_neg ho, if_neg hm, if_pos hw]
  rfl

/-- A request that is accepted for its period (R257). -/
theorem State.memoryRequest_of_accepted (hw : reqNowr i.flit = false) : s.memoryRequest j p =
    (s.takingRequest j p).setCtl j { (s.takingRequest j p).ctl j with
      reqs := (s.ctl j).reqs ++ [⟨i.start, p, decide (reqOp i.flit = 2), reqBlock i.flit⟩] } := by
  simp only [State.memoryRequest, hi, beq_iff_eq, bne_iff_ne, Bool.or_eq_true, if_neg ho, if_neg hm, hw, Bool.false_eq_true, if_false]
  simp only [State.takingRequest, ctl_setCtl_self]
  rfl

end

theorem State.TookRequest.accepting {s t : State} {j : Nat} {inbound : List InFlit} {reqs : List SliceReq}
    (h : s.TookRequest t j inbound reqs) (reqs' : List SliceReq) :
    s.TookRequest (t.setCtl j { t.ctl j with reqs := reqs' }) j inbound reqs' where
  inbound := by rw [ctl_setCtl_self]; exact h.inbound
  reqs := by rw [ctl_setCtl_self]
  others q hq := (ctl_setCtl_ne t hq _).trans (h.others q hq)
  hbm := h.hbm
  cores := h.cores

/-! Edge transfers (R201, R255, R256, R257). -/

/-- A flit is kept for the coming period of its entry (R257). -/
theorem State.takeEdge_changes (s : State) (j c : Nat) (e : BitVec 16) (f : Flit) :
    ((s.takeEdge j c e f).ctl j).inbound = (s.ctl j).inbound
        ++ [⟨s.now, s.now + (periodStart c (edgePeriod e) - c), edgePeriod e, edgeRole e, f⟩]
      ∧ ∀ q, q ≠ j → (s.takeEdge j c e f).ctl q = s.ctl q :=
  ⟨by rw [State.takeEdge, ctl_setCtl_self], fun _ hq => ctl_setCtl_ne s hq _⟩

section
variable {s : State} {st l u : Nat} {err : BitVec 160} (hs : s.stackLive st = true)
include hs

/-- A transom transfer carries nothing to a stack, and is counted (R201, R224). -/
theorem State.edgeTransfer_of_reserved (hr : s.edgeReserved u = true) : ∃ slots linkCorrected,
    s.edgeTransfer st l u err = { s with slots := slots, grid := { s.grid with
      linkCorrected := linkCorrected
      transomDrops := (if rsDecode (errSymbols err) = .failed then satAdd 32 s.grid.transomDrops 1 else s.grid.transomDrops) } } := by
  have h : s.edgeTransfer st l u err = s.edgeTransom err := by simp [State.edgeTransfer, hs, hr]
  rw [h]
  unfold State.edgeTransom
  cases rsDecode (errSymbols err) with
  | clean l => exact ⟨s.slots, s.grid.linkCorrected, rfl⟩
  | corrected l => exact ⟨s.slots, _, rfl⟩
  | failed => exact ⟨_, s.grid.linkCorrected, rfl⟩

variable {k c : Nat} {tb : EdgeTable} (hr : s.edgeReserved u = false) (hk : s.ownerOfStack st = some k)
  (hc : s.lapCycle k = some c) (ht : s.edgeTable k st = some tb)
include hr hk hc ht

/-- A transfer that the edge table does not assign is nobody's (R256). -/
theorem State.edgeTransfer_of_unassigned (hv : edgeValid (edgeEntry tb c l u 0) = false) : s.edgeTransfer st l u err = s := by
  simp [State.edgeTransfer, hs, hr, hk, hc, ht, hv]

variable (hv : edgeValid (edgeEntry tb c l u 0) = true) (hb : ¬ (u = 1 ∧ c % 8 = 5))
include hv hb

/-- One that it assigns is kept as its code leaves it, or, uncorrectable, counts and is a free value (R201, R256, R267). -/
theorem State.edgeTransfer_of_assigned : s.edgeTransfer st l u err =
    let e := edgeEntry tb c l u 0
    let j := 30 * st + edgeSlice e
    match rsDecode (errSymbols err) with
    | .clean x => s.takeEdge j c e (s.edgeFlit st l u ^^^ residualFlit x)
    | .corrected x => s.countCorrected.takeEdge j c e (s.edgeFlit st l u ^^^ residualFlit x)
    | .failed => (s.linkFailed.takeEdge j c e (s.free 128).1).raiseNow k (0x8000 + j) 0x41 := by
  have hnb : (u == 1 && c % 8 == 5) = false := by simpa using hb
  simp only [State.edgeTransfer, hs, hr, hk, hc, ht, hv, hnb, Bool.not_true, Bool.or_self, Bool.false_eq_true, if_false]
  rfl

end
end Sys2Proof.Machine

/-! The periods of a slice (R245 to R248, R257 to R259). -/
namespace Sys2Proof.Machine
open State

/-! Reading a block (R245, R247). -/

/-- What a decoded word gives of line la: its data and META, none when it cannot be corrected or is that of another place. -/
def State.decodedRead (s : State) (la : Nat) : Decoded → Option (Lanes × BitVec 32)
  | .clean l | .corrected l => s.decodedBlock la l
  | .failed => none

/-- The data and META that a read of line la gives. -/
def State.blockRead (s : State) (errs : List BlockErr) (la : Nat) : Option (Lanes × BitVec 32) :=
  s.decodedRead la (rsDecode (symbolsOf 72 (errAt errs la).err.toNat))

/-- The counters of a read whose word has been decoded (R247, R272). -/
def State.countRead (s : State) (la : Nat) (r : Decoded) : State :=
  match r, (s.decodedRead la r).isSome with
  | _, false => { s with mem := { s.mem with uncorrectable := satAdd 64 s.mem.uncorrectable 1 } }
  | .corrected _, true => { s with mem := { s.mem with corrected := satAdd 64 s.mem.corrected 1 } }
  | _, true => s

/-- A read gives that, and counts alone (R247). -/
theorem State.readBlock_eq (s : State) (errs : List BlockErr) (la : Nat) : (s.readBlock errs la).1 = s.blockRead errs la
    ∧ ∃ ecc, (s.readBlock errs la).2.2 = { s with mem := { s.mem with eccReports := ecc } }.countRead la
        (rsDecode (symbolsOf 72 (errAt errs la).err.toNat)) := by
  generalize hu : (if (errAt errs la).ecc then
    { s with mem := { s.mem with eccReports := satAdd 64 s.mem.eccReports 1 } } else s) = u
  obtain ⟨ecc, he⟩ : ∃ ecc, { s with mem := { s.mem with eccReports := ecc } } = u := by
    rw [← hu]
    split <;> exact ⟨_, rfl⟩
  have hdec : ∀ l, s.decodedBlock la l = u.decodedBlock la l := fun _ => he ▸ rfl
  simp only [State.readBlock, hu, State.blockRead]
  refine ⟨?_, ecc, ?_⟩
  · cases rsDecode (symbolsOf 72 (errAt errs la).err.toNat) with
    | failed => rfl
    | clean l => simp only [State.decodedRead, hdec]; cases u.decodedBlock la l <;> rfl
    | corrected l => simp only [State.decodedRead, hdec]; cases u.decodedBlock la l <;> rfl
  · rw [he]
    cases rsDecode (symbolsOf 72 (errAt errs la).err.toNat) with
    | failed => rfl
    | clean l => cases hd : u.decodedBlock la l <;> simp [State.countRead, State.decodedRead, hd]
    | corrected l => cases hd : u.decodedBlock la l <;> simp [State.countRead, State.decodedRead, hd]

/-- Of the counters only those of corrected and of uncorrectable reads change, the latter when the read gives nothing. -/
theorem State.countRead_eq (s : State) (la : Nat) (r : Decoded) : ∃ corrected uncorrectable,
    s.countRead la r = { s with mem := { s.mem with corrected := corrected, uncorrectable := uncorrectable } }
      ∧ (s.decodedRead la r = none → uncorrectable = satAdd 64 s.mem.uncorrectable 1) := by
  unfold State.countRead
  split
  · exact ⟨_, _, rfl, fun _ => rfl⟩
  · next h => exact ⟨_, _, rfl, fun e => nomatch h.symm.trans (congrArg Option.isSome e)⟩
  · next h => exact ⟨_, _, rfl, fun e => nomatch h.symm.trans (congrArg Option.isSome e)⟩

theorem symbolsOf_zero (n : Nat) : symbolsOf n 0 = List.replicate n 0 := by
  simp [symbolsOf]

theorem ofSymbols_replicate_zero (n : Nat) : ofSymbols (List.replicate n 0) = 0 := by
  induction n with
  | zero => rfl
  | succ n ih => rw [List.replicate_succ, ofSymbols, ih]

/-- A word without an error is clean. -/
theorem rsDecode_replicate_zero (n : Nat) : rsDecode (List.replicate n 0) = .clean (List.replicate n 0) :=
  if_pos (by simp)

theorem State.decodedBlock_of_no_error {s : State} {la : Nat}
    (h : (s.metaAt la).extractLsb' 8 24 = (s.metaOf la 0 false).extractLsb' 8 24) (n : Nat) :
    s.decodedBlock la (List.replicate n 0) = some (s.lineAt la, s.metaAt la) := by
  simp only [State.decodedBlock, ofSymbols_replicate_zero, Nat.zero_div, BitVec.xor_zero, h,
    beq_self_eq_true, if_true]

/-- A block without an error is read as it stands, when its ATAG is that of its place (R247). -/
theorem State.blockRead_of_no_error {s : State} {la : Nat}
    (h : (s.metaAt la).extractLsb' 8 24 = (s.metaOf la 0 false).extractLsb' 8 24) :
    s.blockRead [] la = some (s.lineAt la, s.metaAt la) := by
  have herr : (errAt [] la).err = 0#576 := rfl
  rw [State.blockRead, herr, BitVec.toNat_zero, symbolsOf_zero, rsDecode_replicate_zero, State.decodedRead, decodedBlock_of_no_error h]

/-- From s to t no time passes, and a read of slice j leaves HBM, grid, slots, host ports, and the slice's reads on their way. -/
structure State.Fetched (j : Nat) (s t : State) : Prop where
  now : t.now = s.now
  hbm : t.mem.hbm = s.mem.hbm
  grid : t.grid = s.grid
  slots : t.slots = s.slots
  ports : t.ports = s.ports
  reads : (t.ctl j).reads = (s.ctl j).reads

theorem State.Fetched.trans {j : Nat} {s t u : State} (h : Fetched j s t) (h' : Fetched j t u) : Fetched j s u :=
  ⟨h'.now.trans h.now, h'.hbm.trans h.hbm, h'.grid.trans h.grid, h'.slots.trans h.slots, h'.ports.trans h.ports,
    h'.reads.trans h.reads⟩

theorem State.fetched_setCtl (s : State) (j : Nat) {x : SliceCtl} (h : x.reads = (s.ctl j).reads) : Fetched j s (s.setCtl j x) :=
  ⟨rfl, rfl, rfl, rfl, rfl, by rw [ctl_setCtl_self, h]⟩

theorem State.fetched_ageHeld (s : State) (j : Nat) : Fetched j s (s.ageHeld j) := fetched_setCtl s j rfl

/-- The count of reads that a held copy answered (R259). -/
def State.setMerged (s : State) (m : Nat) : State := { s with mem := { s.mem with merged := m } }

theorem State.fetched_setMerged (s : State) (j m : Nat) : Fetched j s (s.setMerged m) :=
  ⟨rfl, rfl, rfl, rfl, rfl, rfl⟩

theorem State.fetched_hold (s : State) (j la : Nat) (d : Lanes) : Fetched j s (s.hold j la d) := fetched_setCtl s j rfl

/-- What a read of a block leaves: it counts alone (R247, R272). -/
theorem State.readBlock_changes (s : State) (errs : List BlockErr) (la j : Nat) :
    let t := (s.readBlock errs la).2.2
    Fetched j s t ∧ t.mem.merged = s.mem.merged
      ∧ (s.blockRead errs la = none → t.mem.uncorrectable = satAdd 64 s.mem.uncorrectable 1) := by
  intro t
  obtain ⟨-, ecc, hcount⟩ := readBlock_eq s errs la
  obtain ⟨corrected, uncorrectable, hu, hunc⟩ := countRead_eq { s with mem := { s.mem with eccReports := ecc } } la
    (rsDecode (symbolsOf 72 (errAt errs la).err.toNat))
  rw [show t = _ from hcount.trans hu]
  exact ⟨⟨rfl, rfl, rfl, rfl, rfl, rfl⟩, rfl, hunc⟩

/-! The period (R248, R257 to R259). -/

/-- The request of the period that starts now, and the flits taken for it, are done with. -/
def State.periodDone (s : State) (j : Nat) : State :=
  s.setCtl j { s.ctl j with
    reqs := (s.ctl j).reqs.filter (fun r => r.start != s.now), inbound := (s.ctl j).inbound.filter (fun i => i.start != s.now) }

/-- The record of a period served enters the slice's fingerprint (R318). -/
def State.foldServed (s : State) (j kind c : Nat) (r : SliceReq) (d : Lanes) : State :=
  s.setCtl j { s.ctl j with fp := foldPeriod kind r.period c r.block d (s.ctl j).fp }

section
variable (s : State) (j : Nat)

@[simp] theorem State.reqs_periodDone : ((s.periodDone j).ctl j).reqs = (s.ctl j).reqs.filter (fun r => r.start != s.now) := by
  rw [State.periodDone, ctl_setCtl_self]

@[simp] theorem State.reads_periodDone : ((s.periodDone j).ctl j).reads = (s.ctl j).reads := by
  rw [State.periodDone, ctl_setCtl_self]

@[simp] theorem State.reqs_foldServed (kind c : Nat) (r : SliceReq) (d : Lanes) :
    ((s.foldServed j kind c r d).ctl j).reqs = (s.ctl j).reqs := by
  rw [State.foldServed, ctl_setCtl_self]

@[simp] theorem State.reads_foldServed (kind c : Nat) (r : SliceReq) (d : Lanes) :
    ((s.foldServed j kind c r d).ctl j).reads = (s.ctl j).reads := by
  rw [State.foldServed, ctl_setCtl_self]

@[simp] theorem State.reqs_ageHeld : ((s.ageHeld j).ctl j).reqs = (s.ctl j).reqs := by
  rw [State.ageHeld, ctl_setCtl_self]

@[simp] theorem State.inbound_ageHeld : ((s.ageHeld j).ctl j).inbound = (s.ctl j).inbound := by
  rw [State.ageHeld, ctl_setCtl_self]

@[simp] theorem State.reads_ageHeld : ((s.ageHeld j).ctl j).reads = (s.ctl j).reads := by
  rw [State.ageHeld, ctl_setCtl_self]

@[simp] theorem State.reads_hold (la : Nat) (d : Lanes) : ((s.hold j la d).ctl j).reads = (s.ctl j).reads := by
  rw [State.hold, ctl_setCtl_self]

@[simp] theorem State.reads_readOut (p la : Nat) (d : Lanes) (bad : Bool) :
    ((s.readOut j p la d bad).ctl j).reads = (s.ctl j).reads ++ [⟨s.now + 64, p, la, d, bad⟩] := by
  rw [State.readOut, ctl_setCtl_self]

@[simp] theorem State.reqs_writeLine (la wsrc : Nat) (poison : Bool) (data : List Byte) :
    ((s.writeLine la data wsrc poison).ctl j).reqs = (s.ctl j).reqs := by
  obtain ⟨_, _, h⟩ := s.ctl_writeLine la wsrc poison data j
  rw [h]

end

/-- The request accepted for the period that starts now is served (R257). -/
theorem State.slicePeriod_of_request {s : State} {j k c : Nat} {r : SliceReq}
    (hk : s.ownerOfStack (sliceStack j) = some k) (hc : s.lapCycle k = some c)
    (hr : (s.ctl j).reqs.find? (fun r => r.start == s.now) = some r) (errs : List BlockErr) :
    s.slicePeriod j errs = (if r.write then (s.ageHeld j).servePeriodWrite j c r
      else (s.ageHeld j).servePeriodRead j k c r errs).periodDone j := by
  have hreqs : ((s.ageHeld j).ctl j).reqs.find? (fun r => r.start == (s.ageHeld j).now) = some r := by
    rw [reqs_ageHeld]; exact hr
  simp only [State.slicePeriod, hk, hc, hreqs]
  rfl

/-! Scheduled writes (R246, R257). -/

/-- The line of a scheduled write: the four data flits taken for its period. -/
def State.writtenLine (s : State) (j : Nat) (r : SliceReq) : Lanes :=
  let flit := fun q => (s.inboundFlit (s.ctl j) r.period (q + 1)).toNat
  BitVec.ofNat 512 (flit 0 + 2 ^ 128 * flit 1 + 2 ^ 256 * flit 2 + 2 ^ 384 * flit 3)

/-- Four flits packed are their sum, each in its place. -/
theorem packFrom_four (f : Nat → Flit) : packFrom 128 (fun q => (f q).toNat) 4 =
    (f 0).toNat + 2 ^ 128 * (f 1).toNat + 2 ^ 256 * (f 2).toNat + 2 ^ 384 * (f 3).toNat := by
  have hlt : ∀ q, (f q).toNat % 2 ^ 128 = (f q).toNat := fun q => Nat.mod_eq_of_lt (f q).isLt
  rw [Nat.mul_comm (2 ^ 128), Nat.mul_comm (2 ^ 256), Nat.mul_comm (2 ^ 384)]
  simp only [packFrom, hlt, Nat.mul_zero, Nat.pow_zero, Nat.mul_one, Nat.zero_add, Nat.reduceMul]

theorem State.servePeriodWrite_eq (s : State) (j c : Nat) (r : SliceReq) : s.servePeriodWrite j c r =
    (s.writeLine (lineOf j r.period r.block) (lanesBytes (s.writtenLine j r)) 2 false).foldServed j 0x21 c r (s.writtenLine j r) := by
  rw [State.writtenLine, ← packFrom_four (fun q => s.inboundFlit (s.ctl j) r.period (q + 1))]
  rfl

/-- The period of a request to write: the line is written, and the request is done with (R257). -/
theorem State.slicePeriod_of_write {s : State} {j k c : Nat} {r : SliceReq}
    (hk : s.ownerOfStack (sliceStack j) = some k) (hc : s.lapCycle k = some c)
    (hr : (s.ctl j).reqs.find? (fun r => r.start == s.now) = some r) (hw : r.write = true) (errs : List BlockErr) :
    s.slicePeriod j errs = (((s.ageHeld j).writeLine (lineOf j r.period r.block) (lanesBytes (s.writtenLine j r)) 2 false).foldServed
      j 0x21 c r (s.writtenLine j r)).periodDone j := by
  have hline : (s.ageHeld j).writtenLine j r = s.writtenLine j r := by
    simp only [State.writtenLine, State.inboundFlit, inbound_ageHeld]
    rfl
  rw [slicePeriod_of_request hk hc hr, if_pos hw, servePeriodWrite_eq, hline]

/-! Scheduled reads (R245, R257 to R259, R267, R268). -/

/-- The copy of line la that slice j still holds (R259). -/
def State.heldCopy (s : State) (j la : Nat) : Option HeldBlock :=
  ((s.ctl j).held.filter (fun h => s.now ≤ h.at_ + 2048)).find? (fun h => h.bankset == laSet la && h.block == laBlock la)

/-- Of the copies that have not aged out, ageing drops none. -/
theorem State.find_held_ageHeld (s : State) (j la : Nat) :
    (((s.ageHeld j).ageHeld j).ctl j).held.find? (fun h => h.bankset == laSet la && h.block == laBlock la) = s.heldCopy j la := by
  simp only [State.ageHeld, ctl_setCtl_self, setCtl_now, List.filter_filter, State.heldCopy]
  congr 2
  funext h
  exact Bool.and_self _

section
variable {s : State} {j la : Nat} (errs : List BlockErr)

/-- A line that is held is taken from there, counted as merged (R259). -/
theorem State.fetchBlock_of_held {h : HeldBlock} (hh : s.heldCopy j la = some h) :
    (s.ageHeld j).fetchBlock j la errs = 
      (some h.data, (((s.ageHeld j).ageHeld j).setMerged (satAdd 64 s.mem.merged 1)).hold j la h.data) := by
  rw [← find_held_ageHeld] at hh
  simp only [State.fetchBlock, hh]
  rfl

variable (hh : s.heldCopy j la = none)
include hh

/-- One that is not is read, and held (R258, R259). -/
theorem State.fetchBlock_of_read {e : Lanes × BitVec 32} (he : s.blockRead errs la = some e) :
    (s.ageHeld j).fetchBlock j la errs
      = (some e.1, (((s.ageHeld j).ageHeld j).readBlock errs la).2.2.hold j la e.1) := by
  have hfst : (((s.ageHeld j).ageHeld j).readBlock errs la).1 = some e := (readBlock_eq _ errs la).1.trans he
  rw [← find_held_ageHeld] at hh
  simp only [State.fetchBlock, hh, hfst]

/-- One that cannot be corrected is not (R247). -/
theorem State.fetchBlock_of_lost (he : s.blockRead errs la = none) :
    (s.ageHeld j).fetchBlock j la errs = (none, (((s.ageHeld j).ageHeld j).readBlock errs la).2.2) := by
  have hfst : (((s.ageHeld j).ageHeld j).readBlock errs la).1 = none := (readBlock_eq _ errs la).1.trans he
  rw [← find_held_ageHeld] at hh
  simp only [State.fetchBlock, hh, hfst]

end

/-- The data of a read leave, and its period is done with (R257, R318). -/
def State.giveRead (s : State) (j c : Nat) (r : SliceReq) (d : Lanes) (bad : Bool) : State :=
  ((s.readOut j r.period (lineOf j r.period r.block) d bad).foldServed j 0x20 c r d).periodDone j

theorem State.merged_giveRead (s : State) (j c : Nat) (r : SliceReq) (d : Lanes) (bad : Bool) :
    (s.giveRead j c r d bad).mem.merged = s.mem.merged := rfl

theorem State.slots_giveRead (s : State) (j c : Nat) (r : SliceReq) (d : Lanes) (bad : Bool) :
    (s.giveRead j c r d bad).slots = s.slots := rfl

theorem State.merged_hold (s : State) (j la : Nat) (d : Lanes) : (s.hold j la d).mem.merged = s.mem.merged := rfl

/-- From s to t slice j's controller has one more read on its way out, and HBM, grid and host ports stand. -/
structure State.ReadServed (j : Nat) (out : ReadOut) (s t : State) : Prop where
  reads : (t.ctl j).reads = (s.ctl j).reads ++ [out]
  hbm : t.mem.hbm = s.mem.hbm
  grid : t.grid = s.grid
  ports : t.ports = s.ports

theorem State.Fetched.giveRead {s u : State} {j : Nat} (h : Fetched j s u) (c : Nat) (r : SliceReq) (d : Lanes) (bad : Bool) :
    ReadServed j ⟨s.now + 64, r.period, lineOf j r.period r.block, d, bad⟩ s (u.giveRead j c r d bad) where
  reads := by simp [State.giveRead, h.reads, h.now]
  hbm := h.hbm
  grid := h.grid
  ports := h.ports

section
variable {s : State} {j k c : Nat} {r : SliceReq} (hk : s.ownerOfStack (sliceStack j) = some k) (hc : s.lapCycle k = some c)
  (hr : (s.ctl j).reqs.find? (fun r => r.start == s.now) = some r) (hw : r.write = false) (errs : List BlockErr)
include hk hc hr hw

theorem State.slicePeriod_of_fetched {d : Lanes} {u : State}
    (hf : (s.ageHeld j).fetchBlock j (lineOf j r.period r.block) errs = (some d, u)) :
    s.slicePeriod j errs = u.giveRead j c r d false := by
  rw [slicePeriod_of_request hk hc hr, hw, if_neg Bool.false_ne_true, State.servePeriodRead]
  simp only [hf]
  rfl

theorem State.slicePeriod_of_unfetched {u : State}
    (hf : (s.ageHeld j).fetchBlock j (lineOf j r.period r.block) errs = (none, u)) :
    s.slicePeriod j errs = ((u.free 512).2.blockFailed k (lineOf j r.period r.block)).giveRead j c r (u.free 512).1 true := by
  rw [slicePeriod_of_request hk hc hr, hw, if_neg Bool.false_ne_true, State.servePeriodRead]
  simp only [hf]
  rfl

/-- A scheduled read takes the copy that its slice still holds (R259). -/
theorem State.readPeriod_of_held {h : HeldBlock} (hh : s.heldCopy j (lineOf j r.period r.block) = some h) :
    let t := s.slicePeriod j errs
    ReadServed j ⟨s.now + 64, r.period, lineOf j r.period r.block, h.data, false⟩ s t
      ∧ t.slots = s.slots ∧ t.mem.merged = satAdd 64 s.mem.merged 1 := by
  intro t
  rw [show t = _ from slicePeriod_of_fetched hk hc hr hw errs (fetchBlock_of_held errs hh)]
  have haged := (fetched_ageHeld s j).trans (fetched_ageHeld _ j)
  have hheld := (haged.trans (fetched_setMerged _ j (satAdd 64 s.mem.merged 1))).trans
    (fetched_hold _ j (lineOf j r.period r.block) h.data)
  exact ⟨hheld.giveRead c r _ false, (slots_giveRead ..).trans hheld.slots, (merged_giveRead ..).trans (merged_hold ..)⟩

/-- Or it reads its block (R245, R257). -/
theorem State.readPeriod_of_read (hh : s.heldCopy j (lineOf j r.period r.block) = none) {e : Lanes × BitVec 32}
    (he : s.blockRead errs (lineOf j r.period r.block) = some e) :
    let t := s.slicePeriod j errs
    ReadServed j ⟨s.now + 64, r.period, lineOf j r.period r.block, e.1, false⟩ s t
      ∧ t.slots = s.slots ∧ t.mem.merged = s.mem.merged := by
  intro t
  rw [show t = _ from slicePeriod_of_fetched hk hc hr hw errs (fetchBlock_of_read errs hh he)]
  have haged := (fetched_ageHeld s j).trans (fetched_ageHeld _ j)
  obtain ⟨hread, hmerged, -⟩ := readBlock_changes ((s.ageHeld j).ageHeld j) errs (lineOf j r.period r.block) j
  have hheld := (haged.trans hread).trans (fetched_hold _ j (lineOf j r.period r.block) e.1)
  exact ⟨hheld.giveRead c r _ false, (slots_giveRead ..).trans hheld.slots,
    ((merged_giveRead ..).trans (merged_hold ..)).trans hmerged⟩

/-- A block that cannot be corrected gives a free value, counts, and is remembered for its repair (R267, R268). -/
theorem State.readPeriod_of_lost (hh : s.heldCopy j (lineOf j r.period r.block) = none)
    (he : s.blockRead errs (lineOf j r.period r.block) = none) :
    let t := s.slicePeriod j errs
    (∃ d, ReadServed j ⟨s.now + 64, r.period, lineOf j r.period r.block, d, true⟩ s t)
      ∧ t.mem.uncorrectable = satAdd 64 s.mem.uncorrectable 1 ∧ lineOf j r.period r.block ∈ (t.slot k).blocksBad := by
  intro t
  have haged := (fetched_ageHeld s j).trans (fetched_ageHeld _ j)
  obtain ⟨hread, -, hunc⟩ := readBlock_changes ((s.ageHeld j).ageHeld j) errs (lineOf j r.period r.block) j
  have ht := slicePeriod_of_unfetched hk hc hr hw errs (fetchBlock_of_lost errs hh he)
  generalize (((s.ageHeld j).ageHeld j).readBlock errs (lineOf j r.period r.block)).2.2 = u at hread hunc ht
  have hserved := (haged.trans hread).giveRead c r (u.free 512).1 true
  rw [show t = _ from ht]
  refine ⟨⟨_, hserved.reads, hserved.hbm, hserved.grid, hserved.ports⟩, hunc he, ?_⟩
  show _ ∈ (((u.free 512).2.blockFailed k (lineOf j r.period r.block)).slot k).blocksBad
  rw [State.blockFailed, slot_onSlot_self]
  dsimp only
  split
  · next h => exact List.contains_iff_mem.mp h
  · exact List.mem_append_right _ (List.mem_singleton_self _)

end

end Sys2Proof.Machine

/-! The traffic of a slice (R245 to R268). -/
namespace Sys2Proof.Machine
open State

/-! Read data (R257, R267). -/

/-- From s to t only the routers change. -/
def State.RoutersOnly (s t : State) : Prop := ∃ routers, t = { s with grid := { s.grid with routers := routers } }

theorem State.RoutersOnly.refl (s : State) : RoutersOnly s s := ⟨s.grid.routers, rfl⟩

theorem State.RoutersOnly.trans {s t u : State} (h : RoutersOnly s t) (h' : RoutersOnly t u) : RoutersOnly s u := by
  obtain ⟨_, rfl⟩ := h
  obtain ⟨routers, rfl⟩ := h'
  exact ⟨routers, rfl⟩

theorem State.routersOnly_addArrival (s : State) (n : Nat) (a : Arrival) : RoutersOnly s (s.addArrival n a) := ⟨_, rfl⟩

theorem State.RoutersOnly.ite {s t : State} {p : Prop} [Decidable p] (h : RoutersOnly s t) : RoutersOnly s (if p then t else s) := by
  split
  · exact h
  · exact .refl s

theorem State.RoutersOnly.foldl {α : Type} {f : State → α → State} (hf : ∀ s a, RoutersOnly s (f s a)) (l : List α) (s : State) :
    RoutersOnly s (l.foldl f s) := by
  induction l generalizing s with
  | nil => exact .refl s
  | cons a l ih => exact (hf s a).trans (ih _)

/-- The flits of a read that leave are at the edge routers, and nowhere else (R257). -/
theorem State.routersOnly_sendRead (s : State) (j k c : Nat) (r : ReadOut) : RoutersOnly s (s.sendRead j k c r) := by
  unfold State.sendRead
  dsimp only
  split
  · exact .refl s
  · exact .foldl (fun _ _ => .foldl (fun _ _ => .foldl (fun _ _ => .ite (.ite (routersOnly_addArrival ..))) _ _) _ _) _ _

/-- Slice j's controller holds no longer the reads that are ready now. -/
def State.readsGone (s : State) (j : Nat) : State :=
  s.setCtl j { s.ctl j with reads := (s.ctl j).reads.filter (fun r => r.ready != s.now) }

/-- From s to t the reads of slice j that are ready are gone, and of memory, slots and laps nothing else changes. -/
structure State.ReadsLeft (j : Nat) (s t : State) : Prop where
  reads : (t.ctl j).reads = (s.ctl j).reads.filter (fun r => r.ready != s.now)
  hbm : t.mem.hbm = s.mem.hbm
  cores : t.grid.cores = s.grid.cores
  slots : t.slots = s.slots
  now : t.now = s.now

theorem State.readsLeft_readsGone (s : State) (j : Nat) : ReadsLeft j s (s.readsGone j) :=
  ⟨by rw [State.readsGone, ctl_setCtl_self], rfl, rfl, rfl, rfl⟩

theorem State.ReadsLeft.sent {j : Nat} {s t u : State} (h : ReadsLeft j s t) (hu : RoutersOnly t u) : ReadsLeft j s u := by
  obtain ⟨_, rfl⟩ := hu
  exact ⟨h.reads, h.hbm, h.cores, h.slots, h.now⟩

/-- Read data that is ready leaves, and one that could not be corrected faults the lap (R267). -/
theorem State.dataReady_of_read {s : State} {j k : Nat} {r : ReadOut} (hk : s.ownerOfStack (sliceStack j) = some k)
    (hr : (s.ctl j).reads.find? (fun r => r.ready == s.now) = some r) :
    ∃ t, ReadsLeft j s t ∧ s.dataReady j = if r.bad then t.raiseNow k (0x8000 + j) 0x40 else t := by
  cases hc : s.lapCycle k with
  | none =>
    refine ⟨_, readsLeft_readsGone s j, ?_⟩
    simp only [State.dataReady, hk, hr, hc]
    rfl
  | some c =>
    refine ⟨_, (readsLeft_readsGone s j).sent (routersOnly_sendRead _ j k c r), ?_⟩
    simp only [State.dataReady, hk, hr, hc]
    rfl

/-- Whether a lap goes on, and in which of its cycles a fault falls, are of the slots and the time alone. -/
theorem State.lap_of_slots {s t : State} (hs : t.slots = s.slots) (hn : t.now = s.now) (k : Nat) :
    t.lapGoing k = s.lapGoing k ∧ t.faultCycle k = s.faultCycle k := by
  have hslot : t.slot k = s.slot k := congrArg (Table.get Slot.fresh k) hs
  have hstart : t.lapStart k = s.lapStart k := by rw [State.lapStart, hslot]; rfl
  have hlen : t.lapLen k = s.lapLen k := by rw [State.lapLen, hslot]; rfl
  rw [State.lapGoing, State.faultCycle, hstart, hlen, hn]
  exact ⟨rfl, rfl⟩

/-- A fault raised in a state whose slots and time are those of s. -/
theorem State.raiseNow_like {s t : State} {k : Nat} (hs : t.slots = s.slots) (hn : t.now = s.now) (hg : s.lapGoing k = true)
    (core code : Nat) : (∃ slots, t.raiseNow k core code = { t with slots := slots })
      ∧ ((t.raiseNow k core code).slot k).faults = (s.slot k).faults ++ [⟨core, code, s.faultCycle k, 0⟩] := by
  obtain ⟨hgt, hct⟩ := lap_of_slots hs hn k
  obtain ⟨hrest, -, hfaults, -⟩ := raiseNow_of_going (hgt.trans hg) core code
  rw [hct] at hfaults
  refine ⟨hrest, hfaults.trans ?_⟩
  rw [State.slot, hs]
  rfl

/-! The obligation. -/

/-- A request flit, by what it asks for (R254, R257, R267). -/
theorem State.memoryRequest_cases {s : State} {j k p : Nat} {i : InFlit} (hk : s.ownerOfStack (sliceStack j) = some k)
    (hg : s.lapGoing k = true)
    (hi : (s.ctl j).inbound.find? (fun i => i.role == 0 && i.period == p && i.at_ == s.now) = some i) :
    ∃ reqs, s.TookRequest (s.memoryRequest j p) j
        ((s.ctl j).inbound.filter (fun i => !(i.role == 0 && i.period == p && i.at_ == s.now))) reqs
      ∧ (reqOp i.flit = 0 → (s.memoryRequest j p).slots = s.slots ∧ reqs = (s.ctl j).reqs)
      ∧ (reqOp i.flit = 1 ∨ reqOp i.flit = 2 →
        (reqSlice i.flit = j → reqPeriod i.flit = p → reqNowr i.flit = false → (s.memoryRequest j p).slots = s.slots
          ∧ reqs = (s.ctl j).reqs ++ [⟨i.start, p, decide (reqOp i.flit = 2), reqBlock i.flit⟩])
        ∧ (reqSlice i.flit ≠ j ∨ reqPeriod i.flit ≠ p → reqs = (s.ctl j).reqs
          ∧ ((s.memoryRequest j p).slot k).faults = (s.slot k).faults ++ [⟨0x8000 + j, 0x42, s.faultCycle k, 0⟩])
        ∧ (reqSlice i.flit = j → reqPeriod i.flit = p → reqNowr i.flit = true → reqs = (s.ctl j).reqs
          ∧ ((s.memoryRequest j p).slot k).faults = (s.slot k).faults ++ [⟨0x8000 + j, 0x43, s.faultCycle k, 0⟩])) := by
  have htook := tookRequest_takingRequest s j p
  have hgt : (s.takingRequest j p).lapGoing k = true := (lap_of_slots (s := s) rfl rfl k).1.trans hg
  have hraised := fun code => raiseNow_like (s := s) (t := s.takingRequest j p) rfl rfl hg (0x8000 + j) code
  have hfault : ∀ code, (s.takingRequest j p).sliceFault j code = (s.takingRequest j p).raiseNow k (0x8000 + j) code :=
    sliceFault_of_owned (s := s.takingRequest j p) hk
  by_cases ho : reqOp i.flit = 0 ∨ reqOp i.flit = 3
  · rw [memoryRequest_of_none hi ho]
    exact ⟨_, htook, fun _ => ⟨rfl, rfl⟩, fun h => by omega⟩
  by_cases hm : reqSlice i.flit ≠ j ∨ reqPeriod i.flit ≠ p
  · rw [memoryRequest_of_misrouted hi ho hm, hfault]
    exact ⟨_, htook.raiseNow hgt _ _, fun h => absurd (Or.inl h) ho, fun _ => ⟨fun h h' => by omega,
      fun _ => ⟨rfl, (hraised 0x42).2⟩, fun h h' => by omega⟩⟩
  cases hw : reqNowr i.flit with
  | true =>
    rw [memoryRequest_of_readonly hi ho hm hw, hfault]
    exact ⟨_, htook.raiseNow hgt _ _, fun h => absurd (Or.inl h) ho, fun _ => ⟨fun _ _ h => (nomatch h), fun h => absurd h hm,
      fun _ _ _ => ⟨rfl, (hraised 0x43).2⟩⟩⟩
  | false =>
    rw [memoryRequest_of_accepted hi ho hm hw]
    exact ⟨_, htook.accepting _, fun h => absurd (Or.inl h) ho, fun _ => ⟨fun _ _ _ => ⟨rfl, rfl⟩, fun h => absurd h hm,
      fun _ _ h => nomatch h⟩⟩

/-- A flit kept for its period leaves HBM, the grid and the laps. -/
theorem State.takeEdge_stands (s : State) (j c : Nat) (e : BitVec 16) (f : Flit) : (s.takeEdge j c e f).mem.hbm = s.mem.hbm
    ∧ (s.takeEdge j c e f).grid = s.grid ∧ (s.takeEdge j c e f).slots = s.slots ∧ (s.takeEdge j c e f).now = s.now :=
  ⟨rfl, rfl, rfl, rfl⟩

/-- The edge transfer that its table assigns, by what its code makes of it (R201, R256, R257, R267). -/
theorem State.edgeTransfer_cases {s : State} {st l u : Nat} {err : BitVec 160} (hs : s.stackLive st = true) {k c : Nat}
    {tb : EdgeTable} (hr : s.edgeReserved u = false) (hk : s.ownerOfStack st = some k) (hc : s.lapCycle k = some c)
    (ht : s.edgeTable k st = some tb) (hv : edgeValid (edgeEntry tb c l u 0) = true) (hb : ¬ (u = 1 ∧ c % 8 = 5)) :
    let e := edgeEntry tb c l u 0
    let j := 30 * st + edgeSlice e
    ∃ t f, s.edgeTransfer st l u err = t
      ∧ (t.ctl j).inbound = (s.ctl j).inbound ++ [⟨s.now, s.now + (periodStart c (edgePeriod e) - c), edgePeriod e, edgeRole e, f⟩]
      ∧ (∀ q, q ≠ j → t.ctl q = s.ctl q) ∧ t.mem.hbm = s.mem.hbm ∧ t.grid.cores = s.grid.cores
      ∧ (∀ x, rsDecode (errSymbols err) = .clean x → f = s.edgeFlit st l u ^^^ residualFlit x ∧ t.slots = s.slots ∧ t.grid = s.grid)
      ∧ (∀ x, rsDecode (errSymbols err) = .corrected x → f = s.edgeFlit st l u ^^^ residualFlit x ∧ t.slots = s.slots
        ∧ t.grid.linkCorrected = satAdd 64 s.grid.linkCorrected 1)
      ∧ (rsDecode (errSymbols err) = .failed → t.grid.linkUncorrectable = satAdd 64 s.grid.linkUncorrectable 1
        ∧ (t.slot k).faults = (s.slot k).faults ++ [⟨0x8000 + j, 0x41, s.faultCycle k, 0⟩]) := by
  intro e j
  have heq := edgeTransfer_of_assigned (err := err) hs hr hk hc ht hv hb
  cases hd : rsDecode (errSymbols err) with
  | clean x =>
    rw [hd] at heq
    obtain ⟨hin, hothers⟩ := takeEdge_changes s j c e (s.edgeFlit st l u ^^^ residualFlit x)
    exact ⟨_, _, heq, hin, hothers, rfl, rfl, fun y hy => by cases hy; exact ⟨rfl, rfl, rfl⟩, fun _ h => (nomatch h), fun h => (nomatch h)⟩
  | corrected x =>
    rw [hd] at heq
    obtain ⟨hin, hothers⟩ := takeEdge_changes s.countCorrected j c e (s.edgeFlit st l u ^^^ residualFlit x)
    exact ⟨_, _, heq, hin, hothers, rfl, rfl, fun _ h => (nomatch h), fun y hy => by cases hy; exact ⟨rfl, rfl, rfl⟩, fun h => (nomatch h)⟩
  | failed =>
    rw [hd] at heq
    obtain ⟨hin, hothers⟩ := takeEdge_changes s.linkFailed j c e (s.free 128).1
    obtain ⟨hhbm, hgrid, hslots, hnow⟩ := takeEdge_stands s.linkFailed j c e (s.free 128).1
    obtain ⟨⟨slots, hrest⟩, hfaults⟩ := raiseNow_like (s := s) hslots hnow (lapGoing_of_lapCycle hc) (0x8000 + j) 0x41
    refine ⟨_, (s.free 128).1, heq, ?_, ?_, ?_, ?_, fun _ h => (nomatch h), fun _ h => (nomatch h), fun _ => ⟨?_, hfaults⟩⟩
    all_goals dsimp only; rw [hrest]
    · exact hin
    · exact hothers
    · exact hhbm
    · exact (congrArg Grid.cores hgrid :)
    · exact (congrArg Grid.linkUncorrectable hgrid :)

/-- The period of a request to write, as its line and its controller see it (R246, R257). -/
theorem State.slicePeriod_write_changes {s : State} {j k c : Nat} {r : SliceReq} (hk : s.ownerOfStack (sliceStack j) = some k)
    (hc : s.lapCycle k = some c) (hr : (s.ctl j).reqs.find? (fun r => r.start == s.now) = some r) (hw : r.write = true)
    (errs : List BlockErr) :
    let t := s.slicePeriod j errs
    let la := lineOf j r.period r.block
    (∀ i < 64, t.mem.hbm.read (64 * s.placeOf la + i) = (s.writtenLine j r).extractLsb' (8 * i) 8)
      ∧ (∀ a, a < 64 * s.placeOf la ∨ 64 * s.placeOf la + 64 ≤ a → t.mem.hbm.read a = s.mem.hbm.read a)
      ∧ t.metaAt la = s.metaOf la 2 false
      ∧ (t.ctl j).reqs = (s.ctl j).reqs.filter (fun r => r.start != s.now)
      ∧ t.grid = s.grid ∧ t.slots = s.slots ∧ t.ports = s.ports := by
  intro t la
  rw [show t = _ from slicePeriod_of_write hk hc hr hw errs]
  refine ⟨fun i hi => ?_, fun a ha => ?_, ?_, ?_, rfl, rfl, rfl⟩
  · exact read_writeLine_in (s.ageHeld j) la 2 (s.writtenLine j r) false hi
  · exact read_writeLine_out (s.ageHeld j) la 2 false (lanesBytes (s.writtenLine j r)) ha
  · exact metaAt_writeLine (s.ageHeld j) la 2 false (lanesBytes (s.writtenLine j r))
  · rw [reqs_periodDone, reqs_foldServed, reqs_writeLine, reqs_ageHeld]
    rfl

/-- The period of a request to read, by where its data are found (R245, R257 to R259, R267, R268). -/
theorem State.slicePeriod_read_cases {s : State} {j k c : Nat} {r : SliceReq} (hk : s.ownerOfStack (sliceStack j) = some k)
    (hc : s.lapCycle k = some c) (hr : (s.ctl j).reqs.find? (fun r => r.start == s.now) = some r) (hw : r.write = false)
    (errs : List BlockErr) :
    let la := lineOf j r.period r.block
    let t := s.slicePeriod j errs
    ∃ d, ReadServed j ⟨s.now + 64, r.period, la, d, decide (s.heldCopy j la = none ∧ (s.readBlock errs la).1 = none)⟩ s t
      ∧ (∀ h, s.heldCopy j la = some h → d = h.data ∧ t.slots = s.slots ∧ t.mem.merged = satAdd 64 s.mem.merged 1)
      ∧ (∀ e, s.heldCopy j la = none → (s.readBlock errs la).1 = some e → d = e.1 ∧ t.slots = s.slots ∧ t.mem.merged = s.mem.merged)
      ∧ (s.heldCopy j la = none → (s.readBlock errs la).1 = none → t.mem.uncorrectable = satAdd 64 s.mem.uncorrectable 1
        ∧ la ∈ (t.slot k).blocksBad) := by
  intro la t
  rw [(readBlock_eq s errs la).1]
  cases hh : s.heldCopy j la with
  | some h =>
    obtain ⟨hserved, hslots, hmerged⟩ := readPeriod_of_held hk hc hr hw errs hh
    refine ⟨h.data, by simpa using hserved, fun h' e => ?_, fun _ e => (nomatch e), fun e => (nomatch e)⟩
    cases e
    exact ⟨rfl, hslots, hmerged⟩
  | none =>
    cases he : s.blockRead errs la with
    | some e =>
      obtain ⟨hserved, hslots, hmerged⟩ := readPeriod_of_read hk hc hr hw errs hh he
      refine ⟨e.1, by simpa using hserved, fun _ e => (nomatch e), fun e' _ h => ?_, fun _ e => (nomatch e)⟩
      cases h
      exact ⟨rfl, hslots, hmerged⟩
    | none =>
      obtain ⟨⟨d, hserved⟩, hunc⟩ := readPeriod_of_lost hk hc hr hw errs hh he
      exact ⟨d, by simpa using hserved, fun _ e => (nomatch e), fun _ _ e => (nomatch e), fun _ _ => hunc⟩

/-- Settles O17: each kind of traffic by its cases, a read through what its fetch leaves of the state. -/
theorem sliceTraffic : Obligations.SliceTraffic := by
  unfold Obligations.SliceTraffic
  refine ⟨fun s j p => ⟨fun hdead => ?_, fun k i hlive hk _ hg hi => ?_⟩, fun s st l u err hlive => ⟨fun hres => ?_,
    fun k c tb hres hk _ hc ht => ⟨fun hv => ?_, fun hv hb => ?_⟩⟩, fun s j k c errs r hlive hk hc hr hw => ?_,
    fun s j k c errs r hlive hk _ hc hr hw => ?_, fun s j k r hlive hk _ hg hr => ?_⟩
  · exact congrArg Host.Outcome.next (if_neg (by simp [hdead]))
  · obtain ⟨reqs, htook, hnone, hop⟩ := memoryRequest_cases hk hg hi
    obtain ⟨hinb, hreqs, hothers, hhbm, hcores⟩ := htook
    subst hreqs
    exact ⟨_, congrArg Host.Outcome.next (if_pos hlive), hinb, hothers, hhbm, hcores, hnone, hop⟩
  · obtain ⟨slots, corrected, heq⟩ := edgeTransfer_of_reserved (l := l) (err := err) hlive hres
    exact ⟨_, congrArg Host.Outcome.next heq, rfl, rfl, rfl, rfl⟩
  · exact congrArg Host.Outcome.next (edgeTransfer_of_unassigned hlive hres hk hc ht hv)
  · obtain ⟨t, f, heq, hrest⟩ := edgeTransfer_cases (err := err) hlive hres hk hc ht hv hb
    exact ⟨t, f, congrArg Host.Outcome.next heq, hrest⟩
  · exact ⟨_, congrArg Host.Outcome.next (if_pos hlive), slicePeriod_write_changes hk hc hr hw errs⟩
  · obtain ⟨d, ⟨hreads, hhbm, hgrid, hports⟩, hheld, hread, hlost⟩ := slicePeriod_read_cases hk hc hr hw errs
    refine ⟨_, d, congrArg Host.Outcome.next (if_pos hlive), hreads, hhbm, hgrid, hports, hheld, hread, fun hcopy herrs htag => ?_, hlost⟩
    subst herrs
    exact (hread _ hcopy ((readBlock_eq s [] _).1.trans (blockRead_of_no_error htag))).1
  · obtain ⟨t, ⟨hreads, hhbm, hcores, hslots, hnow⟩, heq⟩ := dataReady_of_read hk hr
    refine ⟨_, congrArg Host.Outcome.next ((if_pos hlive).trans heq), ?_⟩
    cases r.bad with
    | false => exact ⟨hreads, hhbm, hcores, fun _ => hslots, fun h => (nomatch h)⟩
    | true =>
      obtain ⟨⟨slots, hrest⟩, hfaults⟩ := raiseNow_like hslots hnow hg (0x8000 + j) 0x40
      rw [if_pos rfl]
      refine ⟨?_, ?_, ?_, fun h => (nomatch h), fun _ => hfaults⟩
      all_goals rw [hrest]
      · exact hreads
      · exact hhbm
      · exact hcores

end Sys2Proof.Machine

/-! What the ports raise, and how one changes its state (R410, R482, R507). -/
namespace Sys2Proof.Machine
open State

/-! Faults of a port (R410). -/

/-- What of a slot says where its lap stands. -/
def Slot.lap (x : Slot) : LapStage × CourseInfo := (x.stage, x.info)

/-- From s to t free values are taken and faults are raised: every lap goes on, and no fault is forgotten. -/
structure State.Raised (s t : State) : Prop where
  rest : ∃ fresh slots, t = { s with fresh := fresh, slots := slots }
  lap : ∀ k, (t.slot k).lap = (s.slot k).lap
  faults : ∀ k, ∀ r ∈ (s.slot k).faults, r ∈ (t.slot k).faults
  drive : ∀ k, (s.slot k).faultDrive.isSome = true → (t.slot k).faultDrive.isSome = true

theorem State.Raised.refl (s : State) : Raised s s := ⟨⟨s.fresh, s.slots, rfl⟩, fun _ => rfl, fun _ _ h => h, fun _ h => h⟩

theorem State.Raised.trans {s t u : State} (h : Raised s t) (h' : Raised t u) : Raised s u := by
  obtain ⟨_, _, e⟩ := h.rest
  obtain ⟨fresh, slots, e'⟩ := h'.rest
  exact ⟨⟨fresh, slots, by rw [e', e]⟩, fun k => (h'.lap k).trans (h.lap k), fun k r hr => h'.faults k r (h.faults k r hr),
    fun k hk => h'.drive k (h.drive k hk)⟩

theorem State.raised_free (s : State) (w : Nat) : Raised s (s.free w).2 := ⟨⟨_, s.slots, rfl⟩, fun _ => rfl, fun _ _ h => h, fun _ h => h⟩

/-- A fault moves no lap. -/
theorem State.onlySlot_raiseNow (s : State) (k core code : Nat) : OnlySlot k Slot.lap s (s.raiseNow k core code) := by
  unfold State.raiseNow State.raise State.enterFirst
  split
  · refine ((OnlySlot.onSlot (s := s) rfl).trans (.onSlot rfl)).trans (.onSlot ?_)
    simp only [Slot.lap, apply_ite Slot.stage, apply_ite Slot.info, ite_self]
  · exact .refl s

theorem State.raised_raiseNow {s : State} {k : Nat} (hg : s.lapGoing k = true) (core code : Nat) :
    Raised s (s.raiseNow k core code) := by
  obtain ⟨⟨slots, e⟩, hothers, hfaults, hdrive⟩ := raiseNow_of_going hg core code
  have hlap := (s.onlySlot_raiseNow k core code).kept
  refine ⟨⟨s.fresh, slots, e⟩, fun j => ?_, fun j r hr => ?_, fun j h => ?_⟩
  all_goals rcases eq_or_ne j k with rfl | hj
  · exact hlap
  · rw [hothers j hj]
  · rw [hfaults]; exact List.mem_append_left _ hr
  · rw [hothers j hj]; exact hr
  · exact hdrive
  · rw [hothers j hj]; exact h

section
variable {s : State} {p k c : Nat}

theorem State.lapCycle_of_portLap (h : s.portLap p = some (k, c)) : s.lapCycle k = some c := by
  unfold State.portLap at h
  dsimp only at h
  split at h
  · obtain ⟨c', hc, e⟩ := Option.map_eq_some_iff.mp h
    obtain ⟨rfl, rfl⟩ := Prod.mk.inj e
    exact hc
  · cases h

theorem State.portFault_of_lap (h : s.portLap p = some (k, c)) (hv : bitOf s.grid.coverPorts p = 0) (code : Nat) :
    s.portFault p code = s.raiseNow k (0xA000 + p) code := by
  simp [State.portFault, h, hv]

/-- A port that no lap uses raises nothing. -/
theorem State.portFault_of_none (h : s.portLap p = none) (code : Nat) : s.portFault p code = s := by
  simp only [State.portFault, h]

end

theorem State.raised_portFault (s : State) (p code : Nat) : Raised s (s.portFault p code) := by
  unfold State.portFault
  split
  · next k c h =>
    split
    · exact .refl s
    · exact raised_raiseNow (lapGoing_of_lapCycle (lapCycle_of_portLap h)) _ _
  · exact .refl s

/-- The fault of a port in a lap is one of its attempt's, and FAULT is driven (R410). -/
theorem State.portFault_kept {s : State} {p k c : Nat} (h : s.portLap p = some (k, c)) (hv : bitOf s.grid.coverPorts p = 0)
    (code : Nat) : (⟨0xA000 + p, code, s.faultCycle k, 0⟩ : FaultRec) ∈ ((s.portFault p code).slot k).faults
      ∧ ((s.portFault p code).slot k).faultDrive.isSome = true := by
  obtain ⟨-, -, hfaults, hdrive⟩ := raiseNow_of_going (lapGoing_of_lapCycle (lapCycle_of_portLap h)) (0xA000 + p) code
  rw [portFault_of_lap h hv, hfaults]
  exact ⟨List.mem_append_right _ (List.mem_singleton_self _), hdrive⟩

/-- Where the laps stand decides the cycle of each, and that in which a fault falls. -/
theorem State.lap_congr {s t : State} {k : Nat} (hl : (t.slot k).lap = (s.slot k).lap) (hn : t.now = s.now) :
    t.lapCycle k = s.lapCycle k ∧ t.faultCycle k = s.faultCycle k := by
  obtain ⟨hs, hi⟩ := Prod.mk.inj hl
  have hstart : t.lapStart k = s.lapStart k := by rw [State.lapStart, hs]; rfl
  have hlen : t.lapLen k = s.lapLen k := by rw [State.lapLen, hi]; rfl
  constructor
  · rw [State.lapCycle, hs, hlen, hn]; rfl
  · rw [State.faultCycle, hstart, hlen, hn]; rfl

theorem State.portLap_congr {s t : State} {p : Nat} (hu : (t.lport p).usedBy = (s.lport p).usedBy) (hn : t.now = s.now)
    (hl : ∀ k, (t.slot k).lap = (s.slot k).lap) : t.portLap p = s.portLap p := by
  unfold State.portLap
  dsimp only
  rw [hu, (lap_congr (hl _) hn).1]

theorem State.Raised.now {s t : State} (h : Raised s t) : t.now = s.now := by
  obtain ⟨_, _, e⟩ := h.rest; rw [e]

theorem State.Raised.grid {s t : State} (h : Raised s t) : t.grid = s.grid := by
  obtain ⟨_, _, e⟩ := h.rest; rw [e]

theorem State.Raised.mem {s t : State} (h : Raised s t) : t.mem = s.mem := by
  obtain ⟨_, _, e⟩ := h.rest; rw [e]

theorem State.Raised.link {s t : State} (h : Raised s t) : t.link = s.link := by
  obtain ⟨_, _, e⟩ := h.rest; rw [e]

theorem State.Raised.lport {s t : State} (h : Raised s t) (q : Nat) : t.lport q = s.lport q := by
  rw [State.lport, h.link]
  rfl

theorem State.Raised.portLap {s t : State} (h : Raised s t) (p : Nat) : t.portLap p = s.portLap p :=
  portLap_congr (congrArg LecelPort.usedBy (h.lport p)) h.now h.lap

/-! The state of a port (R482). -/

/-- From s to t port p has become x; of the rest only the sources, their pins and the log have changed. -/
structure State.PortBecame (p : Nat) (x : LecelPort) (s t : State) : Prop where
  self : t.lport p = x
  others : ∀ q, q ≠ p → t.lport q = s.lport q
  rest : ∃ lports ports irq pins log, t =
    { s with link := { s.link with ports := lports }, ports := ports, irq := irq, pins := pins, log := log }

namespace State.PortBecame
variable {p : Nat} {x y : LecelPort} {s t u : State}

theorem setLport (s : State) (p : Nat) (x : LecelPort) : PortBecame p x s (s.setLport p x) :=
  ⟨lport_setLport_self .., fun _ hq => lport_setLport_ne _ hq _, _, _, _, _, _, rfl⟩

theorem onLport (s : State) (p : Nat) (f : LecelPort → LecelPort) : PortBecame p (f (s.lport p)) s (s.onLport p f) := setLport ..

theorem trans (h : PortBecame p x s t) (h' : PortBecame p y t u) : PortBecame p y s u := by
  obtain ⟨_, _, _, _, _, e⟩ := h.rest
  obtain ⟨lports, ports, irq, pins, log, e'⟩ := h'.rest
  exact ⟨h'.self, fun q hq => (h'.others q hq).trans (h.others q hq), lports, ports, irq, pins, log, by rw [e', e]⟩

/-- A source that fires is none of the port's. -/
theorem fire (h : PortBecame p x s t) (n : Nat) : PortBecame p x s (t.fire n) := by
  obtain ⟨ports, irq, pins, log, e⟩ := t.fire_eq n
  obtain ⟨lports, _, _, _, _, e'⟩ := h.rest
  rw [e]
  exact ⟨h.self, h.others, lports, ports, irq, pins, log, by rw [e']⟩

theorem now (h : PortBecame p x s t) : t.now = s.now := by obtain ⟨_, _, _, _, _, e⟩ := h.rest; rw [e]
theorem grid (h : PortBecame p x s t) : t.grid = s.grid := by obtain ⟨_, _, _, _, _, e⟩ := h.rest; rw [e]
theorem mem (h : PortBecame p x s t) : t.mem = s.mem := by obtain ⟨_, _, _, _, _, e⟩ := h.rest; rw [e]
theorem slots (h : PortBecame p x s t) : t.slots = s.slots := by obtain ⟨_, _, _, _, _, e⟩ := h.rest; rw [e]
theorem slot (h : PortBecame p x s t) (k : Nat) : t.slot k = s.slot k := congrArg (Table.get Slot.fresh k) h.slots
theorem link (h : PortBecame p x s t) : ∃ lports, t.link = { s.link with ports := lports } := by
  obtain ⟨lports, _, _, _, _, e⟩ := h.rest
  exact ⟨lports, by rw [e]⟩

end State.PortBecame

/-- PORT_STATE of port p becomes st (R482). -/
theorem State.portBecame_portState (s : State) (p st : Nat) :
    PortBecame p { s.lport p with st := st } s (s.portState p st) := by
  unfold State.portState
  split
  · next h =>
    rw [← eq_of_beq h]
    exact ⟨rfl, fun _ _ => rfl, _, _, _, _, _, rfl⟩
  · exact (PortBecame.onLport s p fun x => { x with st := st }).fire _

/-! A port that leaves UP (R410, R507). -/

/-- Port x with what it was doing dropped. -/
def LecelPort.left (x : LecelPort) : LecelPort :=
  { x with
    released := none, inOrder := 0, joinWait := none, late := false, probeTa := none, tx := none, due := [], fwd := []
    rxUrgent := [], rxNormal := [], freeU := 0, freeN := 0, authRun := 0, peerState := 0
    rxHeld := [], sentU := [], sentN := [], ebufFixed := false
    transomLost := satAdd 32 x.transomLost x.inPart }

/-- Port x with its settings taken as written (R545, R547, R586). -/
def LecelPort.taking (x : LecelPort) (key : List Byte) : LecelPort := { x with pmdLive := x.pmd, cryptLive := x.crypt, key := key }

/-- From s to t port p has left for state st: it trains anew, the other ports and memory stand, and no fault is forgotten. -/
structure State.PortLeft (p st : Nat) (s t : State) : Prop where
  self : ∃ key, t.lport p = { (s.lport p).left.taking key with st := st }
  others : ∀ q, q ≠ p → t.lport q = s.lport q
  mem : t.mem = s.mem
  faults : ∀ k, ∀ r ∈ (s.slot k).faults, r ∈ (t.slot k).faults

/-- A port begins to train: its settings are taken, and the cipher block's keys alone change beside them (R544, R545). -/
theorem State.takeSettings_changes (s : State) (p : Nat) : (∃ key, (s.takeSettings p).lport p = (s.lport p).taking key)
    ∧ (∀ q, q ≠ p → (s.takeSettings p).lport q = s.lport q)
    ∧ (s.takeSettings p).mem = s.mem ∧ (s.takeSettings p).slots = s.slots :=
  ⟨⟨_, lport_onLport_self s p fun x => x.taking (if x.crypt == 1 then s.lecelKey p else [])⟩,
    fun _ hq => lport_onLport_ne s hq fun x => x.taking (if x.crypt == 1 then s.lecelKey p else []), rfl, rfl⟩

theorem State.portLeft_portLeave (s : State) (p st : Nat) : PortLeft p st s (s.portLeave p st) := by
  unfold State.portLeave
  extract_lets x up u l v w
  obtain ⟨⟨key, hself⟩, hothers, hmem, hslots⟩ := v.takeSettings_changes p
  have hstate := portBecame_portState (v.takeSettings p) p st
  have hv : v.lport p = (s.lport p).left := lport_setLport_self ..
  have hw : PortLeft p st s w := by
    refine ⟨⟨key, hstate.self.trans ?_⟩, fun q hq => ?_, hstate.mem.trans hmem, fun k r hr => ?_⟩
    · rw [hself, hv]
    · rw [hstate.others q hq, hothers q hq]
      exact lport_setLport_ne s hq _
    · rw [hstate.slot, State.slot, hslots]
      exact hr
  split
  · have hr := raised_portFault w p 0x52
    obtain ⟨⟨key, hself⟩, hothers, hmem, hfaults⟩ := hw
    exact ⟨⟨key, (hr.lport p).trans hself⟩, fun q hq => (hr.lport q).trans (hothers q hq), hr.mem.trans hmem,
      fun k r h => hr.faults k r (hfaults k r h)⟩
  · exact hw

end Sys2Proof.Machine

/-! The capture of a frame (R227, R405 to R408, R410, R415). -/
namespace Sys2Proof.Machine
open State

/-! The slots of a frame (R406, R408). -/

/-- A put lists no other key. -/
theorem Table.has_put_ne {α : Type} {k j : Nat} (h : j ≠ k) (v : α) (t : Table α) : Table.has j (Table.put k v t) = Table.has j t := by
  have h' : ¬ k = j := fun e => h e.symm
  induction t with
  | nil => simp [Table.put, Table.has, h']
  | cons c t ih =>
    obtain ⟨k', w⟩ := c
    simp only [Table.put]
    split
    · simp_all [Table.has]
    · split <;> simp_all [Table.has]

/-- The flits that e names for the slots of a list, put into a frame's slots. -/
def Table.putFlits (e : Nat → Option Flit) (l : List Nat) (t : Table Flit) : Table Flit :=
  l.foldl (fun t n => match e n with | none => t | some f => Table.put n f t) t

theorem Table.get_putFlits_out {e : Nat → Option Flit} {n : Nat} (l : List Nat) (t : Table Flit) (h : n ∉ l) :
    Table.get 0 n (Table.putFlits e l t) = Table.get 0 n t := by
  induction l generalizing t with
  | nil => rfl
  | cons m l ih =>
    obtain ⟨hm, hl⟩ := not_or.mp (mt List.mem_cons.mpr h)
    rw [Table.putFlits, List.foldl_cons, ← Table.putFlits, ih _ hl]
    split
    · rfl
    · exact Sys2Proof.Table.get_put_ne _ hm ..

/-- A slot with a flit takes it. -/
theorem Table.get_putFlits {e : Nat → Option Flit} {n : Nat} {f : Flit} (he : e n = some f) (l : List Nat) (t : Table Flit)
    (h : n ∈ l) : Table.get 0 n (Table.putFlits e l t) = f := by
  induction l generalizing t with
  | nil => cases h
  | cons m l ih =>
    by_cases hl : n ∈ l
    · exact ih _ hl
    · obtain rfl : n = m := (List.mem_cons.mp h).resolve_right hl
      rw [Table.putFlits, List.foldl_cons, ← Table.putFlits, Table.get_putFlits_out l _ hl, he]
      exact Sys2Proof.Table.get_put_self ..

/-- A slot without one is as it was. -/
theorem Table.has_putFlits {e : Nat → Option Flit} {n : Nat} (he : e n = none) (l : List Nat) (t : Table Flit) :
    Table.has n (Table.putFlits e l t) = Table.has n t := by
  induction l generalizing t with
  | nil => rfl
  | cons m l ih =>
    rw [Table.putFlits, List.foldl_cons, ← Table.putFlits, ih]
    split
    · rfl
    · next f hf => exact Table.has_put_ne (fun h => nomatch (h ▸ he).symm.trans hf) ..

/-! The capture of a frame (R405 to R408, R415). -/

/-- The slots that a frame has, 1 to 38. -/
def slotNumbers : List Nat := (List.range 38).map (fun n => n + 1)

theorem mem_slotNumbers {n : Nat} : n ∈ slotNumbers ↔ 1 ≤ n ∧ n ≤ 38 := by
  simp only [slotNumbers, List.mem_map, List.mem_range]
  exact ⟨fun ⟨i, hi, e⟩ => by omega, fun h => ⟨n - 1, by omega, by omega⟩⟩

/-- The transom transfer of port p's next frame, if the port may send in state s, out of state u, and the state after it. -/
def State.transomOut (s u : State) (p : Nat) : BitVec 128 × State := if s.canSend p then u.sendFlit p else (0, u)

/-- The frame that state s captures for Lecel frame j with these slots leaves port p of state u. -/
def State.sendsFrame (s u : State) (p j : Nat) (slots : Table Flit) : State :=
  let g := s.transomOut u p
  let frame := (s.frameCount + 16) / 256
  let f := lecelBits j frame (s.txHeader p) slots g.1
  g.2.onLport p (fun x => { x with
    tx := some ⟨j, frame, s.now, s.txHeader p, slots, g.1, if x.cryptLive = 1 then sealFrame x.key frame j f else f⟩
    fwd := [] })

section
variable {s : State} {p j : Nat} (hp : p < 4) (hj : j < 50) (hon : s.isOn (30 + p) = true)
  (hpads : (s.domain (30 + p)).padsHeld = false) (hcc : (s.frameCount + 16) % 256 = lecelStart j) (bad : BitVec 38)
include hp hj hon hpads hcc

/-- A port that is not UP sends no scheduled slot (R405). -/
theorem State.capture_of_not_up (hst : (s.lport p).st ≠ 2) : s.capture p j bad = s.sendsFrame s p j [] := by
  have hup : ((s.lport p).st == 2) = false := by simpa using hst
  have hcc' : ((s.frameCount + 16) % 256 != lecelStart j) = false := by simp [hcc]
  simp only [State.capture, hon, hpads, hcc', hup, Nat.not_le.mpr hp, Nat.not_le.mpr hj, decide_false, Bool.not_true, Bool.or_self,
    Bool.false_and, Bool.false_eq_true, if_false]
  simp only [State.sendsFrame, State.transomOut, beq_iff_eq]

/-- In a lap it sends those that its egress entries name, after those it forwards (R408, R521). -/
theorem State.capture_of_lap (hst : (s.lport p).st = 2) (hl : s.grid.deviceLost = 0) (hq : s.quarantined = false) {k c : Nat}
    (hk : s.portLap p = some (k, c)) :
    let a := slotNumbers.foldl (putSlot p k c j bad) (s, (s.lport p).fwd.foldl (fun t f => Table.put f.slot f.flit t) [])
    s.capture p j bad = s.sendsFrame a.1 p j a.2 := by
  have hcc' : ((s.frameCount + 16) % 256 != lecelStart j) = false := by simp [hcc]
  simp only [State.capture, hon, hpads, hcc', hst, hl, hq, hk, Nat.not_le.mpr hp, Nat.not_le.mpr hj, decide_false, Bool.not_true,
    Bool.or_self, Bool.not_false, Bool.and_self, beq_self_eq_true, Bool.false_eq_true, if_false, if_true]
  simp only [State.sendsFrame, State.transomOut, beq_iff_eq, slotNumbers]

end

/-- Flits whose check bytes can be decoded change nothing but the frame (R408). -/
theorem State.foldl_putSlot_zero (s : State) (p k c j : Nat) (l : List Nat) (t : Table Flit) :
    l.foldl (putSlot p k c j 0) (s, t) = (s, Table.putFlits (s.egressFlit p k c j) l t) := by
  induction l generalizing t with
  | nil => rfl
  | cons n l ih =>
    rw [List.foldl_cons, Table.putFlits, List.foldl_cons, ← Table.putFlits, ← ih]
    congr 1
    cases h : s.egressFlit p k c j n with
    | none => simp only [State.putSlot, h]
    | some f => simp [State.putSlot, h]

/-- Whether a slot takes a flit is for its entry to say. -/
theorem State.isSome_egressFlit (s : State) (p k c j n : Nat) : (s.egressFlit p k c j n).isSome =
    lecelValid (lapEntry (s.slot k).info.lecel p ((c + 16) / 256) 0 j n) := by
  unfold State.egressFlit
  dsimp only
  split
  · next h => exact h.symm
  · next h => exact (Bool.not_eq_true _ ▸ h).symm

/-- Putting a slot into a frame takes free values and raises faults (R408, R410). -/
theorem State.raised_putSlot (p k c j : Nat) (bad : BitVec 38) (a : State × Table Flit) (n : Nat) :
    Raised a.1 (putSlot p k c j bad a n).1 := by
  unfold State.putSlot
  split
  · exact .refl _
  · split
    · exact (raised_free a.1 128).trans (raised_portFault ..)
    · exact .refl _

theorem State.raised_foldl_putSlot (p k c j : Nat) (bad : BitVec 38) (l : List Nat) (a : State × Table Flit) :
    Raised a.1 (l.foldl (putSlot p k c j bad) a).1 := by
  induction l generalizing a with
  | nil => exact .refl _
  | cons n l ih => exact (raised_putSlot p k c j bad a n).trans (ih _)

/-- A captured flit whose check bytes cannot be decoded is a fault of its attempt (R408, R410). -/
theorem State.foldl_putSlot_kept {s : State} {p k c : Nat} (hk : s.portLap p = some (k, c)) (hv : bitOf s.grid.coverPorts p = 0)
    {j n : Nat} {bad : BitVec 38} (hb : bad.getLsbD (n - 1) = true) (he : (s.egressFlit p k c j n).isSome = true) {l : List Nat}
    (hn : n ∈ l) (t : Table Flit) :
    let u := (l.foldl (putSlot p k c j bad) (s, t)).1
    (⟨0xA000 + p, 0x50, s.faultCycle k, 0⟩ : FaultRec) ∈ (u.slot k).faults ∧ (u.slot k).faultDrive.isSome = true := by
  obtain ⟨before, after, rfl⟩ := List.append_of_mem hn
  rw [List.foldl_append, List.foldl_cons]
  generalize ha : before.foldl (putSlot p k c j bad) (s, t) = a
  have hr : Raised s a.1 := ha ▸ raised_foldl_putSlot p k c j bad before (s, t)
  have hf : Raised s (a.1.free 128).2 := hr.trans (raised_free a.1 128)
  have hinfo : (a.1.slot k).info = (s.slot k).info := congrArg Prod.snd (hr.lap k)
  obtain ⟨f, hf'⟩ := Option.isSome_iff_exists.mp (show (a.1.egressFlit p k c j n).isSome = true by
    rw [isSome_egressFlit, hinfo, ← isSome_egressFlit]; exact he)
  have hput : (putSlot p k c j bad a n).1 = (a.1.free 128).2.portFault p 0x50 := by
    simp only [State.putSlot, hf', hb, if_true]
  have hkept := portFault_kept (s := (a.1.free 128).2) (p := p) (c := c) ((hf.portLap p).trans hk) (by rw [hf.grid]; exact hv) 0x50
  rw [(lap_congr (hf.lap k) hf.now).2, ← hput] at hkept
  have hafter := raised_foldl_putSlot p k c j bad after (putSlot p k c j bad a n)
  exact ⟨hafter.faults k _ hkept.1, hafter.drive k hkept.2⟩

/-- What leaves for the transom is of the link alone. -/
theorem State.slots_sendsFrame (s u : State) (p j : Nat) (slots : Table Flit) : (s.sendsFrame u p j slots).slots = u.slots := by
  have h : (s.transomOut u p).2.slots = u.slots := by
    unfold State.transomOut State.sendFlit
    split
    · split <;> rfl
    · rfl
  exact h

/-! The flit of a transom message (R227, R415). -/

/-- A message of a class that is sent next is one of its port's, of that class. -/
theorem State.pickMsg_spec {s : State} {p : Nat} {urgent : Bool} {m : OutMsg} (h : s.pickMsg p urgent = some m) :
    m ∈ s.link.outbox ∧ m.port = p ∧ m.body.urgent = urgent := by
  have hmem : m ∈ s.link.outbox.filter (fun m => m.port == p && m.body.urgent == urgent) := by
    unfold State.pickMsg at h
    dsimp only at h
    split at h
    · next m' hm => exact Option.some.inj h ▸ List.mem_of_find?_eq_some hm
    · obtain ⟨i, -, hi⟩ := List.exists_of_findSome?_eq_some h
      exact List.mem_of_find?_eq_some hi
  obtain ⟨hout, hm⟩ := List.mem_filter.mp hmem
  simpa [hout] using hm

/-- The message whose flit is sent next has its place in the far buffer, and an URGENT one goes first (R227, R415). -/
theorem State.nextFlit_spec {s : State} {p : Nat} {m : OutMsg} (h : s.nextFlit p = some m) :
    m ∈ s.link.outbox ∧ m.port = p ∧ s.creditFor p m.body.urgent = true
      ∧ (m.body.urgent = false → s.creditFor p true = false ∨ s.pickMsg p true = none) := by
  have hof : ∀ u, (if s.creditFor p u = true then s.pickMsg p u else none) = some m →
      m ∈ s.link.outbox ∧ m.port = p ∧ m.body.urgent = u ∧ s.creditFor p u = true := fun u hu => by
    obtain ⟨hc, hpick⟩ := Option.ite_none_right_eq_some.mp hu
    obtain ⟨hm, hport, hurgent⟩ := pickMsg_spec hpick
    exact ⟨hm, hport, hurgent, hc⟩
  simp only [State.nextFlit] at h
  split at h
  · next m' hm' =>
    obtain rfl := Option.some.inj h
    obtain ⟨hm, hport, hurgent, hc⟩ := hof true hm'
    exact ⟨hm, hport, by rwa [hurgent], fun hu => nomatch hu.symm.trans hurgent⟩
  · next hnone =>
    obtain ⟨hm, hport, hurgent, hc⟩ := hof false h
    refine ⟨hm, hport, by rwa [hurgent], fun _ => ?_⟩
    cases hcr : s.creditFor p true with
    | false => exact .inl rfl
    | true => exact .inr (by rwa [hcr, if_pos rfl] at hnone)

theorem State.transomOut_of_none {s : State} {p : Nat} (h : s.nextFlit p = none) : s.transomOut s p = (0, s) := by
  unfold State.transomOut State.sendFlit
  simp only [h, ite_self]

section
variable {s : State} {p : Nat} {m : OutMsg} (hc : s.canSend p = true) (h : s.nextFlit p = some m)
include hc h

theorem State.transomOut_of_some : s.transomOut s p =
    (lecelWord m.body.urgent (!m.started) (decide ((s.stampMsg m).flits.length ≤ 1)) ((s.stampMsg m).flits.headD 0),
      s.flitLeaves p m) := by
  simp only [State.transomOut, State.sendFlit, hc, h, if_true]

/-- A message whose last flit leaves is gone from the queue. -/
theorem State.outbox_transomOut (hl : (s.stampMsg m).flits.length ≤ 1) :
    (s.transomOut s p).2.link.outbox = s.link.outbox.erase m := by
  rw [transomOut_of_some hc h]
  exact if_pos hl

end

end Sys2Proof.Machine

/-! A frame lost, and one decoded (R405 to R409, R415, R546). -/
namespace Sys2Proof.Machine
open State

/-! A frame that is lost (R409, R546). -/

/-- Port x once a frame is lost: it could not be corrected, or failed authentication. -/
def LecelPort.losing (x : LecelPort) (auth : Bool) : LecelPort :=
  let y := { x with
    transomLost := satAdd 32 x.transomLost x.inPart, rxUrgent := [], rxNormal := [], lastLfn := (x.lastLfn + 1) % 50, inOrder := 0 }
  if auth then { y with authFails := satAdd 32 x.authFails 1, authRun := x.authRun + 1 }
  else { y with cwUncorrectable := satAdd 64 x.cwUncorrectable 1 }

/-- From s to t a frame on port p is lost: the port goes on, or leaves after 64 that failed authentication; memory stands, and a
frame that a lap expected is a fault of its attempt. -/
structure State.FrameGone (p : Nat) (auth : Bool) (s t : State) : Prop where
  stays : ((s.lport p).losing auth).authRun < 64 → t.lport p = (s.lport p).losing auth
  leaves : 64 ≤ ((s.lport p).losing auth).authRun →
    ∃ key, t.lport p = { ((s.lport p).losing auth).left.taking key with st := 3 }
  mem : t.mem = s.mem
  fault : ∀ k c, s.expects p = true → s.portLap p = some (k, c) → bitOf s.grid.coverPorts p = 0 →
    (⟨0xA000 + p, 0x50, s.faultCycle k, 0⟩ : FaultRec) ∈ (t.slot k).faults

theorem State.frameGone_frameLost (s : State) (p : Nat) (auth : Bool) : FrameGone p auth s (s.frameLost p auth) := by
  unfold State.frameLost
  extract_lets due u v
  have hu : PortBecame p ((s.lport p).losing auth) s u := by
    refine ⟨?_, fun q hq => (lport_onLport_ne _ hq _).trans (lport_onLport_ne s hq _), _, _, _, _, _, rfl⟩
    rw [lport_onLport_self, State.dropParts, lport_onLport_self]
    cases auth <;> rfl
  have hlap : u.portLap p = s.portLap p := portLap_congr (by rw [hu.self]; cases auth <;> rfl) hu.now fun k => by rw [hu.slot]
  have hv : Raised u v := by
    unfold v
    split
    · exact raised_portFault ..
    · exact .refl u
  have hself : v.lport p = (s.lport p).losing auth := (hv.lport p).trans hu.self
  have hmem : v.mem = s.mem := hv.mem.trans hu.mem
  have hfault : ∀ k c, s.expects p = true → s.portLap p = some (k, c) → bitOf s.grid.coverPorts p = 0 →
      (⟨0xA000 + p, 0x50, s.faultCycle k, 0⟩ : FaultRec) ∈ (v.slot k).faults := fun k c hdue hk hcov => by
    have hkept := portFault_kept (hlap.trans hk) (by rw [hu.grid]; exact hcov) 0x50
    rw [(lap_congr (congrArg Slot.lap (hu.slot k)) hu.now).2] at hkept
    rw [show v = u.portFault p 0x50 from if_pos hdue]
    exact hkept.1
  rw [hself]
  split
  · next h =>
    have hl := portLeft_portLeave v p 3
    obtain ⟨key, hleft⟩ := hl.self
    exact ⟨fun hlt => absurd h (Nat.not_le.mpr hlt), fun _ => ⟨key, hself ▸ hleft⟩, hl.mem.trans hmem,
      fun k c hdue hk hcov => hl.faults k _ (hfault k c hdue hk hcov)⟩
  · next h => exact ⟨fun _ => hself, fun hle => absurd hle h, hmem, hfault⟩

/-! A frame that is decoded (R405, R407, R415). -/

/-- Port x once a frame with these fields is decoded now: it continues the sequence, or begins one, and its header says what its
sender is. -/
def LecelPort.seeing (x : LecelPort) (now : Nat) (corrected : Bool) (lfn : Nat) (h : BitVec 128) : LecelPort :=
  { x with
    cwCorrected := if corrected then satAdd 64 x.cwCorrected 1 else x.cwCorrected
    lastFrame := now, authRun := 0, lastLfn := lfn
    inOrder := if lfn == (x.lastLfn + 1) % 50 then x.inOrder + 1 else 1
    peer := hdrField h 127 121 * 2 ^ 23 + hdrField h 120 114 * 2 ^ 16 + hdrField h 113 98
    peerState := hdrField h 95 94, freeU := hdrField h 12 8, freeN := hdrField h 7 3 }

/-- Frame g is decoded on port p. -/
def State.frameTaken (s : State) (p : Nat) (corrected : Bool) (g : BitVec 5140) : State :=
  (s.frameSeen p corrected (frameLfn g)).headerSeen p (frameHeader g)

theorem State.portBecame_frameTaken (s : State) (p : Nat) (corrected : Bool) (g : BitVec 5140) :
    PortBecame p ((s.lport p).seeing s.now corrected (frameLfn g) (frameHeader g)) s (s.frameTaken p corrected g) := by
  have h := (PortBecame.onLport s p fun x => { x with
    cwCorrected := if corrected then satAdd 64 x.cwCorrected 1 else x.cwCorrected
    lastFrame := s.now, authRun := 0, lastLfn := frameLfn g
    inOrder := if frameLfn g == (x.lastLfn + 1) % 50 then x.inOrder + 1 else 1 }).trans (.onLport _ p fun x => { x with
    peer := hdrField (frameHeader g) 127 121 * 2 ^ 23 + hdrField (frameHeader g) 120 114 * 2 ^ 16 + hdrField (frameHeader g) 113 98
    peerState := hdrField (frameHeader g) 95 94, freeU := hdrField (frameHeader g) 12 8, freeN := hdrField (frameHeader g) 7 3 })
  rw [lport_onLport_self] at h
  exact h

/-- Port x once flit t of a transom message has come, in a frame that began at count start (R415, R426). -/
def LecelPort.joinFlit (x : LecelPort) (start : BitVec 64) (t : BitVec 128) : LecelPort :=
  let first := t.getLsbD 125
  let old := if t.getLsbD 126 then x.rxUrgent else x.rxNormal
  let at_ := if first then start else if t.getLsbD 126 then x.rxStartU else x.rxStartN
  let l := if first then [t] else if old.isEmpty then [] else old ++ [t]
  let whole := t.getLsbD 124 && !l.isEmpty
  let x := { x with
    transomLost := if first && !old.isEmpty then satAdd 32 x.transomLost 1 else x.transomLost
    rxHeld := if whole then x.rxHeld ++ [LecelRx.mk at_ l] else x.rxHeld }
  let l := if whole then [] else l
  if t.getLsbD 126 then { x with rxUrgent := l, rxStartU := at_ } else { x with rxNormal := l, rxStartN := at_ }

/-- Port x once transom transfer t has come: one that is not VALID brings nothing (R415). -/
def LecelPort.joining (x : LecelPort) (start : BitVec 64) (t : BitVec 128) : LecelPort :=
  if t.getLsbD 127 then x.joinFlit start t else x

theorem State.portBecame_transomIn (s : State) (p : Nat) (t : BitVec 128) :
    PortBecame p ((s.lport p).joining (BitVec.ofNat 64 s.halfCount) t) s (s.transomIn p t) := by
  cases ht : t.getLsbD 127 with
  | false =>
    rw [State.transomIn, LecelPort.joining, ht]
    exact ⟨rfl, fun _ _ => rfl, _, _, _, _, _, rfl⟩
  | true =>
    rw [State.transomIn, LecelPort.joining, ht]
    exact .onLport s p fun x => x.joinFlit (BitVec.ofNat 64 s.halfCount) t

/-- A transom transfer is of the messages received alone. -/
theorem LecelPort.joining_eq (x : LecelPort) (start : BitVec 64) (t : BitVec 128) :
    ∃ lost held urgent normal startU startN, x.joining start t = { x with
      transomLost := lost, rxHeld := held, rxUrgent := urgent, rxNormal := normal, rxStartU := startU, rxStartN := startN } := by
  unfold LecelPort.joining LecelPort.joinFlit
  dsimp only
  split
  · split <;> exact ⟨_, _, _, _, _, _, rfl⟩
  · exact ⟨_, _, _, _, _, _, rfl⟩

section
variable (x : LecelPort) (start : BitVec 64) {t : BitVec 128}

/-- A transfer that is not VALID brings nothing. -/
theorem LecelPort.joining_of_invalid (h : t.getLsbD 127 = false) : x.joining start t = x := by
  rw [LecelPort.joining, h]
  exact if_neg Bool.false_ne_true

/-- A message of one flit is whole (R415). -/
theorem LecelPort.rxHeld_joining_of_single (h : t.getLsbD 127 = true) (hf : t.getLsbD 125 = true) (hl : t.getLsbD 124 = true) :
    (x.joining start t).rxHeld = x.rxHeld ++ [⟨start, [t]⟩] := by
  simp only [LecelPort.joining, LecelPort.joinFlit, h, hf, hl, if_true, List.isEmpty_cons, Bool.not_false, Bool.and_self]
  split <;> rfl

/-- A flit of an URGENT message begun joins it, and the last completes it (R415). -/
theorem LecelPort.joining_of_begun (h : t.getLsbD 127 = true) (hu : t.getLsbD 126 = true) (hf : t.getLsbD 125 = false)
    (hb : x.rxUrgent ≠ []) :
    (t.getLsbD 124 = true → (x.joining start t).rxUrgent = []
        ∧ (x.joining start t).rxHeld = x.rxHeld ++ [⟨x.rxStartU, x.rxUrgent ++ [t]⟩])
      ∧ (t.getLsbD 124 = false → (x.joining start t).rxUrgent = x.rxUrgent ++ [t] ∧ (x.joining start t).rxHeld = x.rxHeld) := by
  have hb' : x.rxUrgent.isEmpty = false := by simpa using hb
  have happ : (x.rxUrgent ++ [t]).isEmpty = false := by simp
  constructor <;> intro hl <;>
    simp only [LecelPort.joining, LecelPort.joinFlit, h, hu, hf, hl, hb', happ, if_true, Bool.false_eq_true, if_false, Bool.not_false,
      Bool.and_self, Bool.false_and, and_self]

end

/-- Frame g, in no lap, has been received: its fields and its transom transfer are taken (R405, R407, R415). -/
def LecelPort.received (x : LecelPort) (s : State) (g : BitVec 5140) : LecelPort :=
  (x.seeing s.now false (frameLfn g) (frameHeader g)).joining (BitVec.ofNat 64 s.halfCount) (frameSlot g 39)

/-- Frame g is received on port p before its header is checked. -/
def State.frameIn (s : State) (p : Nat) (g : BitVec 5140) : State := (s.frameTaken p false g).transomIn p (frameSlot g 39)

theorem State.portBecame_frameIn (s : State) (p : Nat) (g : BitVec 5140) :
    PortBecame p ((s.lport p).received s g) s (s.frameIn p g) := by
  have htaken := portBecame_frameTaken s p false g
  have h := htaken.trans (portBecame_transomIn (s.frameTaken p false g) p (frameSlot g 39))
  rw [htaken.self] at h
  exact h

/-- A frame received leaves its port's state, its laps and what is due. -/
theorem LecelPort.received_stands (x : LecelPort) (s : State) (g : BitVec 5140) :
    (x.received s g).st = x.st ∧ (x.received s g).due = x.due ∧ (x.received s g).usedBy = x.usedBy := by
  obtain ⟨_, _, _, _, _, _, e⟩ := (x.seeing s.now false (frameLfn g) (frameHeader g)).joining_eq (BitVec.ofNat 64 s.halfCount) (frameSlot g 39)
  rw [LecelPort.received, e]
  exact ⟨rfl, rfl, rfl⟩

/-- What the sequence and the header of frame g say of the port. -/
theorem LecelPort.received_seen (x : LecelPort) (s : State) (g : BitVec 5140) :
    (x.received s g).lastLfn = frameLfn g ∧ (x.received s g).lastFrame = s.now ∧ (x.received s g).authRun = 0
      ∧ (x.received s g).inOrder = (if frameLfn g = (x.lastLfn + 1) % 50 then x.inOrder + 1 else 1)
      ∧ (x.received s g).peerState = hdrField (frameHeader g) 95 94 := by
  obtain ⟨_, _, _, _, _, _, e⟩ := (x.seeing s.now false (frameLfn g) (frameHeader g)).joining_eq (BitVec.ofNat 64 s.halfCount) (frameSlot g 39)
  rw [LecelPort.received, e]
  simp [LecelPort.seeing]

/-! Which frames are lost, and what one that is decoded does (R406, R409, R546). -/

section
variable {s : State} {p : Nat} (hp : p < 4) (hon : s.isOn (30 + p) = true) (hpads : (s.domain (30 + p)).padsHeld = false)
  (f : BitVec 5140) (origin : Nat)
include hp hon hpads

theorem State.frame_of_failed : s.frame p .failed f origin = s.frameLost p false := by
  simp [State.frame, hon, hpads, Nat.not_le.mpr hp]

theorem State.frame_of_training (hc : s.canSend p = false) {fate : FrameFate} (hf : fate ≠ .failed) :
    s.frame p fate f origin = s.frameTaken p (fate == .corrected) f := by
  simp [State.frame, hon, hpads, Nat.not_le.mpr hp, hc, hf, State.frameTaken]

theorem State.frame_of_unopened (hc : s.canSend p = true) (ho : s.opened p f = none) :
    s.frame p .clean f origin = s.frameLost p true := by
  simp [State.frame, hon, hpads, Nat.not_le.mpr hp, hc, ho]

theorem State.frame_of_opened (hc : s.canSend p = true) {g : BitVec 5140} (ho : s.opened p f = some g) :
    s.frame p .clean f origin =
      let v := (s.frameIn p g).headerCheck p (frameHeader g)
      ((v.2.scheduledIn p v.1 g).coveredIn p origin g).askParent := by
  have hclean : (FrameFate.clean == FrameFate.corrected) = false := rfl
  simp [State.frame, hon, hpads, Nat.not_le.mpr hp, hc, ho, hclean, State.frameIn, State.frameTaken]

end

end Sys2Proof.Machine

/-! The check of a header (R422, R423). -/
namespace Sys2Proof.Machine
open State

/-! The check of a header while no lap uses its port (R422, R423). -/

/-- From s to t the checks of a header have changed port p's state, and what it was to deliver and to forward, at most; no time
passes, every lap goes on, and RINK stays aligned. -/
structure State.Checked (p : Nat) (s t : State) : Prop where
  port : ∃ st due fwd, t.lport p = { s.lport p with st := st, due := due, fwd := fwd }
  now : t.now = s.now
  slots : t.slots = s.slots
  aligned : t.link.aligned = s.link.aligned

namespace State.Checked
variable {p : Nat} {s t u : State}

theorem refl (s : State) : Checked p s s := ⟨⟨_, _, _, rfl⟩, rfl, rfl, rfl⟩

theorem trans (h : Checked p s t) (h' : Checked p t u) : Checked p s u := by
  obtain ⟨_, _, _, e⟩ := h.port
  obtain ⟨st, due, fwd, e'⟩ := h'.port
  exact ⟨⟨st, due, fwd, by rw [e', e]⟩, h'.now.trans h.now, h'.slots.trans h.slots, h'.aligned.trans h.aligned⟩

/-- A change of the link that is none of its ports'. -/
theorem of_link {l : LinkState} (hp : l.ports = s.link.ports) (ha : l.aligned = s.link.aligned) : Checked p s { s with link := l } :=
  ⟨⟨(s.lport p).st, (s.lport p).due, (s.lport p).fwd, congrArg (Table.get LecelPort.fresh p) hp⟩, rfl, rfl, ha⟩

theorem of_became {st : Nat} {due : List LecelDue} {fwd : List LecelFwd}
    (h : PortBecame p { s.lport p with st := st, due := due, fwd := fwd } s t) : Checked p s t := by
  obtain ⟨_, hl⟩ := h.link
  exact ⟨⟨st, due, fwd, h.self⟩, h.now, h.slots, by rw [hl]⟩

theorem portLap (h : Checked p s t) : t.portLap p = s.portLap p := by
  obtain ⟨_, _, _, e⟩ := h.port
  exact portLap_congr (by rw [e]) h.now fun k => by rw [State.slot, h.slots]; rfl

end State.Checked

theorem State.checked_portState (s : State) (p st : Nat) : Checked p s (s.portState p st) := .of_became (portBecame_portState s p st)

/-- A port that no lap uses goes from UP to GATED or SKEWED, and raises nothing (R410, R422). -/
theorem State.portBecame_portGate {s : State} {p st : Nat} (hn : s.portLap p = none) (hst : (s.lport p).st ≠ st) :
    PortBecame p { s.lport p with st := st, due := [], fwd := [] } s (s.portGate p st) := by
  have h := (PortBecame.onLport s p fun x => { x with due := [], fwd := [] }).trans (portBecame_portState _ p st)
  rw [lport_onLport_self] at h
  have hnone : ((s.onLport p fun x => { x with due := [], fwd := [] }).portState p st).portLap p = none :=
    (Checked.of_became h).portLap.trans hn
  simp only [State.portGate, beq_iff_eq, if_neg hst, portFault_of_none hnone, ite_self]
  exact h

theorem State.checked_portGate {s : State} {p : Nat} (hn : s.portLap p = none) (st : Nat) : Checked p s (s.portGate p st) := by
  by_cases hst : (s.lport p).st = st
  · rw [State.portGate, if_pos (by rw [hst, beq_self_eq_true])]
    exact .refl s
  · exact .of_became (portBecame_portGate hn hst)

/-- The messages that wait are none of a port's own. -/
theorem State.sendOn_changes (s : State) (q : Nat) (r : Route) (body : Msg) : ∃ seqNext outbox,
    s.sendOn q r body = { s with link := { s.link with seqNext := seqNext, outbox := outbox } } := by
  unfold State.sendOn State.queueMsg
  split
  · split <;> exact ⟨_, _, rfl⟩
  · exact ⟨_, _, rfl⟩

theorem State.checked_genCheck (s : State) (p addr gen : Nat) : Checked p s (s.genCheck p addr gen).2 := by
  unfold State.genCheck
  dsimp only
  split
  · dsimp only
    split
    · exact .refl s
    · unfold State.recordGen
      split
      · exact .refl s
      · exact .of_link rfl rfl
  · exact .of_link rfl rfl
  · split
    · exact .of_link rfl rfl
    · obtain ⟨_, _, e⟩ := sendOn_changes { s with link := { s.link with staleDiscards := satAdd 64 s.link.staleDiscards 1 } } p
        (State.routeTo { s with link := { s.link with staleDiscards := satAdd 64 s.link.staleDiscards 1 } } addr)
        (.standDown addr gen (s.genEntry addr).gen)
      dsimp only
      rw [e]
      exact .of_link rfl rfl

theorem State.checked_headerCheck {s : State} {p : Nat} (hn : s.portLap p = none) (h : BitVec 128) :
    Checked p s (s.headerCheck p h).2 := by
  have gated : ∀ {t : State}, Checked p s t → ∀ st, Checked p s (t.portGate p st) := fun ht st =>
    ht.trans (checked_portGate (ht.portLap.trans hn) st)
  have gate : ∀ {t : State}, Checked p s t → Checked p s (if (t.lport p).st == 5 then t else t.portGate p 4) := fun ht => by
    split
    · exact ht
    · exact gated ht 4
  unfold State.headerCheck
  extract_lets sender addr known g l v
  have hv : Checked p s v.2 := by
    unfold v
    split
    · exact checked_genCheck ..
    · exact .refl s
  split
  · exact .refl s
  split
  · split
    · exact .refl s
    · refine gated ?_ 5
      exact .of_link rfl rfl
  split
  · exact gated hv 5
  · dsimp only
    split
    · exact gate hv
    · exact hv
  · split
    · exact gate hv
    · dsimp only
      split
      · exact hv
      · exact hv.trans (checked_portState ..)

end Sys2Proof.Machine

/-! Frames in a lap, and in none (R405 to R410, R421 to R423). -/
namespace Sys2Proof.Machine
open State

/-! Frames in no lap, and in no pair (R410, R422, R521). -/

/-- A frame on a port that no lap uses has no slot for one. -/
theorem State.scheduledIn_of_none {s : State} {p : Nat} (hn : s.portLap p = none) (discarded : Bool) (f : BitVec 5140) :
    s.scheduledIn p discarded f = s := by
  simp only [State.scheduledIn, hn]

/-- Nothing is covered where no course runs in pairs (R521). -/
theorem State.coveredIn_of_unpaired {s : State} (hu : ∀ k, (s.slot k).info.pairs = false) (p origin : Nat) (f : BitVec 5140) :
    s.coveredIn p origin f = s := by
  have hnone : s.residents.find? (fun k => (s.slot k).info.pairs && s.partnerPort k == p && (s.lapCycle k).isSome) = none :=
    List.find?_eq_none.mpr fun k _ => by simp [hu]
  simp only [State.coveredIn, hnone]

theorem State.forwardFlits_of_unpaired {s : State} {k : Nat} (hu : (s.slot k).info.pairs = false) (p c j start : Nat) (f : BitVec 5140) :
    s.forwardFlits p k c j start f = s := by
  simp [State.forwardFlits, State.coversFor, hu]

/-- A device whose RINK is aligned asks for no alignment (R426). -/
theorem State.askParent_of_aligned {s : State} (h : s.link.aligned = true) : s.askParent = s := by
  simp [State.askParent, h]

/-- A header that names another facing port is a skew: the port goes to SKEWED (R422, R423). -/
theorem State.headerCheck_of_facing {s : State} {p : Nat} (hn : s.portLap p = none) (hc : s.canSend p = true) {h : BitVec 128}
    (hf : hdrField h 97 96 ≠ (p + 2) % 4) (hst : (s.lport p).st ≠ 5) :
    let t := (s.headerCheck p h).2
    (t.lport p).st = 5 ∧ t.link.bindSkews = satAdd 32 s.link.bindSkews 1 := by
  have hcheck : (s.headerCheck p h).2 = State.portGate
      { s with link := { s.link with bindSkews := satAdd 32 s.link.bindSkews 1 } } p 5 := by
    simp [State.headerCheck, hc, hf, hst]
  rw [hcheck]
  generalize hu : ({ s with link := { s.link with bindSkews := satAdd 32 s.link.bindSkews 1 } } : State) = u
  have hskews : u.link.bindSkews = satAdd 32 s.link.bindSkews 1 := by rw [← hu]
  have hport : u.lport p = s.lport p := by rw [← hu]; rfl
  have hlap : u.portLap p = none := by rw [← hu]; exact hn
  have h := portBecame_portGate hlap (by rw [hport]; exact hst)
  obtain ⟨_, hl⟩ := h.link
  exact ⟨by rw [h.self], by rw [hl]; exact hskews⟩

/-- What of a device the checks of a header compare, its ports say nothing of. -/
theorem State.PortBecame.known {p : Nat} {x : LecelPort} {s t : State} (h : PortBecame p x s t) :
    t.bound = s.bound ∧ t.acrossAddr p = s.acrossAddr p ∧ (∀ a, t.genEntry a = s.genEntry a) ∧ t.pid = s.pid := by
  obtain ⟨_, _, _, _, _, rfl⟩ := h.rest
  exact ⟨rfl, rfl, fun _ => rfl, rfl⟩

theorem State.PortBecame.aligned {p : Nat} {x : LecelPort} {s t : State} (h : PortBecame p x s t) :
    t.link.aligned = s.link.aligned := by
  obtain ⟨_, e⟩ := h.link
  rw [e]

theorem State.PortBecame.frameStart {p : Nat} {x : LecelPort} {s t : State} (h : PortBecame p x s t) (frc j : Nat) :
    t.frameStart frc j = s.frameStart frc j := by
  obtain ⟨_, _, _, _, _, rfl⟩ := h.rest
  rfl

theorem State.PortBecame.portLap {p : Nat} {x : LecelPort} {s t : State} (h : PortBecame p x s t)
    (hu : x.usedBy = (s.lport p).usedBy) : t.portLap p = s.portLap p :=
  portLap_congr (by rw [h.self, hu]) h.now fun k => by rw [h.slot]

/-- A frame received in no lap and in no pair: what its header makes of the port (R405 to R407, R415, R422). -/
theorem State.frame_in_no_lap {s : State} {p origin : Nat} {f g : BitVec 5140} (hp : p < 4) (hon : s.isOn (30 + p) = true)
    (hpads : (s.domain (30 + p)).padsHeld = false) (hc : s.canSend p = true) (ho : s.opened p f = some g)
    (ha : s.link.aligned = true) (hn : s.portLap p = none) (hu : ∀ k, (s.slot k).info.pairs = false) :
    s.frame p .clean f origin = ((s.frameIn p g).headerCheck p (frameHeader g)).2
      ∧ Checked p (s.frameIn p g) (s.frame p .clean f origin) := by
  have hin := portBecame_frameIn s p g
  have hlap : (s.frameIn p g).portLap p = none := (hin.portLap ((s.lport p).received_stands s g).2.2).trans hn
  have hcheck := checked_headerCheck hlap (frameHeader g)
  have heq : s.frame p .clean f origin = ((s.frameIn p g).headerCheck p (frameHeader g)).2 := by
    rw [frame_of_opened hp hon hpads f origin hc ho]
    dsimp only
    rw [scheduledIn_of_none (hcheck.portLap.trans hlap), coveredIn_of_unpaired, askParent_of_aligned]
    · exact hcheck.aligned.trans (hin.aligned.trans ha)
    · intro k
      rw [State.slot, hcheck.slots, hin.slots]
      exact hu k
  exact ⟨heq, heq ▸ hcheck⟩

/-! Frames of a lap (R405, R408, R410). -/

/-- A generation agrees with itself (R423). -/
theorem genVerdict_self (g : Nat) : genVerdict g g = .accepted := by
  simp [genVerdict]

theorem State.genCheck_of_entry (s : State) (p addr : Nat) : s.genCheck p addr (s.genEntry addr).gen = (.accepted, s) := by
  unfold State.genCheck
  dsimp only
  by_cases h : (s.genEntry addr).gen = 0
  · simp [h]
  · simp [h, genVerdict_self, State.recordGen]

/-- The header of the neighbour as it is known, BOUND and of this partition, changes nothing of a port that is UP (R422, R423). -/
theorem State.headerCheck_of_neighbour {s : State} {p : Nat} {h : BitVec 128} (hst : (s.lport p).st = 2) (hb : s.bound = true)
    (hs : hdrField h 95 94 = 2) (haddr : hdrField h 127 121 * 128 + hdrField h 120 114 = s.acrossAddr p)
    (hf : hdrField h 97 96 = (p + 2) % 4) (hg : hdrField h 113 98 = (s.genEntry (s.acrossAddr p)).gen)
    (hpid : hdrField h 93 78 = s.pid) : s.headerCheck p h = (false, s) := by
  simp [State.headerCheck, State.canSend, hst, hb, hs, haddr, hf, hg, hpid, genCheck_of_entry, State.portState]

/-- The flits of frame f that ingress entries of slot x's course name for port p, captured in lap cycle cap and due 512 cc later
(R408). -/
def Slot.flitsDue (x : Slot) (p cap j start : Nat) (f : BitVec 5140) : List LecelDue :=
  slotNumbers.filterMap (fun n =>
    let e := lapEntry x.info.lecel p ((cap + 16) / 256) 1 j n
    if lecelValid e then some ⟨start + cap + 512, lecelRow e, lecelTr e, frameSlot f n⟩ else none)

/-- The scheduled slots of a frame that fits the lap are held for delivery (R408, R410). -/
theorem State.scheduledIn_of_fits {s : State} {p k c : Nat} (hk : s.portLap p = some (k, c)) (hv : bitOf s.grid.coverPorts p = 0)
    (hu : (s.slot k).info.pairs = false) {f : BitVec 5140} (hfit : s.headerFits p k (frameHeader f) = true)
    (hle : (s.slot k).lastLaunch + 16 ≤ s.frameStart (frameFrc f) (frameLfn f))
    (hlt : s.frameStart (frameFrc f) (frameLfn f) < (s.slot k).lastLaunch + s.lapLen k + 16) :
    let cap := s.frameStart (frameFrc f) (frameLfn f) - 16 - (s.slot k).lastLaunch
    s.scheduledIn p false f =
      s.onLport p (fun x => { x with due := x.due ++ (s.slot k).flitsDue p cap (frameLfn f) (s.now - c) f }) := by
  have hv' : (bitOf s.grid.coverPorts p == 1) = false := by simp [hv]
  simp only [State.scheduledIn, hk, hv', hfit, decide_eq_false (Nat.not_lt.mpr hle), decide_eq_false (Nat.not_le.mpr hlt),
    Bool.false_eq_true, if_false, Bool.not_true, Bool.or_self]
  exact forwardFlits_of_unpaired (s := s.takeFlits p k _ (frameLfn f) (s.now - c) f) hu ..

/-- A frame received that fits the running lap (R405, R408, R410). -/
theorem State.frame_of_fits {s : State} {p origin k c : Nat} {f g : BitVec 5140} (hp : p < 4) (hon : s.isOn (30 + p) = true)
    (hpads : (s.domain (30 + p)).padsHeld = false) (ho : s.opened p f = some g) (ha : s.link.aligned = true)
    (hk : s.portLap p = some (k, c)) (hv : bitOf s.grid.coverPorts p = 0) (hu : ∀ k, (s.slot k).info.pairs = false)
    (hcheck : (s.frameIn p g).headerCheck p (frameHeader g) = (false, s.frameIn p g)) (hst : (s.lport p).st = 2)
    (hfit : (s.frameIn p g).headerFits p k (frameHeader g) = true)
    (hle : (s.slot k).lastLaunch + 16 ≤ s.frameStart (frameFrc g) (frameLfn g))
    (hlt : s.frameStart (frameFrc g) (frameLfn g) < (s.slot k).lastLaunch + s.lapLen k + 16) :
    let cap := s.frameStart (frameFrc g) (frameLfn g) - 16 - (s.slot k).lastLaunch
    let t := s.frame p .clean f origin
    (t.lport p).due = (s.lport p).due ++ (s.slot k).flitsDue p cap (frameLfn g) (s.now - c) g
      ∧ (t.lport p).st = 2 ∧ t.slots = s.slots := by
  intro cap t
  have hin := portBecame_frameIn s p g
  obtain ⟨hst', hdue, hused⟩ := (s.lport p).received_stands s g
  have hlen : (s.frameIn p g).lapLen k = s.lapLen k := by rw [State.lapLen, hin.slot]; rfl
  have hsched := scheduledIn_of_fits (f := g) ((hin.portLap hused).trans hk) (by rw [hin.grid]; exact hv) (by rw [hin.slot]; exact hu k) hfit
    (by rw [hin.slot, hin.frameStart]; exact hle) (by rw [hin.slot, hin.frameStart, hlen]; exact hlt)
  have ht : t = (s.frameIn p g).scheduledIn p false g := by
    rw [show t = _ from frame_of_opened hp hon hpads f origin (by simp [State.canSend, hst]) ho, hcheck]
    dsimp only
    rw [hsched, coveredIn_of_unpaired, askParent_of_aligned]
    · exact hin.aligned.trans ha
    · exact fun j => by rw [slot_onLport, hin.slot]; exact hu j
  rw [ht, hsched, hin.slot, hin.frameStart, hin.now]
  refine ⟨?_, ?_, hin.slots⟩
  · rw [lport_onLport_self, hin.self]
    exact congrArg (· ++ _) hdue
  · rw [lport_onLport_self, hin.self]
    exact hst'.trans hst

end Sys2Proof.Machine

/-! Delivery, and ports UP and ABSENT (R401 to R408, R419 to R421, R562). -/
namespace Sys2Proof.Machine
open State

/-! Delivery (R408). -/

/-- The one flit that a port holds is at its edge router in its cycle (R408). -/
theorem State.deliverFlits_of_due {s : State} {p : Nat} (hp : p < 4) {d : LecelDue} (hx : (s.lport p).due = [d]) (hd : d.due = s.now)
    (hr : Table.has (edgePlace p d.row).1 s.grid.routers = true) :
    s.deliverFlits p = (s.setLport p { s.lport p with due := [] }).addArrival (edgePlace p d.row).1
      ⟨s.now, 2 * (edgePlace p d.row).2 + d.transfer, d.flit⟩ := by
  simp only [State.deliverFlits, hx, Nat.not_le.mpr hp, if_false, List.filter_cons, List.filter_nil, hd, Nat.lt_irrefl, decide_false,
    Bool.false_eq_true, beq_self_eq_true, if_true, List.foldl_cons, List.foldl_nil, setLport_grid, hr, setLport_now]

/-! Ports that train (R401, R405, R420, R421, R562). -/

/-- From s to t messages are sent, and what waits for an answer begins to: grid, memory, slots, the states of the ports, the frames
they had, and the axes stand. -/
structure State.Sending (s t : State) : Prop where
  st : ∀ q, (t.lport q).st = (s.lport q).st
  lastFrame : ∀ q, (t.lport q).lastFrame = (s.lport q).lastFrame
  grid : t.grid = s.grid
  mem : t.mem = s.mem
  slots : t.slots = s.slots
  closedEW : t.link.closedEW = s.link.closedEW
  closedNS : t.link.closedNS = s.link.closedNS
  cols : t.link.cols = s.link.cols
  rows : t.link.rows = s.link.rows

namespace State.Sending
variable {s t u : State}

theorem refl (s : State) : Sending s s := ⟨fun _ => rfl, fun _ => rfl, rfl, rfl, rfl, rfl, rfl, rfl, rfl⟩

theorem trans (h : Sending s t) (h' : Sending t u) : Sending s u :=
  ⟨fun q => (h'.st q).trans (h.st q), fun q => (h'.lastFrame q).trans (h.lastFrame q), h'.grid.trans h.grid, h'.mem.trans h.mem,
    h'.slots.trans h.slots, h'.closedEW.trans h.closedEW, h'.closedNS.trans h.closedNS, h'.cols.trans h.cols, h'.rows.trans h.rows⟩

theorem sendOn (s : State) (p : Nat) (r : Route) (body : Msg) : Sending s (s.sendOn p r body) := by
  obtain ⟨_, _, e⟩ := s.sendOn_changes p r body
  rw [e]
  exact ⟨fun _ => rfl, fun _ => rfl, rfl, rfl, rfl, rfl, rfl, rfl, rfl⟩

theorem onLport {p : Nat} {f : LecelPort → LecelPort} (hst : (f (s.lport p)).st = (s.lport p).st)
    (hlast : (f (s.lport p)).lastFrame = (s.lport p).lastFrame) : Sending s (s.onLport p f) := by
  refine ⟨fun q => ?_, fun q => ?_, rfl, rfl, rfl, rfl, rfl, rfl, rfl⟩
  all_goals rcases eq_or_ne q p with rfl | hq
  · rw [lport_onLport_self, hst]
  · rw [lport_onLport_ne _ hq]
  · rw [lport_onLport_self, hlast]
  · rw [lport_onLport_ne _ hq]

theorem ite {c : Prop} [Decidable c] (h : Sending s t) : Sending s (if c then t else s) := by
  split
  · exact h
  · exact refl s

/-- Asking the parent for alignment is a message sent (R426). -/
theorem askParent (s : State) : Sending s s.askParent := by
  unfold State.askParent
  split
  · exact .refl s
  · split
    · split
      · exact (sendOn ..).trans (.onLport rfl rfl)
      · exact .refl s
    · exact .refl s

/-- A head that sends its COUNT notes when (R419, R562). -/
theorem startCount (s : State) (ns : Bool) : Sending s (s.startCount ns) :=
  (sendOn s _ _ _).trans ⟨fun _ => rfl, fun _ => rfl, rfl, rfl, rfl, rfl, rfl, rfl, rfl⟩

theorem headStarts (s : State) (p : Nat) : Sending s (s.headStarts p) := ite (startCount ..)

end State.Sending

section
variable {s : State} {p peer : Nat} (hst : (s.lport p).st = 0 ∨ (s.lport p).st = 1 ∨ (s.lport p).st = 3)

/-- A port whose FLIGHT was found above 160 cc does not come UP (R404). -/
theorem State.portUp_of_tooLong (h : (s.lport p).tooLong = true) : s.portUp p peer = s := by
  simp [State.portUp, h]

include hst

/-- A port that gains codeword lock is UP; what it then sends changes no port's state (R401, R405, R420, R421). -/
theorem State.portUp_changes (hp : p < 4) (hon : s.isOn (30 + p) = true) (hpads : (s.domain (30 + p)).padsHeld = false)
    (ho : 64 ≤ (s.lport p).inOrder) (hcr : (s.lport p).cryptLive = 1 → s.sec.installed.contains (2 + p) = true)
    (hl : (s.lport p).tooLong = false) :
    Sending ((s.onLport p (fun x => { x with lastFrame := s.now, peerState := peer })).portState p 2) (s.portUp p peer) := by
  have hst' : ((s.lport p).st == 0 || (s.lport p).st == 1 || (s.lport p).st == 3) = true := by simpa [or_assoc] using hst
  have hcr' : ((s.lport p).cryptLive == 1 && !s.sec.installed.contains (2 + p)) = false := by simpa using hcr
  simp only [State.portUp, hst', hcr', hon, hpads, hl, Nat.not_le.mpr hp, Nat.not_lt.mpr ho, decide_false, Bool.not_true, Bool.or_self,
    Bool.false_eq_true, if_false]
  split
  · exact .refl _
  · split
    · split
      · exact .sendOn ..
      · exact .askParent _
    · split
      · exact .onLport rfl rfl
      · exact (Sending.headStarts ..).trans (.askParent _)

end

/-! An axis with both its ports ABSENT (R403, R562). -/

/-- From s to t a device that binds goes on: the states of its ports, memory and the axes stand. -/
structure State.BindsOn (s t : State) : Prop where
  st : ∀ q, (t.lport q).st = (s.lport q).st
  mem : t.mem = s.mem
  closedEW : t.link.closedEW = s.link.closedEW
  closedNS : t.link.closedNS = s.link.closedNS
  cols : t.link.cols = s.link.cols
  rows : t.link.rows = s.link.rows

theorem State.Sending.bindsOn {s t : State} (h : Sending s t) : BindsOn s t := ⟨h.st, h.mem, h.closedEW, h.closedNS, h.cols, h.rows⟩

theorem State.BindsOn.after {s t u : State} (h' : BindsOn t u) (h : BindsOn s t) : BindsOn s u :=
  ⟨fun q => (h'.st q).trans (h.st q), h'.mem.trans h.mem, h'.closedEW.trans h.closedEW, h'.closedNS.trans h.closedNS,
    h'.cols.trans h.cols, h'.rows.trans h.rows⟩

/-- A device that took no offer becomes BOUND by itself (R419). -/
theorem State.bindsOn_becomeBound {s : State} (h : s.link.offer = none) : BindsOn s s.becomeBound := by
  simp only [State.becomeBound, h]
  exact ⟨fun _ => rfl, rfl, rfl, rfl, rfl, rfl⟩

/-- Binding goes on without an offer: the device becomes BOUND, or asks for alignment (R419, R426). -/
theorem State.bindsOn_bindCheck {s : State} (h : s.link.offer = none) : BindsOn s s.bindCheck := by
  unfold State.bindCheck
  split
  · exact (Sending.refl s).bindsOn
  · split
    · exact bindsOn_becomeBound h
    · split
      · exact BindsOn.after (bindsOn_becomeBound h) ⟨fun _ => rfl, rfl, rfl, rfl, rfl, rfl⟩
      · exact (Sending.askParent s).bindsOn

/-- Closing an axis fixes its size, and goes on with binding (R419, R562). -/
theorem State.closeAxis_changes {s : State} (h : s.link.offer = none) (p size place : Nat) :
    let t := s.closeAxis p size place
    (∀ q, (t.lport q).st = (s.lport q).st) ∧ t.mem = s.mem
      ∧ (p % 2 = 1 → t.link.closedEW = true ∧ t.link.cols = size) ∧ (p % 2 = 0 → t.link.closedNS = true ∧ t.link.rows = size) := by
  intro t
  by_cases hp : p % 2 = 1
  · have ht : t = State.bindCheck { s with link := { s.link with closedEW := true, cols := size, col := place } } := by
      simp only [t, State.closeAxis, hp, beq_self_eq_true, if_true]
    generalize hu : ({ s with link := { s.link with closedEW := true, cols := size, col := place } } : State) = u at ht
    obtain ⟨hst, hmem, hew, -, hcols, -⟩ := bindsOn_bindCheck (s := u) (by rw [← hu]; exact h)
    rw [ht]
    exact ⟨fun q => (hst q).trans (by rw [← hu]; rfl), hmem.trans (by rw [← hu]), fun _ => ⟨hew.trans (by rw [← hu]),
      hcols.trans (by rw [← hu])⟩, fun h0 => by omega⟩
  · have ht : t = State.bindCheck { s with link := { s.link with closedNS := true, rows := size, row := place } } := by
      simp only [t, State.closeAxis, beq_iff_eq, if_neg hp]
    generalize hu : ({ s with link := { s.link with closedNS := true, rows := size, row := place } } : State) = u at ht
    obtain ⟨hst, hmem, -, hns, -, hrows⟩ := bindsOn_bindCheck (s := u) (by rw [← hu]; exact h)
    rw [ht]
    exact ⟨fun q => (hst q).trans (by rw [← hu]; rfl), hmem.trans (by rw [← hu]), fun h1 => absurd h1 hp,
      fun _ => ⟨hns.trans (by rw [← hu]), hrows.trans (by rw [← hu])⟩⟩

/-- A device takes part in ring binding as long as no port of it trains late (R420). -/
theorem State.ringBinds_portState (s : State) (p st : Nat) : (s.portState p st).ringBinds = s.ringBinds
    ∧ (∀ q, (s.portState p st).axisClosed q = s.axisClosed q) ∧ (s.portState p st).link.offer = s.link.offer := by
  have h := portBecame_portState s p st
  obtain ⟨_, hl⟩ := h.link
  have hlate : ∀ q, ((s.portState p st).lport q).late = (s.lport q).late := fun q => by
    rcases eq_or_ne q p with rfl | hq
    · rw [h.self]
    · rw [h.others q hq]
  refine ⟨?_, fun q => ?_, by rw [hl]⟩
  · simp only [State.ringBinds, hlate, hl]
  · simp only [State.axisClosed, hl]

theorem State.offer_of_ringBinds {s : State} (h : s.ringBinds = true) : s.link.offer = none := by
  simp only [State.ringBinds, Bool.and_eq_true] at h
  obtain ⟨⟨-, hnone⟩, -⟩ := h
  exact Option.isNone_iff_eq_none.mp hnone

/-- A port that has not come UP within 2 s of its pads' release reads ABSENT (R403, R562). -/
theorem State.portAbsent_changes {s : State} {p a : Nat} (hp : p < 4) (ha : (s.lport p).released = some a) (hst : (s.lport p).st = 1)
    (hl : a + 3200000000 ≤ s.now) :
    let t := s.portAbsent p
    (t.lport p).st = 0 ∧ t.mem = s.mem ∧ ((s.lport ((p + 2) % 4)).st = 0 → s.ringBinds = true → s.axisClosed p = false →
      (p % 2 = 1 → t.link.closedEW = true ∧ t.link.cols = 1) ∧ (p % 2 = 0 → t.link.closedNS = true ∧ t.link.rows = 1)) := by
  intro t
  have ht : t = let u := s.portState p 0
      if (u.lport (otherEnd p)).st == 0 && u.ringBinds && !u.axisClosed p then u.closeAxis p 1 0 else u := by
    simp [t, State.portAbsent, ha, hst, Nat.not_le.mpr hp, Nat.not_lt.mpr hl]
  have hu := portBecame_portState s p 0
  obtain ⟨hring, haxis, -⟩ := ringBinds_portState s p 0
  have hother : (s.portState p 0).lport (otherEnd p) = s.lport ((p + 2) % 4) := hu.others _ (by unfold otherEnd; omega)
  rw [ht]
  dsimp only
  rw [hother, hring, haxis]
  split
  · next h =>
    simp only [Bool.and_eq_true] at h
    obtain ⟨⟨-, hbinds⟩, -⟩ := h
    obtain ⟨hst', hmem, hew, hns⟩ := closeAxis_changes (offer_of_ringBinds (hring.trans hbinds)) p 1 0
    exact ⟨(hst' p).trans (by rw [hu.self]), hmem.trans hu.mem, fun _ _ _ => ⟨hew, hns⟩⟩
  · next h => exact ⟨by rw [hu.self], hu.mem, fun h0 hr hc => absurd (by rw [h0, hr, hc]; rfl) h⟩

end Sys2Proof.Machine

/-! The Lecel ports (R227, R401 to R415, R422, R507, R546, R562). -/
namespace Sys2Proof.Machine
open State

/-! The obligation. -/

/-- A port that trains counts a frame toward codeword lock alone (R405). -/
theorem State.frame_while_training {s : State} {p : Nat} (hp : p < 4) (hon : s.isOn (30 + p) = true)
    (hpads : (s.domain (30 + p)).padsHeld = false) (f : BitVec 5140) (origin : Nat) (hc : s.canSend p = false) {fate : FrameFate}
    (hf : fate ≠ .failed) :
    let x := s.lport p
    let t := s.frame p fate f origin
    ((t.lport p).lastLfn = frameLfn f ∧ (t.lport p).lastFrame = s.now ∧ (t.lport p).authRun = 0
        ∧ (t.lport p).inOrder = (if frameLfn f = (x.lastLfn + 1) % 50 then x.inOrder + 1 else 1)
        ∧ (t.lport p).peerState = hdrField (frameHeader f) 95 94)
      ∧ (t.lport p).st = x.st ∧ t.slots = s.slots ∧ t.link.outbox = s.link.outbox
      ∧ (t.lport p).cwCorrected = (if fate = .corrected then satAdd 64 x.cwCorrected 1 else x.cwCorrected) := by
  intro x t
  have h := portBecame_frameTaken s p (fate == .corrected) f
  obtain ⟨_, hl⟩ := h.link
  rw [show t = _ from frame_of_training hp hon hpads f origin hc hf, h.self, h.slots, hl]
  refine ⟨⟨rfl, rfl, rfl, ?_, rfl⟩, rfl, rfl, rfl, ?_⟩
  · simp only [LecelPort.seeing, beq_iff_eq, x]
  · simp only [LecelPort.seeing, beq_iff_eq, x]

/-- The transom transfer of a frame received joins its message (R415, R426). -/
theorem LecelPort.received_joins (x : LecelPort) (s : State) (g : BitVec 5140) :
    let y := x.received s g
    let w := frameSlot g 39
    (w.getLsbD 127 = false → y.rxHeld = x.rxHeld)
      ∧ (w.getLsbD 127 = true → w.getLsbD 125 = true → w.getLsbD 124 = true →
        y.rxHeld = x.rxHeld ++ [⟨BitVec.ofNat 64 s.halfCount, [w]⟩])
      ∧ (w.getLsbD 127 = true → w.getLsbD 126 = true → w.getLsbD 125 = false → x.rxUrgent ≠ [] →
        (w.getLsbD 124 = true → y.rxUrgent = [] ∧ y.rxHeld = x.rxHeld ++ [⟨x.rxStartU, x.rxUrgent ++ [w]⟩])
        ∧ (w.getLsbD 124 = false → y.rxUrgent = x.rxUrgent ++ [w] ∧ y.rxHeld = x.rxHeld)) :=
  ⟨fun h => (congrArg LecelPort.rxHeld
      (LecelPort.joining_of_invalid (x.seeing s.now false (frameLfn g) (frameHeader g)) (BitVec.ofNat 64 s.halfCount) h) :),
    fun h hf hl => LecelPort.rxHeld_joining_of_single (x.seeing s.now false (frameLfn g) (frameHeader g)) _ h hf hl,
    fun h hu hf hb => LecelPort.joining_of_begun (x.seeing s.now false (frameLfn g) (frameHeader g)) _ h hu hf hb⟩

/-- A frame received in no lap and in no pair: the sequence, its transom transfer, and its facing port (R405, R407, R415, R422). -/
theorem State.frame_outside_laps {s : State} {p origin : Nat} {f g : BitVec 5140} (hp : p < 4) (hon : s.isOn (30 + p) = true)
    (hpads : (s.domain (30 + p)).padsHeld = false) (hc : s.canSend p = true) (ho : s.opened p f = some g)
    (ha : s.link.aligned = true) (hn : s.portLap p = none) (hu : ∀ k, (s.slot k).info.pairs = false) :
    let x := s.lport p
    let t := s.frame p .clean f origin
    let w := frameSlot g 39
    ((t.lport p).lastLfn = frameLfn g ∧ (t.lport p).lastFrame = s.now ∧ (t.lport p).authRun = 0
        ∧ (t.lport p).inOrder = (if frameLfn g = (x.lastLfn + 1) % 50 then x.inOrder + 1 else 1)
        ∧ (t.lport p).peerState = hdrField (frameHeader g) 95 94)
      ∧ t.slots = s.slots
      ∧ ((w.getLsbD 127 = false → (t.lport p).rxHeld = x.rxHeld)
        ∧ (w.getLsbD 127 = true → w.getLsbD 125 = true → w.getLsbD 124 = true →
          (t.lport p).rxHeld = x.rxHeld ++ [⟨BitVec.ofNat 64 s.halfCount, [w]⟩])
        ∧ (w.getLsbD 127 = true → w.getLsbD 126 = true → w.getLsbD 125 = false → x.rxUrgent ≠ [] →
          (w.getLsbD 124 = true → (t.lport p).rxUrgent = []
            ∧ (t.lport p).rxHeld = x.rxHeld ++ [⟨x.rxStartU, x.rxUrgent ++ [w]⟩])
          ∧ (w.getLsbD 124 = false → (t.lport p).rxUrgent = x.rxUrgent ++ [w] ∧ (t.lport p).rxHeld = x.rxHeld)))
      ∧ (hdrField (frameHeader g) 97 96 ≠ (p + 2) % 4 → x.st ≠ 5 →
        (t.lport p).st = 5 ∧ t.link.bindSkews = satAdd 32 s.link.bindSkews 1) := by
  intro x t w
  obtain ⟨heq, hcheck⟩ := frame_in_no_lap (origin := origin) hp hon hpads hc ho ha hn hu
  have hin := portBecame_frameIn s p g
  obtain ⟨hst, -, hused⟩ := x.received_stands s g
  obtain ⟨_, _, _, hport⟩ := hcheck.port
  rw [hin.self] at hport
  refine ⟨?_, hcheck.slots.trans hin.slots, ?_, fun hf hne => ?_⟩
  · rw [hport]
    exact x.received_seen s g
  · rw [hport]
    exact x.received_joins s g
  · have hst' : ((s.frameIn p g).lport p).st = x.st := by rw [hin.self, hst]
    have hsend : (s.frameIn p g).canSend p = true := by rw [State.canSend, hst']; exact hc
    obtain ⟨h5, hskews⟩ := headerCheck_of_facing ((hin.portLap hused).trans hn) hsend hf (by rw [hst']; exact hne)
    obtain ⟨_, hl⟩ := hin.link
    rw [hl, ← heq] at hskews
    rw [← heq] at h5
    exact ⟨h5, hskews⟩

/-- Settles O49: a frame's capture by its slots, its reception by what its check leaves of the port, and the port's states by
what becoming UP, DOWN and ABSENT send. -/
theorem lecelPorts : Obligations.LecelPorts := by
  unfold Obligations.LecelPorts
  refine ⟨fun s p j hp hj hon hpads hcc => ?_, fun s p origin f hp hon hpads => ?_, fun s p hp => ?_⟩
  · intro g frame formed
    refine ⟨fun bad hst => ?_, fun k c hst hl hq hk => ⟨fun hfwd => ?_, fun bad n h1 h38 hb he hv => ?_⟩, fun hnone => ?_,
      fun m hc hm => ?_⟩
    · exact congrArg Host.Outcome.next (capture_of_not_up hp hj hon hpads hcc bad hst)
    · have hcap := capture_of_lap hp hj hon hpads hcc 0 hst hl hq hk
      dsimp only at hcap
      rw [hfwd, List.foldl_nil, foldl_putSlot_zero] at hcap
      exact ⟨_, congrArg Host.Outcome.next hcap, fun n f hn h38 he => Table.get_putFlits he _ _ (mem_slotNumbers.mpr ⟨hn, h38⟩),
        fun n _ _ he => Table.has_putFlits he _ _⟩
    · refine ⟨_, congrArg Host.Outcome.next (capture_of_lap hp hj hon hpads hcc bad hst hl hq hk), ?_⟩
      rw [State.slot, slots_sendsFrame]
      exact foldl_putSlot_kept hk hv hb he (mem_slotNumbers.mpr ⟨h1, h38⟩) _
    · exact transomOut_of_none hnone
    · obtain ⟨hmem, hport, hcredit, hfirst⟩ := nextFlit_spec hm
      have hg : g = _ := transomOut_of_some hc hm
      exact ⟨hmem, hport, hcredit, hfirst, congrArg Prod.fst hg, outbox_transomOut hc hm⟩
  · intro x seen
    refine ⟨?_, fun hc ho => ?_, fun hc fate hf => ⟨_, rfl, frame_while_training hp hon hpads f origin hc hf⟩,
      fun g hc ho ha hn hu => ?_, fun k c g hk hu hv ha hb ho => ?_⟩
    · obtain ⟨hstays, hleaves, hmem, hfault⟩ := frameGone_frameLost s p false
      refine ⟨_, congrArg Host.Outcome.next (frame_of_failed hp hon hpads f origin), ?_⟩
      by_cases hrun : x.authRun < 64
      · rw [hstays hrun, hmem]
        exact ⟨rfl, rfl, rfl, rfl, rfl, rfl, hfault⟩
      · obtain ⟨key, hself⟩ := hleaves (Nat.not_lt.mp hrun)
        rw [hself, hmem]
        exact ⟨rfl, rfl, rfl, rfl, rfl, rfl, hfault⟩
    · obtain ⟨hstays, hleaves, hmem, -⟩ := frameGone_frameLost s p true
      refine ⟨_, congrArg Host.Outcome.next (frame_of_unopened hp hon hpads f origin hc ho), ?_⟩
      by_cases hrun : x.authRun + 1 < 64
      · rw [hstays hrun, hmem]
        exact ⟨rfl, rfl, rfl, fun _ => ⟨rfl, rfl⟩, fun h => absurd hrun (Nat.not_lt.mpr h)⟩
      · obtain ⟨key, hself⟩ := hleaves (Nat.not_lt.mp hrun)
        rw [hself, hmem]
        exact ⟨rfl, rfl, rfl, fun h => absurd h hrun, fun _ => rfl⟩
    · exact ⟨_, rfl, frame_outside_laps hp hon hpads hc ho ha (Option.isNone_iff_eq_none.mp hn) hu⟩
    · intro h start cap hst hs haddr hf hg hpid hactive htag hlap hle hlt
      have hin := portBecame_frameIn s p g
      have hst' : ((s.frameIn p g).lport p).st = 2 := by
        rw [hin.self]
        exact ((s.lport p).received_stands s g).1.trans hst
      obtain ⟨hbound, hacross, hentry, hpid'⟩ := hin.known
      have hcheck := headerCheck_of_neighbour hst' (hbound.trans hb) hs (haddr.trans hacross.symm) hf
        (by rw [hacross, hentry]; exact hg) (hpid.trans hpid'.symm)
      have hfit : (s.frameIn p g).headerFits p k h = true := by
        simp only [State.headerFits, hst', hactive, htag, hlap, hin.slot, beq_self_eq_true, Bool.and_self]
      exact ⟨_, rfl, frame_of_fits hp hon hpads ho ha hk hv hu hcheck hst hfit hle hlt⟩
  · intro x
    refine ⟨fun d hx hd hr => congrArg Host.Outcome.next (deliverFlits_of_due hp hx hd hr),
      fun peer hst hon hpads ho hcr => ⟨fun hl => congrArg Host.Outcome.next (portUp_of_tooLong hl), fun hl => ?_⟩, fun hc hl => ?_,
      fun hl => ?_, fun a ha hst hl => ⟨_, rfl, portAbsent_changes hp ha hst hl⟩⟩
    · have hup := portUp_changes (peer := peer.toNat) hst hp hon hpads ho hcr hl
      have hstate := (PortBecame.onLport s p fun x => { x with lastFrame := s.now, peerState := peer.toNat }).trans
        (portBecame_portState _ p 2)
      rw [lport_onLport_self] at hstate
      exact ⟨_, rfl, (hup.st p).trans (by rw [hstate.self]), (hup.lastFrame p).trans (by rw [hstate.self]),
        fun q hq => (hup.st q).trans (by rw [hstate.others q hq]), hup.slots.trans hstate.slots, hup.mem.trans hstate.mem,
        hup.grid.trans hstate.grid⟩
    · have hdown : s.portDown p = s.portLeave p 3 := by simp [State.portDown, hp, hc, hl, x]
      obtain ⟨⟨key, hself⟩, hothers, hmem, -⟩ := portLeft_portLeave s p 3
      refine ⟨_, congrArg Host.Outcome.next hdown, ?_⟩
      rw [hself]
      exact ⟨rfl, rfl, rfl, rfl, rfl, rfl, hothers, hmem⟩
    · exact congrArg Host.Outcome.next (by simp [State.portDown, Nat.not_le.mpr (show s.now < (s.lport p).lastFrame + 176 from hl)])

end Sys2Proof.Machine

/-! PROOFS of the family 09_courses_and_laps: image loads, LAUNCH and HALT_AT_BOUNDARY, seals, and unseals. -/

/-! What reaches a host port: responses, vectors, and the packet that starts (R379, R384, R390 to R392, R491). -/
namespace Sys2Proof.Machine
open State

/-! Responses (R384, R391). -/

/-- A response goes to host ports alone. -/
theorem State.respond_eq (s : State) (p : Nat) (r : Response) : ∃ ports, s.respond p r = { s with ports := ports } := by
  unfold State.respond
  split <;> exact ⟨_, rfl⟩

@[simp] theorem State.slot_respond (s : State) (p : Nat) (r : Response) (k : Nat) : (s.respond p r).slot k = s.slot k := by
  obtain ⟨_, e⟩ := s.respond_eq p r
  rw [e]; rfl

@[simp] theorem State.grid_respond (s : State) (p : Nat) (r : Response) : (s.respond p r).grid = s.grid := by
  obtain ⟨_, e⟩ := s.respond_eq p r
  rw [e]

@[simp] theorem State.mem_respond (s : State) (p : Nat) (r : Response) : (s.respond p r).mem = s.mem := by
  obtain ⟨_, e⟩ := s.respond_eq p r
  rw [e]

/-- The port of a response has it after those that wait there; the other port has no part in it. -/
theorem State.port_respond (s : State) {p : Nat} (hp : p < 2) (r : Response) (o : Nat) : (s.respond p r).port o =
    if o = p then { s.port p with responses := (s.port p).responses ++ [r] } else s.port o := by
  rw [State.respond, if_neg (Nat.not_le.mpr hp)]
  split
  · subst o; exact port_onPort_self ..
  · exact port_onPort_ne s ‹_› _

@[simp] theorem State.responses_respond (s : State) {p : Nat} (hp : p < 2) (r : Response) :
    ((s.respond p r).port p).responses = (s.port p).responses ++ [r] := by
  rw [port_respond s hp, if_pos rfl]

/-! Vectors and sources (R392, R485, R491). -/

/-- What a host port holds of seals and of responses. -/
def Port.held (q : Port) : Nat × List Response := (q.sealTail, q.responses)

/-- A vector is neither. -/
theorem State.held_msix (s : State) (p v o : Nat) : ((s.msix p v).port o).held = (s.port o).held := by
  have put : ∀ x : Port, x.held = (s.port p).held → ((s.setPort p x).port o).held = (s.port o).held := fun x hx => by
    by_cases h : o = p
    · subst o; rw [port_setPort_self, hx]
    · rw [port_setPort_ne s h]
  unfold State.msix
  extract_lets q e
  split
  · rfl
  · split <;> exact put _ rfl

theorem State.held_signalled (old s : State) (t : Nat) (r : State) (o : Nat) :
    ((signalled old s t r).port o).held = (r.port o).held := by
  unfold State.signalled
  split
  · split
    · exact r.held_msix ..
    · rfl
  · rfl

/-- A source that fires posts no response and writes nothing of a seal. -/
theorem State.held_fire (s : State) (n o : Nat) : ((s.fire n).port o).held = (s.port o).held := by
  unfold State.fire
  split
  · rfl
  · unfold State.onSource
    extract_lets f u
    exact (held_signalled s u 1 _ o).trans (held_signalled s u 0 u o)

/-- From s to t HBM and the tails of the seal areas stand, and responses at most come. -/
structure State.Posted (s t : State) : Prop where
  hbm : t.mem.hbm = s.mem.hbm
  sealTail : ∀ o, (t.port o).sealTail = (s.port o).sealTail
  responses : ∀ o, ∃ later, (t.port o).responses = (s.port o).responses ++ later

namespace State.Posted
variable {s t u : State}

theorem of_held (hm : t.mem.hbm = s.mem.hbm) (h : ∀ o, (t.port o).held = (s.port o).held) : Posted s t :=
  ⟨hm, fun o => congrArg Prod.fst (h o), fun o => ⟨[], (congrArg Prod.snd (h o)).trans (List.append_nil _).symm⟩⟩

theorem of_ports (hm : t.mem.hbm = s.mem.hbm) (h : t.ports = s.ports) : Posted s t :=
  of_held hm fun o => by rw [State.port, h]; rfl

theorem refl (s : State) : Posted s s := of_ports rfl rfl

theorem trans (h : Posted s t) (h' : Posted t u) : Posted s u := by
  refine ⟨h'.hbm.trans h.hbm, fun o => (h'.sealTail o).trans (h.sealTail o), fun o => ?_⟩
  obtain ⟨a, ha⟩ := h.responses o
  obtain ⟨b, hb⟩ := h'.responses o
  exact ⟨a ++ b, by rw [hb, ha, List.append_assoc]⟩

theorem onSlot (s : State) (k : Nat) (f : Slot → Slot) : Posted s (s.onSlot k f) := of_ports rfl rfl

theorem fire (s : State) (n : Nat) : Posted s (s.fire n) := by
  refine of_held ?_ (s.held_fire n)
  obtain ⟨_, _, _, _, e⟩ := s.fire_eq n
  rw [e]

/-- A change of one port that writes nothing of a seal, and takes no response away. -/
theorem onPort (s : State) (p : Nat) {f : Port → Port} (ht : (f (s.port p)).sealTail = (s.port p).sealTail)
    (hr : ∃ later, (f (s.port p)).responses = (s.port p).responses ++ later) : Posted s (s.onPort p f) := by
  have hport : ∀ o, (s.onPort p f).port o = if o = p then f (s.port p) else s.port o := fun o => by
    split
    · subst o; exact port_onPort_self ..
    · exact port_onPort_ne s ‹_› _
  refine ⟨rfl, fun o => ?_, fun o => ?_⟩ <;> rw [hport] <;> split
  · subst o; exact ht
  · rfl
  · subst o; exact hr
  · exact ⟨[], (List.append_nil _).symm⟩

theorem respond (s : State) (p : Nat) (r : Response) : Posted s (s.respond p r) := by
  unfold State.respond
  split
  · exact refl s
  · exact onPort s p rfl ⟨_, rfl⟩

theorem answerTicket (s : State) (t : Ticket) (opcode slot status value0 value1 : Nat) (payload : List Byte) (async : Bool) :
    Posted s (s.answerTicket t opcode slot status value0 value1 payload async) := by
  unfold State.answerTicket
  extract_lets u
  have hu : Posted s u := respond ..
  split
  · exact hu.trans (onPort u _ rfl ⟨[], (List.append_nil _).symm⟩)
  · exact hu

theorem refund (s : State) (k : Nat) : Posted s (s.refund k) := by
  unfold State.refund
  split
  · exact of_ports rfl rfl
  · exact refl s

theorem foldl {α : Type} {f : State → α → State} (h : ∀ u x, Posted u (f u x)) (l : List α) (s : State) :
    Posted s (l.foldl f s) := by
  induction l generalizing s with
  | nil => exact refl s
  | cons x l ih => exact (h s x).trans (ih _)

theorem answerHalts (s : State) (k status : Nat) : Posted s (s.answerHalts k status) :=
  (foldl (fun u (h : Ticket × Bool) => answerTicket u h.1 0x31 k status (u.slot k).lapNext 0 [] false) _ s).trans (onSlot ..)

theorem endRunResponse (s : State) (k status : Nat) : Posted s (s.endRunResponse k status) := by
  unfold State.endRunResponse
  split
  · exact refl s
  · exact (answerTicket ..).trans (onSlot ..)

/-- A slot that becomes EMPTY answers a takeover that waited for it (R396). -/
theorem emptySlot (s : State) (k : Nat) : Posted s (s.emptySlot k) := by
  unfold State.emptySlot
  extract_lets x d s1 s2 g l s3 g'
  have hs1 : Posted s s1 := by
    unfold s1
    split
    · split
      · exact respond ..
      · exact of_ports rfl rfl
    · exact refl s
  have hs2 : Posted s1 s2 := (refund s1 k).trans (of_ports rfl rfl)
  have hs3 : Posted s2 s3 := of_ports rfl rfl
  have hs := hs1.trans (hs2.trans hs3)
  split
  · exact hs.trans (of_ports rfl rfl)
  · exact hs

theorem releaseFor (s : State) (k : Nat) (l : List (Ticket × Bool)) : Posted s (s.releaseFor k l) := by
  unfold State.releaseFor
  split
  · exact emptySlot s k
  · exact refl s

/-- A halt answers what waits for the slot (R285). -/
theorem haltSlot (s : State) (k : Nat) (why : HaltReason) : Posted s (s.haltSlot k why) := by
  by_cases he : (s.slot k).st = .empty
  · rw [haltSlot_of_empty why he]
    exact refl s
  · unfold State.haltSlot
    rw [if_neg (by simpa using he)]
    extract_lets s1 s2 s3 s4 s5
    have hs1 : Posted s s1 := by
      unfold s1
      split
      · exact onSlot ..
      · exact refl s
      all_goals exact (refund s k).trans (onSlot ..)
    have hs2 : Posted s1 s2 := by
      simp only [s2]
      split
      · exact answerTicket ..
      · exact refl s1
    have hs3 : Posted s2 s3 := by
      simp only [s3]
      split
      · exact fire ..
      · exact refl s2
    have hs5 : Posted s3 s5 := (onSlot ..).trans (fire ..)
    exact (hs1.trans (hs2.trans (hs3.trans hs5))).trans
      ((endRunResponse ..).trans ((answerHalts ..).trans (releaseFor ..)))

/-- So does the loss of a course's memory, or of the device (R516, R523). -/
theorem loseMemory (s : State) (k : Nat) : Posted s (s.loseMemory k) := by
  unfold State.loseMemory
  split
  · unfold State.loseDevice
    split
    · exact refl s
    · extract_lets g u
      have hu : Posted s u := of_ports rfl rfl
      exact hu.trans (foldl (fun v j => haltSlot v j .deviceLost) (List.range 8) u)
  · exact haltSlot ..

end State.Posted

/-! The packet that starts (R379, R380, R382, R384). -/

/-- A packet that starts frees its buffer: host ports alone change. -/
theorem State.startPacket_eq (s : State) (p : Nat) : ∃ ports, s.startPacket p = { s with ports := ports } := by
  unfold State.startPacket
  split
  · exact ⟨s.ports, rfl⟩
  · extract_lets free u
    split
    · obtain ⟨ports, e⟩ := u.msix_eq p 1
      exact ⟨ports, e⟩
    · exact ⟨_, rfl⟩

@[simp] theorem State.slot_startPacket (s : State) (p k : Nat) : (s.startPacket p).slot k = s.slot k := by
  obtain ⟨_, e⟩ := s.startPacket_eq p
  rw [e]; rfl

@[simp] theorem State.grid_startPacket (s : State) (p : Nat) : (s.startPacket p).grid = s.grid := by
  obtain ⟨_, e⟩ := s.startPacket_eq p
  rw [e]

@[simp] theorem State.mem_startPacket (s : State) (p : Nat) : (s.startPacket p).mem = s.mem := by
  obtain ⟨_, e⟩ := s.startPacket_eq p
  rw [e]

@[simp] theorem State.link_startPacket (s : State) (p : Nat) : (s.startPacket p).link = s.link := by
  obtain ⟨_, e⟩ := s.startPacket_eq p
  rw [e]

@[simp] theorem State.probed_startPacket (s : State) (p k : Nat) : (s.startPacket p).probed k = s.probed k := by
  obtain ⟨_, e⟩ := s.startPacket_eq p
  rw [e]; rfl

@[simp] theorem State.sealLength_startPacket (s : State) (p o : Nat) : (s.startPacket p).sealLength o = s.sealLength o := by
  obtain ⟨_, e⟩ := s.startPacket_eq p
  rw [e]; rfl

/-- The responses that wait are not touched. -/
@[simp] theorem State.responses_startPacket (s : State) (p o : Nat) :
    ((s.startPacket p).port o).responses = (s.port o).responses := by
  unfold State.startPacket
  split
  · rfl
  · extract_lets free u
    have hu : (u.port o).responses = (s.port o).responses := by
      by_cases h : o = p
      · subst o; simp [u]
      · exact congrArg Port.responses (port_onPort_ne s h _)
    split
    · exact (congrArg Prod.snd (u.held_msix p 1 o)).trans hu
    · exact hu

theorem PacketReady.port_lt {s : State} {p : Nat} {q : Pkt} (h : PacketReady s p q) : p < 2 := by
  have hmay := h.2.1
  simp only [State.mayStartPacket, Bool.and_eq_true, decide_eq_true_eq] at hmay
  exact hmay.1.1.1.1.1.1

/-- A packet that is ready is run. -/
theorem PacketReady.runPacket {s : State} {p : Nat} {q : Pkt} (h : PacketReady s p q) {kind : Pkt → Bool} (hk : kind q = true)
    (f : Pkt → State → State) : s.runPacket p kind f = f q (s.startPacket p) := by
  obtain ⟨hhead, hmay, hrefusal⟩ := h
  simp [State.runPacket, hhead, hk, hmay, hrefusal]

/-- The arguments of a packet that is ready keep to their ranges (R383). -/
theorem PacketReady.argsOk {s : State} {p : Nat} {q : Pkt} (h : PacketReady s p q) : q.argsOk = true := by
  obtain ⟨-, -, hr⟩ := h
  unfold Pkt.refusal at hr
  split_ifs at hr with _ _ _ hargs
  have hboth : q.headerOk = true ∧ q.argsOk = true := by simpa using hargs
  exact hboth.2

/-- The answer to a command that names a slot and is answered at once (R391). -/
theorem Pkt.answer_of_slot {q : Pkt} (hn : namesSlot q.opcode = true) (ha : asyncOp q.opcode = false) (st : Nat) :
    q.answer st = ⟨q.opcode, q.slot, q.tag, st, 0, 0, [], q.quiet, true, .none⟩ := by
  simp [Pkt.answer, hn, ha]

/-- Nothing of the binding refuses a packet of a BOUND device (R425, R564). -/
theorem State.bindRefusal_of_bound {s : State} (h : s.link.st = 2) : s.bindRefusal = none := by
  simp [State.bindRefusal, State.quarantined, h]

/-- Nothing refuses the owner of a slot that holds a course and is not probed (R331, R385, R394). -/
theorem State.slotRefusal_of_owner {s : State} {p k : Nat} (hst : (s.slot k).st ≠ .empty) (ho : (s.slot k).owner = p + 1)
    (hp : s.probed k = false) : s.slotRefusal p k true = none := by
  simp [State.slotRefusal, State.owns, hst, ho, hp]

end Sys2Proof.Machine

/-! Loads (R34, R262, R263, R281, R282, R385). -/
namespace Sys2Proof.Machine
open State

/-! What a load leaves of its slot (R262, R263, R282). -/

/-- From s to t no slot has changed, and the device is as lost as it was. -/
structure State.SlotsStand (s t : State) : Prop where
  slots : t.slots = s.slots
  lost : t.grid.deviceLost = s.grid.deviceLost

namespace State.SlotsStand

theorem refl (s : State) : SlotsStand s s := ⟨rfl, rfl⟩

theorem trans {s t u : State} (h : SlotsStand s t) (h' : SlotsStand t u) : SlotsStand s u :=
  ⟨h'.slots.trans h.slots, h'.lost.trans h.lost⟩

theorem slot {s t : State} (h : SlotsStand s t) (k : Nat) : t.slot k = s.slot k := congrArg (Table.get Slot.fresh k) h.slots

theorem foldl {α : Type} {f : State → α → State} (h : ∀ u x, SlotsStand u (f u x)) (l : List α) (s : State) :
    SlotsStand s (l.foldl f s) := by
  induction l generalizing s with
  | nil => exact refl s
  | cons x l ih => exact (h s x).trans (ih _)

theorem fire (s : State) (n : Nat) : SlotsStand s (s.fire n) := by
  obtain ⟨_, _, _, _, e⟩ := s.fire_eq n
  rw [e]
  exact ⟨rfl, rfl⟩

theorem countFailed (s : State) (n : Nat) : SlotsStand s (s.countFailed n) := by
  unfold State.countFailed
  split <;> exact ⟨rfl, rfl⟩

theorem reportSite (s : State) : SlotsStand s s.reportSite := by
  unfold State.reportSite
  exact ⟨(fire _ 8).slots, (fire _ 8).lost⟩

/-- A mapping is built from the sites alone (R34, R39). -/
theorem buildMapping {s t : State} {n : Nat} (h : s.buildMapping n = some t) : SlotsStand s t := by
  have hfail : SlotsStand s s.failAll := by
    unfold State.failAll
    extract_lets l g u
    have hu : SlotsStand s u := ⟨rfl, rfl⟩
    exact hu.trans (foldl (fun v m => (countFailed v m).trans (reportSite _)) l u)
  unfold State.buildMapping at h
  dsimp only at h
  split at h
  · cases h
    exact hfail.trans ⟨rfl, rfl⟩
  · cases h

theorem fillExtent (m : Memory) (s : State) (e : Extent) : SlotsStand s (s.fillExtent m e) := by
  unfold State.fillExtent
  extract_lets u
  split <;> exact ⟨rfl, rfl⟩

theorem placeCore (k : Nat) (s : State) (c : CoreRec) : SlotsStand s (s.placeCore k c) := ⟨rfl, rfl⟩

end State.SlotsStand

/-- A slot that claims what its image asks for keeps its owner (R262, R282). -/
theorem State.claimImage_changes (s : State) (k : Nat) (i : CourseInfo) (decls : List Nat) (seeds : Table (BitVec 112))
    (fills : List (Nat × List Byte)) : (s.claimImage k i decls seeds fills).grid.deviceLost = s.grid.deviceLost
      ∧ ((s.claimImage k i decls seeds fills).slot k).owner = (s.slot k).owner := by
  unfold State.claimImage
  extract_lets u base d v w i' x
  have hu : SlotsStand s u := by
    unfold u
    split
    · cases h : s.buildMapping i.rows with
      | none => exact .refl s
      | some t => exact .buildMapping h
    · exact .refl s
  have hv : SlotsStand u v := ⟨rfl, rfl⟩
  have hw : SlotsStand v w := .foldl (fun z e => .fillExtent (filled fills) z e) i.extents v
  have hs := hu.trans (hv.trans hw)
  refine ⟨hs.lost, ?_⟩
  rw [← hs.slot k]
  exact (congrArg Slot.owner (slot_setSlot_self w k { x with info := i', seeds := seeds, latched := seeds })).trans rfl

/-- An image that has passed every check leaves its slot PAUSED, unless the device treats itself as lost (R282, R325, R516). -/
theorem State.installImage_changes {s : State} (k : Nat) (recs : List CoreRec) (hd : s.grid.deviceLost = 0) :
    ((s.installImage k recs).slot k).st = .paused ∧ ((s.installImage k recs).slot k).loadJob = none
      ∧ ((s.installImage k recs).slot k).owner = (s.slot k).owner := by
  unfold State.installImage
  extract_lets u g v w
  have hv : SlotsStand s v := (SlotsStand.foldl (.placeCore k) recs s).trans ⟨rfl, rfl⟩
  have hw : w.grid.deviceLost = 0 := (SlotsStand.fire _ _).lost.trans (hv.lost.trans hd)
  have hslot : w.slot k = ((v.onSlot k (fun x => { x with st := .paused, loadJob := none })).openWindow k .load).slot k :=
    (SlotsStand.fire _ _).slot k
  rw [if_neg (by simp [hw]), hslot]
  simp [State.openWindow, hv.slot]

/-! The loader at the last chunk (R281). -/

/-- A last chunk that no check refuses installs its image, which has claimed its place with this chunk or before. -/
theorem State.loadBytes_last {s : State} {k : Nat} {j : LoadJob} (h : (s.loadBytes k j true).1 = none) :
    ∃ (u : State) (recs : List CoreRec), (s.loadBytes k j true).2 = u.installImage k recs ∧ u.grid.deviceLost = s.grid.deviceLost
      ∧ (u.slot k).owner = (s.slot k).owner := by
  revert h
  unfold State.loadBytes
  extract_lets hd whole wait
  have hwait : ∀ u : State, (wait u).1 ≠ none := fun u => by simp [wait]
  have hwhole : ∀ (u : State) recs digest, (whole u recs digest).1 = none → (whole u recs digest).2 = u.installImage k recs := by
    intro u recs digest
    simp only [whole, if_true]
    split
    · exact fun h => nomatch h
    · split
      · exact fun _ => rfl
      · exact fun h => nomatch h
  -- the header, and the walk over its sections, are whole and valid, or a check fails or bytes are missing
  split
  · exact fun h => absurd h (hwait s)
  · split
    · exact fun h => nomatch h
    · split
      · exact fun h => nomatch h
      · exact fun h => absurd h (hwait s)
      · extract_lets i recs streams
        split
        -- the image has claimed its place before
        · exact fun h => ⟨s, recs, hwhole s recs _ h, rfl, rfl⟩
        -- it claims it now, or checks 2 to 19 refuse it
        · split
          · exact fun h => nomatch h
          · split
            · exact fun h => nomatch h
            · split
              · exact fun h => nomatch h
              · split
                · exact fun h => nomatch h
                · exact fun h => ⟨_, recs, hwhole _ recs _ h, claimImage_changes ..⟩

/-! A slot that becomes EMPTY (R291, R301). -/

/-- It holds nothing, and no core is of it. -/
theorem State.emptySlot_changes (s : State) (k : Nat) :
    (s.emptySlot k).slot k = Slot.fresh ∧ ∀ c ∈ (s.emptySlot k).grid.cores, c.2.slot ≠ k := by
  unfold State.emptySlot
  extract_lets x d s1 s2 g l s3 g'
  have hslot : s3.slot k = Slot.fresh := Table.get_erase_self ..
  have hcores : ∀ c ∈ s3.grid.cores, c.2.slot ≠ k := fun c hc => by
    simpa using (List.mem_filter.mp hc).2
  split <;> exact ⟨hslot, hcores⟩

/-! The chunks of a load (R281, R385). -/

/-- An answer at once to a packet with a slot is the last response of its port. -/
theorem State.answerPacket_last (s : State) {p : Nat} (hp : p < 2) {q : Pkt} (hn : namesSlot q.opcode = true)
    (ha : asyncOp q.opcode = false) (v0 : Nat) : ((s.answerPacket p q v0 []).port p).responses =
      (s.port p).responses ++ [⟨q.opcode, q.slot, q.tag, stOK, v0, 0, [], q.quiet, true, .none⟩] := by
  rw [State.answerPacket, responses_respond s hp, Pkt.answer_of_slot hn ha]

section
variable {s : State} {p : Nat} {q : Pkt} (hs : s.link.st = 2) (hprobe : s.probed q.slot = false)
include hs hprobe

/-- The first chunk of an image goes to an EMPTY slot. -/
theorem State.loadChunk_first (ha : q.arg0 = 0) (he : (s.slot q.slot).st = .empty) : State.loadChunk p q s =
    (s.setSlot q.slot { Slot.fresh with st := .loading, owner := p + 1, confirmed := true }).feedLoader p q.slot q
      ⟨p, q.body, q.len, q.originRow, q.originCol⟩ := by
  simp [State.loadChunk, bindRefusal_of_bound hs, hprobe, ha, he]

/-- A later one goes to its owner's LOADING slot, at the offset and the origin that the load has. -/
theorem State.loadChunk_next {j : LoadJob} (hst : (s.slot q.slot).st = .loading) (ho : (s.slot q.slot).owner = p + 1)
    (hj : (s.slot q.slot).loadJob = some j) (ha : q.arg0 = j.nextOffset) (h0 : q.arg0 ≠ 0) (hr : q.originRow = j.originRow)
    (hc : q.originCol = j.originCol) : State.loadChunk p q s =
      s.feedLoader p q.slot q { j with bytes := j.bytes ++ q.body, nextOffset := j.nextOffset + q.len } := by
  rw [ha] at h0
  simp [State.loadChunk, bindRefusal_of_bound hs, hprobe, hst, State.owns, ho, hj, ha, h0, hr, hc]

/-- ABANDON empties its owner's LOADING slot, and is answered. -/
theorem State.loadAbandon_of_loading {j : LoadJob} (hst : (s.slot q.slot).st = .loading)
    (ho : (s.slot q.slot).owner = p + 1) (hj : (s.slot q.slot).loadJob = some j) :
    State.loadAbandon p q s = (s.emptySlot q.slot).answerPacket p q j.nextOffset [] := by
  simp [State.loadAbandon, bindRefusal_of_bound hs, hprobe, hst, State.owns, ho, hj]

end

/-- The loader with the bytes of a chunk: a failed check empties the slot, and a chunk that fails none is answered. -/
theorem State.feedLoader_eq (s : State) (p k : Nat) (q : Pkt) (j : LoadJob) :
    let r := (s.onSlot k (fun x => { x with loadJob := some j })).loadBytes k j q.last
    (r.1 = none → s.feedLoader p k q j = r.2.answerPacket p q j.bytes.length [])
      ∧ ∀ st, r.1 = some st → s.feedLoader p k q j = (r.2.emptySlot k).respond p (q.answer st) := by
  refine ⟨fun h => ?_, fun st h => ?_⟩ <;> simp only [State.feedLoader, h]
  rfl

/-- A chunk that brings less than a header, and is not the last, is kept (R281). -/
theorem State.loadBytes_short (s : State) (k : Nat) {j : LoadJob} (h : j.bytes.length < 128) : s.loadBytes k j false = (none, s) := by
  unfold State.loadBytes
  exact if_pos h

end Sys2Proof.Machine

/-! The image loads as commands (R281, R284, R385). -/
namespace Sys2Proof.Machine
open State

/-- The first chunk of an image, less than a header, is kept by an EMPTY slot, and answered (R281, R385). -/
theorem State.loadChunk_short {s : State} {p : Nat} (hp : p < 2) {q : Pkt} (hop : q.opcode = 0x10) (hs : s.link.st = 2)
    (hprobe : s.probed q.slot = false) (hl : q.last = false) (ha : q.arg0 = 0) (he : (s.slot q.slot).st = .empty)
    (hb : q.body.length < 128) :
    let t := State.loadChunk p q s
    (t.slot q.slot).st = .loading ∧ (t.slot q.slot).owner = p + 1
      ∧ (t.slot q.slot).loadJob = some ⟨p, q.body, q.len, q.originRow, q.originCol⟩
      ∧ (t.port p).responses = (s.port p).responses ++ [⟨0x10, q.slot, q.tag, 0, q.body.length, 0, [], q.quiet, true, .none⟩]
      ∧ t.grid = s.grid ∧ t.mem = s.mem := by
  intro t
  have hload := feedLoader_eq (s.setSlot q.slot { Slot.fresh with st := .loading, owner := p + 1, confirmed := true }) p q.slot q
    ⟨p, q.body, q.len, q.originRow, q.originCol⟩
  rw [hl, loadBytes_short _ _ hb] at hload
  have ht : t = _ := (loadChunk_first hs hprobe ha he).trans (hload.1 rfl)
  rw [ht, answerPacket_last _ hp (by rw [hop]; rfl) (by rw [hop]; rfl), hop]
  simp [State.answerPacket, stOK]

/-- The last chunk of an image ends its load: the slot is PAUSED when no check fails on a device that is not lost, and EMPTY with
that check's status when one does (R281, R284). -/
theorem State.loadChunk_final {s : State} {p : Nat} (hp : p < 2) {q : Pkt} (hop : q.opcode = 0x10) {j : LoadJob}
    (ho : (s.slot q.slot).owner = p + 1) (hlast : q.last = true)
    (hfeed : State.loadChunk p q s = s.feedLoader p q.slot q j) :
    let t := State.loadChunk p q s
    let u := (s.onSlot q.slot (fun x => { x with loadJob := some j })).loadBytes q.slot j true
    (u.1 = none → s.grid.deviceLost = 0 → (t.slot q.slot).st = .paused ∧ (t.slot q.slot).loadJob = none
        ∧ (t.slot q.slot).owner = p + 1
        ∧ ∃ l, (t.port p).responses = l ++ [⟨0x10, q.slot, q.tag, 0, j.bytes.length, 0, [], q.quiet, true, .none⟩])
      ∧ ∀ st, u.1 = some st → (t.slot q.slot).st = .empty
        ∧ ∃ l, (t.port p).responses = l ++ [⟨0x10, q.slot, q.tag, st, 0, 0, [], q.quiet, true, .none⟩] := by
  intro t u
  have hn : namesSlot q.opcode = true := by rw [hop]; rfl
  have ha : asyncOp q.opcode = false := by rw [hop]; rfl
  obtain ⟨hok, hbad⟩ := feedLoader_eq s p q.slot q j
  rw [hlast] at hok hbad
  refine ⟨fun hu hd => ?_, fun st hu => ?_⟩
  · obtain ⟨v, recs, hv, hlost, howner⟩ := loadBytes_last hu
    obtain ⟨hst, hjob, hown⟩ := installImage_changes q.slot recs (hlost.trans hd)
    have ht : t = (v.installImage q.slot recs).answerPacket p q j.bytes.length [] := by
      rw [← hv]; exact hfeed.trans (hok hu)
    have hslot : t.slot q.slot = (v.installImage q.slot recs).slot q.slot := by rw [ht]; exact slot_respond ..
    rw [hslot]
    refine ⟨hst, hjob, ?_, ((v.installImage q.slot recs).port p).responses, ?_⟩
    · rw [hown, howner, slot_onSlot_self]
      exact ho
    · rw [ht, answerPacket_last _ hp hn ha, hop]
      rfl
  · have ht : t = (u.2.emptySlot q.slot).respond p (q.answer st) := hfeed.trans (hbad st hu)
    rw [ht, slot_respond, (emptySlot_changes ..).1, responses_respond _ hp, Pkt.answer_of_slot hn ha, hop]
    exact ⟨rfl, _, rfl⟩

/-- Settles O29: the first chunk, ABANDON, and the last chunk, each as the load's own lemma has it. -/
theorem imageLoads : Obligations.ImageLoads := by
  unfold Obligations.ImageLoads
  refine ⟨fun s p q hready hop hs hprobe => ?_, fun s p q j hready hop hs hprobe hab hlast hst ho hj ha h0 hr hc => ?_⟩
  · refine ⟨fun hab hlast he ha hb => ?_, fun hab hst ho j hj => ?_⟩
    · have hrun := hready.runPacket (kind := fun q => q.opcode == 0x10 && !q.abandon && !q.last) (by simp [hop, hab, hlast])
        (State.loadChunk p)
      have h := loadChunk_short (s := s.startPacket p) hready.port_lt hop (by simpa using hs) (by simpa using hprobe) hlast ha
        (by simpa using he) hb
      refine ⟨_, congrArg Host.Outcome.next hrun, ?_⟩
      simpa using h
    · have hrun := hready.runPacket (kind := fun q => q.opcode == 0x10 && q.abandon) (by simp [hop, hab]) (State.loadAbandon p)
      have habandon := loadAbandon_of_loading (s := s.startPacket p) (by simpa using hs) (by simpa using hprobe)
        (by simpa using hst) (by simpa using ho) (by simpa using hj)
      refine ⟨_, congrArg Host.Outcome.next (hrun.trans habandon), ?_, (((s.startPacket p).emptySlot q.slot).port p).responses, ?_⟩
      · rw [State.answerPacket, slot_respond, (emptySlot_changes ..).1]
        rfl
      · rw [answerPacket_last _ hready.port_lt (by rw [hop]; rfl) (by rw [hop]; rfl), hop]
        rfl
  · have hrun := hready.runPacket (kind := fun q => q.opcode == 0x10 && !q.abandon && q.last) (by simp [hop, hab, hlast])
      (State.loadChunk p)
    have hfeed := loadChunk_next (s := s.startPacket p) (by simpa using hs) (by simpa using hprobe) (by simpa using hst)
      (by simpa using ho) (by simpa using hj) ha h0 hr hc
    obtain ⟨hok, hbad⟩ := loadChunk_final hready.port_lt hop (by simpa using ho) hlast hfeed
    exact ⟨fun hu hd => ⟨_, congrArg Host.Outcome.next hrun, hok hu (by simpa using hd)⟩,
      fun st hu => ⟨_, congrArg Host.Outcome.next hrun, hbad st hu⟩⟩

end Sys2Proof.Machine

/-! LAUNCH and HALT_AT_BOUNDARY (R284, R290, R291, R384, R394). -/
namespace Sys2Proof.Machine
open State

/-! LAUNCH (R290). -/

/-- A slot that does not stand between laps, or that a change of sites holds, does not go on (R292). -/
theorem State.resume_of_held {s : State} {k : Nat} (h : (s.slot k).stage ≠ .idle ∨ s.heldBySites k = true) : s.resume k = s := by
  unfold State.resume
  exact if_pos (by rcases h with h | h <;> simp [h])

/-- A course that runs, with no halt waiting and its run not over, is as it was once its next lap is sought (R292). -/
theorem State.resume_course {s : State} {k : Nat} (hst : (s.slot k).st = .running) (hh : (s.slot k).halt = [])
    (ho : runOver (s.slot k) = false) (ha : (s.slot k).attempt ≠ .probe) :
    HaltedStand s (s.resume k) ∧ ((s.resume k).slot k).course = (s.slot k).course := by
  by_cases hheld : (s.slot k).stage ≠ .idle ∨ s.heldBySites k = true
  · rw [resume_of_held hheld]
    exact ⟨⟨rfl, rfl, rfl, fun _ _ => rfl⟩, rfl⟩
  · obtain ⟨hstage, hsites⟩ := not_or.mp hheld
    obtain ⟨hstand, hcourse, -⟩ := resume_of_not_runOver ⟨.inl hst, not_not.mp hstage, Bool.eq_false_iff.mpr hsites, hh⟩ ho ha
    exact ⟨hstand, hcourse⟩

/-- Slot x with a run of n laps, whose ticket is t. -/
def Slot.begunRun (x : Slot) (n : Nat) (t : Ticket) : Slot :=
  { x with
    st := .running, attempt := .first, lapsLeft := n, counted := n != 0, launchTicket := some t
    attPending := false, freshRun := true }

theorem Slot.runOver_begunRun {x : Slot} (n : Nat) (t : Ticket) (h : x.lapNext ≠ 2 ^ 48) : runOver (x.begunRun n t) = false := by
  have hl : (x.lapNext == lapLimit) = false := by simpa [lapLimit] using h
  by_cases hn : n = 0 <;> simp [runOver, Slot.begunRun, hl, hn]

/-- LAUNCH of a PAUSED slot by its owner: the port has one command more under way, and the slot goes on from its boundary. -/
theorem State.launchRun_of_paused {s : State} {p : Nat} {q : Pkt} (ho : (s.slot q.slot).owner = p + 1)
    (hprobe : s.probed q.slot = false) (hst : (s.slot q.slot).st = .paused) (hl : (s.slot q.slot).lapNext ≠ 2 ^ 48) :
    launchRun p q s = ((s.onPort p (fun x => { x with async := x.async ++ [q.ticket p] })).onSlot q.slot
      (fun x => x.begunRun q.arg0 (q.ticket p))).resume q.slot := by
  have hr := slotRefusal_of_owner (by simp [hst]) ho hprobe
  have hlim : ((s.slot q.slot).lapNext == lapLimit) = false := by simpa [lapLimit] using hl
  simp only [State.launchRun, hr, hst, hlim]
  rfl

/-- It starts a run of as many laps as it asks for, whose response waits (R290). -/
theorem State.launchRun_changes {s : State} {p : Nat} {q : Pkt} (ho : (s.slot q.slot).owner = p + 1)
    (hprobe : s.probed q.slot = false) (hst : (s.slot q.slot).st = .paused) (hl : (s.slot q.slot).lapNext ≠ 2 ^ 48)
    (hh : (s.slot q.slot).halt = []) :
    HaltedStand (s.onSlot q.slot (fun x => x.begunRun q.arg0 (q.ticket p))) (launchRun p q s)
      ∧ ((launchRun p q s).slot q.slot).course = ((s.slot q.slot).begunRun q.arg0 (q.ticket p)).course := by
  rw [launchRun_of_paused ho hprobe hst hl]
  generalize hu : (s.onPort p (fun x => { x with async := x.async ++ [q.ticket p] })).onSlot q.slot
      (fun x => x.begunRun q.arg0 (q.ticket p)) = u
  have hslot : u.slot q.slot = (s.slot q.slot).begunRun q.arg0 (q.ticket p) := by rw [← hu, slot_onSlot_self, slot_onPort]
  obtain ⟨hstand, hcourse⟩ := resume_course (s := u) (k := q.slot) (by rw [hslot]; rfl) (by rw [hslot]; exact hh)
    (by rw [hslot]; exact Slot.runOver_begunRun _ _ hl) (by rw [hslot]; exact fun h => nomatch h)
  rw [hslot] at hcourse
  refine ⟨?_, hcourse⟩
  rw [← hu] at hstand ⊢
  exact ⟨hstand.grid, hstand.mem, hstand.now, hstand.halted⟩

/-! Halts at a boundary (R291). -/

/-- Once every halt that waits is answered none waits, and the course stands as it was. -/
theorem State.answerHalts_changes (s : State) (k status : Nat) :
    Beside k Slot.unasked s (s.answerHalts k status) ∧ ((s.answerHalts k status).slot k).halt = [] := by
  have hanswers : ∀ (l : List (Ticket × Bool)) (u : State), Beside k Slot.unasked u
      (l.foldl (fun u h => u.answerTicket h.1 0x31 k status (u.slot k).lapNext 0 [] false) u) := by
    intro l
    induction l with
    | nil => exact .refl
    | cons h l ih => exact fun u => (Beside.answerTicket u h.1 0x31 k status (u.slot k).lapNext 0 [] false).trans (ih _)
  unfold State.answerHalts
  exact ⟨(hanswers (s.slot k).halt s).onSlot rfl, by rw [slot_onSlot_self]⟩

/-- A slot that pauses is PAUSED with no halt waiting, and is released when one of its halts asked for it (R290, R291). -/
theorem State.pauseSlot_answered (s : State) (k : Nat) (counted : Bool) :
    ∃ u : State, s.pauseSlot k counted = u.releaseFor k (s.slot k).halt ∧ (u.slot k).st = .paused ∧ (u.slot k).halt = [] := by
  obtain ⟨-, hst, -⟩ := s.pausing_changes k
  obtain ⟨hanswer, hhalt⟩ := (s.pausing k).answerHalts_changes k stPAUSED
  obtain ⟨hrun, -, hsame⟩ := ((s.pausing k).answerHalts k stPAUSED).beside_endRunResponse k (if counted then stOK else stPAUSED)
  refine ⟨_, s.pauseSlot_eq k counted, ?_, hsame.trans hhalt⟩
  exact (congrArg (fun x => x.2.st) (hanswer.trans hrun).kept).trans hst

/-- Whether a halt takes effect at once does not depend on the halts that wait. -/
theorem State.haltNow_ask (s : State) (k : Nat) (l : List (Ticket × Bool)) :
    (s.onSlot k (fun x => { x with halt := x.halt ++ l })).haltNow k = s.haltNow k := by
  have hm : (s.onSlot k (fun x => { x with halt := x.halt ++ l })).multi k = s.multi k :=
    multi_congr (by rw [slot_onSlot_self]) (by rw [slot_onSlot_self])
  simp only [State.haltNow, hm, slot_onSlot_self]

theorem State.haltNow_running {s : State} {k : Nat} (h : s.haltNow k = true) : (s.slot k).st = .running := by
  simp only [State.haltNow, Bool.and_eq_true, beq_iff_eq] at h
  exact h.1.2

section
variable {s : State} {p : Nat} {q : Pkt} (ho : (s.slot q.slot).owner = p + 1) (hprobe : s.probed q.slot = false)
include ho hprobe

/-- A halt of a PAUSED or HALTED slot is answered at once, and releases it when it asks for that. -/
theorem State.haltCommand_of_resting (hst : (s.slot q.slot).st = .paused ∨ (s.slot q.slot).st = .halted) : haltCommand p q s =
    (s.answerPacket p q (s.slot q.slot).lapNext []).releaseFor q.slot [(q.ticket p, q.arg0 % 2 == 1)] := by
  have hr := slotRefusal_of_owner (fun h => by simp [h] at hst) ho hprobe
  rcases hst with h | h <;> simp only [State.haltCommand, hr, h]

/-- A halt of a slot that runs waits, and pauses it at once where it stands at a boundary. -/
theorem State.haltCommand_of_going (hst : (s.slot q.slot).st = .running ∨ (s.slot q.slot).st = .replaying) : haltCommand p q s =
    (let u := s.onSlot q.slot (fun x => { x with halt := x.halt ++ [(q.ticket p, q.arg0 % 2 == 1)] })
      if s.haltNow q.slot then u.pauseSlot q.slot false else u) := by
  have hr := slotRefusal_of_owner (fun h => by simp [h] at hst) ho hprobe
  rcases hst with h | h <;> simp only [State.haltCommand, hr, h, haltNow_ask]

/-- Such a halt that pauses the slot leaves it PAUSED with none waiting, and releases it when it asks for that. -/
theorem State.haltCommand_now (hnow : s.haltNow q.slot = true) (hh : (s.slot q.slot).halt = []) :
    ∃ u : State, haltCommand p q s = u.releaseFor q.slot [(q.ticket p, q.arg0 % 2 == 1)] ∧ (u.slot q.slot).st = .paused
      ∧ (u.slot q.slot).halt = [] := by
  rw [haltCommand_of_going ho hprobe (.inl (haltNow_running hnow)), hnow]
  obtain ⟨u, hu, hst, hhalt⟩ := pauseSlot_answered
    (s.onSlot q.slot (fun x => { x with halt := x.halt ++ [(q.ticket p, q.arg0 % 2 == 1)] })) q.slot false
  refine ⟨u, hu.trans ?_, hst, hhalt⟩
  rw [slot_onSlot_self, hh]
  rfl

end

theorem State.releaseFor_one (s : State) (k : Nat) (t : Ticket) (release : Bool) :
    s.releaseFor k [(t, release)] = if release then s.emptySlot k else s := by
  simp [State.releaseFor]

/-- Settles O31: LAUNCH by `State.launchRun_changes`, and each halt by what its slot is doing. -/
theorem launchAndHaltCommands : Obligations.LaunchAndHaltCommands := by
  unfold Obligations.LaunchAndHaltCommands
  intro s p q hready ho hprobe k answer waits
  have hp := hready.port_lt
  have ho' : ((s.startPacket p).slot q.slot).owner = p + 1 := by simpa using ho
  have hprobe' : (s.startPacket p).probed q.slot = false := by simpa using hprobe
  have hnow : (s.startPacket p).haltNow k = s.haltNow k := by
    obtain ⟨_, e⟩ := s.startPacket_eq p
    rw [e]; rfl
  have halts : q.opcode = 0x31 → q.arg0 = 0 →
      exec (.haltAtBoundary p) s = .next (haltCommand p q (s.startPacket p)) := fun hop ha =>
    congrArg Host.Outcome.next (hready.runPacket (kind := fun q => q.opcode == 0x31 && q.arg0 % 2 == 0)
      (by simp [hop, ha]) _)
  have releases : q.opcode = 0x31 → q.arg0 = 1 →
      exec (.haltAtBoundaryRelease p) s = .next (haltCommand p q (s.startPacket p)) := fun hop ha =>
    congrArg Host.Outcome.next (hready.runPacket (kind := fun q => q.opcode == 0x31 && q.arg0 % 2 == 1) (by simp [hop, ha]) _)
  have answered : q.opcode = 0x31 → ∀ u : State,
      u.answerPacket p q ((s.startPacket p).slot k).lapNext [] = u.respond p answer := fun hop u => by
    rw [State.answerPacket, Pkt.answer_of_slot (by rw [hop]; rfl) (by rw [hop]; rfl), hop, slot_startPacket]
    rfl
  refine ⟨fun hop hst hl hh => ?_, fun hop ha hst => ?_, fun hop hst hn => ?_, fun hop hn hh => ?_, fun hop ha hst => ?_⟩
  · have hrun := hready.runPacket (kind := fun q => q.opcode == 0x30) (by simp [hop]) (launchRun p)
    obtain ⟨hstand, hcourse⟩ := launchRun_changes ho' hprobe' (by simpa using hst) (by simpa using hl) (by simpa using hh)
    rw [slot_startPacket] at hcourse
    refine ⟨_, congrArg Host.Outcome.next hrun, congrArg CourseState.st hcourse, congrArg CourseState.lapsLeft hcourse,
      (congrArg CourseState.counted hcourse).trans ?_, congrArg CourseState.ticket hcourse,
      congrArg CourseState.lapNext hcourse, ?_, ?_⟩
    · by_cases h0 : q.arg0 = 0 <;> simp [Slot.course, Slot.begunRun, h0]
    · rw [hstand.mem]; exact congrArg MemState.hbm (mem_startPacket s p)
    · rw [hstand.grid]; exact congrArg Grid.cores (grid_startPacket s p)
  · rw [halts hop ha, haltCommand_of_resting ho' hprobe' (by simpa using hst), answered hop, releaseFor_one, ha]
    rfl
  · have hgoing := haltCommand_of_going ho' hprobe' (by simpa using hst)
    rw [hnow, hn] at hgoing
    exact ⟨fun ha => (halts hop ha).trans (by rw [hgoing, ha]; rfl), fun ha => (releases hop ha).trans (by rw [hgoing, ha]; rfl)⟩
  · obtain ⟨u, hu, hst, hhalt⟩ := haltCommand_now ho' hprobe' (hnow.trans hn) (by simpa using hh)
    rw [releaseFor_one] at hu
    refine ⟨fun ha => ⟨u, ?_, hst, hhalt⟩, fun ha => ⟨u.emptySlot k, ?_, ?_⟩⟩
    · rw [halts hop ha, hu, ha]; rfl
    · rw [releases hop ha, hu, ha]; rfl
    · rw [(emptySlot_changes u k).1]; rfl
  · have hrest := haltCommand_of_resting ho' hprobe' (by simpa using hst)
    rw [answered hop, releaseFor_one, ha] at hrest
    obtain ⟨hslot, hcores⟩ := emptySlot_changes ((s.startPacket p).respond p answer) k
    obtain ⟨later, hlater⟩ := (Posted.emptySlot ((s.startPacket p).respond p answer) k).responses p
    rw [responses_respond _ hp, responses_startPacket] at hlater
    exact ⟨_, (releases hop ha).trans (congrArg _ hrest), by rw [if_pos (by rfl), hslot]; rfl, hcores, later, hlater⟩

end Sys2Proof.Machine

/-! Seals (R294 to R297, R387). -/
namespace Sys2Proof.Machine
open State

/-! SEAL (R294). -/

/-- Port p's seal area as a seal finds it when it starts: empty (R294). -/
def State.rewindSeal (s : State) (p : Nat) : State := s.onPort p (fun x => { x with sealHead := 0, sealTail := 0 })

/-- The seal areas that a seal of port p uses, rewound: both when it is split. -/
def State.rewindSeals (s : State) (p : Nat) (split : Bool) : State :=
  if split then (s.rewindSeal 0).rewindSeal 1 else s.rewindSeal p

theorem State.rewindSeals_eq (s : State) (p : Nat) (split : Bool) : ∃ ports, s.rewindSeals p split = { s with ports := ports } := by
  unfold State.rewindSeals
  split <;> exact ⟨_, rfl⟩

theorem State.sealTail_rewindSeals (s : State) {p : Nat} (hp : p < 2) (split : Bool) :
    ((s.rewindSeals p split).port p).sealTail = 0 := by
  have hself : ∀ (u : State) (o : Nat), ((u.rewindSeal o).port o).sealTail = 0 := fun u o => by
    rw [State.rewindSeal, port_onPort_self]
  have hother : ∀ (u : State), ((u.rewindSeal 1).port 0) = u.port 0 := fun u => port_onPort_ne u (by decide) _
  unfold State.rewindSeals
  split
  · obtain rfl | rfl : p = 0 ∨ p = 1 := by omega
    · rw [hother, hself]
    · rw [hself]
  · exact hself s p

/-- Slot x with the seal j begun. -/
def Slot.sealing (x : Slot) (j : SealJob) : Slot := { x with st := .sealing, sealProgress := 0, sealJob := some j }

/-- The seal that a SEAL packet of port p starts, with all that it is to write (R296). -/
def State.sealBegun (s : State) (p : Nat) (q : Pkt) : SealJob :=
  ⟨q.arg0 % 2 == 1, q.arg0 / 2 % 2 == 1, p, q.ticket p, s.rink, 0, s.sealTodo q.slot (q.arg0 % 2 == 1), [], 0, none, none⟩

/-- SEAL of a PAUSED slot by its owner, with room for it, starts that seal. -/
theorem State.sealStart_of_paused {s : State} {p : Nat} {q : Pkt} (ho : (s.slot q.slot).owner = p + 1)
    (hprobe : s.probed q.slot = false) (hst : (s.slot q.slot).st = .paused) (hroom : 131072 ≤ s.sealLength p)
    (hsplit : (q.arg0 / 2 % 2 == 1) = true → 131072 ≤ s.sealLength (1 - p)) : sealStart p q s =
      ((s.rewindSeals p (q.arg0 / 2 % 2 == 1)).onPort p (fun x => { x with async := x.async ++ [q.ticket p] })).onSlot q.slot
        (fun x => x.sealing (s.sealBegun p q)) := by
  have hr := slotRefusal_of_owner (by simp [hst]) ho hprobe
  have hfits : (decide (s.sealLength p < 131072) || (q.arg0 / 2 % 2 == 1 && decide (s.sealLength (1 - p) < 131072))) = false := by
    by_cases h : (q.arg0 / 2 % 2 == 1) = true
    · simp [hroom, hsplit h]
    · simp [hroom, h]
  simp only [State.sealStart, hr, hst, hfits, State.sealBegun]
  generalize (q.arg0 / 2 % 2 == 1) = split
  cases split <;> rfl

/-! The records of a seal (R295, R296). -/

/-- A repair's, a rebuild's or a seal's read of a copy leaves what any read of a block leaves (R247). -/
theorem State.fetched_copyData (s : State) (errs : List BlockErr) (la j : Nat) : Fetched j s (s.copyData errs la).2 := by
  unfold State.copyData
  split
  · exact ⟨rfl, rfl, rfl, rfl, rfl, rfl⟩
  · exact (readBlock_changes s errs la j).1

theorem State.fetched_sealLine (errs : List BlockErr) (k la : Nat) (s : State) (j : Nat) : Fetched j s (sealLine errs k la s).2 := by
  unfold State.sealLine
  have hread := fetched_copyData s errs la j
  dsimp only
  split
  · exact hread
  · split
    · exact hread.trans (fetched_copyData ..)
    · exact hread
  · exact hread

theorem State.fetched_sealLines (errs : List BlockErr) (k n la : Nat) (s : State) (j : Nat) :
    Fetched j s (sealLines errs k n la s).2 := by
  induction n generalizing la s with
  | zero => exact ⟨rfl, rfl, rfl, rfl, rfl, rfl⟩
  | succ n ih =>
    have hline := fetched_sealLine errs k la s j
    unfold State.sealLines
    dsimp only
    split
    · exact hline
    · exact hline.trans (ih ..)

/-- The payload of a record is read, and nothing else changes than the counts of the reads. -/
theorem State.fetched_sealPayload (s : State) (errs : List BlockErr) (k : Nat) (job : SealJob)
    (rec : Nat × List Byte × List Nat) (j : Nat) : Fetched j s (s.sealPayload errs k job rec).2 := by
  unfold State.sealPayload
  split
  · exact fetched_sealLines ..
  · exact ⟨rfl, rfl, rfl, rfl, rfl, rfl⟩
  · exact ⟨rfl, rfl, rfl, rfl, rfl, rfl⟩

/-- A record is written to host ports alone. -/
theorem State.foldl_sealWrite_eq (record : List Byte) (l : List Nat) (s : State) :
    ∃ ports, l.foldl (sealWrite record) s = { s with ports := ports } := by
  induction l generalizing s with
  | nil => exact ⟨s.ports, rfl⟩
  | cons o l ih =>
    obtain ⟨ports, e⟩ := ih (sealWrite record s o)
    exact ⟨ports, e⟩

/-- It goes once to each port it goes to, and posts no response. -/
theorem State.held_foldl_sealWrite (record : List Byte) {l : List Nat} (hl : l.Nodup) (s : State) (o : Nat) :
    ((l.foldl (sealWrite record) s).port o).held =
      ((s.port o).sealTail + (if o ∈ l then record.length else 0), (s.port o).responses) := by
  induction l generalizing s with
  | nil => rfl
  | cons p l ih =>
    obtain ⟨hp, hl⟩ := List.nodup_cons.mp hl
    rw [List.foldl_cons, ih hl]
    by_cases h : o = p
    · subst o
      simp [sealWrite, sendHost, hp]
    · simp [sealWrite, port_onPort_ne s h, h]

/-- The ports of a record are different ones. -/
theorem State.nodup_sealPorts (j : SealJob) (type : Nat) : (State.sealPorts j type).Nodup := by
  unfold State.sealPorts
  split
  · exact List.nodup_singleton _
  · split
    · exact List.nodup_singleton _
    · split <;> simp

/-! The end of a seal (R297). -/

/-- The response to a ticket is the last of its port. -/
theorem State.responses_answerTicket (s : State) {t : Ticket} (ht : t.port < 2) (opcode slot status value0 value1 : Nat)
    (payload : List Byte) (async : Bool) :
    ((s.answerTicket t opcode slot status value0 value1 payload async).port t.port).responses =
      (s.port t.port).responses ++ [⟨opcode, slot, t.tag, status, value0, value1, payload, t.quiet, !async, .none⟩] := by
  unfold State.answerTicket
  extract_lets u
  have hu : (u.port t.port).responses = _ := responses_respond s ht _
  split
  · rw [port_onPort_self]
    exact hu
  · exact hu

/-- The end of a seal posts its response (R297). -/
theorem State.Posted.endSeal (s : State) (k status : Nat) : Posted s (s.endSeal k status) := by
  unfold State.endSeal
  split
  · exact refl s
  · next j _ =>
    extract_lets back u v
    have hv : Posted u v := by
      simp only [v]
      split
      · exact (fire ..).trans (fire ..)
      · exact fire ..
    exact ((onSlot ..).trans hv).trans (answerTicket ..)

/-- A seal of a SEALING slot ends with the slot PAUSED, and its response (R294, R297). -/
theorem State.endSeal_changes {s : State} {k : Nat} {j : SealJob} (hj : (s.slot k).sealJob = some j)
    (hst : (s.slot k).st = .sealing) (status : Nat) :
    let t := s.endSeal k status
    (t.slot k).st = .paused ∧ (t.slot k).sealJob = none ∧ t.grid = s.grid
      ∧ (j.ticket.port < 2 → (t.port j.ticket.port).responses = (s.port j.ticket.port).responses ++
          [⟨0x32, k, j.ticket.tag, status, j.seq, j.bytes, [], j.ticket.quiet, false, .none⟩]) := by
  have he : s.endSeal k status =
      (((s.onSlot k (fun x => { x with st := .paused, sealJob := none })).fireSlot k 4).fireSlot k 1).answerTicket
        j.ticket 0x32 k status j.seq j.bytes [] true := by
    simp only [State.endSeal, hj, hst]
    rfl
  generalize hu : s.onSlot k (fun x => { x with st := .paused, sealJob := none }) = u at he
  have hslot : (u.slot k).st = .paused ∧ (u.slot k).sealJob = none := by
    rw [← hu, slot_onSlot_self]
    exact ⟨rfl, rfl⟩
  have hall : Beside k id u (s.endSeal k status) := by
    rw [he]
    exact (Beside.fire u _).trans ((Beside.fire _ _).trans (.answerTicket ..))
  have hkept : (s.endSeal k status).slot k = u.slot k := hall.kept
  refine ⟨by rw [hkept]; exact hslot.1, by rw [hkept]; exact hslot.2, by rw [hall.grid, ← hu]; rfl, fun hp => ?_⟩
  rw [he, responses_answerTicket _ hp]
  have hheld := ((u.fireSlot k 4).held_fire (0x80 + 16 * k + 1) j.ticket.port).trans (u.held_fire (0x80 + 16 * k + 4) j.ticket.port)
  rw [show (((u.fireSlot k 4).fireSlot k 1).port j.ticket.port).responses = (u.port j.ticket.port).responses from
    congrArg Prod.snd hheld, ← hu]
  rfl

/-! The next record (R296, R297). -/

/-- The seal j once its record rec, with the payload pay, is written, and rest is left. -/
def SealJob.advance (j : SealJob) (rec : Nat × List Byte × List Nat) (rest : List (Nat × List Byte × List Nat)) (pay : List Byte) :
    SealJob :=
  let record := State.sealRecord j rec.1 pay
  { j with
    seq := j.seq + 1, todo := rest, written := j.written ++ record
    bytes := j.bytes + record.length * (State.sealPorts j rec.1).length }

/-- The record rec of the seal j of slot k, read as errs has it, is written to its ports, and rest is left. -/
def State.recordWritten (s : State) (errs : List BlockErr) (k : Nat) (j : SealJob) (rec : Nat × List Byte × List Nat)
    (rest : List (Nat × List Byte × List Nat)) (pay : List Byte) : State :=
  ((State.sealPorts j rec.1).foldl (sealWrite (State.sealRecord j rec.1 pay)) (s.sealPayload errs k j rec).2).onSlot k
    (fun x => { x with sealJob := some (j.advance rec rest pay), sealProgress := (j.advance rec rest pay).bytes })

/-- The seal j with an ABORT of MEMORY_LOST as the one record left (R297). -/
def SealJob.losing (j : SealJob) : SealJob :=
  { j with todo := [(0xFF, leBytes 2 stMEMORY_LOST, [])], abort := some stMEMORY_LOST }

/-- The end of the seal j of slot k; a seal that a lost line has aborted ends its course's memory too. -/
def State.sealEnds (s : State) (k : Nat) (j : SealJob) : State :=
  if j.abort == some stMEMORY_LOST then (s.endSeal k (j.abort.getD stOK)).loseMemory k else s.endSeal k (j.abort.getD stOK)

section
variable {s : State} {k : Nat} {errs : List BlockErr} {j : SealJob} {rec : Nat × List Byte × List Nat}
  {rest : List (Nat × List Byte × List Nat)} (hj : (s.slot k).sealJob = some j) (ht : j.todo = rec :: rest)
include hj ht

/-- A record waits for room at every port it goes to. -/
theorem State.sealNext_of_no_room (hr : (State.sealPorts j rec.1).all (s.sealRoom (State.sealSize rec)) = false) :
    s.sealNext k errs = s := by
  simp only [State.sealNext, hj, ht, hr]
  rfl

variable (hr : (State.sealPorts j rec.1).all (s.sealRoom (State.sealSize rec)) = true)
include hr

/-- A line that is lost leaves an ABORT to write. -/
theorem State.sealNext_of_lost (hp : (s.sealPayload errs k j rec).1 = none) :
    s.sealNext k errs = (s.sealPayload errs k j rec).2.onSlot k (fun x => { x with sealJob := some j.losing }) := by
  simp only [State.sealNext, hj, ht, hr, hp]
  rfl

/-- A record whose payload is read is written, and the last one ends the seal. -/
theorem State.sealNext_of_payload {pay : List Byte} (hp : (s.sealPayload errs k j rec).1 = some pay) : s.sealNext k errs =
    if rest = [] then (s.recordWritten errs k j rec rest pay).sealEnds k (j.advance rec rest pay)
    else s.recordWritten errs k j rec rest pay := by
  simp only [State.sealNext, hj, ht, hr, hp]
  cases rest <;> rfl

end

/-- A record written to its ports: each has it once, no response is posted, and the slot has its seal as it then is. -/
theorem State.recordWritten_changes (s : State) (errs : List BlockErr) (k : Nat) (j : SealJob) (rec : Nat × List Byte × List Nat)
    (rest : List (Nat × List Byte × List Nat)) (pay : List Byte) :
    let u := s.recordWritten errs k j rec rest pay
    u.mem.hbm = s.mem.hbm ∧ u.grid = s.grid ∧ (u.slot k).sealJob = some (j.advance rec rest pay) ∧ (u.slot k).st = (s.slot k).st
      ∧ (∀ o ∈ State.sealPorts j rec.1, (u.port o).sealTail = (s.port o).sealTail + (State.sealRecord j rec.1 pay).length)
      ∧ ∀ o, (u.port o).responses = (s.port o).responses := by
  have hread := fetched_sealPayload s errs k j rec 0
  have hheld : ∀ o, ((s.recordWritten errs k j rec rest pay).port o).held = ((s.port o).sealTail
      + (if o ∈ State.sealPorts j rec.1 then (State.sealRecord j rec.1 pay).length else 0), (s.port o).responses) := fun o => by
    rw [State.recordWritten, port_onSlot, held_foldl_sealWrite _ (nodup_sealPorts j rec.1), State.port, hread.ports]
    rfl
  obtain ⟨_, e⟩ := foldl_sealWrite_eq (State.sealRecord j rec.1 pay) (State.sealPorts j rec.1) (s.sealPayload errs k j rec).2
  have hst : ((s.sealPayload errs k j rec).2.slot k).st = (s.slot k).st := by simp only [State.slot, hread.slots]
  refine ⟨?_, ?_, ?_, ?_, fun o ho => ?_, fun o => congrArg Prod.snd (hheld o)⟩
  · rw [State.recordWritten, e]; exact hread.hbm
  · rw [State.recordWritten, e]; exact hread.grid
  · rw [State.recordWritten, slot_onSlot_self]
  · rw [State.recordWritten, slot_onSlot_self, e]; exact hst
  · exact (congrArg Prod.fst (hheld o)).trans (by rw [if_pos ho])

/-- The end of a seal writes nothing to HBM or to a seal area. -/
theorem State.posted_sealEnds (s : State) (k : Nat) (j : SealJob) : Posted s (s.sealEnds k j) := by
  unfold State.sealEnds
  split
  · exact (Posted.endSeal ..).trans (.loseMemory ..)
  · exact .endSeal ..

/-- A seal that nothing has aborted ends with OK. -/
theorem State.sealEnds_of_plain (s : State) (k : Nat) {j : SealJob} (h : j.abort = none) : s.sealEnds k j = s.endSeal k stOK := by
  simp only [State.sealEnds, h]
  rfl

/-- Settles O32: SEAL as `State.sealStart_of_paused` has it, and a record by whether there is room for it and whether its lines are
read. -/
theorem sealWritesRecords : Obligations.SealWritesRecords := by
  unfold Obligations.SealWritesRecords
  intro s p
  refine ⟨fun q hready hop ho hprobe hst hroom hroom' => ?_, fun k j rec rest errs hk hon hj ht hr => ?_,
    fun k j rec rest errs hj ht hr => ?_⟩
  · have hp := hready.port_lt
    have hrun := hready.runPacket (kind := fun q => q.opcode == 0x32) (by simp [hop]) (sealStart p)
    have harg : q.arg0 ≤ 3 := by
      have h := hready.argsOk
      simp only [Pkt.argsOk, hop, Bool.and_eq_true, decide_eq_true_eq] at h
      exact h.1
    have hfull : (q.arg0 % 2 == 1) = decide (q.arg0 % 2 = 1) := rfl
    have hsplit : (q.arg0 / 2 % 2 == 1) = decide (2 ≤ q.arg0) := by
      rw [Bool.eq_iff_iff, beq_iff_eq, decide_eq_true_eq]
      omega
    have hstart := sealStart_of_paused (s := s.startPacket p) (by simpa using ho) (by simpa using hprobe) (by simpa using hst)
      (by simpa using hroom) (fun h => by
        rw [sealLength_startPacket]
        exact hroom' (by simpa [hsplit] using h))
    refine ⟨_, congrArg Host.Outcome.next (hrun.trans hstart), ?_, ?_,
      ⟨(s.startPacket p).sealBegun p q, ?_, rfl, rfl, hfull, hsplit, rfl, rfl⟩, ?_, ?_⟩
    · rw [slot_onSlot_self]; rfl
    · rw [port_onSlot, port_onPort_self]
      exact sealTail_rewindSeals _ hp _
    · rw [slot_onSlot_self]; rfl
    · obtain ⟨_, e⟩ := (s.startPacket p).rewindSeals_eq p (q.arg0 / 2 % 2 == 1)
      rw [e]; exact mem_startPacket s p
    · obtain ⟨_, e⟩ := (s.startPacket p).rewindSeals_eq p (q.arg0 / 2 % 2 == 1)
      rw [e]; exact grid_startPacket s p
  · have hexec : exec (.sealRecordWrite k errs) s = .next (s.sealNext k errs) := by
      show Host.Outcome.next (if k < 8 && s.porterOn then s.sealNext k errs else s) = _
      rw [if_pos (by simp [hk, hon])]
    have hread := fetched_sealPayload s errs k j rec 0
    refine ⟨fun pay hp => ?_, fun hp => ?_⟩
    · have hnext := hexec.trans (congrArg _ (sealNext_of_payload hj ht hr hp))
      obtain ⟨hhbm, hgrid, hjob, hst, htail, hresponses⟩ := recordWritten_changes s errs k j rec rest pay
      by_cases hrest : rest = []
      · rw [if_pos hrest] at hnext
        have hends := posted_sealEnds (s.recordWritten errs k j rec rest pay) k (j.advance rec rest pay)
        refine ⟨_, hnext, fun o ho _ => (hends.sealTail o).trans (htail o ho), hends.hbm.trans hhbm, fun h => absurd hrest h,
          fun _ ha hsealing => ?_⟩
        rw [sealEnds_of_plain _ _ (show (j.advance rec rest pay).abort = none from ha)]
        obtain ⟨hpaused, hnone, hsame, hlast⟩ := endSeal_changes hjob (hst.trans hsealing) stOK
        refine ⟨hpaused, hnone, hsame.trans hgrid, fun hport => (hlast hport).trans ?_⟩
        rw [hresponses]
        rfl
      · rw [if_neg hrest] at hnext
        exact ⟨_, hnext, fun o ho _ => htail o ho, hhbm, fun _ => ⟨hgrid, _, hjob, rfl, rfl, rfl⟩, fun h => absurd h hrest⟩
    · refine ⟨_, hexec.trans (congrArg _ (sealNext_of_lost hj ht hr hp)), ⟨j.losing, ?_, rfl, rfl, rfl⟩, hread.ports,
        hread.hbm⟩
      rw [slot_onSlot_self]
  · show Host.Outcome.next (if k < 8 && s.porterOn then s.sealNext k errs else s) = _
    rw [sealNext_of_no_room hj ht hr, ite_self]

end Sys2Proof.Machine

/-! Unseals (R285, R299, R300, R387). -/
namespace Sys2Proof.Machine
open State

/-! The bytes of an unseal (R299). -/

/-- Bytes that make no whole header are kept. -/
theorem State.unsealAll_short {s : State} {k : Nat} {j : UnsealJob} (hj : (s.slot k).unsealJob = some j) (h : j.buf.length < 64)
    (n : Nat) : unsealAll k n s = (none, s) := by
  cases n with
  | zero => rfl
  | succ n => simp [State.unsealAll, hj, h]

/-- An unseal that has succeeded: its slot is PAUSED at HEAD's lap (R300). -/
theorem State.unsealDone_changes (s : State) (k : Nat) (j : UnsealJob) :
    ((s.unsealDone k j).slot k).st = .paused ∧ ((s.unsealDone k j).slot k).lapNext = fieldLE j.head 104 8
      ∧ ((s.unsealDone k j).slot k).unsealJob = none ∧ ((s.unsealDone k j).slot k).seedsPending = 0 := by
  have hfires : ∀ u : State, ((u.fireSlot k 4).fireSlot k 1).slot k = u.slot k := fun u =>
    ((Beside.fire (f := id) u _).trans (.fire ..)).kept
  unfold State.unsealDone
  extract_lets i cores u
  rw [hfires]
  simp [State.openWindow]

/-- An unseal of which nothing has come. -/
def UnsealJob.begun : UnsealJob := ⟨[], 0, 0, none, [], [], [], [], false⟩

/-- The unseal j once the bytes of packet q have joined its stream. -/
def UnsealJob.joined (j : UnsealJob) (q : Pkt) : UnsealJob := { j with buf := j.buf ++ q.body, nextOffset := j.nextOffset + q.len }

/-- What the whole records among them come to: a status that refuses one, and the state after them. -/
def State.unsealTaken (s : State) (k : Nat) (q : Pkt) (j : UnsealJob) : Option Nat × State :=
  unsealAll k ((j.joined q).buf.length / 64 + 1) (s.onSlot k (fun x => { x with unsealJob := some (j.joined q) }))

section
variable {s : State} {k : Nat} {q : Pkt} {j e : UnsealJob} (hu : (s.unsealTaken k q j).1 = none)
  (he : ((s.unsealTaken k q j).2.slot k).unsealJob = some e)
include hu he

/-- A packet that is not the last is answered. -/
theorem State.feedUnseal_more (p : Nat) (hl : q.last = false) :
    s.feedUnseal p k q j = (s.unsealTaken k q j).2.answerPacket p q e.nextOffset [] := by
  unfold State.unsealTaken UnsealJob.joined at hu he
  simp only [State.feedUnseal, hu, he, hl]
  rfl

/-- With its TRAILER accepted and no byte left over, the unseal succeeds with its last packet. -/
theorem State.feedUnseal_done (p : Nat) (hl : q.last = true) (ht : e.trailer = true) (hb : e.buf = []) :
    s.feedUnseal p k q j = ((s.unsealTaken k q j).2.unsealDone k e).answerPacket p q e.nextOffset [] := by
  unfold State.unsealTaken UnsealJob.joined at hu he
  simp only [State.feedUnseal, hu, he, hl, ht, hb]
  rfl

/-- Without its TRAILER it halts the slot. -/
theorem State.feedUnseal_incomplete (p : Nat) (hl : q.last = true) (ht : e.trailer = false) : s.feedUnseal p k q j =
    ((s.unsealTaken k q j).2.haltSlot k .unsealFailed).respond p (q.answer stSEAL_INCOMPLETE) := by
  unfold State.unsealTaken UnsealJob.joined at hu he
  simp only [State.feedUnseal, hu, he, hl, ht]
  rfl

end

/-! The packets of an unseal (R299, R300, R387). -/

section
variable {s : State} {p : Nat} {q : Pkt} (hs : s.link.st = 2) (ho : (s.slot q.slot).owner = p + 1)
  (hprobe : s.probed q.slot = false)
include hs ho hprobe

/-- The first packet begins an unseal on a PAUSED slot that has completed no lap. -/
theorem State.unsealChunk_first (ha : q.arg0 = 0) (hst : (s.slot q.slot).st = .paused) (hd : (s.slot q.slot).lapsDone = 0) :
    unsealChunk p q s = (s.onSlot q.slot (fun x => { x with st := .unsealing })).feedUnseal p q.slot q .begun := by
  have hr := slotRefusal_of_owner (by simp [hst]) ho hprobe
  simp [State.unsealChunk, UnsealJob.begun, bindRefusal_of_bound hs, hr, hst, ha, hd]

/-- A later one joins the stream at the offset that it has. -/
theorem State.unsealChunk_next {j : UnsealJob} (hst : (s.slot q.slot).st = .unsealing)
    (hj : (s.slot q.slot).unsealJob = some j) (ha : q.arg0 = j.nextOffset) : unsealChunk p q s = s.feedUnseal p q.slot q j := by
  have hr := slotRefusal_of_owner (by simp [hst]) ho hprobe
  simp [State.unsealChunk, bindRefusal_of_bound hs, hr, hst, hj, ha]

/-- ABANDON halts the slot, and is answered. -/
theorem State.unsealAbandon_of_unsealing (hst : (s.slot q.slot).st = .unsealing) : State.unsealAbandon p q s =
    (s.haltSlot q.slot .unsealFailed).answerPacket p q (((s.slot q.slot).unsealJob.map (fun j => j.nextOffset)).getD 0) [] := by
  have hr := slotRefusal_of_owner (by simp [hst]) ho hprobe
  simp [State.unsealAbandon, bindRefusal_of_bound hs, hr, hst]

/-- A first packet that brings no whole header leaves its slot UNSEALING with the bytes kept. -/
theorem State.unsealChunk_short (ha : q.arg0 = 0) (hst : (s.slot q.slot).st = .paused) (hd : (s.slot q.slot).lapsDone = 0)
    (hl : q.last = false) (hb : q.body.length < 64) :
    let t := unsealChunk p q s
    (t.slot q.slot).st = .unsealing
      ∧ (∃ j, (t.slot q.slot).unsealJob = some j ∧ j.buf = q.body ∧ j.nextOffset = q.len)
      ∧ t.mem = s.mem ∧ t.grid = s.grid := by
  intro t
  generalize hw : (s.onSlot q.slot (fun x => { x with st := .unsealing })).onSlot q.slot
    (fun x => { x with unsealJob := some (UnsealJob.begun.joined q) }) = w
  have hslot : (w.slot q.slot).st = .unsealing ∧ (w.slot q.slot).unsealJob = some (UnsealJob.begun.joined q) := by
    rw [← hw, slot_onSlot_self, slot_onSlot_self]
    exact ⟨rfl, rfl⟩
  have htaken : (s.onSlot q.slot (fun x => { x with st := .unsealing })).unsealTaken q.slot q .begun = (none, w) := by
    rw [State.unsealTaken, hw]
    exact unsealAll_short hslot.2 hb _
  have hmore := feedUnseal_more (congrArg Prod.fst htaken) (by rw [htaken]; exact hslot.2) p hl
  rw [htaken] at hmore
  rw [show t = _ from (unsealChunk_first hs ho hprobe ha hst hd).trans hmore, State.answerPacket, slot_respond, mem_respond, grid_respond, ← hw]
  rw [← hw] at hslot
  exact ⟨hslot.1, ⟨_, hslot.2, rfl, Nat.zero_add _⟩, rfl, rfl⟩

end

/-- A slot that holds a course halts with the reason given, when no halt waits for it. -/
theorem State.slot_haltSlot {s : State} {k : Nat} (why : HaltReason) (hst : (s.slot k).st ≠ .empty) (hh : (s.slot k).halt = []) :
    ((s.haltSlot k why).slot k).st = .halted ∧ ((s.haltSlot k why).slot k).reason = why := by
  obtain ⟨-, -, hhalted, hreason, -⟩ := haltSlot_changes why hst hh
  exact ⟨hhalted, hreason⟩

/-- Settles O33: the first packet, the last one by its TRAILER, and ABANDON. -/
theorem unsealSequence : Obligations.UnsealSequence := by
  unfold Obligations.UnsealSequence
  intro s p q hready hop hs ho hprobe k
  have hs' : (s.startPacket p).link.st = 2 := by simpa using hs
  have ho' : ((s.startPacket p).slot q.slot).owner = p + 1 := by simpa using ho
  have hprobe' : (s.startPacket p).probed q.slot = false := by simpa using hprobe
  refine ⟨fun hab hlast ha hst hd hb => ?_, fun j hab hlast hst hj ha => ?_, fun hab hst hh => ?_⟩
  · have hrun := hready.runPacket (kind := fun q => q.opcode == 0x33 && !q.abandon && !q.last) (by simp [hop, hab, hlast])
      (unsealChunk p)
    have h := unsealChunk_short hs' ho' hprobe' ha (by simpa using hst) (by simpa using hd) hlast hb
    rw [mem_startPacket, grid_startPacket] at h
    exact ⟨_, congrArg Host.Outcome.next hrun, h⟩
  · have hrun := (hready.runPacket (kind := fun q => q.opcode == 0x33 && !q.abandon && q.last) (by simp [hop, hab, hlast])
      (unsealChunk p)).trans (unsealChunk_next hs' ho' hprobe' (by simpa using hst) (by simpa using hj) ha)
    refine ⟨fun e hu he ht hb => ?_, fun e hu he ht hh hst => ?_⟩
    · refine ⟨_, congrArg Host.Outcome.next (hrun.trans (feedUnseal_done hu he p hlast ht hb)), ?_⟩
      rw [State.answerPacket, slot_respond]
      exact unsealDone_changes ..
    · refine ⟨_, congrArg Host.Outcome.next (hrun.trans (feedUnseal_incomplete hu he p hlast ht)), ?_⟩
      rw [slot_respond]
      exact slot_haltSlot .unsealFailed (ne_of_eq_of_ne hst (by decide)) hh
  · have hrun := hready.runPacket (kind := fun q => q.opcode == 0x33 && q.abandon) (by simp [hop, hab]) (State.unsealAbandon p)
    have hst' : ((s.startPacket p).slot q.slot).st = .unsealing := by simpa using hst
    refine ⟨_, congrArg Host.Outcome.next (hrun.trans (unsealAbandon_of_unsealing hs' ho' hprobe' hst')), ?_⟩
    rw [State.answerPacket, slot_respond]
    exact slot_haltSlot .unsealFailed (ne_of_eq_of_ne hst' (by decide)) (by simpa using hh)

end Sys2Proof.Machine

/-! PROOFS of the family 10_determinism_and_replay: MOGUL_RUN and ATTEST, and the members of a pair. -/

/-! MOGUL_RUN and ATTEST (R326, R327, R329, R349, R350, R389). -/
namespace Sys2Proof.Machine
open State

@[simp] theorem State.slots_startPacket (s : State) (p : Nat) : (s.startPacket p).slots = s.slots := by
  obtain ⟨_, e⟩ := s.startPacket_eq p
  rw [e]

@[simp] theorem State.mogul_startPacket (s : State) (p : Nat) : (s.startPacket p).mogul = s.mogul := by
  obtain ⟨_, e⟩ := s.startPacket_eq p
  rw [e]

/-! A run of the annealer (R348, R350, R354). -/

/-- The initial spins take free values at most. -/
theorem State.initSpins_eq (s : State) (g init : Nat) : ∃ fresh, (s.initSpins g init).2 = { s with fresh := fresh } := by
  unfold State.initSpins
  split
  · exact ⟨s.fresh, rfl⟩
  · split
    · exact ⟨_, rfl⟩
    · exact ⟨s.fresh, rfl⟩

/-- A run stands with the lattice that its geometry keeps it at. -/
theorem State.setRun_eq (s : State) (g : Nat) (r : Option MogulRun) : ∃ runW runE,
    s.setRun g r = { s with mogul := { s.mogul with runW := runW, runE := runE } } := by
  unfold State.setRun
  split
  · exact ⟨s.mogul.runW, _, rfl⟩
  · exact ⟨_, s.mogul.runE, rfl⟩

/-- A run that starts is counted and takes the lattices of its geometry; courses, memory and grid stand. -/
theorem State.startMogul_changes (s : State) (bs : List Byte) (ticket : Ticket) :
    let t := s.startMogul bs ticket
    t.mogul.runs = satAdd 32 s.mogul.runs 1 ∧ t.mogul.refused = s.mogul.refused
      ∧ (fieldLE bs 0 1 ≠ 1 → t.mogul.latW = 1) ∧ (fieldLE bs 0 1 ≠ 0 → t.mogul.latE = 1)
      ∧ t.slots = s.slots ∧ t.mem = s.mem ∧ t.grid = s.grid := by
  unfold State.startMogul
  extract_lets g i sp e0 r u mogul t
  have hu : u = ((i.2.setRun g (some r)).setLattices g 1).setProgress g 0 := rfl
  obtain ⟨fresh, hi⟩ := s.initSpins_eq g (fieldLE bs 2 1)
  obtain ⟨runW, runE, hrun⟩ := i.2.setRun_eq g (some r)
  rw [hrun, show i.2 = _ from hi] at hu
  clear_value u
  subst hu
  exact ⟨rfl, rfl, fun h => if_neg (by simpa using h), fun h => if_neg (by simpa using h), rfl, rfl, rfl⟩

/-- MOGUL_RUN that nothing refuses starts its run. -/
theorem State.mogulCommand_accepted {s : State} {q : Pkt} (h : s.mogulRefusal q.body (stCheck 8) = none) (p : Nat) :
    s.mogulCommand p q =
      (s.onPort p (fun x => { x with async := x.async ++ [q.ticket p] })).startMogul q.body (q.ticket p) := by
  unfold State.mogulCommand
  rw [h]

/-! Trailers (R326, R327, R329). -/

/-- The key block that begins a signature changes by itself alone. -/
theorem State.startSigning_eq (s : State) : ∃ sec, s.startSigning = { s with sec := sec } := by
  unfold State.startSigning
  split
  · exact ⟨s.sec, rfl⟩
  · split
    · exact ⟨s.sec, rfl⟩
    · exact ⟨_, rfl⟩

/-- A response with a trailer reaches host ports and the key block alone. -/
theorem State.respondSigned_eq (s : State) (p : Nat) (r : Response) (message : List Byte) : ∃ ports sec,
    s.respondSigned p r message = { s with ports := ports, sec := sec } := by
  unfold State.respondSigned
  split
  · exact ⟨s.ports, s.sec, rfl⟩
  · split
    · obtain ⟨ports, h⟩ := s.respond_eq p { r with trailer := .ready (message ++ List.replicate 96 0) }
      exact ⟨ports, s.sec, h⟩
    · extract_lets u
      obtain ⟨ports, h⟩ := s.respond_eq p { r with trailer := .signing }
      obtain ⟨sec, hsec⟩ := State.startSigning_eq { u with sec := { u.sec with sigQueue := u.sec.sigQueue ++ [.trailer p message] } }
      refine ⟨ports, sec, ?_⟩
      rw [hsec, show u = _ from h]

/-- Slot x once a trailer has been issued: ATT_SEQ counts it, and the running digests restart (R327, R328). -/
def Slot.attested (x : Slot) : Slot := { x with attSeq := x.attSeq + 1, inputRecs := [], seedRecs := [], strictHeld := true }

/-- ATTEST of a slot that holds a course, and is not probed, answers with the trailer issued for it. -/
theorem State.attestCommand_issued {s : State} {q : Pkt} (he : (s.slot q.slot).st ≠ .empty) (hl : (s.slot q.slot).st ≠ .loading)
    (hprobe : s.probed q.slot = false) (p : Nat) : s.attestCommand p q =
      (s.onSlot q.slot Slot.attested).respondSigned p (q.answer stOK) (s.trailerBytes q.slot q.body (2 ^ 64 - 1)) := by
  have hrefusal : s.slotRefusal p q.slot false = none := by simp [State.slotRefusal, he, hprobe]
  simp only [State.attestCommand, hrefusal]
  exact if_neg (by simpa using hl)

/-- Settles O34: an accepted run as `State.startMogul_changes` has it; a trailer advances its slot's ATT_SEQ, and its response
changes nothing of courses, memory and grid. -/
theorem mogulRunAndAttest : Obligations.MogulRunAndAttest := by
  unfold Obligations.MogulRunAndAttest
  intro s p q hready
  refine ⟨fun hop haccepted => ?_, fun hop he hl hprobe => ?_⟩
  · have hrun := (hready.runPacket (kind := fun q => q.opcode == 0x40) (by simp [hop]) (State.mogulCommand p)).trans
      (mogulCommand_accepted haccepted p)
    have h := ((s.startPacket p).onPort p (fun x => { x with async := x.async ++ [q.ticket p] })).startMogul_changes q.body (q.ticket p)
    simp only [onPort_mogul, onPort_slots, onPort_mem, onPort_grid, mogul_startPacket, slots_startPacket, mem_startPacket,
      grid_startPacket] at h
    exact ⟨_, congrArg Host.Outcome.next hrun, h⟩
  · have hrun := (hready.runPacket (kind := fun q => q.opcode == 0x60) (by simp [hop]) (State.attestCommand p)).trans
      (attestCommand_issued (by simpa using he) (by simpa using hl) (by simpa using hprobe) p)
    obtain ⟨ports, sec, hsigned⟩ := State.respondSigned_eq ((s.startPacket p).onSlot q.slot Slot.attested) p (q.answer stOK)
      ((s.startPacket p).trailerBytes q.slot q.body (2 ^ 64 - 1))
    have hslot : ((s.startPacket p).onSlot q.slot Slot.attested).slot q.slot = (s.slot q.slot).attested := by simp
    refine ⟨_, congrArg Host.Outcome.next (hrun.trans hsigned), ?_⟩
    refine ⟨congrArg Slot.attSeq hslot, congrArg Slot.inputRecs hslot, congrArg Slot.seedRecs hslot,
      (congrArg Slot.lapNext hslot :), mem_startPacket s p, grid_startPacket s p⟩

end Sys2Proof.Machine

/-! The members of a pair (R291, R292, R324): a member that goes on alone may become EMPTY in the same cycle, when a
HALT_AT_BOUNDARY with RELEASE waits for the boundary that its partner's silence held up. -/
namespace Sys2Proof.Machine
open State

/-- A slot that pauses is EMPTY when one of the halts that wait for it asks for its release (R291). -/
theorem State.slot_pauseSlot_of_release {s : State} {k : Nat} (counted : Bool) (h : (s.slot k).halt.any (fun x => x.2) = true) :
    (s.pauseSlot k counted).slot k = Slot.fresh := by
  rw [pauseSlot_eq, State.releaseFor, if_pos h]
  exact (emptySlot_changes ..).1

/-- Slot 0 of the even member of a pair on a torus of one row and two columns. It has completed lap 0 at cycle 0 and sent its
digest, the partner's has not come, and HALT_AT_BOUNDARY with RELEASE waits for the boundary. -/
def releaseAwaitingPartner : State := { State.reset with
  now := 10240
  link := { LinkState.reset with st := 2, rows := 1, cols := 2 }
  slots := [(0, { Slot.fresh with
    st := .running, info := { CourseInfo.none with pairs := true, devRows := 1, devCols := 1 }, lapNext := 1, lapsDone := 1
    pairState := 1, pairSent := some (0, 6144, [], false), provisional := some ⟨0, 0, [], (0, [])⟩
    halt := [(⟨0, 0, false⟩, true)] })] }

/-- The member of `releaseAwaitingPartner` once it has taken its partner for lost and confirmed lap 0 alone (R324). -/
def releaseConfirmedAlone : State :=
  ((releaseAwaitingPartner.onSlot 0 (fun x => { x with lostAddrs := [1] })).enterSolo 0).onSlot 0
    (fun x => { x with confirmed := true, pairMiss := 0 })

/-- Its layout holds no other device now, so that the halt applies at this boundary (R291, R292 step 4). -/
theorem pairExpires_releaseAwaitingPartner :
    releaseAwaitingPartner.pairExpires 0 = releaseConfirmedAlone.pauseSlot 0 false := by
  rfl

/-- Refutes O52: in `releaseAwaitingPartner` the partner's silence has the member confirm its lap alone, and the halt that
waits for the boundary then releases the slot, which is EMPTY and not SOLO. The clause asks nothing of the halts that wait. -/
theorem not_agreementAndPairs : ¬ Obligations.AgreementAndPairs := by
  intro h
  obtain ⟨-, hpairs⟩ := h
  obtain ⟨-, -, hexpiry⟩ := hpairs releaseAwaitingPartner 0 (by decide) rfl
  obtain ⟨t, hexec, hsolo, -⟩ := hexpiry rfl (by decide) rfl rfl (by decide) (by decide) (by decide)
  have ht : t = releaseConfirmedAlone.pauseSlot 0 false :=
    (Host.Outcome.next.inj hexec).symm.trans pairExpires_releaseAwaitingPartner
  have hempty : t.slot 0 = Slot.fresh := ht ▸ slot_pauseSlot_of_release false rfl
  rw [hempty] at hsolo
  exact absurd hsolo (by decide)

end Sys2Proof.Machine

/-! PROOFS of the family 11_mogul_annealer: MOGUL_STOP, PROBLEM_ROW, and the annealer's own events. -/

/-! MOGUL_STOP (R350, R355). -/
namespace Sys2Proof.Machine
open State

/-- Run r once MOGUL_STOP has been written with value v: bit 0 names lattice W, and bit 1 lattice E. -/
def MogulRun.stopped (v : BitVec 8) (r : MogulRun) : MogulRun :=
  if ((v.getLsbD 0 = true ∧ r.geom ≠ 1) ∨ (v.getLsbD 1 = true ∧ r.geom ≠ 0)) ∧ r.ended = false
  then { r with stopping := some (r.stopping.getD stMOGUL_STOPPED) } else r

theorem MogulRun.stopped_zero (r : MogulRun) : r.stopped 0 = r := if_neg (by simp)

theorem State.mogulStop_eq (s : State) (v : BitVec 8) : s.mogulStop v = { s with mogul := { s.mogul with
    runW := s.mogul.runW.map (MogulRun.stopped v), runE := s.mogul.runE.map (MogulRun.stopped v) } } := by
  have hstop (r : MogulRun) : (if (v.getLsbD 0 && r.geom != 1) || (v.getLsbD 1 && r.geom != 0) then
      r.stopBy stMOGUL_STOPPED else r) = r.stopped v := by
    cases he : r.ended <;> simp [MogulRun.stopBy, MogulRun.stopped, he]
  rw [State.mogulStop]
  simp only [hstop]

/-- A write that names no lattice has no effect. -/
theorem State.mogulStop_zero (s : State) : s.mogulStop 0 = s := by
  have hid : MogulRun.stopped 0 = id := funext MogulRun.stopped_zero
  rw [mogulStop_eq, hid, Option.map_id, id, id]

theorem exec_mogulStop {s : State} {v : Path} {x : BitVec 8} (h : s.accepts v 0x4800 3 (leBytes 1 x.toNat) = true) :
    exec (.mogulStop v x) s = .next ((s.mogulStop x).answered 0 []) := by
  have hx : BitVec.ofNat 8 (ofLE (leBytes 1 x.toNat)) = x := by rw [ofLE_leBytes_one, BitVec.ofNat_toNat, BitVec.setWidth_eq]
  have hw : s.writeOwn v 0x4800 3 (leBytes 1 x.toNat) none = (some stOK, s.mogulStop x) :=
    congrArg (fun y => (s.mogulStop y).wrote) hx
  exact congrArg Host.Outcome.next (accessWrite_eq_answered h hw)

end Sys2Proof.Machine

/-! PROBLEM_ROW (R354, R355). -/
namespace Sys2Proof.Machine
open State

/-- The record of spin u in the bytes of a row (R336). -/
def rowRecord (b : List Byte) (u : Nat) : BitVec 32 := BitVec.ofNat 32 (fieldLE b (4 * u) 4)

/-- The cells with record u of a row's bytes, the row's first cell at base; a record of zero is not listed. -/
def putRecord (b : List Byte) (base : Nat) (t : Table (BitVec 32)) (u : Nat) : Table (BitVec 32) :=
  if rowRecord b u == 0 then Table.erase (base + u) t else Table.put (base + u) (rowRecord b u) t

section
variable (b : List Byte) {base u i : Nat}

theorem get_putRecord_self (t : Table (BitVec 32)) : Table.get 0 (base + u) (putRecord b base t u) = rowRecord b u := by
  unfold putRecord
  split
  · next hzero => rw [Table.get_erase_self, eq_of_beq hzero]
  · exact Table.get_put_self ..

theorem get_putRecord_ne (h : i ≠ base + u) (t : Table (BitVec 32)) :
    Table.get 0 i (putRecord b base t u) = Table.get 0 i t := by
  unfold putRecord
  split
  · exact Table.get_erase_ne _ h _
  · exact Table.get_put_ne _ h ..

/-- A cell outside the records put stands. -/
theorem get_foldl_putRecord_out (l : List Nat) (t : Table (BitVec 32)) (h : ∀ u ∈ l, i ≠ base + u) :
    Table.get 0 i (l.foldl (putRecord b base) t) = Table.get 0 i t := by
  induction l generalizing t with
  | nil => rfl
  | cons u l ih =>
    rw [List.forall_mem_cons] at h
    rw [List.foldl_cons, ih _ h.2, get_putRecord_ne b h.1]

/-- The cell of a record put holds it. -/
theorem get_foldl_putRecord_in (l : List Nat) (t : Table (BitVec 32)) (h : u ∈ l) :
    Table.get 0 (base + u) (l.foldl (putRecord b base) t) = rowRecord b u := by
  induction l generalizing t with
  | nil => cases h
  | cons u' l ih =>
    by_cases hl : u ∈ l
    · exact ih _ hl
    · obtain rfl : u = u' := (List.mem_cons.mp h).resolve_right hl
      have hout : ∀ u' ∈ l, base + u ≠ base + u' := fun u' hu' e => hl (Nat.add_left_cancel e ▸ hu')
      rw [List.foldl_cons, get_foldl_putRecord_out b l _ hout, get_putRecord_self]

end

/-- The state once a row of an idle lattice has been written: its records stand, and the final state of the lattice's last run,
and of the last run on both, is no longer one to begin from (R354). -/
def State.rowWritten (s : State) (lat row : Nat) (b : List Byte) : State := { s with mogul := { s.mogul with
  cells := (List.range 256).foldl (putRecord b (65536 * lat + 256 * row)) s.mogul.cells
  prevW := if lat == 0 then none else s.mogul.prevW
  prevE := if lat == 1 then none else s.mogul.prevE
  prevJ := none } }

section
variable (s : State) (b : List Byte) {lat row : Nat}

theorem State.problem_rowWritten (l i : Nat) : (s.rowWritten lat row b).problem l i =
    Table.get 0 (65536 * l + i) ((List.range 256).foldl (putRecord b (65536 * lat + 256 * row)) s.mogul.cells) := by
  rw [State.problem, State.rowWritten]

theorem State.problem_rowWritten_in {u : Nat} (hu : u < 256) :
    (s.rowWritten lat row b).problem lat (256 * row + u) = rowRecord b u := by
  rw [problem_rowWritten, ← Nat.add_assoc]
  exact get_foldl_putRecord_in b (List.range 256) s.mogul.cells (List.mem_range.mpr hu)

theorem State.problem_rowWritten_out {l i : Nat} (hi : i < 65536) (hrow : row < 256) (h : l ≠ lat ∨ i / 256 ≠ row) :
    (s.rowWritten lat row b).problem l i = s.problem l i := by
  have hout : ∀ u ∈ List.range 256, 65536 * l + i ≠ 65536 * lat + 256 * row + u := fun u hu => by
    have hu256 := List.mem_range.mp hu
    omega
  exact (s.problem_rowWritten b l i).trans (get_foldl_putRecord_out b (List.range 256) s.mogul.cells hout)

end

theorem exec_problemRow {s : State} {v : Path} {lat row : Nat} {b : List Byte} (hlat : lat < 2) (hrow : row < 256)
    (h : s.accepts v (0x4810 + lat) row b = true) (hidle : (if lat = 0 then s.mogul.latW else s.mogul.latE) = 0) :
    exec (.problemRow v lat row b) s = .next ((s.rowWritten lat row b).answered 0 []) := by
  have hown : s.writeOwn v (0x4810 + lat) row b none = s.writeRow lat row b :=
    match lat, hlat with
    | 0, _ => rfl
    | 1, _ => rfl
  have hw : s.writeRow lat row b = (some stOK, s.rowWritten lat row b) := by
    rw [State.writeRow, if_neg (by simpa using hidle)]
    rfl
  have hexec : exec (.problemRow v lat row b) s = .next (s.accessWrite v (0x4810 + lat) row b) := by
    change execProblemRow v lat row b s = _
    simp [execProblemRow, among, hlat, hrow]
  rw [hexec, accessWrite_eq_answered h (hown.trans hw)]
  rfl

end Sys2Proof.Machine

/-! The runs in progress: what an event of the annealer makes of the run of its lattice (R343 to R350). -/
namespace Sys2Proof.Machine
open State

/-- From s to t the run of geometry g becomes r; the problem and memory stand. -/
structure RunBecomes (g : Nat) (r : Option MogulRun) (s t : State) : Prop where
  runW : t.mogul.runW = if g = 1 then s.mogul.runW else r
  runE : t.mogul.runE = if g = 1 then r else s.mogul.runE
  cells : t.mogul.cells = s.mogul.cells
  mem : t.mem = s.mem

namespace RunBecomes
variable {g : Nat} {r : Option MogulRun} {s t u : State}

theorem setRun (s : State) (g : Nat) (r : Option MogulRun) : RunBecomes g r s (s.setRun g r) := by
  by_cases hg : g = 1
  · simp only [State.setRun, hg]
    exact ⟨rfl, rfl, rfl, rfl⟩
  · have hne : (g == 1) = false := by simpa using hg
    simp only [State.setRun, hne]
    exact ⟨(if_neg hg).symm, (if_neg hg).symm, rfl, rfl⟩

/-- What leaves the runs, the problem and memory as they are keeps it. -/
theorem kept (h : RunBecomes g r s t) (hrunW : u.mogul.runW = t.mogul.runW) (hrunE : u.mogul.runE = t.mogul.runE)
    (hcells : u.mogul.cells = t.mogul.cells) (hmem : u.mem = t.mem) : RunBecomes g r s u :=
  ⟨hrunW.trans h.runW, hrunE.trans h.runE, hcells.trans h.cells, hmem.trans h.mem⟩

theorem setLattices (h : RunBecomes g r s t) (g' st : Nat) : RunBecomes g r s (t.setLattices g' st) := h.kept rfl rfl rfl rfl

theorem ended (h : RunBecomes g none s t) : (if g = 1 then t.mogul.runE else t.mogul.runW) = none := by
  split
  · next hg => rw [h.runE, if_pos hg]
  · next hg => rw [h.runW, if_neg hg]

/-- The lattice that found a run finds what the run of its geometry has become. -/
theorem runOf {lat : Nat} {q r : MogulRun} (h : RunBecomes q.geom (some r) s t) (hq : s.runOf lat = some q) (hlat : lat < 2)
    (hg : q.geom = lat ∨ q.geom = 2) (hr : r.geom = q.geom) : t.runOf lat = some r := by
  obtain ⟨hrunW, hrunE, -, -⟩ := h
  match lat, hlat with
  | 0, _ =>
    have hne : q.geom ≠ 1 := by omega
    exact hrunW.trans (if_neg hne)
  | 1, _ =>
    rcases hg with hg | hg
    · rw [if_pos hg] at hrunW hrunE
      cases hrun : s.mogul.runW with
      | none => simp [State.runOf, hrunW, hrunE, hrun]
      | some w =>
        have hw : w.geom ≠ 2 := fun hw => by
          have hqw : w = q := by simpa [State.runOf, hrun, hw] using hq
          rw [hqw, hg] at hw
          cases hw
        simp [State.runOf, hrunW, hrunE, hrun, hw]
    · rw [hg] at hrunW hr
      simp [State.runOf, hrunW, hr]

end RunBecomes

/-! A sweep (R343, R344). -/

/-- Run r once its next sweep, with noise n, has ended in the cycle now. -/
def MogulRun.swept (pb : Problem) (now : Nat) (n : SweepNoise) (r : MogulRun) : MogulRun :=
  let sp := sweepSpins pb r.geom r.mode (curveTemp r.curve r.done) n ⟨r.spinsW, r.spinsE⟩
  { r with
    done := r.done + 1, lastEnd := now, spinsW := sp.w, spinsE := sp.e
    noise := watchNoise r.geom n r.noise
    pending := r.pending ++ [⟨r.done, now + 40, sp.w, sp.e⟩]
    ended := r.done == r.sweepsM1 || r.stopping.isSome }

/-- The state once run r has been judged to its end, its response not yet posted (R350, R354). -/
def State.runJudged (s : State) (r : MogulRun) : State :=
  let u := (s.setRun r.geom none).setLattices r.geom 0
  { u with mogul := { u.mogul with
    set0 := if r.geom == 1 then u.mogul.set0 else some (runResult r)
    set1 := if r.geom == 1 then some (runResult r) else u.mogul.set1
    prevW := if r.geom == 0 then some r.spinsW else u.mogul.prevW
    prevE := if r.geom == 1 then some r.spinsE else u.mogul.prevE
    prevJ := if r.geom == 2 then some (r.spinsW, r.spinsE) else u.mogul.prevJ } }

/-- From s to t run r has left its geometry: the lattices are idle, and its results stand in their set. -/
structure RunJudged (r : MogulRun) (s t : State) : Prop where
  run : RunBecomes r.geom none s t
  latW : r.geom ≠ 1 → t.mogul.latW = 0
  latE : r.geom ≠ 0 → t.mogul.latE = 0
  set : (if r.geom = 1 then t.mogul.set1 else t.mogul.set0) = some (runResult r)

theorem State.runJudged_judged (s : State) (r : MogulRun) : RunJudged r s (s.runJudged r) where
  run := (RunBecomes.setRun s r.geom none).kept rfl rfl rfl rfl
  latW h := if_neg (by simpa using h)
  latE h := if_neg (by simpa using h)
  set := by
    unfold State.runJudged
    split <;> simp [*]

section
variable {s : State} {lat : Nat} {r : MogulRun} (hr : s.runOf lat = some r)
include hr

/-- A sweep that is due leaves its run swept. -/
theorem State.sweepStep_of_due (he : r.ended = false) (hc : s.clockOn 0 = true) (hd : s.sweepDue r = true) :
    ∃ n : SweepNoise, RunBecomes r.geom (some (r.swept s.problem s.now n)) s (s.sweepStep lat) := by
  unfold State.sweepStep
  rw [hr]
  dsimp only
  rw [if_neg (by simp [he, hc, hd])]
  have hrun (n : SweepNoise) : RunBecomes r.geom (some (r.swept s.problem s.now n)) s
      (((((s.free 786432).2.free 786432).2.setRun r.geom (some (r.swept s.problem s.now n))).setProgress r.geom
        (r.done + 1)).tallyEvent 27 1) := by
    obtain ⟨hrunW, hrunE, hcells, hmem⟩ := RunBecomes.setRun ((s.free 786432).2.free 786432).2 r.geom
      (some (r.swept s.problem s.now n))
    exact ⟨hrunW, hrunE, hcells, hmem⟩
  refine ⟨⟨(s.free 786432).1, ((s.free 786432).2.free 786432).1⟩, ?_⟩
  split
  · exact (hrun _).setLattices ..
  · exact hrun _

/-- Without the clock of the W die no lattice sweeps (R335). -/
theorem State.sweepStep_of_clock_off (hc : s.clockOn 0 = false) : s.sweepStep lat = s := by
  unfold State.sweepStep
  rw [hr]
  dsimp only
  exact if_pos (by simp [hc])

/-! Energies, drains and the end of a run (R345, R347, R350, R354). -/

/-- The energy that is ready is the run's last; the state it is of qualifies and is captured or missed, or does not. -/
theorem State.energyReady_of_ready {p : SweepEnd} {rest : List SweepEnd} (hp : r.pending = p :: rest) (hnow : p.ready = s.now)
    (hc : s.clockOn 0 = true) : ∃ r', s.energyReady lat = s.setRun r.geom (some r') ∧ r'.geom = r.geom ∧ r'.pending = rest
      ∧ r'.eFinal = energyOf s.problem ⟨p.w, p.e⟩ r.geom ∧ r'.done = r.done := by
  unfold State.energyReady
  rw [hr]
  dsimp only
  rw [hp]
  dsimp only
  rw [if_neg (by simp [hnow, hc])]
  split
  · exact ⟨_, rfl, rfl, rfl, rfl, rfl⟩
  · split <;> exact ⟨_, rfl, rfl, rfl, rfl, rfl⟩

theorem State.drainEnd_of_due (hd : r.drainUntil = some s.now) (hc : s.clockOn 0 = true) :
    s.drainEnd lat = s.setRun r.geom (some { r with drainUntil := none }) := by
  unfold State.drainEnd
  rw [hr]
  exact if_pos (by simp [hd, hc])

theorem State.endMogul_of_judged (he : r.ended = true) (hp : r.pending = []) (hd : r.drainUntil = none)
    (hon : s.porterOn = true) : s.endMogul lat =
      if r.respond then (s.runJudged r).answerTicket r.ticket 0x40 0xFF (r.stopping.getD stOK) 0 0 (summaryBytes (runResult r)) true
      else s.runJudged r := by
  unfold State.endMogul
  rw [hr]
  exact if_neg (by simp [he, hp, hd, hon])

/-- A run judged to its end leaves its lattices idle and its results in the set of its geometry. -/
theorem State.endMogul_changes (he : r.ended = true) (hp : r.pending = []) (hd : r.drainUntil = none) (hon : s.porterOn = true) :
    RunJudged r s (s.endMogul lat) := by
  rw [endMogul_of_judged hr he hp hd hon]
  split
  · obtain ⟨ports, hanswer⟩ := (s.runJudged r).answerTicket_eq r.ticket 0x40 0xFF (r.stopping.getD stOK) 0 0
      (summaryBytes (runResult r)) true
    rw [hanswer]
    obtain ⟨hrun, hlatW, hlatE, hset⟩ := s.runJudged_judged r
    exact ⟨hrun.kept rfl rfl rfl rfl, hlatW, hlatE, hset⟩
  · exact s.runJudged_judged r

end

/-- Settles O40: the writes by `exec_mogulStop` and `exec_problemRow`, and each event by what it makes of the run of its
lattice. -/
theorem annealer : Obligations.Annealer := by
  unfold Obligations.Annealer
  intro s
  refine ⟨fun v x ha => ?_, fun v lat row b hlat hrow ha hidle => ?_, fun lat r hr hlat hg => ⟨fun he hc hd => ?_, fun hc => ?_,
    fun p rest hp hnow hc => ?_, fun hd hc => ?_, fun he hp hd hon => ?_⟩⟩
  · refine ⟨_, exec_mogulStop ha, ?_⟩
    rw [mogulStop_eq]
    refine ⟨⟨rfl, rfl⟩, ?_, rfl, rfl, rfl⟩
    rintro rfl
    rw [← mogulStop_eq, mogulStop_zero]
  · exact ⟨_, exec_problemRow hlat hrow ha hidle, fun u hu => problem_rowWritten_in s b hu,
      fun l i _ hi hne => problem_rowWritten_out s b hi hrow hne, rfl, rfl, rfl, rfl⟩
  · obtain ⟨n, hswept⟩ := sweepStep_of_due hr he hc hd
    exact ⟨_, _, rfl, hswept.runOf hr hlat hg rfl, rfl, rfl, rfl, ⟨n, rfl⟩, rfl, hswept.cells, hswept.mem⟩
  · exact congrArg Host.Outcome.next (sweepStep_of_clock_off hr hc)
  · obtain ⟨r', hset, hgeom, hrun⟩ := energyReady_of_ready hr hp hnow hc
    exact ⟨_, r', congrArg Host.Outcome.next hset, (RunBecomes.setRun ..).runOf hr hlat hg hgeom, hrun⟩
  · have hset := RunBecomes.setRun s r.geom (some { r with drainUntil := none })
    exact ⟨_, congrArg Host.Outcome.next (drainEnd_of_due hr hd hc), hset.runOf hr hlat hg rfl, hset.mem⟩
  · obtain ⟨hrun, hlatW, hlatE, hset⟩ := endMogul_changes hr he hp hd hon
    exact ⟨_, rfl, hrun.ended, hlatW, hlatE, hset, hrun.mem⟩

end Sys2Proof.Machine

/-! PROOFS of the family 12_entropy_source: the cells and their blocks, and what uses the noise. -/

/-! The cells of the entropy source and the blocks they deliver (R359 to R366, R370). -/
namespace Sys2Proof.Machine
open State

@[simp] theorem State.cell_setCell_self (s : State) (n : Nat) (c : Cell) : (s.setCell n c).cell n = c := Table.get_put_self ..

theorem State.settle_of_due {s : State} {n : Nat} (hs : s.secureRuns = true) (hon : (s.cell n).on = true)
    (hst : (s.cell n).st = .settling) (hnow : s.now = (s.cell n).since + 102400) :
    s.settle n = s.setCell n { s.cell n with st := .warming, since := s.now, run := 0 } :=
  if_neg (by simp [hs, hon, hst, hnow])

/-! A block that passes. -/

/-- Cell c once a block has passed in cycle now, with the repetition count of R360 after it (R364). -/
def Cell.passed (c : Cell) (now run : Nat) (last : Bool) : Cell :=
  let warm := if c.st == .warming then c.warm + 1 else c.warm
  { c with
    st := if 4 ≤ warm then .ready else c.st
    warm := warm, failRun := 0, since := now, run := run, last := last }

theorem Cell.passed_of_warming {c : Cell} (hst : c.st = .warming) (hw : c.warm < 3) (now run : Nat) (last : Bool) :
    c.passed now run last = { c with warm := c.warm + 1, failRun := 0, since := now, run := run, last := last } := by
  have hfew : ¬ 4 ≤ c.warm + 1 := by omega
  simp [Cell.passed, hst, hfew]

/-- The fourth block that passes in WARMING makes the cell READY (R364). -/
theorem Cell.passed_of_warmed {c : Cell} (hst : c.st = .warming) (hw : 3 ≤ c.warm) (now run : Nat) (last : Bool) :
    (c.passed now run last).st = .ready := by
  simp [Cell.passed, hst, hw]

/-- The state once a block of cell n has passed, before it is delivered or discarded. -/
def State.blockPassed (s : State) (n run : Nat) (last : Bool) : State :=
  let t := s.setCell n ((s.cell n).passed s.now run last)
  { t with ent := { t.ent with passed := satAdd 64 t.ent.passed 1 } }

theorem State.cell_blockPassed (s : State) (n run : Nat) (last : Bool) :
    (s.blockPassed n run last).cell n = (s.cell n).passed s.now run last := cell_setCell_self ..

/-- Whether every cell is READY or RETIRED decides the state of the source alone (R365). -/
theorem State.sourceCheck_eq (s : State) : ∃ st, s.sourceCheck = { s with ent := { s.ent with st := st } } := by
  unfold State.sourceCheck
  split
  · exact ⟨_, rfl⟩
  · exact ⟨s.ent.st, rfl⟩

section
variable {s : State} {n : Nat} {raw : BitVec 2048} {r : Option Nat × Nat × Bool}
  (hscan : rctScan raw 2048 0 (s.cell n).run (s.cell n).last = r) (hs : s.secureRuns = true) (hon : (s.cell n).on = true)
  (hnow : s.now = (s.cell n).since + 131072) (hrct : r.1 = none) (hapt : aptFail raw = none)
include hscan hs hon hnow hrct hapt

/-- A block that passes in WARMING is discarded; it may leave the source READY (R364, R365). -/
theorem State.blockPasses_of_warming (hst : (s.cell n).st = .warming) : ∃ st, s.blockPasses n raw =
    { s.blockPassed n r.2.1 r.2.2 with ent := { (s.blockPassed n r.2.1 r.2.2).ent with st := st } } := by
  obtain ⟨st, hcheck⟩ := (s.blockPassed n r.2.1 r.2.2).sourceCheck_eq
  refine ⟨st, Eq.trans ?_ hcheck⟩
  unfold State.blockPasses
  extract_lets c r' warm t passed u
  have hr : r' = r := hscan
  clear_value r'
  subst hr
  rw [if_neg (by simp [State.cellRuns, c, hs, hon, hnow, hrct, hapt, hst]), if_neg (by simp [c, hst])]
  rfl

/-- A block that passes in READY is delivered (R364, R366). -/
theorem State.blockPasses_of_ready (hst : (s.cell n).st = .ready) (hsource : s.ent.st = .ready) :
    s.blockPasses n raw = (s.blockPassed n r.2.1 r.2.2).deliver (conditioned raw) := by
  unfold State.blockPasses
  extract_lets c r' warm t passed u
  have hr : r' = r := hscan
  clear_value r'
  subst hr
  have hu : u.ent.st = .ready := hsource
  rw [if_neg (by simp [State.cellRuns, c, hs, hon, hnow, hrct, hapt, hst]), if_pos (by simp [c, hst, hu])]
  rfl

end

/-! The consumers, in their order (R366). -/

section
variable {s : State} (block : List Byte)

theorem State.deliver_of_keyWaits (hk : s.ent.keyWaits = true) : s.deliver block = s.seedDrbg block := if_pos hk

variable (hk : s.ent.keyWaits = false)
include hk

theorem State.deliver_of_cipherWaits (hc : s.ent.cipherWaits = true) :
    s.deliver block = { s with ent := { s.ent with cipherWaits := false, reserve := block } } := by
  simp [State.deliver, hk, hc]

variable (hc : s.ent.cipherWaits = false)
include hc

theorem State.deliver_of_room (hp : s.ent.pool.length ≤ 1920) :
    s.deliver block = { s with ent := { s.ent with pool := s.ent.pool ++ block } } := by
  simp [State.deliver, hk, hc, hp]

theorem State.deliver_of_full (hp : 1920 < s.ent.pool.length) :
    s.deliver block = { s with ent := { s.ent with spilled := satAdd 64 s.ent.spilled 1 } } := by
  simp [State.deliver, hk, hc, hp]

end

/-! A block that fails. -/

/-- From s to t the tallies of the tests stand, and so do the state of every cell and its failures. -/
structure State.TalliesStand (s t : State) : Prop where
  failed : t.ent.failed = s.ent.failed
  rctFails : t.ent.rctFails = s.ent.rctFails
  aptFails : t.ent.aptFails = s.ent.aptFails
  cell : ∀ n, (t.cell n).st = (s.cell n).st ∧ (t.cell n).fails = (s.cell n).fails

namespace State.TalliesStand
variable {s t u : State}

theorem of_ent (h : t.ent = s.ent) : TalliesStand s t :=
  ⟨by rw [h], by rw [h], by rw [h], fun n => by simp only [State.cell, h, and_self]⟩

theorem trans (h : TalliesStand s t) (h' : TalliesStand t u) : TalliesStand s u :=
  ⟨h'.failed.trans h.failed, h'.rctFails.trans h.rctFails, h'.aptFails.trans h.aptFails,
    fun n => ⟨(h'.cell n).1.trans (h.cell n).1, (h'.cell n).2.trans (h.cell n).2⟩⟩

end State.TalliesStand

@[simp] theorem State.ent_fire (s : State) (n : Nat) : (s.fire n).ent = s.ent := by
  obtain ⟨_, _, _, _, h⟩ := s.fire_eq n
  rw [h]

theorem State.talliesStand_sourceCheck (s : State) : TalliesStand s s.sourceCheck := by
  obtain ⟨st, h⟩ := s.sourceCheck_eq
  rw [h]
  exact ⟨rfl, rfl, rfl, fun _ => ⟨rfl, rfl⟩⟩

/-- The answers to the requests that FATAL refuses leave the source as it is (R371). -/
theorem State.ent_foldl_refuseNoise {α : Type} (l : List α) (s : State) : (l.foldl (fun s _ => s.refuseNoise) s).ent = s.ent := by
  induction l generalizing s with
  | nil => rfl
  | cons _ l ih => exact ih s.refuseNoise

/-- The source in FATAL: its cells stop, and nothing waits for its bits (R371). -/
def State.silenced (s : State) : State :=
  { s with ent := { s.ent with
    st := .fatal
    cells := Table.mapVals (fun _ c => { c with on := false }) s.ent.cells
    pool := [], keyWaits := false, cipherWaits := false, reseedWaits := false, drbgQueue := [] } }

theorem State.cell_silenced (s : State) (n : Nat) : s.silenced.cell n = { s.cell n with on := false } :=
  Sys2Proof.Table.get_mapVals Cell.fresh (fun _ (c : Cell) => { c with on := false }) n s.ent.cells rfl

/-- The source that enters FATAL stops its cells, and keeps their states (R371). -/
theorem State.talliesStand_noiseFatal (s : State) : TalliesStand s s.noiseFatal := by
  have hasked := TalliesStand.of_ent (ent_foldl_refuseNoise s.ent.drbgQueue s)
  have hsilenced (u : State) : TalliesStand u u.silenced := ⟨rfl, rfl, rfl, fun n => by rw [cell_silenced]; exact ⟨rfl, rfl⟩⟩
  exact (hasked.trans (hsilenced _)).trans (.of_ent (ent_fire _ 0))

/-- Cell c on its third failed block in a row (R364). -/
def Cell.retire (c : Cell) : Cell :=
  { c with st := .retired, on := false, warm := 0, failRun := 0, fails := satAdd 16 c.fails 1 }

/-- Cell c started again after a failed block (R362, R363). -/
def Cell.restart (c : Cell) (now : Nat) : Cell :=
  { c with st := .settling, warm := 0, failRun := c.failRun + 1, fails := satAdd 16 c.fails 1, since := now, run := 0 }

theorem State.cellFails_of_restart {s : State} {n : Nat} (h : (s.cell n).failRun < 2) :
    s.cellFails n = s.setCell n ((s.cell n).restart s.now) := if_neg (Nat.not_le.mpr h)

theorem State.cellFails_of_retire {s : State} {n : Nat} (h : 2 ≤ (s.cell n).failRun) :
    TalliesStand (s.setCell n (s.cell n).retire) (s.cellFails n) := by
  unfold State.cellFails
  extract_lets c t u
  have hu : TalliesStand t u := .of_ent (ent_fire ..)
  rw [if_pos h]
  split
  · exact hu.trans (talliesStand_noiseFatal u)
  · exact hu.trans (talliesStand_sourceCheck u)

/-- The state with a failed block counted, and the tests that fail at its failing bit: r and a are the bits at which the tests
fail. -/
def State.failCounted (s : State) (r a : Option Nat) (bit : Nat) : State :=
  { s with ent := { s.ent with
    failed := satAdd 64 s.ent.failed 1
    rctFails := if r = some bit then satAdd 32 s.ent.rctFails 1 else s.ent.rctFails
    aptFails := if a = some bit then satAdd 32 s.ent.aptFails 1 else s.ent.aptFails } }

/-- A block fails at the first bit at which one of the tests fails, once that bit has come (R360 to R362). -/
theorem State.blockFails_of_due {s : State} {n bit : Nat} {raw : BitVec 2048} {r a : Option Nat}
    (hscan : (rctScan raw 2048 0 (s.cell n).run (s.cell n).last).1 = r) (hapt : aptFail raw = a)
    (hbit : min (r.getD 2048) (a.getD 2048) = bit) (hr : s.cellRuns (s.cell n) = true)
    (hfails : bit < 2048) (hfrom : (s.cell n).since + 64 * bit ≤ s.now) (hto : s.now ≤ (s.cell n).since + 64 * (bit + 1)) :
    s.blockFails n raw = (s.failCounted r a bit).cellFails n := by
  unfold State.blockFails
  extract_lets c r' a' at_ ent u
  have hr' : r' = r := hscan
  have ha' : a' = a := hapt
  have hat : at_ = min (r'.getD 2048) (a'.getD 2048) := rfl
  clear_value at_ r' a'
  subst hr' ha'
  rw [hbit] at hat
  subst hat
  rw [if_neg (by simp [c, hr, hfails.ne, Nat.not_lt.mpr hfrom, Nat.not_lt.mpr hto])]
  simp only [u, ent, beq_iff_eq]
  rfl

/-- From s to t a block of cell n has failed at bit, the tests failing at bits r and a: it is counted, and the cell starts again
or retires (R362, R364). -/
structure State.BlockFailed (n : Nat) (r a : Option Nat) (bit : Nat) (s t : State) : Prop where
  failed : t.ent.failed = satAdd 64 s.ent.failed 1
  rctFails : t.ent.rctFails = if r = some bit then satAdd 32 s.ent.rctFails 1 else s.ent.rctFails
  aptFails : t.ent.aptFails = if a = some bit then satAdd 32 s.ent.aptFails 1 else s.ent.aptFails
  fails : (t.cell n).fails = satAdd 16 (s.cell n).fails 1
  restarted : (s.cell n).failRun < 2 →
    (t.cell n).st = .settling ∧ (t.cell n).failRun = (s.cell n).failRun + 1 ∧ (t.cell n).since = s.now
  retired : 2 ≤ (s.cell n).failRun → (t.cell n).st = .retired

theorem State.blockFailed_cellFails (s : State) (n : Nat) (r a : Option Nat) (bit : Nat) :
    BlockFailed n r a bit s ((s.failCounted r a bit).cellFails n) := by
  have hcell : (s.failCounted r a bit).cell n = s.cell n := rfl
  by_cases h : (s.cell n).failRun < 2
  · rw [cellFails_of_restart (by rwa [hcell]), hcell]
    refine ⟨rfl, rfl, rfl, ?_, fun _ => ?_, fun h' => absurd h (Nat.not_lt.mpr h')⟩
    · rw [cell_setCell_self]; rfl
    · rw [cell_setCell_self]; exact ⟨rfl, rfl, rfl⟩
  · obtain ⟨hfailed, hrct, hapt, hcells⟩ := cellFails_of_retire (s := s.failCounted r a bit) (n := n)
      (by rw [hcell]; exact Nat.not_lt.mp h)
    obtain ⟨hst, hfails⟩ := hcells n
    rw [cell_setCell_self, hcell] at hst hfails
    exact ⟨hfailed, hrct, hapt, hfails, fun h' => absurd h' h, fun _ => hst⟩

end Sys2Proof.Machine

/-! What uses the noise: requests of the DRBG, key installs and the signatures of the key block (R370, R371, R533, R534,
R547, R548). -/
namespace Sys2Proof.Machine
open State

/-! The DRBG. -/

/-- The response to request q: what it brings between the bytes around it, from the DRBG's bytes b. -/
def DrbgReq.response (q : DrbgReq) (b : List Byte) : List Byte := q.head ++ drbgValue q.kind b ++ q.tail

/-- The DRBG's bytes for request q, and its state after them. -/
def State.drawn (s : State) (q : DrbgReq) : List Byte × Drbg := drbgBytes s.ent.drbg (if q.kind = 1 then 56 else 32)

/-- The state once the first request of the DRBG is served; the 2^20th makes a reseed due. -/
def State.drbgServed (s : State) (q : DrbgReq) (rest : List DrbgReq) : State :=
  { s with ent := { s.ent with
    drbg := (s.drawn q).2, drbgQueue := rest, drbgCount := s.ent.drbgCount + 1, drbgServed := s.ent.drbgServed + 1
    reseedWaits := decide (2 ^ 20 ≤ s.ent.drbgCount + 1), keyWaits := decide (2 ^ 20 ≤ s.ent.drbgCount + 1) } }

/-- Ask the key block for a signature over an SPDM response (R534). -/
def State.askSpdm (s : State) (m : List Byte) : State :=
  ({ s with sec := { s.sec with sigQueue := s.sec.sigQueue ++ [SigJob.spdm m] } }).startSigning

theorem State.drbgGenerate_of_request {s : State} {q : DrbgReq} {rest : List DrbgReq} (hon : s.isOn 1 = true)
    (hq : s.ent.drbgQueue = q :: rest) (hf : s.ent.st ≠ .fatal) (hlive : s.ent.drbgLive = true) (hr : s.ent.reseedWaits = false) :
    s.drbgGenerate =
      if q.signed then (s.drbgServed q rest).askSpdm (q.response (s.drawn q).1)
      else { s.drbgServed q rest with dict := { s.dict with reply := q.response (s.drawn q).1 } } := by
  unfold State.drbgGenerate
  rw [hq]
  dsimp only
  rw [if_neg (by simp [hon, hf, hlive, hr])]
  simp only [beq_iff_eq]
  rfl

theorem State.drbgGenerate_of_wait {s : State}
    (h : s.ent.drbgQueue = [] ∨ s.ent.st = .fatal ∨ s.ent.drbgLive = false ∨ s.ent.reseedWaits = true) : s.drbgGenerate = s := by
  unfold State.drbgGenerate
  split
  · rfl
  · next q rest hq =>
    have hwait : s.ent.st = .fatal ∨ s.ent.drbgLive = false ∨ s.ent.reseedWaits = true := h.resolve_left (by simp [hq])
    exact if_pos (by rcases hwait with h | h | h <;> simp [h])

/-! The key block (R533, R534). -/

section
variable (s : State)

@[simp] theorem State.ports_startSigning : s.startSigning.ports = s.ports := by obtain ⟨_, h⟩ := s.startSigning_eq; rw [h]
@[simp] theorem State.dict_startSigning : s.startSigning.dict = s.dict := by obtain ⟨_, h⟩ := s.startSigning_eq; rw [h]
@[simp] theorem State.ent_startSigning : s.startSigning.ent = s.ent := by obtain ⟨_, h⟩ := s.startSigning_eq; rw [h]
@[simp] theorem State.slots_startSigning : s.startSigning.slots = s.slots := by obtain ⟨_, h⟩ := s.startSigning_eq; rw [h]
@[simp] theorem State.mem_startSigning : s.startSigning.mem = s.mem := by obtain ⟨_, h⟩ := s.startSigning_eq; rw [h]

/-- The key block that begins a signature has counted none. -/
@[simp] theorem State.signatures_startSigning : s.startSigning.sec.signatures = s.sec.signatures := by
  unfold State.startSigning
  split
  · rfl
  · split <;> rfl

end

/-- A signature that waits goes on waiting, or is begun. -/
theorem State.waits_or_begun_startSigning {s : State} {j : SigJob} (h : j ∈ s.sec.sigQueue) :
    j ∈ s.startSigning.sec.sigQueue ∨ s.startSigning.sec.signing = some (j, s.now) := by
  unfold State.startSigning
  split
  · exact .inl h
  · split
    · exact .inl h
    · next i _ =>
      by_cases hij : j = i
      · exact .inr (by rw [hij])
      · exact .inl ((List.mem_erase_of_ne hij).mpr h)

/-- The state once the key block's signature is made and counted. -/
def State.signatureCounted (s : State) : State :=
  { s with sec := { s.sec with signing := none, signatures := satAdd 64 s.sec.signatures 1 } }

/-- Port q with r its only response. -/
def Port.holding (q : Port) (r : Response) : Port := { q with responses := [r] }

/-- The only response of a port, which waits for its signature, takes it (R329). -/
theorem State.giveSignature_of_only {s : State} {p : Nat} (hp : p < 2) {r : Response} (hr : (s.port p).responses = [r])
    (hw : r.postable = false) (bytes : List Byte) : s.giveSignature p bytes =
      s.onPort p (fun q => q.holding { r with trailer := .ready bytes }) := by
  unfold State.giveSignature
  rw [if_neg (Nat.not_le.mpr hp)]
  simp [State.onPort, Port.holding, hr, hw]

section
variable {s : State} {m : List Byte} {b : Nat} (hon : s.isOn 1 = true) (hb : s.now ≤ b + 192000)
include hon hb

theorem State.signatureDone_of_spdm (hj : s.sec.signing = some (.spdm m, b)) : s.signatureDone =
    ({ s.signatureCounted with
      fresh := s.fresh + 1
      dict := { s.dict with reply := m ++ leBytes 96 (Config.freeBits s.fresh 768).toNat } }).startSigning := by
  unfold State.signatureDone
  rw [hj]
  exact if_neg (by simp [hon, hb])

theorem State.signatureDone_of_trailer {p : Nat} {r : Response} {g : Nat × Nat} (hg : ecdsaSign State.identitySecret m = g)
    (hp : p < 2) (hj : s.sec.signing = some (.trailer p m, b)) (hr : (s.port p).responses = [r]) (hw : r.postable = false) :
    s.signatureDone = (s.signatureCounted.onPort p (fun q => q.holding
      { r with trailer := .ready (m ++ beBytes 48 g.1 ++ beBytes 48 g.2) })).startSigning := by
  rw [← giveSignature_of_only (s := s.signatureCounted) hp hr hw, ← hg]
  unfold State.signatureDone
  rw [hj]
  exact if_neg (by simp [hon, hb])

end

/-! Key installs (R547, R548). -/

section
variable {s : State} {k : Nat} {rest : List Nat} (hon : s.isOn 1 = true) (hk : s.sec.installs = k :: rest)
include hon hk

theorem State.keyInstall_of_reserve (hr : 8 ≤ s.ent.reserve.length) : s.keyInstall = { s with
    sec := { s.sec with
      installs := rest, installed := if s.sec.installed.contains k then s.sec.installed else s.sec.installed ++ [k]
      masks := Table.put k (s.ent.reserve.take 8) s.sec.masks }
    ent := { s.ent with
      reserve := s.ent.reserve.drop 8
      cipherWaits := s.ent.cipherWaits || (decide (s.ent.reserve.length < 16) && s.ent.st != .fatal) } } := by
  simp [State.keyInstall, hk, hon, hr]

variable (hr : s.ent.reserve.length < 8)
include hr

theorem State.keyInstall_of_wait (hf : s.ent.st ≠ .fatal) : s.keyInstall = { s with ent := { s.ent with cipherWaits := true } } := by
  simp [State.keyInstall, hk, hon, Nat.not_le.mpr hr, hf]

theorem State.keyInstall_of_fatal (hf : s.ent.st = .fatal) :
    s.keyInstall = ({ s with sec := { s.sec with installs := rest } }).refuseInstall k := by
  simp [State.keyInstall, hk, hon, Nat.not_le.mpr hr, hf]

end

@[simp] theorem State.ideKeys_setIdeKeys_self (s : State) (p : Nat) (x : IdeKeys) : (s.setIdeKeys p x).ideKeys p = x :=
  Table.get_put_self ..

/-- The key numbers of port p's IDE streams (R541, R547). -/
theorem State.ideKeyOf_ideKey_zero {p n : Nat} (hp : p < 2) (hn : n ≤ 4) : State.ideKeyOf 0 (State.ideKey p n) = (p == 0) := by
  interval_cases p <;> interval_cases n <;> rfl

/-- No IDE key has the number of a Lecel port's key. -/
theorem State.ideKey_not_lecel {p : Nat} (hp : p < 2) (n : Nat) : ¬ (2 ≤ State.ideKey p n ∧ State.ideKey p n ≤ 5) := by
  unfold State.ideKey
  split <;> omega

/-- The IDE key of stream n of port p, refused: the port no longer has it, and its requester is told. -/
theorem State.refuseInstall_of_ide {s : State} {p n : Nat} (hp : p < 2) (hn : n ≤ 4) :
    s.refuseInstall (State.ideKey p n) = {
      s.setIdeKeys p { s.ideKeys p with
        programmed := (s.ideKeys p).programmed.filter (fun i => State.ideKey p i != State.ideKey p n) } with
      dict := { s.dict with reply := [0x7E, 0x03, 0x04] } } := by
  have hport : (if State.ideKeyOf 0 (State.ideKey p n) then 0 else 1) = p := by
    rw [ideKeyOf_ideKey_zero hp hn]
    interval_cases p <;> rfl
  unfold State.refuseInstall
  rw [if_neg (by simpa using ideKey_not_lecel hp n), hport]
  rfl

theorem State.refuseInstall_of_lecel {s : State} {k : Nat} (h2 : 2 ≤ k) (h5 : k ≤ 5) : s.refuseInstall k = s.portState (k - 2) 3 :=
  if_pos (by simp [h2, h5])

/-- A refused install leaves the source, and the installs and keys of the cipher block. -/
theorem State.refuseInstall_stands (s : State) (k : Nat) : (s.refuseInstall k).ent = s.ent
    ∧ (s.refuseInstall k).sec.installs = s.sec.installs ∧ (s.refuseInstall k).sec.installed = s.sec.installed := by
  unfold State.refuseInstall
  split
  · obtain ⟨_, _, _, _, _, h⟩ := (portBecame_portState s (k - 2) 3).rest
    rw [h]
    exact ⟨rfl, rfl, rfl⟩
  · exact ⟨rfl, rfl, rfl⟩

/-! BLOCK_PASS and BLOCK_FAIL (R362). -/

theorem exec_blockPass {n : Nat} (hn : n < 16) (raw : BitVec 2048) (s : State) :
    exec (.blockPass n raw) s = .next (s.blockPasses n raw) := congrArg Host.Outcome.next (if_pos hn)

theorem exec_blockFail {n : Nat} (hn : n < 16) (raw : BitVec 2048) (s : State) :
    exec (.blockFail n raw) s = .next (s.blockFails n raw) := congrArg Host.Outcome.next (if_pos hn)

/-- Settles O47: a cell by its settling, its passed block and its failed block; a request, an install and a signature each by
the lemma of its case. -/
theorem entropyAndKeys : Obligations.EntropyAndKeys := by
  unfold Obligations.EntropyAndKeys
  refine ⟨fun s n hn hs => ⟨fun hon hst hnow => ?settles, fun raw => ?passes, fun raw => ?fails⟩,
    fun s hon => ⟨fun q rest hq hf hlive hr => ?generates, fun h => congrArg Host.Outcome.next (drbgGenerate_of_wait h),
      fun k rest hk => ⟨fun hr => congrArg Host.Outcome.next (keyInstall_of_reserve hon hk hr),
        fun hr hf => congrArg Host.Outcome.next (keyInstall_of_wait hon hk hr hf), fun hr hf => ?refuses⟩,
      fun m b hj hb => ?signsSpdm, fun p m b r hp hj hb hresp hw => ?signsTrailer⟩⟩
  case settles => exact congrArg Host.Outcome.next ((if_pos hn).trans (settle_of_due hs hon hst hnow))
  case passes =>
    intro r hon hnow hrct hapt
    have hscan : rctScan raw 2048 0 (s.cell n).run (s.cell n).last = r := rfl
    clear_value r
    refine ⟨fun hst hw => ?_, fun hst hw => ?_, fun hst hsource => ?_⟩
    · obtain ⟨st, h⟩ := blockPasses_of_warming hscan hs hon hnow hrct hapt hst
      exact ⟨_, (exec_blockPass hn raw s).trans (congrArg Host.Outcome.next h),
        (cell_blockPassed ..).trans (Cell.passed_of_warming hst hw ..), rfl, rfl⟩
    · obtain ⟨st, h⟩ := blockPasses_of_warming hscan hs hon hnow hrct hapt hst
      exact ⟨_, (exec_blockPass hn raw s).trans (congrArg Host.Outcome.next h),
        (congrArg Cell.st (cell_blockPassed ..)).trans (Cell.passed_of_warmed hst hw ..), rfl⟩
    · refine ⟨_, exec_blockPass hn raw s, ?_⟩
      rw [blockPasses_of_ready hscan hs hon hnow hrct hapt hst hsource]
      refine ⟨fun hk => ?_, fun hk hc => ?_, fun hk hc hp => ?_, fun hk hc hp => ?_⟩
      · rw [deliver_of_keyWaits (s := s.blockPassed n r.2.1 r.2.2) _ hk]
        exact ⟨rfl, rfl, rfl, rfl, rfl, rfl, rfl⟩
      · rw [deliver_of_cipherWaits (s := s.blockPassed n r.2.1 r.2.2) _ hk hc]
        exact ⟨rfl, rfl, rfl, rfl⟩
      · rw [deliver_of_room (s := s.blockPassed n r.2.1 r.2.2) _ hk hc hp]
        exact ⟨rfl, rfl⟩
      · rw [deliver_of_full (s := s.blockPassed n r.2.1 r.2.2) _ hk hc hp]
        exact ⟨rfl, rfl⟩
  case fails =>
    intro r a bit hr hbit hfrom hto
    obtain ⟨hfailed, hrct, hapt, hfails, hrestart, hretire⟩ := blockFailed_cellFails s n r a bit
    exact ⟨_, (exec_blockFail hn raw s).trans (congrArg Host.Outcome.next (blockFails_of_due rfl rfl rfl hr hbit hfrom hto)),
      hfailed, hfails, hrct, hapt, hrestart, hretire⟩
  case generates =>
    intro g out
    have hout : q.response (s.drawn q).1 = out := by
      simp only [DrbgReq.response, drbgValue, State.drawn, beq_iff_eq, out, g]
    refine ⟨_, congrArg Host.Outcome.next (drbgGenerate_of_request hon hq hf hlive hr), ?_⟩
    rw [hout]
    split
    · next hsigned =>
      have hjob : SigJob.spdm out ∈ ((s.drbgServed q rest).askSpdm out).sec.sigQueue
          ∨ ((s.drbgServed q rest).askSpdm out).sec.signing = some (.spdm out, s.now) :=
        waits_or_begun_startSigning (List.mem_append_right _ (List.mem_singleton_self _))
      simp only [State.askSpdm, ent_startSigning, dict_startSigning, slots_startSigning, mem_startSigning]
      exact ⟨rfl, rfl, rfl, rfl, rfl, rfl, fun h => absurd hsigned (by simp [h]), fun _ => ⟨rfl, hjob⟩, rfl, rfl, rfl, rfl⟩
    · next hplain =>
      exact ⟨rfl, rfl, rfl, rfl, rfl, rfl, fun _ => rfl, fun h => absurd h hplain, rfl, rfl, rfl, rfl⟩
  case refuses =>
    refine ⟨_, congrArg Host.Outcome.next (keyInstall_of_fatal hon hk hr hf), ?_⟩
    obtain ⟨hent, hinstalls, hinstalled⟩ := refuseInstall_stands { s with sec := { s.sec with installs := rest } } k
    refine ⟨hinstalls, hinstalled, hent, fun h2 h5 => ?_, fun p n hp hn hkey => ?_⟩
    · rw [refuseInstall_of_lecel h2 h5, (portBecame_portState ..).self]
    · rw [hkey, refuseInstall_of_ide hp hn]
      refine ⟨rfl, ?_⟩
      change n ∉ ((State.setIdeKeys _ p _).ideKeys p).programmed
      simp
  case signsSpdm =>
    refine ⟨_, congrArg Host.Outcome.next (signatureDone_of_spdm hon hb hj), ?_⟩
    rw [signatures_startSigning, dict_startSigning, ports_startSigning, mem_startSigning]
    exact ⟨rfl, rfl, rfl, rfl⟩
  case signsTrailer =>
    intro g
    have hg : ecdsaSign State.identitySecret m = g := rfl
    clear_value g
    refine ⟨_, congrArg Host.Outcome.next (signatureDone_of_trailer hon hb hg hp hj hresp hw), ?_⟩
    rw [signatures_startSigning, slots_startSigning, mem_startSigning, State.port, ports_startSigning]
    exact ⟨rfl, congrArg Port.responses (port_onPort_self s.signatureCounted p _), onPort_slots .., onPort_mem ..⟩

end Sys2Proof.Machine

/-! PROOFS of the families 14 to 20: binding and joining, losses, resets, power, interrupts, the Logbook, keys and pins. -/

/-! A byte string read back, and accesses whose own write answers at once (R442, R451). -/
namespace Sys2Proof.Machine
open State

theorem ofLE_leBytes (n v : Nat) : ofLE (leBytes n v) = v % 256 ^ n := by
  induction n generalizing v with
  | zero => simp [leBytes, ofLE, Nat.mod_one]
  | succ n ih => rw [leBytes, ofLE, ih, BitVec.toNat_ofNat, Nat.pow_succ' (m := 256), Nat.mod_mul]

theorem ofLE_leBytes_two (x : BitVec 16) : ofLE (leBytes 2 x.toNat) = x.toNat :=
  (ofLE_leBytes 2 _).trans (Nat.mod_eq_of_lt x.isLt)

theorem ofLE_leBytes_four (x : BitVec 32) : ofLE (leBytes 4 x.toNat) = x.toNat :=
  (ofLE_leBytes 4 _).trans (Nat.mod_eq_of_lt x.isLt)

theorem State.inRange_of {s t : State} {ok : Bool} (h : ok = true) : s.inRange ok t = (some stOK, t) := by
  rw [State.inRange, if_pos h]
  rfl

end Sys2Proof.Machine

/-! A step's command, and pins (R442, R575, R576, R584). -/
namespace Sys2Proof.Machine
open State

/-- Settles O1: a step of a queue that is not empty is the command at its front, by the definition of the step. -/
theorem stepRunsFrontCommand : Obligations.StepRunsFrontCommand := fun _ _ _ => rfl

/-- A multiple of the SYNC_OUT period at which no new period waits: the pin goes high (R575). -/
theorem State.syncOut_of_same_period {s : State} (hrun : s.rinkRun = true) (hat : s.rink % 2 ^ s.pins.syncShift = 0)
    (hnext : s.pins.syncShiftNext = none) : s.syncOut = { s with pins := { s.pins with syncOutUntil := some (s.now + 64) } } := by
  rw [State.syncOut, if_neg (by simp [hrun, hat])]
  simp [hat, hnext]

/-- A period that waits takes effect at the next multiple of the old one (R575). -/
theorem State.syncOut_of_new_period {s : State} {n : Nat} (hrun : s.rinkRun = true) (hat : s.rink % 2 ^ s.pins.syncShift = 0)
    (hnext : s.pins.syncShiftNext = some n) : s.syncOut.pins.syncShift = n ∧ s.syncOut.pins.syncShiftNext = none := by
  rw [State.syncOut, if_neg (by simp [hrun, hat]), hnext]
  exact ⟨rfl, rfl⟩

theorem exec_syncShift {s : State} {v : Path} {x : BitVec 8} (h : s.accepts v 0x2200 7 (leBytes 1 x.toNat) = true)
    (h16 : 16 ≤ x.toNat) (h40 : x.toNat ≤ 40) : exec (.syncShift v x) s =
      .next ({ s with pins := { s.pins with syncShiftNext := some x.toNat } }.answered 0 []) := by
  have hw : s.writeOwn v 0x2200 7 (leBytes 1 x.toNat) none =
      (some stOK, { s with pins := { s.pins with syncShiftNext := some x.toNat } }) := by
    refine Eq.trans (b := s.inRange (16 ≤ ofLE (leBytes 1 x.toNat) && ofLE (leBytes 1 x.toNat) ≤ 40)
      { s with pins := { s.pins with syncShiftNext := some (ofLE (leBytes 1 x.toNat)) } }) rfl ?_
    rw [ofLE_leBytes_one]
    exact inRange_of (by simp [h16, h40])
  exact congrArg Host.Outcome.next (accessWrite_eq_answered h hw)

/-- Settles O46: each event by what its row makes of the pins, SYNC_OUT by whether a new period waits. -/
theorem pinEvents : Obligations.PinEvents := by
  unfold Obligations.PinEvents
  intro s
  refine ⟨fun hpwr => ?_, fun hrun hat hnext => ?_, fun n hrun hat hnext => ?_, fun v x => exec_syncShift,
    fun b hreset => ?_, fun b hreset => ?_, fun b => rfl, rfl⟩
  · change execSyncIn s = _
    simp [execSyncIn, hpwr]
  · exact congrArg Host.Outcome.next (syncOut_of_same_period hrun hat hnext)
  · exact ⟨_, rfl, syncOut_of_new_period hrun hat hnext⟩
  · change execExtest b s = _
    simp [execExtest, hreset]
  · change execExtest b s = _
    simp [execExtest, hreset]

end Sys2Proof.Machine

/-! Requests before binding is done (R564). -/
namespace Sys2Proof.Machine
open State

section
variable {s : State} {p : Nat} {q : Pkt} (hs : s.link.st ≤ 1)
include hs

theorem State.bindRefusal_of_unbound : s.bindRefusal = some stNOT_BOUND := if_pos hs

theorem State.loadChunk_of_unbound : State.loadChunk p q s = s.respond p (q.answer stNOT_BOUND) := by
  simp [State.loadChunk, bindRefusal_of_unbound hs, refusePacket]

theorem State.loadAbandon_of_unbound : State.loadAbandon p q s = s.respond p (q.answer stNOT_BOUND) := by
  simp [State.loadAbandon, bindRefusal_of_unbound hs, refusePacket]

theorem State.unsealChunk_of_unbound : State.unsealChunk p q s = s.respond p (q.answer stNOT_BOUND) := by
  simp [State.unsealChunk, bindRefusal_of_unbound hs, refusePacket]

theorem State.unsealAbandon_of_unbound : State.unsealAbandon p q s = s.respond p (q.answer stNOT_BOUND) := by
  simp [State.unsealAbandon, bindRefusal_of_unbound hs, refusePacket]

end

/-- Settles O59: each form of the two commands asks the binding first, and is refused. -/
theorem notBoundRefusal : Obligations.NotBoundRefusal := by
  unfold Obligations.NotBoundRefusal
  intro s p q hready hs refused
  have hu : (s.startPacket p).link.st ≤ 1 := by simpa using hs
  have runs {f : Pkt → State → State} (hf : f q (s.startPacket p) = (s.startPacket p).respond p (q.answer stNOT_BOUND))
      (kind : Pkt → Bool) (hk : kind q = true) : Host.Outcome.next (s.runPacket p kind f) = refused :=
    congrArg Host.Outcome.next ((hready.runPacket hk f).trans hf)
  refine ⟨fun hop => ⟨fun ha hl => ?_, fun ha hl => ?_, fun ha => ?_⟩, fun hop => ⟨fun ha hl => ?_, fun ha hl => ?_, fun ha => ?_⟩⟩
  · exact runs (loadChunk_of_unbound hu) (fun q => q.opcode == 0x10 && !q.abandon && !q.last) (by simp [hop, ha, hl])
  · exact runs (loadChunk_of_unbound hu) (fun q => q.opcode == 0x10 && !q.abandon && q.last) (by simp [hop, ha, hl])
  · exact runs (loadAbandon_of_unbound hu) (fun q => q.opcode == 0x10 && q.abandon) (by simp [hop, ha])
  · exact runs (unsealChunk_of_unbound hu) (fun q => q.opcode == 0x33 && !q.abandon && !q.last) (by simp [hop, ha, hl])
  · exact runs (unsealChunk_of_unbound hu) (fun q => q.opcode == 0x33 && !q.abandon && q.last) (by simp [hop, ha, hl])
  · exact runs (unsealAbandon_of_unbound hu) (fun q => q.opcode == 0x33 && q.abandon) (by simp [hop, ha])

end Sys2Proof.Machine

/-! Firmware, image keys and link secrets (R536 to R538, R545). -/
namespace Sys2Proof.Machine
open State

/-- FW_COMMIT of a staged bank: what the check of its bytes finds, and its SVN, decide (R537, R538). -/
theorem State.writeCommit_bank (s : State) : s.writeCommit 0xC1 = (match Config.bankSvn s.sec.fwStage with
    | none => (some 0x504, s)
    | some n => if n.toNat < s.flash.fwSvnMin then (some 0x505, s)
      else (some 0, { s with flash := { s.flash with fwNext := some n.toNat }, sec := { s.sec with fwStage := [] } })) := rfl

theorem exec_fwCommit {s : State} {v : Path} (h : s.accepts v 0x5003 4 [0xC1] = true) :
    exec (.fwCommit v) s = (match Config.bankSvn s.sec.fwStage with
      | none => .next (s.answered 0x504 [])
      | some n => if n.toNat < s.flash.fwSvnMin then .next (s.answered 0x505 [])
        else .next ({ s with flash := { s.flash with fwNext := some n.toNat }
                             sec := { s.sec with fwStage := [] } }.answered 0 [])) := by
  have commits {st : Nat} {t : State} (hw : s.writeCommit 0xC1 = (some st, t)) :
      exec (.fwCommit v) s = .next (t.answered st []) :=
    congrArg Host.Outcome.next (accessWrite_eq_answered h hw)
  have hw := s.writeCommit_bank
  split at hw
  next => exact commits hw
  next n _ =>
    split at hw
    · next hlow => rw [if_pos hlow]; exact commits hw
    · next hgood => rw [if_neg hgood]; exact commits hw

theorem exec_imageKey {s : State} {v : Path} {k : Nat} {b : List Byte} (hk : k < 8) (h : s.accepts v 0x5002 k b = true) :
    exec (.imageKey v k b) s = if s.flash.securityLock && !allZero (Table.get [] k s.flash.imageKeys)
      then .next (s.answered 0x506 [])
      else .next ({ s with flash := { s.flash with imageKeys := Table.put k b s.flash.imageKeys } }.answered 0 []) := by
  have hexec : exec (.imageKey v k b) s = .next (s.accessWrite v 0x5002 k b) := by
    change execImageKey v k b s = _
    simp [execImageKey, among, hk]
  have hown : s.writeOwn v 0x5002 k b none = if s.flash.securityLock && !allZero (Table.get [] k s.flash.imageKeys)
      then (some 0x506, s)
      else (some 0, { s with flash := { s.flash with imageKeys := Table.put k b s.flash.imageKeys } }) := rfl
  rw [hexec]
  split at hown
  · next hlocked => rw [if_pos hlocked, accessWrite_eq_answered h hown]
  · next hfree => rw [if_neg hfree, accessWrite_eq_answered h hown]

theorem exec_lecelCrypt {s : State} {v : Path} {p : Nat} {x : BitVec 8} (hp : p < 4)
    (h : s.accepts v 0x5004 p (leBytes 1 x.toNat) = true) (hx : x.toNat ≤ 1) (hidle : (s.lport p).usedBy = 0xFF) :
    exec (.lecelCrypt v p x) s = .next ((s.onLport p (fun q => { q with crypt := x.toNat })).answered 0 []) := by
  have hexec : exec (.lecelCrypt v p x) s = .next (s.accessWrite v 0x5004 p (leBytes 1 x.toNat)) := by
    change execLecelCrypt v p x s = _
    simp [execLecelCrypt, among, hp]
  have hown : s.writeOwn v 0x5004 p (leBytes 1 x.toNat) none =
      (some stOK, s.onLport p (fun q => { q with crypt := x.toNat })) := by
    change (if 1 < ofLE (leBytes 1 x.toNat) then _ else _) = _
    rw [ofLE_leBytes_one, if_neg (Nat.not_lt.mpr hx), if_neg (by simp [hidle])]
    rfl
  rw [hexec, accessWrite_eq_answered h hown]
  rfl

/-- SIGNED_REQUIRED may be cleared until SECURITY_LOCK is set (R536). -/
theorem State.writeOwn_unsigned {s : State} (v : Path) (h : s.flash.securityLock = false) :
    s.writeOwn v 0x5001 1 [0] none = (some stOK, { s with flash := { s.flash with signedRequired := false } }) := by
  change s.inRange (false || !s.flash.securityLock) _ = _
  exact inRange_of (by simp [h])

/-- Settles O39: each object by its own write, which the accepted access answers. -/
theorem securityObjects : Obligations.SecurityObjects := by
  unfold Obligations.SecurityObjects
  intro s v done no
  have answers {i sub st : Nat} {b : List Byte} {t : State} (h : s.accepts v i sub b = true)
      (hw : s.writeOwn v i sub b none = (some st, t)) : Host.Outcome.next (s.accessWrite v i sub b) =
        Host.Outcome.next (φ := Fault) (ρ := Refusal) (t.answered st []) :=
    congrArg Host.Outcome.next (accessWrite_eq_answered h hw)
  refine ⟨fun b h => answers h rfl, exec_fwCommit, fun h => answers h rfl, fun k b hk h => ?_, fun h => answers h rfl,
    fun h hlock => answers h (writeOwn_unsigned v hlock), fun h => answers h rfl, fun b h => answers h rfl,
    fun p x => exec_lecelCrypt⟩
  have hkey := exec_imageKey hk h
  constructor
  · rintro (hlock | hempty)
    · rwa [hlock] at hkey
    · rwa [hempty, if_neg (by simp [allZero])] at hkey
  · intro hlock hfull
    rwa [if_pos (by simp [hlock, hfull])] at hkey

end Sys2Proof.Machine

/-! Interrupt sources and targets (R485 to R488, R496). -/
namespace Sys2Proof.Machine
open State

@[simp] theorem State.irq_msix (s : State) (p v : Nat) : (s.msix p v).irq = s.irq := by
  obtain ⟨_, e⟩ := s.msix_eq p v
  rw [e]

/-- EOI of the source on top of its target's stack: the source is active no longer, and the target's stack and running priority
are what they were before its CLAIM (R488). -/
theorem State.writeEoi_of_top {s : State} {t n : Nat} {run : Option Nat} {rest : List (Option Nat × Nat)}
    (h : (s.target t).stack = (run, n) :: rest) : ∃ u, s.writeEoi t n = (some stOK, u) ∧ u.target t = ⟨run, rest⟩
      ∧ u.source n = { s.source n with active := false, offerFrom := s.now + 1 } := by
  have tables (u : State) : u.alertUpdate.irq.sources = u.irq.sources ∧ u.alertUpdate.irq.targets = u.irq.targets := ⟨rfl, rfl⟩
  unfold State.writeEoi
  extract_lets g
  split
  next hnil => rw [h] at hnil; cases hnil
  next run' m rest' hcons =>
    obtain ⟨⟨rfl, rfl⟩, rfl⟩ : (run = run' ∧ n = m) ∧ rest = rest' := by simpa using h.symm.trans hcons
    rw [if_neg (by simp)]
    extract_lets s'
    refine ⟨_, rfl, ?_⟩
    rw [State.target, State.source]
    split <;> simp only [tables, irq_msix] <;> exact ⟨Table.get_put_self .., Table.get_put_self ..⟩

/-- EOI of any other source is refused (R488). -/
theorem State.writeEoi_of_other {s : State} {t n : Nat}
    (h : (s.target t).stack = [] ∨ ∃ run m rest, (s.target t).stack = (run, m) :: rest ∧ m ≠ n) :
    s.writeEoi t n = (some stBAD_VALUE, s) := by
  unfold State.writeEoi
  rcases h with hnil | ⟨run, m, rest, hcons, hne⟩
  · simp [hnil, refuse]
  · simp [hcons, hne, refuse]

theorem exec_eoi {s u : State} {v : Path} {t st : Nat} {x : BitVec 16} (ht : t < 3)
    (h : s.accepts v (0x2410 + t) 2 (leBytes 2 x.toNat) = true) (hw : s.writeEoi t (x.toNat % 1024) = (some st, u)) :
    exec (.eoi v t x) s = .next (u.answered st []) := by
  have hexec : exec (.eoi v t x) s = .next (s.accessWrite v (0x2410 + t) 2 (leBytes 2 x.toNat)) := by
    change execEoi v t x s = _
    simp [execEoi, among, ht]
  have hown (b : List Byte) : s.writeOwn v (0x2410 + t) 2 b none = s.writeEoi t (ofLE b % 1024) := by
    unfold State.writeOwn State.writeIrq
    rw [if_neg (by omega), if_neg (by omega), if_pos (by omega), if_neg (by omega), if_neg (by omega), if_pos (by omega),
      Nat.add_sub_cancel_left]
  rw [hexec, accessWrite_eq_answered h ((hown _).trans (by rw [ofLE_leBytes_two, hw]))]

/-- Settles O57: an accepted EOI answers as its target's stack has it. -/
theorem eoiEndsTopSource : Obligations.EoiEndsTopSource := by
  unfold Obligations.EoiEndsTopSource
  intro s v t x ht h
  refine ⟨fun run rest htop => ?_, fun hother => exec_eoi ht h (writeEoi_of_other hother)⟩
  obtain ⟨u, hw, htarget, hsource⟩ := writeEoi_of_top htop
  refine ⟨_, exec_eoi ht h hw, rfl, congrArg Target.stack htarget, congrArg Target.run htarget, ?_⟩
  exact congrArg Source.active hsource

/-- The PORTER domain is ON, and REFCLK has stopped, so that the Porter's clock does not run. -/
def porterWithoutClock : State := { State.reset with
  power := { Power.reset with domains := [(0, { Domain.off with st := 0 })] } }

/-- Refutes O37: its clause of SIGNAL asks for a source that is PENDING afterwards. SIGNAL is accepted where the PORTER domain is
ON, but a host source fires only while the Porter's clock runs too: in `porterWithoutClock` source 0x2E0 stays as it was. -/
theorem not_interruptObjects : ¬ Obligations.InterruptObjects := by
  intro h
  obtain ⟨-, -, -, hsignal, -⟩ := h porterWithoutClock .portA
  obtain ⟨u, hexec, -, hpending, -⟩ := hsignal 0x2E0 (by decide) (by decide)
  have hsame : exec (.signal .portA 0x2E0) porterWithoutClock = .next (porterWithoutClock.answered 0 []) :=
    congrArg Host.Outcome.next (accessWrite_eq_answered (by decide) rfl)
  rw [← Host.Outcome.next.inj (hsame.symm.trans hexec)] at hpending
  exact Bool.false_ne_true hpending

end Sys2Proof.Machine

/-! The bins of a metric (R501). -/
namespace Sys2Proof.Machine
open State

theorem State.logBin_of_nonpos {v : Int} (h : v ≤ 0) : logBin v = 0 := if_pos h

theorem State.logBin_of_pos {v : Int} (h : 0 < v) : logBin v = min 15 (Nat.log2 v.toNat + 1) := if_neg (Int.not_le.mpr h)

/-- A value lies in bin k or above when it has k bits or more. -/
theorem State.le_logBin_iff {v : Int} {k : Nat} (h1 : 1 ≤ k) (h15 : k ≤ 15) : k ≤ logBin v ↔ 2 ^ (k - 1) ≤ v := by
  obtain ⟨j, rfl⟩ := Nat.exists_eq_add_of_le' h1
  rw [Nat.add_sub_cancel]
  rcases Int.lt_or_le 0 v with hpos | hneg
  · obtain ⟨n, rfl⟩ := Int.eq_ofNat_of_zero_le hpos.le
    have hn : n ≠ 0 := by omega
    rw [logBin_of_pos hpos, Int.toNat_natCast, le_min_iff, and_iff_right h15, Nat.add_le_add_iff_right, Nat.le_log2 hn]
    exact_mod_cast Iff.rfl
  · have hpow : (0 : Int) < 2 ^ j := by positivity
    rw [logBin_of_nonpos hneg]
    omega

theorem State.logBin_le (v : Int) : logBin v ≤ 15 := by
  unfold State.logBin
  split
  · exact Nat.zero_le _
  · exact Nat.min_le_left ..

/-- What an observation adds to the bins of its metric. -/
theorem State.bins_observe {s : State} (m : Nat) (v : Int) (h : s.log.current ≠ none) :
    (Table.get Metric.zero m (s.observe m v).log.metrics).bins =
      Table.modify 0 (logBin v) (fun n => satAdd 32 n 1) (Table.get Metric.zero m s.log.metrics).bins := by
  unfold State.observe
  split
  · contradiction
  · exact congrArg Metric.bins (Table.get_put_self ..)

/-- Settles O58: the bounds of a bin by `State.le_logBin_iff` at its two ends. -/
theorem logbookBins : Obligations.LogbookBins := by
  unfold Obligations.LogbookBins
  intro v
  refine ⟨logBin_of_nonpos, logBin_of_pos, fun k h1 h14 => ?_, ?_, fun s m hcur b => ?_⟩
  · have hlow := le_logBin_iff (v := v) h1 (by omega)
    have hhigh := le_logBin_iff (v := v) (k := k + 1) (by omega) (by omega)
    rw [Nat.add_sub_cancel] at hhigh
    omega
  · have htop := le_logBin_iff (v := v) (k := 15) (by omega) le_rfl
    have hle := logBin_le v
    omega
  · rw [bins_observe m v hcur, Table.modify]
    split
    · subst b; exact Table.get_put_self ..
    · next hb => exact Table.get_put_ne _ hb ..

end Sys2Proof.Machine

/-! What a source that fires leaves (R485), and what a record of the Logbook writes (R246, R503). -/
namespace Sys2Proof.Machine
open State

/-- Signalling leaves the sources. -/
theorem State.sources_irqUpdate (old s : State) : (irqUpdate old s).irq.sources = s.irq.sources := by
  have hirq (t : Nat) (r : State) : (signalled old s t r).irq = r.irq := by
    obtain ⟨_, e⟩ := signalled_eq old s t r
    rw [e]
  have e : (irqUpdate old s).irq.sources = (signalled old s 1 (signalled old s 0 s)).irq.sources := rfl
  rw [e, hirq, hirq]

/-- A source fires while the Porter's clock runs, or is a comparator's: it is PENDING. -/
theorem State.pending_fire {s : State} (n : Nat) (hkept : s.porterOn = true ∨ 0x10 ≤ n ∧ n ≤ 0x15) :
    ((s.fire n).source n).pending = true := by
  have hfires : (!s.porterOn && !(0x10 ≤ n && n ≤ 0x15)) = false := by
    rcases hkept with h | h <;> simp [h]
  rw [State.fire, hfires, if_neg Bool.false_ne_true, State.source, tallyEvent, onSource, sources_irqUpdate, Table.get_put_self]

@[simp] theorem State.mem_fire (s : State) (n : Nat) : (s.fire n).mem = s.mem := by
  obtain ⟨_, _, _, _, e⟩ := s.fire_eq n
  rw [e]

/-- Of the Logbook a source that fires changes the tallies alone. -/
theorem State.log_fire (s : State) (n : Nat) : ∃ tallies, (s.fire n).log = { s.log with tallies := tallies } := by
  unfold State.fire
  split
  · exact ⟨_, rfl⟩
  · unfold State.onSource
    extract_lets f u
    obtain ⟨_, _, _, e⟩ := irqUpdate_eq s u
    rw [e]
    exact ⟨_, rfl⟩

/-- A record's writes change memory alone, and what they make of it does not rest on the Logbook's registers. -/
theorem State.writeLog_withLog (s : State) (log : Logbook) (r i n : Nat) (data : List Byte) :
    { s with log := log }.writeLog r i n data = { s with log := log, mem := (s.writeLog r i n data).mem } := by
  have each (l : List Nat) (f : State → Nat → State) (hf : ∀ u la, f { u with log := log } la = { f u la with log := log })
      (hmem : ∀ u la, f u la = { u with mem := (f u la).mem }) : ∀ u : State,
      l.foldl f { u with log := log } = { u with log := log, mem := (l.foldl f u).mem } := by
    induction l with
    | nil => exact fun u => rfl
    | cons la l ih =>
      intro u
      rw [List.foldl_cons, List.foldl_cons, hf, ih, hmem u la]
  exact each (s.logCopies r) _ (fun _ _ => rfl) (fun _ _ => rfl) s

end Sys2Proof.Machine

/-! The Logbook (R497, R498, R502, R503). -/
namespace Sys2Proof.Machine
open State

/-- From s to t the Logbook's registers alone may change, and neither the interval in progress nor the records that are being
written. -/
structure State.Observes (s t : State) : Prop where
  rest : t = { s with log := t.log }
  current : t.log.current = s.log.current
  writing : t.log.writing = s.log.writing

namespace State.Observes

theorem refl (s : State) : Observes s s := ⟨rfl, rfl, rfl⟩

theorem trans {s t u : State} (h : Observes s t) (h' : Observes t u) : Observes s u :=
  ⟨by rw [h'.rest, h.rest], h'.current.trans h.current, h'.writing.trans h.writing⟩

theorem observe (s : State) (m : Nat) (v : Int) : Observes s (s.observe m v) := by
  unfold State.observe
  split
  · exact refl s
  · exact ⟨rfl, rfl, rfl⟩

theorem msObserve (s : State) (m : Nat) : Observes s (s.msObserve m) := (observe s m _).trans ⟨rfl, rfl, rfl⟩

theorem foldl {α : Type} {f : State → α → State} (h : ∀ u x, Observes u (f u x)) (l : List α) (s : State) :
    Observes s (l.foldl f s) := by
  induction l generalizing s with
  | nil => exact refl s
  | cons x l ih => exact (h s x).trans (ih _)

end State.Observes

/-- The tick of a millisecond observes the metrics, and keeps its time (R502). -/
theorem State.msTick_changes {s : State} (hrun : s.rinkRun = true) (hat : s.rink % 1600000 = 0) :
    Observes s s.msTick ∧ s.msTick.log.lastMs = s.rink := by
  rw [State.msTick, if_neg (by simp [hrun, hat])]
  extract_lets u
  have hobs : Observes s u := (Observes.foldl Observes.msObserve msMetrics s).trans (Observes.observe ..)
  have hrink : u.rink = s.rink := by rw [hobs.rest]
  exact ⟨hobs.trans ⟨rfl, rfl, rfl⟩, hrink⟩

/-- The end of an interval: the next begins, and the one that ends is written when it was recorded whole and there is room for
it, and lost otherwise (R497, R498). -/
theorem State.intervalEnd_changes {s : State} {start ms : Nat} {whole : Bool} (hrun : s.rinkRun = true)
    (hcur : s.log.current = some (start, ms, whole)) (hat : s.rink = start + 1600000 * ms) :
    let t := s.intervalEnd
    t.log.current = some (s.rink, s.log.interval, s.log.enable && s.porterOn) ∧ t.log.metrics = []
      ∧ ((whole && s.porterOn && decide (s.log.count + s.writingNow < 4096) && s.logArea) = true →
          t.log.writing = s.log.writing ++ [⟨s.log.count + s.writingNow, s.log.seqNext,
            s.recordBytes (s.log.count + s.writingNow) start ms, s.now⟩] ∧ t.log.lost = s.log.lost)
      ∧ ((whole && s.porterOn && decide (s.log.count + s.writingNow < 4096) && s.logArea) = false →
          t.log.writing = s.log.writing ∧ t.log.lost = satAdd 32 s.log.lost 1) := by
  intro t
  have ht : t = (s.closeInterval start ms whole).openInterval := by
    simp only [t, State.intervalEnd, hcur]
    simp [hrun, ← hat]
  rw [ht]
  unfold State.closeInterval
  extract_lets rec_ q b
  split
  next hroom =>
    rw [writeLog_withLog]
    exact ⟨rfl, rfl, fun _ => ⟨rfl, rfl⟩, fun hno => absurd (hroom.symm.trans hno) (by decide)⟩
  next hno => exact ⟨rfl, rfl, fun hroom => absurd hroom hno, fun _ => ⟨rfl, rfl⟩⟩

/-- The bytes of a record that is written whole at RINK count rink: SEQ and WRITTEN32 stand in it (R500, R503). -/
def LogWrite.whole (w : LogWrite) (rink : Nat) : List Byte :=
  leBytes 4 w.seq ++ sliceBytes w.bytes 4 20 ++ leBytes 4 (rink % 2 ^ 32) ++ w.bytes.drop 28

/-- The Logbook once the first record that waited, one of the current series, is written whole (R498, R503). -/
def Logbook.recorded (l : Logbook) (w : LogWrite) (rest : List LogWrite) (rink : Nat) : Logbook := { l with
  writing := rest, records := Table.put w.record (w.whole rink) l.records, seqLast := w.seq
  seqFirst := if w.record == 0 then w.seq else l.seqFirst, count := l.count + 1, full := l.full || w.record == 4095 }

/-- A record below the last is written whole: SEQ goes into it last, and source 7 fires (R498, R503). -/
theorem State.recordDone_eq {s : State} {w : LogWrite} {rest : List LogWrite} (hw : s.log.writing = w :: rest)
    (hon : s.porterOn = true) (hrec : w.record < 4095) : s.recordDone =
      ({ s with log := s.log.recorded w rest s.rink
                mem := (s.writeLog w.record 0 1 ((w.whole s.rink).take 64)).mem } : State).fire 7 := by
  have hmod : w.record % 4096 = w.record := Nat.mod_eq_of_lt (by omega)
  have hlast : w.record ≠ 4095 := by omega
  have hown : w.record < 4096 := by omega
  rw [← writeLog_withLog]
  simp [State.recordDone, hw, hon, hmod, hlast, hown, Logbook.recorded, LogWrite.whole]

theorem exec_logInterval {s : State} {v : Path} {x : BitVec 32} (h : s.accepts v 0x2600 2 (leBytes 4 x.toNat) = true)
    (hlow : 10 ≤ x.toNat) (hhigh : x.toNat ≤ 3600000) :
    exec (.logInterval v x) s = .next ({ s with log := { s.log with interval := x.toNat } }.answered 0 []) := by
  have hown (b : List Byte) : s.writeOwn v 0x2600 2 b none = s.inRange (10 ≤ ofLE b && ofLE b ≤ 3600000)
      { s with log := { s.log with interval := ofLE b } } := rfl
  have hw := hown (leBytes 4 x.toNat)
  rw [ofLE_leBytes_four, inRange_of (by simp [hlow, hhigh])] at hw
  exact congrArg Host.Outcome.next (accessWrite_eq_answered h hw)

/-- Settles O38: the writes by their objects, and the Logbook's events by what each makes of it. -/
theorem logbook : Obligations.Logbook := by
  unfold Obligations.Logbook
  intro s
  refine ⟨fun v x => exec_logInterval, fun v h => ?_, fun start ms whole hrun hcur hat => ?_, fun hrun hat => ?_,
    fun w rest hw hon hrec => ?_⟩
  · have hown : s.writeOwn v 0x2600 8 [0xC1] none = (some stOK, s.logClear) := rfl
    exact ⟨_, congrArg Host.Outcome.next (accessWrite_eq_answered h hown), rfl, rfl, rfl, rfl, rfl⟩
  · exact ⟨_, rfl, intervalEnd_changes hrun hcur hat⟩
  · obtain ⟨hobs, hlast⟩ := msTick_changes hrun hat
    exact ⟨_, rfl, hobs.rest, hlast, hobs.current, hobs.writing⟩
  · obtain ⟨tallies, hlog⟩ := State.log_fire { s with
      log := s.log.recorded w rest s.rink, mem := (s.writeLog w.record 0 1 ((w.whole s.rink).take 64)).mem } 7
    refine ⟨_, congrArg Host.Outcome.next (recordDone_eq hw hon hrec), ?_⟩
    rw [hlog, mem_fire]
    have hbytes : Table.get [] w.record (s.log.recorded w rest s.rink).records = w.whole s.rink := Table.get_put_self ..
    refine ⟨rfl, rfl, rfl, hbytes, fun r hr => Table.get_put_ne _ hr .., ?_, pending_fire 7 (.inl hon)⟩
    rw [hbytes]

end Sys2Proof.Machine

/-! PORTER wakes (R459, R466, R493). -/
namespace Sys2Proof.Machine
open State

/-- PORTER wakes after start-up, and source 2, which counts for ALERT, has been PENDING while it was OFF. -/
def wakingWithAlert : State := { State.reset with
  power := { Power.reset with domains := [(0, { Domain.off with st := 4 })] }
  start := { StartUp.powerOn with st := 2 }
  irq := { Irq.reset with sources := [(2, { Source.fresh with alert := true, pending := true })] } }

/-- Refutes O42: its clause of a wake after start-up has the domain's state change alone, PORTER's too. But on reaching ON the
PORTER domain brings ALERT up to date (R493), and in `wakingWithAlert` ALERT becomes 1. -/
theorem not_domainEntryAndWake : ¬ Obligations.DomainEntryAndWake := by
  intro h
  obtain ⟨-, -, -, -, -, hwake, -⟩ := h wakingWithAlert 0 (by decide)
  have hexec := (hwake rfl rfl rfl fun _ => rfl).1 (by decide) (by decide)
  have halert : (wakingWithAlert.wakeComplete 0).irq.alert = false :=
    congrArg (fun t => t.irq.alert) (Host.Outcome.next.inj hexec)
  have hrises : (wakingWithAlert.wakeComplete 0).irq.alert = true := by decide
  exact Bool.false_ne_true (halert.symm.trans hrises)

end Sys2Proof.Machine

/-! Changes of the domains, one after the other (R459, R551). -/
namespace Sys2Proof.Machine
open State

/-- From s to t the domains of l change as h has it, and nothing else. -/
structure State.DomainsBecome (l : List Nat) (h : Nat → Domain → Domain) (s t : State) : Prop where
  rest : ∃ domains, t = { s with power := { s.power with domains := domains } }
  domain : ∀ e, t.domain e = if e ∈ l then h e (s.domain e) else s.domain e

namespace State.DomainsBecome
variable {l : List Nat} {h : Nat → Domain → Domain} {s t : State}

theorem now (hb : DomainsBecome l h s t) : t.now = s.now := by
  obtain ⟨_, e⟩ := hb.rest
  rw [e]

/-- One domain. -/
theorem onDomain (s : State) (d : Nat) (f : Domain → Domain) (hf : f (s.domain d) = h d (s.domain d)) :
    DomainsBecome [d] h s (s.onDomain d f) := by
  refine ⟨⟨_, rfl⟩, fun e => ?_⟩
  by_cases he : e = d
  · subst he
    rw [if_pos (List.mem_singleton_self _), ← hf]
    exact Table.get_put_self ..
  · rw [if_neg (by simpa using he)]
    exact Table.get_put_ne _ he ..

/-- One domain that stays as it is. -/
theorem same (s : State) (d : Nat) (hd : s.domain d = h d (s.domain d)) : DomainsBecome [d] h s s := by
  refine ⟨⟨_, rfl⟩, fun e => ?_⟩
  split
  · next he => rw [List.mem_singleton.mp he]; exact hd
  · rfl

/-- The domains of a list, each once. -/
theorem foldl {f : State → Nat → State} (l : List Nat) (hl : l.Nodup) (s : State)
    (hf : ∀ u d, u.now = s.now → DomainsBecome [d] h u (f u d)) : DomainsBecome l h s (l.foldl f s) := by
  induction l generalizing s with
  | nil => exact ⟨⟨_, rfl⟩, fun _ => rfl⟩
  | cons d l ih =>
    obtain ⟨hd, hl⟩ := List.nodup_cons.mp hl
    have hone := hf s d rfl
    obtain ⟨⟨domains, hrest⟩, hdomain⟩ := ih hl (f s d) fun u e hu => hf u e (hu.trans hone.now)
    obtain ⟨domains', hrest'⟩ := hone.rest
    refine ⟨⟨domains, by rw [List.foldl_cons, hrest, hrest']⟩, fun e => ?_⟩
    rw [List.foldl_cons, hdomain, hone.domain]
    by_cases he : e = d
    · subst he; simp [hd]
    · simp [he]

end State.DomainsBecome

theorem mem_allDomains {d : Nat} (hd : d < 36) : d ∈ allDomains := List.mem_range.mpr hd

end Sys2Proof.Machine

/-! What the end of a cycle leaves (R40, R203, R223, R473). -/
namespace Sys2Proof.Machine
open State

/-- From s to t no time passes, and flash and start-up stand. -/
structure State.Steady (s t : State) : Prop where
  now : t.now = s.now
  flash : t.flash = s.flash
  start : t.start = s.start

namespace State.Steady
variable {s t u : State}

theorem refl (s : State) : Steady s s := ⟨rfl, rfl, rfl⟩

theorem trans (h : Steady s t) (h' : Steady t u) : Steady s u :=
  ⟨h'.now.trans h.now, h'.flash.trans h.flash, h'.start.trans h.start⟩

theorem ite {c : Prop} [Decidable c] (ht : Steady s t) (hu : Steady s u) : Steady s (if c then t else u) := by
  split
  · exact ht
  · exact hu

theorem foldl {α : Type} {f : State → α → State} (h : ∀ u x, Steady u (f u x)) (l : List α) (s : State) :
    Steady s (l.foldl f s) := by
  induction l generalizing s with
  | nil => exact refl s
  | cons x l ih => exact (h s x).trans (ih _)

theorem startSites (s : State) : Steady s s.startSites := by
  obtain ⟨_, _, _, _, _, _, e⟩ := s.planned_startSites
  rw [e]
  exact ⟨rfl, rfl, rfl⟩

theorem sendLink (s0 : State) (n d t : Nat) (s : State) : Steady s (State.sendLink s0 n d t s) := by
  unfold State.sendLink
  extract_lets f
  refine ite (refl s) ?_
  split
  · exact ite ⟨rfl, rfl, rfl⟩ (refl s)
  · exact ite ⟨rfl, rfl, rfl⟩ (refl s)

theorem sendLinks (s0 : State) (n : Nat) (s : State) : Steady s (State.sendLinks s0 n s) :=
  foldl (fun u d => (sendLink s0 n d 0 u).trans (sendLink s0 n d 1 _)) [0, 1, 2, 3] s

theorem endCore (s : State) (n : Nat) : Steady s (s.endCore n) := by
  unfold State.endCore
  extract_lets k x k' s'
  have hset : Steady s s' := ⟨rfl, rfl, rfl⟩
  clear_value s' k' x
  have hraise (r : FaultRec) : Steady s' (s'.raise k.slot r) := by
    unfold State.raise
    exact ite ⟨rfl, rfl, rfl⟩ (refl s')
  refine ite (refl s) (ite (ite hset ⟨hset.now, hset.flash, hset.start⟩) (ite ?_ hset))
  exact hset.trans ((hraise _).trans ⟨rfl, rfl, rfl⟩)

theorem endGrid (s : State) : Steady s s.endGrid := by
  unfold State.endGrid
  extract_lets s1 s2
  have h1 : Steady s s1 := foldl (fun u (x : Nat × Router) => sendLinks s x.1 u) _ s
  have h2 : Steady s1 s2 := foldl (fun u (x : Nat × Core) => endCore u x.1) _ s1
  clear_value s1 s2
  exact (h1.trans h2).trans ⟨rfl, rfl, rfl⟩

theorem rinkNext (s : State) : Steady s s.rinkNext := by
  unfold State.rinkNext
  exact ite ⟨rfl, rfl, rfl⟩ (refl s)

theorem seeDevice (s : State) : Steady s s.seeDevice := by
  unfold State.seeDevice
  exact ite ⟨rfl, rfl, rfl⟩ (refl s)

theorem irqUpdate (old s : State) : Steady s (State.irqUpdate old s) := by
  obtain ⟨_, _, _, e⟩ := irqUpdate_eq old s
  rw [e]
  exact ⟨rfl, rfl, rfl⟩

theorem observe (s : State) (m : Nat) (v : Int) : Steady s (s.observe m v) := by
  unfold State.observe
  split <;> exact ⟨rfl, rfl, rfl⟩

theorem decideLap (s : State) (k : Nat) : Steady s (s.decideLap k).1 := by
  unfold State.decideLap
  extract_lets louvre u louvre' v w x
  have hx : Steady s x := Steady.trans (t := v) ⟨rfl, rfl, rfl⟩ ((observe v 4 _).trans ⟨rfl, rfl, rfl⟩)
  split
  · exact ite hx (hx.trans ⟨rfl, rfl, rfl⟩)
  · exact ⟨rfl, rfl, rfl⟩

theorem decideAll (l : List Nat) (floor : Nat) (s : State) : Steady s (State.decideAll l floor s) := by
  induction l generalizing floor s with
  | nil => exact refl s
  | cons k l ih =>
    unfold State.decideAll
    split
    · have hrest := ih floor { s with louvre := { s.louvre with deferred := satAdd 64 s.louvre.deferred 1 } }
      exact ⟨hrest.now, hrest.flash, hrest.start⟩
    · exact (decideLap s k).trans (ih ..)

theorem decideAsked (s : State) : Steady s s.decideAsked := by
  unfold State.decideAsked State.decide'
  exact ite (ite (decideAll ..) (refl s)) (refl s)

end State.Steady

/-- A cycle takes one cc, and leaves flash and start-up. -/
theorem State.tick_changes (s : State) : s.tick.now = s.now + 1 ∧ s.tick.flash = s.flash ∧ s.tick.start = s.start := by
  unfold State.tick
  extract_lets s1 grid s2 mem pins s3
  have h1 : Steady s s1 := .endGrid s
  have h2 : Steady s1 s2 := by
    refine Steady.trans ?_ (.rinkNext _)
    exact ⟨rfl, rfl, rfl⟩
  have h3 : s3.now = s2.now + 1 ∧ s3.flash = s2.flash ∧ s3.start = s2.start :=
    ⟨(Steady.seeDevice _).now, (Steady.seeDevice _).flash, (Steady.seeDevice _).start⟩
  obtain ⟨hnow, hflash, hstart⟩ := h3
  have h12 := h1.trans h2
  rw [h12.now] at hnow
  obtain ⟨inow, iflash, istart⟩ := Steady.irqUpdate s s3
  split
  · exact ⟨inow.trans hnow, iflash.trans (hflash.trans h12.flash), istart.trans (hstart.trans h12.start)⟩
  · exact ⟨hnow, hflash.trans h12.flash, hstart.trans h12.start⟩

/-- A cycle in which no command waits begins the device reset that is due (R454, R551). -/
theorem State.idle_of_resetAsked {s : State} {a p : Nat} (h : s.start.resetAsked = some (a, p))
    (hdue : 2 ≤ p ∨ a + 1600000 ≤ s.now + 1) :
    ∃ u : State, s.idle = u.beginDeviceReset ∧ u.now = s.now + 1 ∧ u.flash = s.flash := by
  have hturn : Steady s s.porterTurn := by
    unfold State.porterTurn
    exact .ite (.startSites s) (.refl s)
  obtain ⟨hnow, hflash, hstart⟩ := s.porterTurn.tick_changes
  have hdecide := Steady.decideAsked s.porterTurn.tick
  have hnow' : s.porterTurn.tick.decideAsked.now = s.now + 1 := by rw [hdecide.now, hnow, hturn.now]
  have hstart' : s.porterTurn.tick.decideAsked.start = s.start := by rw [hdecide.start, hstart, hturn.start]
  have hreset : s.porterTurn.tick.decideAsked.resetDue = true := by
    simpa [State.resetDue, hstart', h, hnow'] using hdue
  exact ⟨_, if_pos hreset, hnow', by rw [hdecide.flash, hflash, hturn.flash]⟩

end Sys2Proof.Machine

/-! Resets (R454, R456, R550, R551). -/
namespace Sys2Proof.Machine
open State

/-- A reset keeps the energy that each domain has drawn (R456, R470). -/
theorem State.energy_coldState (s : State) (d : Nat) : ((s.coldState false).domain d).energy = (s.domain d).energy := by
  have hmap (l : Table Domain) : (Table.get (domainDefault d) d (l.map (fun x =>
      (x.1, { domainDefault x.1 with energy := x.2.energy, padsHeld := sashLocked x.1 })))).energy
        = (Table.get (domainDefault d) d l).energy := by
    induction l with
    | nil => rfl
    | cons x l ih =>
      obtain ⟨e, y⟩ := x
      simp only [List.map_cons, Table.get]
      split
      · rfl
      · exact ih
  exact hmap s.power.domains

/-- A domain, in state st when a reset begins now, that was not OFF then enters OFF (R551). -/
def Domain.entersOff (now st : Nat) (x : Domain) : Domain :=
  if st = 2 then x else { x with st := 3, since := now, target := 2, armed := false }

/-- A domain that entered OFF with a reset is OFF when start-up resumes (R551). -/
def Domain.offReached (x : Domain) : Domain :=
  if x.st = 3 then { x with st := 2, target := 2, armed := true, latched := false } else x

/-- A pin or device reset begins on what R456 keeps, and the domains enter OFF (R551). -/
theorem State.beginReset_domains (s : State) : ∃ u thermal pins,
    u = { s.coldState false with thermal := thermal, pins := pins }
      ∧ DomainsBecome allDomains (fun d => Domain.entersOff s.now (s.domain d).st) u s.beginReset := by
  unfold State.beginReset
  extract_lets t thermal
  refine ⟨_, _, _, rfl, .foldl allDomains List.nodup_range _ fun u d _ => ?_⟩
  split
  · next h => exact .same u d (if_pos (eq_of_beq h)).symm
  · next h => exact .onDomain u d _ (if_neg (by simpa using h)).symm

/-- What the beginning of a pin or device reset leaves (R456, R551). -/
theorem State.beginReset_changes (s : State) :
    let t := s.beginReset
    t.slots = [] ∧ t.mem = MemState.reset ∧ t.grid = Grid.reset ∧ t.irq = Irq.reset ∧ t.det = Det.reset
      ∧ t.dict.resets = s.dict.resets ∧ t.dict.i3cAddress = s.dict.i3cAddress ∧ t.flash.imageKeys = s.flash.imageKeys
      ∧ t.rinkRun = false ∧ t.now = s.now
      ∧ t.start = (s.coldState false).start
      ∧ (∀ d < 36, (t.domain d).energy = (s.domain d).energy
        ∧ ((s.domain d).st ≠ 2 → (t.domain d).st = 3 ∧ (t.domain d).target = 2)) := by
  intro t
  obtain ⟨u, thermal, pins, hu, ⟨domains, hrest⟩, hdomain⟩ := s.beginReset_domains
  have hcold : t = { s.coldState false with
      thermal := thermal, pins := pins, power := { (s.coldState false).power with domains := domains } } :=
    hrest.trans (by rw [hu])
  refine ⟨by rw [hcold]; rfl, by rw [hcold]; rfl, by rw [hcold]; rfl, by rw [hcold]; rfl, by rw [hcold]; rfl,
    by rw [hcold]; rfl, by rw [hcold]; rfl, by rw [hcold]; rfl, by rw [hcold]; rfl, by rw [hcold]; rfl, by rw [hcold],
    fun d hd => ?_⟩
  rw [show t.domain d = _ from hdomain d, if_pos (mem_allDomains hd)]
  have henergy : (u.domain d).energy = (s.domain d).energy := by rw [hu]; exact s.energy_coldState d
  unfold Domain.entersOff
  split
  · next hoff => exact ⟨henergy, fun hne => absurd hoff hne⟩
  · exact ⟨henergy, fun _ => ⟨rfl, rfl⟩⟩

/-- Time 0 is start-up's own affair (R554). -/
theorem State.timeZero_eq (s : State) (latch : Bool) : ∃ time0 st straps,
    s.timeZero latch = { s with start := { s.start with time0 := time0, st := st, straps := straps } } := by
  unfold State.timeZero
  split <;> exact ⟨_, _, _, rfl⟩

/-- RESET_N's rise and the end of a device reset: the domains that entered OFF are OFF, and LAST_RESET and RESETS tell of it
(R454, R550, R551). -/
theorem State.resumeStart_changes (s : State) (kind : Nat) :
    let t := s.resumeStart kind
    (∀ d < 36, (t.domain d).st = if (s.domain d).st = 3 then 2 else (s.domain d).st)
      ∧ t.dict.lastReset = kind ∧ t.dict.resets = satAdd 32 s.dict.resets 1
      ∧ t.thermal = (if kind = 1 then Thermal.reset else s.thermal) ∧ t.pins.pinDrive = s.pins.pinDrive ∧ t.slots = s.slots
      ∧ t.start.resetN = s.start.resetN ∧ t.start.resetHeld = s.start.resetHeld := by
  unfold State.resumeStart
  extract_lets u dict pins v t
  obtain ⟨⟨domains, hrest⟩, hdomain⟩ : DomainsBecome allDomains (fun _ => Domain.offReached) s u := by
    refine .foldl allDomains List.nodup_range s fun u d _ => ?_
    split
    · next h => exact .onDomain u d _ (if_pos (eq_of_beq h)).symm
    · next h => exact .same u d (if_neg (by simpa using h)).symm
  clear_value u
  obtain ⟨time0, st, straps, ht⟩ := v.timeZero_eq (kind == 1)
  have hu : t = { v with start := { v.start with time0 := time0, st := st, straps := straps } } := ht
  have hfields : u.dict = s.dict ∧ u.thermal = s.thermal ∧ u.pins.pinDrive = s.pins.pinDrive ∧ u.slots = s.slots
      ∧ u.start.resetN = s.start.resetN ∧ u.start.resetHeld = s.start.resetHeld := by
    rw [hrest]
    exact ⟨rfl, rfl, rfl, rfl, rfl, rfl⟩
  obtain ⟨hdict, hthermal, hdrive, hslots, hresetN, hheld⟩ := hfields
  have hdomains : ∀ d, t.domain d = u.domain d := fun d => by rw [hu]; rfl
  rw [hu]
  refine ⟨fun d hd => ?_, rfl, congrArg (fun x => satAdd 32 (Dict.resets x) 1) hdict, by simp only [v, hthermal, beq_iff_eq],
    hdrive, hslots, hresetN, hheld⟩
  rw [← hu, hdomains, hdomain, if_pos (mem_allDomains hd), Domain.offReached]
  split <;> rfl

/-- Settles O44: each reset by what its beginning clears and its end sets; the device reset that was asked for by the cycle that
begins it. -/
theorem resets : Obligations.Resets := by
  unfold Obligations.Resets
  refine ⟨fun s straps addr => ⟨fun hoff => ?_, ?_, fun hn hon => ?_, fun hn hon => ?_, fun v ha hnone => ?_, fun a ha hnow => ?_⟩,
    fun s a p hq hasked hdue => ?_⟩
  case refine_1 =>
    have hrise : s.pwrOkRise straps addr = { s.coldState true with start := { (s.coldState true).start with
      pwrOk := true, strapPins := straps.toNat, addrPins := addr.toNat } }.timeZero true := by
      rw [State.pwrOkRise, if_neg (by simp [hoff])]
    obtain ⟨_, _, _, hzero⟩ := State.timeZero_eq { s.coldState true with start := { (s.coldState true).start with
      pwrOk := true, strapPins := straps.toNat, addrPins := addr.toNat } } true
    refine ⟨_, congrArg Host.Outcome.next (hrise.trans hzero), ?_⟩
    exact ⟨rfl, rfl, rfl, rfl, rfl, rfl, rfl, rfl, rfl, rfl, rfl, rfl, rfl, rfl, rfl, rfl, rfl, rfl⟩
  case refine_2 => exact ⟨_, rfl, rfl, rfl, rfl, rfl, rfl, rfl, rfl⟩
  case refine_3 =>
    have hfall : s.resetFall = { s.beginReset with start := { s.beginReset.start with resetN := false } } := by
      simp [State.resetFall, hn, hon]
    obtain ⟨hslots, hmem, hgrid, hirq, hdet, hresets, hi3c, -, -, -, -, hdomains⟩ := s.beginReset_changes
    refine ⟨_, congrArg Host.Outcome.next hfall, rfl, ?_, hslots, hmem, hgrid, hirq, hdet, hresets, hi3c, hdomains⟩
    simp [State.held]
  case refine_4 =>
    have hrise : s.resetRise straps addr = { s with
        start := { s.start with resetN := true, strapPins := straps.toNat, addrPins := addr.toNat }
        pins := { s.pins with pinDrive := none } }.resumeStart 1 := by
      simp [State.resetRise, hn, hon]
    obtain ⟨hdomains, hlast, hresets, hthermal, hpins, -, hresetN, -⟩ := State.resumeStart_changes { s with
        start := { s.start with resetN := true, strapPins := straps.toNat, addrPins := addr.toNat }
        pins := { s.pins with pinDrive := none } } 1
    exact ⟨_, congrArg Host.Outcome.next hrise, hresetN, hlast, hresets, hthermal, hpins,
      hdomains⟩
  case refine_5 =>
    have hown : s.writeOwn v 0x1000 0x0C [0xA5] none = (some stOK, { s with start := { s.start with
        resetAsked := some (s.start.resetAsked.getD (s.now, 2)) } }) := rfl
    rw [hnone] at hown
    exact congrArg Host.Outcome.next (accessWrite_eq_answered ha hown)
  case refine_6 =>
    have hend : s.releaseReset = { s with start := { s.start with resetHeld := none } }.resumeStart 2 := by
      simp [State.releaseReset, ha, hnow]
    obtain ⟨-, hlast, hresets, hthermal, -, hslots, -, hheld⟩ :=
      State.resumeStart_changes { s with start := { s.start with resetHeld := none } } 2
    exact ⟨_, congrArg Host.Outcome.next hend, hheld, hlast, hresets, hthermal, hslots⟩
  case refine_7 =>
    obtain ⟨u, hidle, hnow, hflash⟩ := idle_of_resetAsked hasked hdue
    have hstep : step s = .next u.beginDeviceReset := by
      rw [step, hq, ← hidle]
    obtain ⟨hslots, hmem, hgrid, -, -, -, -, hkeys, hrink, hsame, hstart, -⟩ := u.beginReset_changes
    refine ⟨_, hstep, hsame.trans hnow, congrArg some hnow, ?_, hslots, hgrid, hmem, hkeys.trans (by rw [hflash]), hrink⟩
    exact congrArg StartUp.resetAsked hstart

end Sys2Proof.Machine

/-! What faults that the Porter raises, and halts, leave of power and of the sensors (R285, R323, R588). -/
namespace Sys2Proof.Machine
open State

@[simp] theorem State.thermN_fire (s : State) (n : Nat) : (s.fire n).pins.thermN = s.pins.thermN := by
  have hupdate (old u : State) : (irqUpdate old u).pins.thermN = u.pins.thermN := by
    have e : (irqUpdate old u).pins.thermN = (signalled old u 1 (signalled old u 0 u)).pins.thermN := rfl
    obtain ⟨_, e1⟩ := signalled_eq old u 1 (signalled old u 0 u)
    obtain ⟨_, e0⟩ := signalled_eq old u 0 u
    rw [e, e1, e0]
  unfold State.fire
  split
  · rfl
  · exact hupdate ..

/-- What a mapping leaves of each entry, it leaves of the entry read. -/
theorem Table.get_mapVals_reads {α β : Type} (p : α → β) (d : α) {f : Nat → α → α} (hf : ∀ k x, p (f k x) = p x) (k : Nat)
    (l : Table α) : p (Table.get d k (Table.mapVals f l)) = p (Table.get d k l) := by
  induction l with
  | nil => rfl
  | cons c l ih =>
    obtain ⟨j, x⟩ := c
    simp only [Table.mapVals, Table.get]
    split
    · exact hf j x
    · exact ih

/-- From s to t sources fire and faults are kept: slots, sources, their pins and host ports change, but the stage of no lap and
not THERM_N. -/
structure State.Raises (s t : State) : Prop where
  rest : ∃ slots ports irq pins log, t = { s with slots := slots, ports := ports, irq := irq, pins := pins, log := log }
  stage : ∀ k, (t.slot k).stage = (s.slot k).stage
  thermN : t.pins.thermN = s.pins.thermN

namespace State.Raises
variable {s t u : State}

theorem refl (s : State) : Raises s s := ⟨⟨_, _, _, _, _, rfl⟩, fun _ => rfl, rfl⟩

theorem trans (h : Raises s t) (h' : Raises t u) : Raises s u := by
  obtain ⟨_, _, _, _, _, e⟩ := h.rest
  obtain ⟨slots, ports, irq, pins, log, e'⟩ := h'.rest
  exact ⟨⟨slots, ports, irq, pins, log, by rw [e', e]⟩, fun k => (h'.stage k).trans (h.stage k), h'.thermN.trans h.thermN⟩

theorem foldl {α : Type} {f : State → α → State} (h : ∀ u x, Raises u (f u x)) (l : List α) (s : State) :
    Raises s (l.foldl f s) := by
  induction l generalizing s with
  | nil => exact refl s
  | cons x l ih => exact (h s x).trans (ih _)

theorem fire (s : State) (n : Nat) : Raises s (s.fire n) := by
  have hslots : (s.fire n).slots = s.slots := by
    obtain ⟨_, _, _, _, e⟩ := s.fire_eq n
    rw [e]
  refine ⟨?_, fun k => by rw [State.slot, hslots]; rfl, thermN_fire s n⟩
  obtain ⟨ports, irq, pins, log, e⟩ := s.fire_eq n
  exact ⟨s.slots, ports, irq, pins, log, e⟩

theorem evidenceAll (s : State) : Raises s s.evidenceAll := by
  refine ⟨⟨_, _, _, _, _, rfl⟩, fun k => Table.get_mapVals_reads Slot.stage _ (fun j x => ?_) k s.slots, rfl⟩
  split <;> rfl

/-- A change of a slot, but for its stage. -/
theorem onSlot (s : State) (k : Nat) {f : Slot → Slot} (hf : (f (s.slot k)).stage = (s.slot k).stage) :
    Raises s (s.onSlot k f) := by
  refine ⟨⟨_, _, _, _, _, rfl⟩, fun j => ?_, rfl⟩
  rw [slot_onSlot_if]
  split
  · subst j; exact hf
  · rfl

theorem porterFault (s : State) (k code : Nat) : Raises s (s.porterFault k code) := by
  have hcause : Raises s (s.porterCause k code) := by
    unfold State.porterCause
    split
    · exact (onSlot s k rfl).trans (onSlot _ k (by split_ifs <;> rfl))
    · exact refl s
  unfold State.porterFault
  split
  · exact hcause.trans (onSlot _ k rfl)
  · exact refl s

theorem power (h : Raises s t) : t.power = s.power := by obtain ⟨_, _, _, _, _, e⟩ := h.rest; rw [e]
theorem thermal (h : Raises s t) : t.thermal = s.thermal := by obtain ⟨_, _, _, _, _, e⟩ := h.rest; rw [e]
theorem louvre (h : Raises s t) : t.louvre = s.louvre := by obtain ⟨_, _, _, _, _, e⟩ := h.rest; rw [e]
theorem grid (h : Raises s t) : t.grid = s.grid := by obtain ⟨_, _, _, _, _, e⟩ := h.rest; rw [e]
theorem mem (h : Raises s t) : t.mem = s.mem := by obtain ⟨_, _, _, _, _, e⟩ := h.rest; rw [e]
theorem link (h : Raises s t) : t.link = s.link := by obtain ⟨_, _, _, _, _, e⟩ := h.rest; rw [e]

end State.Raises

/-- From s to t slots halt: the domains, the sensors, the cause for which the device counts as lost, and its binding stand. -/
structure State.HaltStands (s t : State) : Prop where
  power : t.power = s.power
  thermal : t.thermal = s.thermal
  thermN : t.pins.thermN = s.pins.thermN
  deviceLost : t.grid.deviceLost = s.grid.deviceLost
  bindState : t.link.st = s.link.st

namespace State.HaltStands
variable {s t u : State}

theorem refl (s : State) : HaltStands s s := ⟨rfl, rfl, rfl, rfl, rfl⟩

theorem trans (h : HaltStands s t) (h' : HaltStands t u) : HaltStands s u :=
  ⟨h'.power.trans h.power, h'.thermal.trans h.thermal, h'.thermN.trans h.thermN, h'.deviceLost.trans h.deviceLost,
    h'.bindState.trans h.bindState⟩

theorem foldl {α : Type} {f : State → α → State} (h : ∀ u x, HaltStands u (f u x)) (l : List α) (s : State) :
    HaltStands s (l.foldl f s) := by
  induction l generalizing s with
  | nil => exact refl s
  | cons x l ih => exact (h s x).trans (ih _)

theorem of_raises (h : Raises s t) : HaltStands s t := ⟨h.power, h.thermal, h.thermN, by rw [h.grid], by rw [h.link]⟩

theorem onSlot (s : State) (k : Nat) (f : Slot → Slot) : HaltStands s (s.onSlot k f) := ⟨rfl, rfl, rfl, rfl, rfl⟩

theorem respond (s : State) (p : Nat) (r : Response) : HaltStands s (s.respond p r) := by
  obtain ⟨_, e⟩ := s.respond_eq p r
  rw [e]
  exact ⟨rfl, rfl, rfl, rfl, rfl⟩

theorem answerTicket (s : State) (t : Ticket) (opcode slot status value0 value1 : Nat) (payload : List Byte) (async : Bool) :
    HaltStands s (s.answerTicket t opcode slot status value0 value1 payload async) := by
  obtain ⟨_, e⟩ := s.answerTicket_eq t opcode slot status value0 value1 payload async
  rw [e]
  exact ⟨rfl, rfl, rfl, rfl, rfl⟩

theorem refund (s : State) (k : Nat) : HaltStands s (s.refund k) := by
  unfold State.refund
  split <;> exact ⟨rfl, rfl, rfl, rfl, rfl⟩

theorem emptySlot (s : State) (k : Nat) : HaltStands s (s.emptySlot k) := by
  unfold State.emptySlot
  extract_lets x dict s1 s2 grid link s3 grid'
  have hs1 : HaltStands s s1 := by
    unfold s1
    split
    · split
      · exact respond ..
      · exact ⟨rfl, rfl, rfl, rfl, rfl⟩
    · exact refl s
  have hs2 : HaltStands s1 s2 := (refund s1 k).trans ⟨rfl, rfl, rfl, rfl, rfl⟩
  have hs3 : HaltStands s2 s3 := ⟨rfl, rfl, rfl, rfl, rfl⟩
  have hs := hs1.trans (hs2.trans hs3)
  split
  · exact hs.trans ⟨rfl, rfl, rfl, rfl, rfl⟩
  · exact hs

theorem answerHalts (s : State) (k status : Nat) : HaltStands s (s.answerHalts k status) :=
  (foldl (fun u (h : Ticket × Bool) => answerTicket u h.1 0x31 k status (u.slot k).lapNext 0 [] false) _ s).trans (onSlot ..)

theorem endRunResponse (s : State) (k status : Nat) : HaltStands s (s.endRunResponse k status) := by
  unfold State.endRunResponse
  split
  · exact refl s
  · exact (answerTicket ..).trans (onSlot ..)

theorem haltSlot (s : State) (k : Nat) (why : HaltReason) : HaltStands s (s.haltSlot k why) := by
  unfold State.haltSlot
  extract_lets x s1 s2 s3 s4 s5
  have hs1 : HaltStands s s1 := by
    unfold s1
    split
    · exact onSlot ..
    · exact refl s
    all_goals exact (refund s k).trans (onSlot ..)
  have hs2 : HaltStands s1 s2 := by
    simp only [s2]
    split
    · exact answerTicket ..
    · exact refl s1
  have hs3 : HaltStands s2 s3 := by
    simp only [s3]
    split
    · exact of_raises (.fire ..)
    · exact refl s2
  have hs5 : HaltStands s3 s5 := (onSlot ..).trans (of_raises (.fire ..))
  have hrelease (v : State) : HaltStands v (v.releaseFor k x.halt) := by
    unfold State.releaseFor
    split
    · exact emptySlot v k
    · exact refl v
  split
  · exact refl s
  · exact (hs1.trans (hs2.trans (hs3.trans hs5))).trans
      ((endRunResponse ..).trans ((answerHalts ..).trans (hrelease _)))

end State.HaltStands

/-- A device that is lost, whatever it was: its cause is kept, and the domains and the sensors stand (R516). -/
theorem State.loseDevice_stands (s : State) {cause : Nat} (hc : cause ≠ 0) :
    (s.loseDevice cause).grid.deviceLost ≠ 0 ∧ (s.loseDevice cause).power = s.power ∧ (s.loseDevice cause).thermal = s.thermal
      ∧ (s.loseDevice cause).pins.thermN = s.pins.thermN ∧ (s.loseDevice cause).link.st = s.link.st := by
  unfold State.loseDevice
  split
  · next h => exact ⟨by simpa using h, rfl, rfl, rfl, rfl⟩
  · extract_lets grid u
    have hfold : HaltStands u _ := HaltStands.foldl (fun v k => .haltSlot v k .deviceLost) (List.range 8) u
    exact ⟨fun h0 => hc (hfold.deviceLost.symm.trans h0), hfold.power, hfold.thermal, hfold.thermN, hfold.bindState⟩

end Sys2Proof.Machine

/-! What wake events, a sample's alarms and a trip change (R464, R467, R471, R479, R480). -/
namespace Sys2Proof.Machine
open State

/-- From s to t wake events fall: domains, and the counts of wakes lost and entries cancelled, change alone. -/
def State.Wakes (s t : State) : Prop :=
  ∃ domains lost cancelled, t =
    { s with power := { s.power with domains := domains, wakesLost := lost, entriesCancelled := cancelled } }

namespace State.Wakes
variable {s t u : State}

theorem refl (s : State) : Wakes s s := ⟨_, _, _, rfl⟩

theorem trans (h : Wakes s t) (h' : Wakes t u) : Wakes s u := by
  obtain ⟨_, _, _, e⟩ := h
  obtain ⟨domains, lost, cancelled, e'⟩ := h'
  exact ⟨domains, lost, cancelled, by rw [e', e]⟩

theorem foldl {α : Type} {f : State → α → State} (h : ∀ u x, Wakes u (f u x)) (l : List α) (s : State) :
    Wakes s (l.foldl f s) := by
  induction l generalizing s with
  | nil => exact refl s
  | cons x l ih => exact (h s x).trans (ih _)

theorem onDomain (s : State) (d : Nat) (f : Domain → Domain) : Wakes s (s.onDomain d f) := ⟨_, _, _, rfl⟩

theorem wakeOne (s : State) (d : Nat) (write level : Bool) : Wakes s (s.wakeOne d write level) := by
  unfold State.wakeOne
  extract_lets x c power s1
  have hcancelled : Wakes s s1 := ⟨_, _, _, rfl⟩
  have hlost : Wakes s _ := ⟨s.power.domains, satAdd 32 s.power.wakesLost 1, s.power.entriesCancelled, rfl⟩
  split_ifs
  · exact refl s
  · exact hcancelled.trans ((onDomain ..).trans (onDomain ..))
  · exact hcancelled.trans (onDomain ..)
  · exact onDomain ..
  · exact onDomain ..
  · exact onDomain ..
  · exact refl s
  · exact hlost
  · exact onDomain ..

theorem wakeEvent (n : Nat) : ∀ (s : State) (d : Nat) (write level : Bool), Wakes s (s.wakeEvent d write level n) := by
  induction n with
  | zero => exact fun s _ _ _ => refl s
  | succ n ih =>
    intro s d write level
    refine .trans (foldl (fun u e => ?_) (requires d) s) (wakeOne ..)
    split
    · exact refl u
    · exact ih ..

end State.Wakes

/-- Of a wake event of comparator n its source is PENDING, and the comparators stand. -/
theorem State.comparatorWake_reads (s : State) {n : Nat} (hn : n < 6) :
    (s.comparatorWake n).power.comparators = s.power.comparators ∧ ((s.comparatorWake n).source (0x10 + n)).pending = true := by
  have hpending : ((s.fire (0x10 + n)).source (0x10 + n)).pending = true := pending_fire _ (.inr (by omega))
  have hpower : (s.fire (0x10 + n)).power = s.power := (Raises.fire s _).power
  unfold State.comparatorWake
  extract_lets c u
  split
  · exact ⟨by rw [hpower], hpending⟩
  · obtain ⟨_, _, _, e⟩ := Wakes.foldl (fun (v : State) (d : Nat) => .wakeEvent 4 v d false (!c.edgeMode))
      (allDomains.filter (fun d => c.mask.getLsbD d)) u
    rw [e]
    exact ⟨by rw [← hpower], hpending⟩

/-- A sample's alarms: they are counted, and else raise their source and their faults alone. -/
theorem State.supplyAlarms_raises (s : State) (rails : List RailReading) :
    Raises { s with power := { s.power with supplyAlarms := (if State.alarmedDomains rails = [] then s.power.supplyAlarms
      else satAdd 32 s.power.supplyAlarms (State.alarmedDomains rails).length) } } (s.supplyAlarms rails) := by
  unfold State.supplyAlarms
  extract_lets power bad u u1 u2
  by_cases h : bad = []
  · rw [if_pos h, if_pos (by simp [h])]
    exact .refl s
  · rw [if_neg h, if_neg (by simp [h])]
    refine (Raises.foldl (fun v _ => .fire v 2) bad u).trans ((Raises.evidenceAll u1).trans (.foldl (fun v k => ?_) _ u2))
    split
    · exact .porterFault ..
    · exact .refl v

/-- With no lap that waits, the Louvre decides nothing. -/
theorem State.decide'_of_none {s : State} (hw : ∀ k < 8, (s.slot k).stage ≠ .waiting) : s.decide' = s := by
  have hnone : s.waitingSlots = [] := by
    unfold State.waitingSlots
    rw [List.filter_eq_nil_iff.mpr fun k hk => by simp [hw k (List.mem_range.mp hk)]]
    rfl
  unfold State.decide'
  rw [hnone]
  exact ite_self s

/-- EMERGENCY: it is counted, THERM_N falls, and power stands. -/
theorem State.emergency_reads (s : State) :
    s.emergency.thermal = { s.thermal with state := 1, events := satAdd 32 s.thermal.events 1 }
      ∧ s.emergency.pins.thermN = false ∧ s.emergency.power = s.power := by
  unfold State.emergency
  extract_lets thermal pins u u1 u2 f
  have h : Raises u u2 := ((Raises.fire u 1).trans (.evidenceAll _)).trans (.foldl (fun v k => .porterFault v k pTHERM) _ _)
  clear_value u2
  exact ⟨h.thermal, h.thermN, h.power⟩

/-- What a trip makes of domain x at cycle now: it enters OFF unless it is OFF or enters OFF. -/
def Domain.tripped (now : Nat) (x : Domain) : Domain :=
  if x.st == 2 || x.st == 3 && x.target == 2 then x
  else { x with st := 3, req := 2, target := 2, since := now, fromRet := x.st == 1, armed := false, latched := false }

theorem Domain.tripped_off (now : Nat) (x : Domain) :
    (x.tripped now).st = 2 ∨ ((x.tripped now).st = 3 ∧ (x.tripped now).target = 2) := by
  unfold Domain.tripped
  split
  · next h => simpa using h
  · exact .inr ⟨rfl, rfl⟩

/-- TRIPPED: THERM_N is low, the device is lost, and every domain is OFF or enters OFF. -/
theorem State.trip_reads (s : State) :
    s.trip.thermal.state = 2 ∧ s.trip.pins.thermN = false ∧ s.trip.grid.deviceLost ≠ 0
      ∧ ∀ d < 36, (s.trip.domain d).st = 2 ∨ ((s.trip.domain d).st = 3 ∧ (s.trip.domain d).target = 2) := by
  unfold State.trip
  extract_lets thermal pins u u1
  obtain ⟨hlost, -, hthermal, hthermN, -⟩ := u.loseDevice_stands (cause := 5) (by decide)
  have hb : DomainsBecome allDomains.reverse (fun _ x => x.tripped u1.now) u1 _ :=
    .foldl (f := fun (v : State) d => if (v.domain d).st == 2 || (v.domain d).st == 3 && (v.domain d).target == 2 then v
      else v.beginEntry d 2) allDomains.reverse (by decide) u1 fun v d hnow => by
      split
      · next h => exact .same v d (by rw [Domain.tripped, if_pos h])
      · next h => exact .onDomain v d _ (by rw [Domain.tripped, if_neg h, hnow])
  obtain ⟨⟨domains, e⟩, hdomain⟩ := hb
  refine ⟨?_, ?_, ?_, fun d hd => ?_⟩
  · rw [e]; exact congrArg Thermal.state hthermal
  · rw [e]; exact hthermN
  · rw [e]; exact hlost
  · rw [hdomain, if_pos (List.mem_reverse.mpr (mem_allDomains hd))]
    exact Domain.tripped_off ..

end Sys2Proof.Machine

/-! Comparators, the samples of the meter and the sensors, and the Louvre's limits (R467 to R480). -/
namespace Sys2Proof.Machine
open State

/-- What a meter sample leaves, where no lap waits and the Porter runs. -/
theorem State.meterSample_reads {s : State} (energy : List Nat) (rails : List RailReading) (hheld : s.held = false)
    (hzero : s.start.time0 ≠ none) (hdue : (s.now - s.louvre.lastSample) % 1600 = 0)
    (hwait : ∀ k < 8, (s.slot k).stage ≠ .waiting) (hon : s.porterOn = true) :
    (s.meterSample energy rails).louvre.lastSample = s.now
    ∧ (s.meterSample energy rails).louvre.account = s.accountAt energy.sum
    ∧ (∀ d < 36, ((s.meterSample energy rails).domain d).energy = (s.domain d).energy + energy.getD d 0
        ∧ ((s.meterSample energy rails).domain d).st = (s.domain d).st)
    ∧ (s.meterSample energy rails).power.aonEnergy = s.power.aonEnergy + energy.getD 36 0
    ∧ (s.meterSample energy rails).power.supplyAlarms = (if State.alarmedDomains rails = [] then s.power.supplyAlarms
        else satAdd 32 s.power.supplyAlarms (State.alarmedDomains rails).length)
    ∧ (s.meterSample energy rails).mem.hbm = s.mem.hbm := by
  have hguard : ¬ (s.held || s.start.time0.isNone || (s.now - s.louvre.lastSample) % 1600 != 0) = true := by
    simp [hheld, hdue, hzero]
  unfold State.meterSample
  rw [if_neg hguard]
  extract_lets m s1 p1 s2 l2 s3 l3 s4 s5
  obtain ⟨⟨domains, e1⟩, hdomain⟩ : DomainsBecome allDomains (fun d x => { x with energy := x.energy + energy.getD d 0 }) s s1 :=
    .foldl _ (by decide) s fun u d _ => .onDomain u d _ rfl
  clear_value s1
  have hdomain1 {d : Nat} (hd : d < 36) : s1.domain d = { s.domain d with energy := (s.domain d).energy + energy.getD d 0 } := by
    rw [hdomain, if_pos (mem_allDomains hd)]
  have hon2 : s2.porterOn = true := by
    have hst : (s1.domain 0).st = (s.domain 0).st := by rw [hdomain1 (by decide)]
    have hclock : s1.start = s.start := by rw [e1]
    have hreads : s2.porterOn = ((s1.domain 0).st == 0 && (s1.start.refclk && bitOf s1.start.pllLock 0 == 1)) := rfl
    rw [hreads, hst, hclock]
    exact hon
  have haccount : s3.louvre.account = s.accountAt m := by
    simp only [s3, if_pos hon2]
    have hlouvre : s2.louvre = s.louvre := by simp only [s2, e1]
    have hnow : s2.now = s.now := by simp only [s2, e1]
    rw [State.accountAt, hlouvre, hnow]
    rfl
  have hs3 : s3.mem = s.mem ∧ s3.slots = s.slots ∧ s3.now = s.now ∧ s3.power = s2.power := by
    simp only [s3, if_pos hon2, s2, e1, and_self]
  obtain ⟨hmem3, hslots3, hnow3, hpower3⟩ := hs3
  have hobs : Observes s4 s5 := .trans (.trans (.observe s4 0 _) (.observe _ 1 _)) (.observe _ 2 _)
  have hraise := s5.supplyAlarms_raises rails
  have hpower2 : s2.power = { s1.power with aonEnergy := s1.power.aonEnergy + energy.getD 36 0, railMv := s2.power.railMv } := rfl
  clear_value s2 s3 s5
  have hpower5 : s5.power = s2.power := (congrArg State.power hobs.rest).trans hpower3
  have hnone : (s5.supplyAlarms rails).decide' = s5.supplyAlarms rails := decide'_of_none fun k hk => by
    have hslots5 : s5.slots = s.slots := (congrArg State.slots hobs.rest).trans hslots3
    have hslot : s5.slot k = s.slot k := congrArg (Table.get _ k) hslots5
    exact (hraise.stage k).trans (congrArg Slot.stage hslot) ▸ hwait k hk
  rw [hnone]
  generalize s5.supplyAlarms rails = t at hraise
  have hpower : t.power = _ := hraise.power
  have hdomain' (d : Nat) : t.domain d = s1.domain d := by
    rw [State.domain, hpower, hpower5, hpower2]
    rfl
  refine ⟨?_, ?_, fun d hd => ?_, ?_, ?_, ?_⟩
  · rw [hraise.louvre]
    exact (congrArg (·.louvre.lastSample) hobs.rest).trans hnow3
  · rw [hraise.louvre]
    exact (congrArg (·.louvre.account) hobs.rest).trans haccount
  · rw [hdomain', hdomain1 hd]
    exact ⟨rfl, rfl⟩
  · rw [hpower, hpower5, hpower2, e1]
  · rw [hpower, hpower5, hpower2, e1]
  · rw [hraise.mem]
    exact congrArg MemState.hbm ((congrArg State.mem hobs.rest).trans hmem3)

/-- The state with a sample of the die sensors. -/
def State.withTemps (s : State) (v : Int) (l : List Int) : State :=
  { s with thermal := { s.thermal with
    tjNow := l.foldl max v, die := (v :: l).take 16 |>.zipIdx |>.map (fun x => (x.2, x.1)) } }

/-- A sample of the die sensors below 120 °C, of a device that has not tripped: EMERGENCY begins, ends, or stands. -/
theorem State.thermalSample_below {s : State} {v : Int} {l : List Int} (hheld : s.held = false) (hzero : s.start.time0 ≠ none)
    (htrip : s.thermal.state ≠ 2) (hcool : l.foldl max v < 1920) {w : State}
    (hw : w = if s.thermal.state == 0 && decide (16 * (s.thermal.tjLimit : Int) + 80 ≤ l.foldl max v)
      then (s.withTemps v l).emergency else s.withTemps v l) :
    s.thermalSample (v :: l) = if w.thermal.state == 1 && decide (l.foldl max v < 16 * (s.thermal.tjLimit : Int))
      then { w with thermal := { w.thermal with state := 0 }, pins := { w.pins with thermN := true } } else w := by
  subst hw
  simp only [State.thermalSample]
  rw [if_neg (by simp [hheld, hzero]), if_neg (by simpa using htrip), if_neg (not_le.mpr hcool)]
  rfl

/-- A sample of the die sensors that trips the device ends in trip. -/
theorem State.thermalSample_trips {s : State} {v : Int} {l : List Int} (hheld : s.held = false) (hzero : s.start.time0 ≠ none)
    (htrip : s.thermal.state ≠ 2) (hhot : 1920 ≤ l.foldl max v) : ∃ u : State, s.thermalSample (v :: l) = u.trip := by
  simp only [State.thermalSample]
  rw [if_neg (by simp [hheld, hzero]), if_neg (by simpa using htrip), if_pos hhot]
  exact ⟨_, rfl⟩

/-- Settles O43: a comparator's wake event leaves the comparators; the sums of a meter sample stand before its alarms, which raise
faults alone; a trip halts slots, which leaves the domains. -/
theorem comparatorsAndSamples : Obligations.ComparatorsAndSamples := by
  intro s
  refine ⟨fun n uv hn => ?_, fun energy rails hheld hzero hdue hwait hon =>
    ⟨_, rfl, meterSample_reads energy rails hheld hzero hdue hwait hon⟩, fun v l hheld hzero => ?_,
    fun k hstage hadmitted hstarve => ?_, fun h hfrom hnow hhold => ?_⟩
  · intro c wakes
    have hsix : ¬ 6 ≤ n := not_le.mpr hn
    refine ⟨fun henabled hedge hwakes => ?_, fun hnot => ?_, fun hreleases => ?_, fun hreleases => ?_⟩
    · have hevent : s.comparatorEvent n uv = (s.setComparator n { c with config := c.config ||| 0x10000000 }).comparatorWake n := by
        refine if_neg ?_
        have hin : (c.asserts uv || c.asserted && !c.releases uv) = true := by simpa [wakes] using hwakes
        simp [hsix, c, henabled, hedge, hin]
      obtain ⟨hcomparators, hpending⟩ :=
        comparatorWake_reads (s.setComparator n { c with config := c.config ||| 0x10000000 }) hn
      refine ⟨_, rfl, ?_, by rw [hevent]; exact hpending⟩
      rw [hevent, State.comparator, hcomparators]
      exact Table.get_put_self ..
    · refine congrArg Host.Outcome.next (if_pos ?_)
      rcases hnot with hoff | hedge | hin
      · simp [c, hoff]
      · simp [c, hedge]
      · have hin : (c.asserts uv || c.asserted && !c.releases uv) = false := by simpa [wakes] using hin
        simp [c, hin]
    · exact congrArg Host.Outcome.next (if_neg (by simp [c, hsix, hreleases]))
    · exact congrArg Host.Outcome.next (if_pos (by simp [c, hreleases]))
  · intro tj limit
    refine ⟨fun hst hwarm hcool => ?_, fun hst hend hcool => ?_, fun hst hhot => ?_, fun hst hbelow hcool => ?_⟩
    · obtain ⟨hthermal, hthermN, -⟩ := (s.withTemps v l).emergency_reads
      refine ⟨(s.withTemps v l).emergency, congrArg Host.Outcome.next ?_, congrArg Thermal.state hthermal,
        congrArg Thermal.tjNow hthermal, congrArg Thermal.events hthermal, hthermN⟩
      rw [thermalSample_below hheld hzero (by simp [hst]) hcool (if_pos (by simpa [hst] using hwarm)).symm]
      exact if_neg (by simp only [Bool.and_eq_true, decide_eq_true_eq]; omega)
    · have hsample := thermalSample_below hheld hzero (by simp [hst]) hcool (if_neg (by simp [hst])).symm
      exact ⟨_, congrArg Host.Outcome.next (hsample.trans (if_pos (by simpa [hst, withTemps] using hend))), rfl, rfl, rfl, rfl⟩
    · obtain ⟨u, hu⟩ := thermalSample_trips hheld hzero hst hhot
      exact ⟨_, congrArg Host.Outcome.next hu, u.trip_reads⟩
    · have hsample := thermalSample_below hheld hzero (by simp [hst]) hcool (if_neg (by simpa [hst] using hbelow)).symm
      exact ⟨_, congrArg Host.Outcome.next (hsample.trans (if_neg (by simp [hst, withTemps]))), hst, rfl, rfl, rfl⟩
  · refine congrArg Host.Outcome.next (if_pos ?_)
    simp [hstage, hadmitted, hstarve]
  · show Host.Outcome.next s.endHold = _
    rw [State.endHold, hfrom]
    exact congrArg Host.Outcome.next (if_pos (by simp [hnow, hhold]))

end Sys2Proof.Machine

/-! Messages that arrive and that the Porter hands to a port (R225, R416, R422, R423, R430). -/
namespace Sys2Proof.Machine
open State

/-- From s to t a message has been taken from its port: what waits to be taken, and the delivery buffer, change alone. -/
structure State.Takes (s t : State) : Prop where
  rest : ∃ delivery ports, t = { s with link := { s.link with delivery := delivery, ports := ports } }
  port : ∀ q, ∃ held, t.lport q = { s.lport q with rxHeld := held }

namespace State.Takes
variable {s t u : State}

theorem refl (s : State) : Takes s s := ⟨⟨_, _, rfl⟩, fun _ => ⟨_, rfl⟩⟩

theorem takeRx (s : State) (p : Nat) (r : Route) (body : Msg) : Takes s (s.takeRx p r body) := by
  unfold State.takeRx
  split
  · refine ⟨⟨_, _, rfl⟩, fun q => ?_⟩
    rcases eq_or_ne q p with rfl | hq
    · rw [lport_onLport_self]; exact ⟨_, rfl⟩
    · rw [lport_onLport_ne _ hq]; exact ⟨_, rfl⟩
  · exact refl s

theorem took (s : State) (p : Nat) (r : Route) (body : Msg) : Takes s (s.took p r body) := by
  obtain ⟨⟨_, _, e⟩, hport⟩ := takeRx s p r body
  refine ⟨?_, hport⟩
  unfold State.took
  rw [e]
  exact ⟨_, _, rfl⟩

theorem canSend (h : Takes s t) (q : Nat) : t.canSend q = s.canSend q := by
  obtain ⟨_, e⟩ := h.port q
  unfold State.canSend
  rw [e]

theorem ringBinds (h : Takes s t) : t.ringBinds = s.ringBinds := by
  have hlate (q : Nat) : (t.lport q).late = (s.lport q).late := by
    obtain ⟨_, e⟩ := h.port q
    rw [e]
  obtain ⟨_, _, e⟩ := h.rest
  unfold State.ringBinds
  simp only [hlate]
  rw [e]

end State.Takes

/-- A message that is admitted passes the checks of its arrival. -/
theorem State.admitMsg_of_admitted {s : State} {p : Nat} {r : Route} (h : Admitted s p r) (body : Msg) :
    (s.takeRx p r body).admitMsg p r = (true, s.takeRx p r body) := by
  obtain ⟨hp, hsend, hquarantined, hgen⟩ := h
  have htakes := Takes.takeRx s p r body
  have hsend' : (s.takeRx p r body).canSend p = true := by rw [htakes.canSend, hsend]
  have hentry : (s.takeRx p r body).quarantined = false ∧ ((s.takeRx p r body).genEntry r.source).gen = r.sgen.toNat := by
    obtain ⟨_, _, e⟩ := htakes.rest
    rw [e]
    exact ⟨hquarantined, hgen⟩
  unfold State.admitMsg
  rw [if_neg (by simp [hsend', hentry.1, hp]), ← hentry.2, genCheck_of_entry]
  rfl

/-- A message across one port that is admitted is delivered. -/
theorem State.nearMsg_of_admitted {s : State} {p : Nat} {r : Route} (h : Admitted s p r) (body : Msg) (deliver : State → State) :
    s.nearMsg p r body deliver = deliver (s.took p r body) := by
  unfold State.nearMsg
  rw [admitMsg_of_admitted h]
  rfl

/-- A message that the Porter may originate, for a port that sends, is handed to it. -/
theorem State.sendOn_eq {s : State} {p : Nat} (r : Route) (body : Msg) (hq : s.quarantined = false) (hp : s.canSend p = true) :
    s.sendOn p r body = { s with link := { s.link with
      seqNext := (s.link.seqNext + 1) % 256, outbox := s.link.outbox ++ [s.handed p r body] } } := by
  unfold State.sendOn
  rw [if_pos (by simp [State.mayOriginate, hq])]
  exact if_pos hp

end Sys2Proof.Machine

/-! COUNT and CLOSE of an axis (R417, R419, R562). -/
namespace Sys2Proof.Machine
open State

/-- An axis closes while the other is open: its size and the device's place on it are fixed, and binding waits. -/
theorem State.closeAxis_of_open {s : State} {p : Nat} (size place : Nat)
    (hopen : (if p % 2 = 1 then s.link.closedNS else s.link.closedEW) = false) :
    s.closeAxis p size place = if p % 2 = 1 then { s with link := { s.link with closedEW := true, cols := size, col := place } }
      else { s with link := { s.link with closedNS := true, rows := size, row := place } } := by
  unfold State.closeAxis
  by_cases hp : p % 2 = 1
  · rw [if_pos hp] at hopen ⊢
    rw [if_pos (by simpa using hp)]
    exact if_pos (by simp [hopen])
  · rw [if_neg hp] at hopen ⊢
    rw [if_neg (by simpa using hp)]
    exact if_pos (by simp [hopen])

/-- The device with a provisional place on an axis. -/
def State.placed (s : State) (ns : Bool) (v : Nat) : State :=
  { s with link := { s.link with
    st := 1, provCol := if ns then s.link.provCol else some v, provRow := if ns then some v else s.link.provRow } }

section
variable {s : State} {ns : Bool} {p v : Nat} {mine : Bool} (hp : p = otherEnd (if ns then 2 else 1)) (hb : s.ringBinds = true)
  (hopen : s.axisClosed p = false)
include hp hb hopen

/-- A COUNT below 128 passes through a device that does not head its axis. -/
theorem State.countIn_passes (hheads : s.headsAxis p = false) (hv : v < 128) :
    s.countIn ns p v mine = (s.placed ns v).sendBind (if ns then 2 else 1) (if ns then 1 else 0) (v + 1) 0 0 0 := by
  unfold State.countIn State.placed
  have hlow : ¬ 128 < v ∧ ¬ v = 128 := by omega
  simp [← hp, hb, hopen, hheads, hlow]

/-- A head's own COUNT, come round, closes its axis. -/
theorem State.countIn_closes (hheads : s.headsAxis p = true) (hv : 0 < v) (hv' : v ≤ 128) :
    s.countIn ns p v true = (s.sendBind (if ns then 2 else 1) (if ns then 3 else 2) (v - 1) 0 0 0).closeAxis p v 0 := by
  unfold State.countIn
  have hlow : ¬ 128 < v ∧ ¬ v = 0 := by omega
  simp [← hp, hb, hopen, hheads, hlow]

/-- A COUNT that is too high, or comes to a head that did not send it, is discarded. -/
theorem State.countIn_skews
    (hskew : 128 < v ∨ (s.headsAxis p = true ∧ mine = false) ∨ (s.headsAxis p = false ∧ v = 128)) :
    s.countIn ns p v mine = s.bindSkew := by
  unfold State.countIn
  rcases hskew with h | ⟨h, h'⟩ | ⟨h, h'⟩
  · simp [← hp, hb, hopen, h]
  · simp [← hp, hb, hopen, h, h']
  · simp [← hp, hb, hopen, h, h']

/-- A CLOSE gives a device its place, and goes on. -/
theorem State.closeIn_places {c : Nat} (hheads : s.headsAxis p = false)
    (hplace : (if ns then s.link.provRow else s.link.provCol) = some c) :
    s.closeIn ns p v = (s.sendBind (if ns then 2 else 1) (if ns then 3 else 2) v 0 0 0).closeAxis p (v + 1) c := by
  unfold State.closeIn
  simp [← hp, hb, hopen, hheads, hplace]

end

end Sys2Proof.Machine

/-! A ring's binding round one axis (R417, R419, R562). -/
namespace Sys2Proof.Machine
open State

/-- A BIND message that the Porter may originate, for a port that sends, is handed to it. -/
theorem State.sendBind_eq {s : State} {p : Nat} (kind v : Nat) (hq : s.quarantined = false) (hp : s.canSend p = true) :
    s.sendBind p kind v 0 0 0 = { s with link := { s.link with
      seqNext := (s.link.seqNext + 1) % 256
      outbox := s.link.outbox ++ [s.handed p { s.routeTo 0 with drow := 0, dcol := 0 } (.bind kind v 0 0 0)] } } :=
  sendOn_eq _ _ hq hp

theorem State.quarantined_of_ringBinds {s : State} (h : s.ringBinds = true) : s.quarantined = false := by
  unfold State.ringBinds at h
  simp only [Bool.and_eq_true, Bool.or_eq_true, beq_iff_eq] at h
  obtain ⟨⟨hst, -⟩, -⟩ := h
  unfold State.quarantined
  rcases hst with h | h <;> simp [h]

section
variable {s u : State} (hu : Takes s u) {ns : Bool} {p v : Nat} (hp : p = otherEnd (if ns then 2 else 1))
  (hb : s.ringBinds = true) (hsend : s.canSend (if ns then 2 else 1) = true) (hopen : s.axisClosed p = false)
include hu hp hb hsend hopen

/-- A COUNT that passes through gives the device its provisional place, and goes on one higher. -/
theorem State.countIn_passes_reads (hheads : s.headsAxis p = false) (hv : v < 128) :
    (u.countIn ns p v false).link.st = 1
    ∧ (if ns then (u.countIn ns p v false).link.provRow else (u.countIn ns p v false).link.provCol) = some v
    ∧ Hands s (u.countIn ns p v false) (if ns then 2 else 1) { s.routeTo 0 with drow := 0, dcol := 0 }
      (.bind (if ns then 1 else 0) (v + 1) 0 0 0)
    ∧ (u.countIn ns p v false).link.cols = s.link.cols ∧ (u.countIn ns p v false).link.rows = s.link.rows := by
  have hb' := hu.ringBinds.trans hb
  have hsend' := (hu.canSend _).trans hsend
  obtain ⟨_, _, e⟩ := hu.rest
  have hopen' : u.axisClosed p = false := by rw [e]; exact hopen
  have hheads' : u.headsAxis p = false := by rw [e]; exact hheads
  rw [countIn_passes hp hb' hopen' hheads' hv, sendBind_eq (s := u.placed ns v) _ _ rfl hsend', e]
  cases ns <;> exact ⟨rfl, rfl, ⟨rfl, rfl⟩, rfl, rfl⟩

/-- A message on its axis that a device sends as it closes the axis while the other is open. -/
theorem State.sendBind_closeAxis_reads (kind w size place : Nat) (hother : s.axisClosed (if ns then 3 else 0) = false)
    {t : State} (ht : t = (u.sendBind (if ns then 2 else 1) kind w 0 0 0).closeAxis p size place) :
    (if ns then t.link.closedNS else t.link.closedEW) = true ∧ (if ns then t.link.rows else t.link.cols) = size
    ∧ (if ns then t.link.row else t.link.col) = place
    ∧ Hands s t (if ns then 2 else 1) { s.routeTo 0 with drow := 0, dcol := 0 } (.bind kind w 0 0 0) := by
  have hq := quarantined_of_ringBinds (hu.ringBinds.trans hb)
  rw [sendBind_eq _ _ hq ((hu.canSend _).trans hsend)] at ht
  obtain ⟨_, _, e⟩ := hu.rest
  subst e hp
  cases ns
  · rw [ht.trans (closeAxis_of_open size place hother)]
    exact ⟨rfl, rfl, rfl, rfl, rfl⟩
  · rw [ht.trans (closeAxis_of_open size place hother)]
    exact ⟨rfl, rfl, rfl, rfl, rfl⟩

/-- A head's own COUNT, come round, closes the axis, with the head at place 0. -/
theorem State.countIn_closes_reads (hheads : s.headsAxis p = true) (hv : 0 < v) (hv' : v ≤ 128)
    (hother : s.axisClosed (if ns then 3 else 0) = false) {t : State} (ht : t = u.countIn ns p v true) :
    (if ns then t.link.closedNS else t.link.closedEW) = true ∧ (if ns then t.link.rows else t.link.cols) = v
    ∧ (if ns then t.link.row else t.link.col) = 0
    ∧ Hands s t (if ns then 2 else 1) { s.routeTo 0 with drow := 0, dcol := 0 } (.bind (if ns then 3 else 2) (v - 1) 0 0 0) := by
  have hopen' : u.axisClosed p = false := by obtain ⟨_, _, e⟩ := hu.rest; rw [e]; exact hopen
  have hheads' : u.headsAxis p = true := by obtain ⟨_, _, e⟩ := hu.rest; rw [e]; exact hheads
  refine sendBind_closeAxis_reads hu hp hb hsend hopen _ _ v 0 hother (ht.trans ?_)
  exact countIn_closes hp (hu.ringBinds.trans hb) hopen' hheads' hv hv'

/-- A CLOSE gives a device its place on the axis. -/
theorem State.closeIn_reads {c : Nat} (hheads : s.headsAxis p = false)
    (hplace : (if ns then s.link.provRow else s.link.provCol) = some c) (hother : s.axisClosed (if ns then 3 else 0) = false)
    {t : State} (ht : t = u.closeIn ns p v) :
    (if ns then t.link.closedNS else t.link.closedEW) = true ∧ (if ns then t.link.rows else t.link.cols) = v + 1
    ∧ (if ns then t.link.row else t.link.col) = c
    ∧ Hands s t (if ns then 2 else 1) { s.routeTo 0 with drow := 0, dcol := 0 } (.bind (if ns then 3 else 2) v 0 0 0) := by
  have hopen' : u.axisClosed p = false := by obtain ⟨_, _, e⟩ := hu.rest; rw [e]; exact hopen
  have hheads' : u.headsAxis p = false := by obtain ⟨_, _, e⟩ := hu.rest; rw [e]; exact hheads
  have hplace' : (if ns then u.link.provRow else u.link.provCol) = some c := by
    obtain ⟨_, _, e⟩ := hu.rest; rw [e]; exact hplace
  refine sendBind_closeAxis_reads hu hp hb hsend hopen _ _ (v + 1) c hother (ht.trans ?_)
  exact closeIn_places hp (hu.ringBinds.trans hb) hopen' hheads' hplace'

end

/-- A head whose COUNT has not come round in 100 ms sends it again. -/
theorem State.resendCount_reads {s : State} {ns : Bool} {a : Nat} (hb : s.ringBinds = true)
    (hsend : s.canSend (if ns then 2 else 1) = true) (hheads : s.headsAxis (if ns then 2 else 1) = true)
    (hopen : s.axisClosed (if ns then 2 else 1) = false) (ha : (if ns then s.link.countNS else s.link.countEW) = some a)
    (hdue : a + 160000000 ≤ s.now) :
    (if ns then (s.resendCount ns).link.countNS else (s.resendCount ns).link.countEW) = some s.now
    ∧ Hands s (s.resendCount ns) (if ns then 2 else 1) { s.routeTo 0 with drow := 0, dcol := 0 }
      (.bind (if ns then 1 else 0) 1 0 0 0) := by
  have hresend : s.resendCount ns = s.startCount ns := by
    unfold State.resendCount
    simp only [ha]
    exact if_pos (by simp [hdue, hb, hopen, hheads])
  rw [hresend, State.startCount, sendBind_eq _ _ (quarantined_of_ringBinds hb) hsend]
  cases ns <;> exact ⟨rfl, rfl, rfl⟩

/-- Settles O50, by what the arrival of a message on its axis does to the state that has taken it. -/
theorem ringBinding : Obligations.RingBinding := by
  intro s r hb hq sends skews
  have hskew {ns : Bool} {p v : Nat} {mine : Bool} {body : Msg} (hp : p = otherEnd (if ns then 2 else 1))
      (hopen : s.axisClosed p = false)
      (h : 128 < v ∨ (s.headsAxis p = true ∧ mine = false) ∨ (s.headsAxis p = false ∧ v = 128)) :
      (s.took p r body).countIn ns p v mine = (s.took p r body).bindSkew := by
    have hu := Takes.took s p r body
    have hreads : (s.took p r body).axisClosed p = s.axisClosed p ∧ (s.took p r body).headsAxis p = s.headsAxis p := by
      obtain ⟨_, _, e⟩ := hu.rest; rw [e]; exact ⟨rfl, rfl⟩
    exact countIn_skews hp (hu.ringBinds.trans hb) (hreads.1.trans hopen) (hreads.2 ▸ h)
  have hskews {p : Nat} {body : Msg} : (s.took p r body).bindSkew.link.bindSkews = satAdd 32 s.link.bindSkews 1
      ∧ (s.took p r body).bindSkew.link.outbox = s.link.outbox ∧ (s.took p r body).bindSkew.link.cols = s.link.cols
      ∧ (s.took p r body).bindSkew.link.rows = s.link.rows := by
    obtain ⟨_, _, e⟩ := (Takes.took s p r body).rest
    rw [e]
    exact ⟨rfl, rfl, rfl, rfl⟩
  refine ⟨fun hsend hopen hadmitted => ?_, fun a hsend hheads hopen ha hdue => ⟨_, rfl, ?_⟩,
    fun a hsend hheads hopen ha hdue => ⟨_, rfl, ?_⟩, fun hsend hopen hadmitted => ?_⟩
  · refine ⟨fun v hheads hv => ?_, fun v hheads hv hv' hother => ?_, fun v mine h => ?_, fun v c hheads hplace hother => ?_⟩
    · obtain ⟨hst, hprov, hhands, hcols, -⟩ := countIn_passes_reads (Takes.took s 3 r (.bind 0 v.toNat 0 0 0)) (ns := false) rfl hb
        hsend hopen hheads hv
      exact ⟨_, congrArg Host.Outcome.next (nearMsg_of_admitted hadmitted _ _), hprov, hst, hhands, hcols⟩
    · exact ⟨_, congrArg Host.Outcome.next (nearMsg_of_admitted hadmitted _ _),
        countIn_closes_reads (Takes.took s 3 r (.bind 0 v.toNat 0 0 0)) (ns := false) rfl hb hsend hopen hheads hv hv' hother rfl⟩
    · exact ⟨_, congrArg Host.Outcome.next ((nearMsg_of_admitted hadmitted _ _).trans (hskew (ns := false) rfl hopen h)), hskews⟩
    · exact ⟨_, congrArg Host.Outcome.next (nearMsg_of_admitted hadmitted _ _),
        closeIn_reads (Takes.took s 3 r (.bind 2 v.toNat 0 0 0)) (ns := false) rfl hb hsend hopen hheads hplace hother rfl⟩
  · exact resendCount_reads (ns := false) hb hsend hheads hopen ha hdue
  · exact resendCount_reads (ns := true) hb hsend hheads hopen ha hdue
  · refine ⟨fun v hheads hv => ?_, fun v hheads hv hv' hother => ?_, fun v mine h => ?_, fun v c hheads hplace hother => ?_⟩
    · obtain ⟨hst, hprov, hhands, -, hrows⟩ := countIn_passes_reads (Takes.took s 0 r (.bind 1 v.toNat 0 0 0)) (ns := true) rfl hb
        hsend hopen hheads hv
      exact ⟨_, congrArg Host.Outcome.next (nearMsg_of_admitted hadmitted _ _), hprov, hst, hhands, hrows⟩
    · exact ⟨_, congrArg Host.Outcome.next (nearMsg_of_admitted hadmitted _ _),
        countIn_closes_reads (Takes.took s 0 r (.bind 1 v.toNat 0 0 0)) (ns := true) rfl hb hsend hopen hheads hv hv' hother rfl⟩
    · exact ⟨_, congrArg Host.Outcome.next ((nearMsg_of_admitted hadmitted _ _).trans (hskew (ns := true) rfl hopen h)), hskews⟩
    · exact ⟨_, congrArg Host.Outcome.next (nearMsg_of_admitted hadmitted _ _),
        closeIn_reads (Takes.took s 0 r (.bind 3 v.toNat 0 0 0)) (ns := true) rfl hb hsend hopen hheads hplace hother rfl⟩

end Sys2Proof.Machine

/-! What binding and a port that leaves keep of the links (R408, R410, R417, R421, R426). -/
namespace Sys2Proof.Machine
open State

/-- From s to t a device goes on with binding, messages and broadcasts sent: its place, its torus, the offer it took, what it knows
of each port's distance, and the slots stand. -/
structure State.KeepsPlace (s t : State) : Prop where
  row : t.link.row = s.link.row
  col : t.link.col = s.link.col
  rows : t.link.rows = s.link.rows
  cols : t.link.cols = s.link.cols
  offer : t.link.offer = s.link.offer
  slots : t.slots = s.slots
  flight : ∀ q, (t.lport q).flight = (s.lport q).flight
  tooLong : ∀ q, (t.lport q).tooLong = (s.lport q).tooLong
  joinWait : ∀ q, (t.lport q).joinWait = (s.lport q).joinWait

namespace State.KeepsPlace
variable {s t u : State}

theorem refl (s : State) : KeepsPlace s s := ⟨rfl, rfl, rfl, rfl, rfl, rfl, fun _ => rfl, fun _ => rfl, fun _ => rfl⟩

theorem trans (h : KeepsPlace s t) (h' : KeepsPlace t u) : KeepsPlace s u :=
  ⟨h'.row.trans h.row, h'.col.trans h.col, h'.rows.trans h.rows, h'.cols.trans h.cols, h'.offer.trans h.offer,
    h'.slots.trans h.slots, fun q => (h'.flight q).trans (h.flight q), fun q => (h'.tooLong q).trans (h.tooLong q),
    fun q => (h'.joinWait q).trans (h.joinWait q)⟩

theorem foldl {α : Type} {f : State → α → State} (h : ∀ u x, KeepsPlace u (f u x)) (l : List α) (s : State) :
    KeepsPlace s (l.foldl f s) := by
  induction l generalizing s with
  | nil => exact refl s
  | cons x l ih => exact (h s x).trans (ih _)

theorem sendOn (s : State) (p : Nat) (r : Route) (body : Msg) : KeepsPlace s (s.sendOn p r body) := by
  obtain ⟨_, _, e⟩ := s.sendOn_changes p r body
  rw [e]
  exact ⟨rfl, rfl, rfl, rfl, rfl, rfl, fun _ => rfl, fun _ => rfl, fun _ => rfl⟩

/-- A change of a port, but for what it knows of its distance and the offer it waits for. -/
theorem onLport (s : State) (p : Nat) {f : LecelPort → LecelPort} (hflight : (f (s.lport p)).flight = (s.lport p).flight)
    (htoo : (f (s.lport p)).tooLong = (s.lport p).tooLong) (hjoin : (f (s.lport p)).joinWait = (s.lport p).joinWait) :
    KeepsPlace s (s.onLport p f) := by
  refine ⟨rfl, rfl, rfl, rfl, rfl, rfl, fun q => ?_, fun q => ?_, fun q => ?_⟩
  all_goals rcases eq_or_ne q p with rfl | hq
  · rw [lport_onLport_self, hflight]
  · rw [lport_onLport_ne _ hq]
  · rw [lport_onLport_self, htoo]
  · rw [lport_onLport_ne _ hq]
  · rw [lport_onLport_self, hjoin]
  · rw [lport_onLport_ne _ hq]

theorem sendProbe (s : State) (p : Nat) : KeepsPlace s (s.sendProbe p) := (sendOn ..).trans (onLport _ p rfl rfl rfl)

theorem askParent (s : State) : KeepsPlace s s.askParent := by
  unfold State.askParent
  split
  · exact refl s
  · split
    · split
      · exact sendProbe ..
      · exact refl s
    · exact refl s

/-- A broadcast, no proposal, waits or starts. -/
theorem startBcast (s : State) (slot : Option Nat) (sc : Scope) (body : Msg) (bseq : Nat) (own : TallyBody) :
    KeepsPlace s (s.startBcast slot sc body bseq own) := by
  unfold State.startBcast
  extract_lets r kids split u tally
  have hu : KeepsPlace s u := foldl (fun v (c : Nat × Nat) => sendOn v c.1 r body) kids s
  clear_value u
  exact hu.trans ⟨rfl, rfl, rfl, rfl, rfl, rfl, fun _ => rfl, fun _ => rfl, fun _ => rfl⟩

theorem becomeBound (s : State) : KeepsPlace s s.becomeBound := by
  unfold State.becomeBound
  extract_lets gen link u
  have hu : KeepsPlace s u := ⟨rfl, rfl, rfl, rfl, rfl, rfl, fun _ => rfl, fun _ => rfl, fun _ => rfl⟩
  clear_value u
  split
  · refine hu.trans ?_
    unfold State.broadcast
    split
    · exact refl u
    · split
      · exact ⟨rfl, rfl, rfl, rfl, rfl, rfl, fun _ => rfl, fun _ => rfl, fun _ => rfl⟩
      · refine .trans ?_ (startBcast u.takeBseq.2 ..)
        exact ⟨rfl, rfl, rfl, rfl, rfl, rfl, fun _ => rfl, fun _ => rfl, fun _ => rfl⟩
  · exact hu

theorem bindCheck (s : State) : KeepsPlace s s.bindCheck := by
  unfold State.bindCheck
  split
  · exact refl s
  · split
    · exact becomeBound s
    · split
      · refine .trans ?_ (becomeBound _)
        exact ⟨rfl, rfl, rfl, rfl, rfl, rfl, fun _ => rfl, fun _ => rfl, fun _ => rfl⟩
      · exact askParent s

end State.KeepsPlace

/-- A port that leaves keeps RINK and the alignment. -/
theorem State.portLeave_keeps (s : State) (p st : Nat) : (s.portLeave p st).rink = s.rink
    ∧ (s.portLeave p st).link.aligned = s.link.aligned ∧ (s.portLeave p st).link.rinkDrifts = s.link.rinkDrifts := by
  unfold State.portLeave
  extract_lets x up u l v w
  have hw : w.rink = s.rink ∧ w.link.aligned = s.link.aligned ∧ w.link.rinkDrifts = s.link.rinkDrifts := by
    obtain ⟨_, _, _, _, _, e⟩ := (portBecame_portState (v.takeSettings p) p st).rest
    simp only [w, e]
    exact ⟨rfl, rfl, rfl⟩
  clear_value w
  split
  · obtain ⟨_, _, e⟩ := (raised_portFault w p 0x52).rest
    rw [e]
    exact hw
  · exact hw

end Sys2Proof.Machine

/-! Joining, standing down, generations and the alignment of RINK (R404, R408, R417 to R427). -/
namespace Sys2Proof.Machine
open State

/-- An offer that a device waits for, and has not taken yet, gives it its place on the torus. -/
theorem State.joinIn_takes {s : State} {p : Nat} (addr gen size : Nat) (hoffer : s.link.offer = none) (hbound : s.bound = false)
    (hwait : (s.lport p).joinWait ≠ none) {t : State} (ht : t = s.joinIn p addr gen size) :
    t.link.row = addr / 128 % 128 ∧ t.link.col = addr % 128 ∧ t.link.rows = size / 128 % 128 + 1
    ∧ t.link.cols = size % 128 + 1 ∧ t.link.offer = some (addr, size, gen, p) ∧ (t.lport p).joinWait = none
    ∧ t.slots = s.slots := by
  unfold State.joinIn at ht
  simp only [hoffer] at ht
  rw [if_neg (by simpa [hbound] using hwait)] at ht
  subst ht
  refine ⟨(KeepsPlace.bindCheck _).row, (KeepsPlace.bindCheck _).col, (KeepsPlace.bindCheck _).rows, (KeepsPlace.bindCheck _).cols,
    (KeepsPlace.bindCheck _).offer, ((KeepsPlace.bindCheck _).joinWait p).trans ?_, (KeepsPlace.bindCheck _).slots⟩
  exact congrArg LecelPort.joinWait (lport_onLport_self s p fun x => { x with joinWait := none, peerState := 2 })

/-- The state of a device that enters QUARANTINE, before its slots halt. -/
def State.quarantining (s : State) : State :=
  State.fire { s with link := { s.link with
    st := 3, own := none, queue := [], heard := [], outbox := s.link.outbox.filter (fun m => m.input == 0 && m.body.code == 9) } } 4

theorem State.quarantine_eq {s : State} (hq : s.quarantined = false) :
    s.quarantine = (List.range 8).foldl (fun s k => s.haltSlot k .standDown) s.quarantining := by
  unfold State.quarantine
  exact if_neg (by simp [hq])

theorem State.quarantining_reads (s : State) : s.quarantining.link.st = 3 ∧ ∀ k, s.quarantining.slot k = s.slot k := by
  unfold State.quarantining
  obtain ⟨_, _, _, _, e⟩ := State.fire_eq { s with link := { s.link with
    st := 3, own := none, queue := [], heard := [], outbox := s.link.outbox.filter (fun m => m.input == 0 && m.body.code == 9) } } 4
  rw [e]
  exact ⟨rfl, fun k => rfl⟩

/-- A device that enters QUARANTINE is in it. -/
theorem State.quarantine_bindState {s : State} (hq : s.quarantined = false) : s.quarantine.link.st = 3 := by
  rw [quarantine_eq hq]
  exact (HaltStands.foldl (fun v k => .haltSlot v k .standDown) (List.range 8) s.quarantining).bindState.trans s.quarantining_reads.1

/-- QUARANTINE: every slot with a course, no halt waiting, is HALTED with STAND_DOWN. -/
theorem State.quarantine_halts {s : State} (hq : s.quarantined = false) (hh : ∀ k < 8, (s.slot k).halt = []) :
    ∀ k < 8, (s.slot k).st ≠ .empty → (s.quarantine.slot k).st = .halted ∧ (s.quarantine.slot k).reason = .standDown := by
  have hslot := s.quarantining_reads.2
  obtain ⟨-, -, -, hhalted⟩ := foldl_haltSlot .standDown (List.range 8) s.quarantining List.nodup_range fun k hk => by
    rw [hslot]; exact hh k (List.mem_range.mp hk)
  rw [quarantine_eq hq]
  exact fun k hk hne => hhalted k (List.mem_range.mpr hk) (by rw [hslot]; exact hne)

/-- A unicast message for the device that is admitted is delivered. -/
theorem State.unicast_of_admitted {s : State} {p : Nat} {r : Route} (h : Admitted s p r) (hdest : r.dest = s.selfAddr)
    (body : Msg) (deliver : State → State) : s.unicast p r body deliver = deliver (s.took p r body) := by
  have hself : (s.takeRx p r body).forSelf r = true := by
    obtain ⟨_, _, e⟩ := (Takes.takeRx s p r body).rest
    rw [e]
    exact beq_iff_eq.mpr hdest
  unfold State.unicast
  rw [admitMsg_of_admitted h]
  exact (if_neg (by simp)).trans (if_pos hself)

/-- A unicast message for another device that is admitted is passed on. -/
theorem State.unicast_passes {s : State} {p q : Nat} {r : Route} (h : Admitted s p r) (hdest : r.dest ≠ s.selfAddr)
    (hq : s.portTowards r.dest = some q) (hsend : s.canSend q = true) (body : Msg) (deliver : State → State) :
    (s.unicast p r body deliver).link.outbox = s.link.outbox ++ [⟨q, r, body, p + 1, false, s.rxFlits p r body⟩]
    ∧ (s.unicast p r body deliver).slots = s.slots := by
  have htakes := Takes.takeRx s p r body
  have hsend' : (s.takeRx p r body).canSend q = true := (htakes.canSend q).trans hsend
  obtain ⟨-, -, hquarantined, -⟩ := id h
  unfold State.unicast
  rw [admitMsg_of_admitted h]
  obtain ⟨_, _, e⟩ := htakes.rest
  generalize s.takeRx p r body = u at e hsend'
  have hself : ¬ u.forSelf r = true := by rw [e]; exact fun h => hdest (eq_of_beq h)
  have hq' : u.portTowards (r.drow.toNat * 128 + r.dcol.toNat) = some q := by rw [e]; exact hq
  have hquarantined' : ¬ u.quarantined = true := by
    rw [e]
    exact ne_true_of_eq_false hquarantined
  simp only [Bool.not_true, Bool.false_eq_true, if_false, if_neg hself, State.forward, hq', State.passOn, if_neg hquarantined',
    State.queueMsg, hsend', if_true]
  rw [e]
  exact ⟨rfl, rfl⟩

/-- A message by broadcast that is sent again to the device alone, and that it has not delivered, is delivered. -/
theorem State.bcastMsg_of_admitted {s : State} {p : Nat} {r : Route} (h : Admitted s p r) (hbcast : r.bcast = false)
    (hdest : r.dest = s.selfAddr) (hnew : r.bseq = 0 ∨ Table.get 0 r.source s.link.lastBseq ≠ r.bseq.toNat) (body : Msg)
    (taken : Nat) (deliver : State → State × TallyBody) : s.bcastMsg p r body taken deliver =
      (deliver (((s.takeRx p r body).noteBseq r.source r.bseq.toNat).deliverMsg body)).1 := by
  have hreads : (s.takeRx p r body).forSelf r = true
      ∧ Table.get 0 r.source (s.takeRx p r body).link.lastBseq = Table.get 0 r.source s.link.lastBseq := by
    obtain ⟨_, _, e⟩ := (Takes.takeRx s p r body).rest
    rw [e]
    exact ⟨beq_iff_eq.mpr hdest, rfl⟩
  obtain ⟨hself, hlast⟩ := hreads
  unfold State.bcastMsg
  rw [admitMsg_of_admitted h]
  simp only [Bool.not_true, Bool.false_eq_true, if_false, hbcast, hself, hlast]
  refine if_neg ?_
  simp only [Bool.and_eq_true, beq_iff_eq, bne_iff_ne, not_and, not_not]
  exact fun h => hnew.resolve_right (not_not.mpr h)

/-- What a GEN_UPDATE makes of the generations. -/
theorem State.genUpdated_reads (s : State) (addr gen : Nat) :
    ((s.genUpdated addr gen).1.genEntry addr).gen
      = (if genVerdict (s.genEntry addr).gen gen = .accepted then gen else (s.genEntry addr).gen)
    ∧ (∀ a, a ≠ addr → (s.genUpdated addr gen).1.genEntry a = s.genEntry a) ∧ (s.genUpdated addr gen).1.slots = s.slots := by
  have hupdated : (s.genUpdated addr gen).1 =
      if genVerdict (s.genEntry addr).gen gen == .accepted then s.recordGen addr gen else s := rfl
  rw [hupdated]
  by_cases hv : genVerdict (s.genEntry addr).gen gen = .accepted
  · rw [if_pos (by simp [hv]), if_pos hv, State.recordGen]
    split
    · next h => exact ⟨eq_of_beq h, fun _ _ => rfl, rfl⟩
    · exact ⟨congrArg GenEnt.gen (Table.get_put_self ..), fun a ha => Table.get_put_ne _ ha .., rfl⟩
  · rw [if_neg (by simpa using hv), if_neg hv]
    exact ⟨rfl, fun _ _ => rfl, rfl⟩

end Sys2Proof.Machine

/-! The echo of a PROBE (R404, R408, R426, R427). -/
namespace Sys2Proof.Machine
open State

/-- Port x at a distance of f cc (R408). -/
def LecelPort.atFlight (x : LecelPort) (f : Nat) : LecelPort :=
  { x with flight := f, ebuf := if x.ebufFixed then x.ebuf else 352 - f, ebufFixed := true, tooLong := decide (160 < f), probeTa := none }

/-- A shift of the count by an offset, modulo 2^65. -/
theorem State.halfCount_shiftCount (s : State) (off : Int) :
    ((s.shiftCount off).halfCount : Int) = ((s.halfCount : Int) + off).emod (2 ^ 65) := by
  have hreads : (s.shiftCount off).halfCount = 2 * ((((s.halfCount : Int) + off).emod (2 ^ 65)).toNat / 2)
      + (if (((s.halfCount : Int) + off).emod (2 ^ 65)).toNat % 2 == 1 then 1 else 0) := rfl
  rw [hreads]
  have hnonneg : 0 ≤ ((s.halfCount : Int) + off).emod (2 ^ 65) := Int.emod_nonneg _ (by decide)
  generalize ((s.halfCount : Int) + off).emod (2 ^ 65) = c at hnonneg
  split <;> simp_all <;> omega

/-- A port that leaves keeps what it knows of its distance, and so do RINK and the alignment. -/
theorem State.portLeave_reads (s : State) (p st : Nat) :
    ((s.portLeave p st).lport p).st = st ∧ ((s.portLeave p st).lport p).flight = (s.lport p).flight
    ∧ ((s.portLeave p st).lport p).tooLong = (s.lport p).tooLong ∧ (s.portLeave p st).rink = s.rink
    ∧ (s.portLeave p st).link.aligned = s.link.aligned ∧ (s.portLeave p st).link.rinkDrifts = s.link.rinkDrifts := by
  obtain ⟨_, e⟩ := (portLeft_portLeave s p st).self
  rw [e]
  exact ⟨rfl, rfl, rfl, s.portLeave_keeps p st⟩

/-- The echo of the PROBE that waits for one, by the port towards the parent: the distance is known, and the port leaves, the
count drifts, or it is shifted. -/
theorem State.echoIn_reads {s : State} {p : Nat} {ta tb tc td : BitVec 64} (hparent : s.parentPort = some p)
    (hta : (s.lport p).probeTa = some ta) {off : Int} (hoff : off = ((tb - ta).toInt - (td - tc).toInt) / 2) {flight : Nat}
    (hflight : flight = (((td - ta).toInt - (tc - tb).toInt + 3) / 4).toNat) {t : State} (ht : t = s.echoIn p ta tb tc td) :
    (t.lport p).flight = flight ∧ (t.lport p).tooLong = decide (160 < flight)
    ∧ (160 < flight → (t.lport p).st = 3 ∧ t.rink = s.rink)
    ∧ (flight ≤ 160 → s.link.aligned = true → off.natAbs < 2 → t.lport p = (s.lport p).atFlight flight ∧ t.rink = s.rink)
    ∧ (flight ≤ 160 → s.link.aligned = true → 2 ≤ off.natAbs →
      (t.lport p).st = 3 ∧ t.link.aligned = false ∧ t.link.rinkDrifts = satAdd 32 s.link.rinkDrifts 1)
    ∧ (flight ≤ 160 → s.link.aligned = false → off ≠ 0 →
      t.rinkRun = true ∧ (t.halfCount : Int) = ((s.halfCount : Int) + off).emod (2 ^ 65) ∧ t.link.aligned = false) := by
  obtain ⟨v, hv⟩ : ∃ v, v = s.setFlight p ((td - ta).toInt - (tc - tb).toInt) := ⟨_, rfl⟩
  have hport : v.lport p = (s.lport p).atFlight flight := by
    rw [hv, hflight]
    exact lport_onLport_self s p fun x => x.atFlight _
  have hrink : v.rink = s.rink ∧ v.link.aligned = s.link.aligned ∧ v.link.rinkDrifts = s.link.rinkDrifts
      ∧ v.halfCount = s.halfCount := by rw [hv]; exact ⟨rfl, rfl, rfl, rfl⟩
  obtain ⟨hrink, haligned, hdrifts, hhalf⟩ := hrink
  have htoo : (v.lport p).flight = flight ∧ (v.lport p).tooLong = decide (160 < flight) := by rw [hport]; exact ⟨rfl, rfl⟩
  have hecho : t = if 160 < flight then v.portLeave p 3
      else if s.link.aligned then
        if off.natAbs < 2 then v
        else State.portLeave { v with link := { v.link with aligned := false, rinkDrifts := satAdd 32 v.link.rinkDrifts 1 } } p 3
      else if off != 0 then (v.shiftCount off).sendProbe p
      else State.bindCheck { v.shiftCount off with link := { (v.shiftCount off).link with aligned := true } } := by
    rw [ht, State.echoIn, if_neg (by simp [hparent, hta]), ← hoff, ← hv, ← haligned, ← htoo.1]
  clear ht hv
  by_cases hfar : 160 < flight
  · rw [if_pos hfar] at hecho
    obtain ⟨hst, hflight', htoo', hrink', -, -⟩ := v.portLeave_reads p 3
    rw [hecho]
    exact ⟨hflight'.trans htoo.1, htoo'.trans htoo.2, fun _ => ⟨hst, hrink'.trans hrink⟩, fun h => by omega, fun h => by omega,
      fun h => by omega⟩
  rw [if_neg hfar] at hecho
  cases hal : s.link.aligned with
  | true =>
    rw [if_pos hal] at hecho
    by_cases hnear : off.natAbs < 2
    · rw [if_pos hnear] at hecho
      rw [hecho]
      exact ⟨htoo.1, htoo.2, fun h => absurd h hfar, fun _ _ _ => ⟨hport, hrink⟩, fun _ _ h => by omega, fun _ h => nomatch h⟩
    · rw [if_neg hnear] at hecho
      obtain ⟨hst, hflight', htoo', -, haligned', hdrifts'⟩ := State.portLeave_reads
        { v with link := { v.link with aligned := false, rinkDrifts := satAdd 32 v.link.rinkDrifts 1 } } p 3
      rw [hecho]
      exact ⟨hflight'.trans htoo.1, htoo'.trans htoo.2, fun h => absurd h hfar, fun _ _ h => absurd h hnear,
        fun _ _ _ => ⟨hst, haligned', hdrifts'.trans (by rw [← hdrifts])⟩, fun _ h => nomatch h⟩
  | false =>
    rw [if_neg (by simp [hal])] at hecho
    by_cases hzero : off = 0
    · rw [if_neg (by simpa using hzero)] at hecho
      have hkeeps := KeepsPlace.bindCheck { v.shiftCount off with link := { (v.shiftCount off).link with aligned := true } }
      rw [hecho]
      exact ⟨(hkeeps.flight p).trans htoo.1, (hkeeps.tooLong p).trans htoo.2, fun h => absurd h hfar, fun _ h => absurd h Bool.false_ne_true,
        fun _ h => absurd h Bool.false_ne_true, fun _ _ h => absurd hzero h⟩
    · rw [if_pos (by simpa using hzero)] at hecho
      have hkeeps := KeepsPlace.sendProbe (v.shiftCount off) p
      have hshift := v.halfCount_shiftCount off
      rw [hhalf] at hshift
      have hprobe : t.rinkRun = true ∧ t.halfCount = (v.shiftCount off).halfCount ∧ t.link.aligned = v.link.aligned := by
        obtain ⟨_, _, e⟩ := (v.shiftCount off).sendOn_changes p ((v.shiftCount off).routeTo ((v.shiftCount off).acrossAddr p))
          (.rinkSync 0 0 0 0)
        rw [hecho, State.sendProbe, e]
        exact ⟨rfl, rfl, rfl⟩
      obtain ⟨hrun, hhalf', haligned'⟩ := hprobe
      refine ⟨?_, ?_, fun h => absurd h hfar, fun _ h => absurd h Bool.false_ne_true, fun _ h => absurd h Bool.false_ne_true,
        fun _ _ _ => ⟨hrun, by rw [hhalf']; exact hshift, haligned'.trans (haligned.trans hal)⟩⟩
      · rw [hecho]; exact (hkeeps.flight p).trans htoo.1
      · rw [hecho]; exact (hkeeps.tooLong p).trans htoo.2

end Sys2Proof.Machine

/-! The alignment of RINK, and joining (R404, R408, R417 to R427). -/
namespace Sys2Proof.Machine
open State

theorem State.quarantined_of_bound {s : State} (h : s.bound = true) : s.quarantined = false := by
  have hst : s.link.st = 2 := eq_of_beq h
  unfold State.quarantined
  rw [hst]
  rfl

/-- A PROBE of a child is answered by a device that is BOUND and aligned. -/
theorem State.probeIn_hands {s u : State} (hu : Takes s u) {p : Nat} (ta tb : BitVec 64) (hsend : s.canSend p = true)
    (hbound : s.bound = true) (haligned : s.link.aligned = true) :
    Hands s (u.probeIn p ta tb) p (s.routeTo (s.acrossAddr p)) (.rinkSync 1 ta tb 0) ∧ (u.probeIn p ta tb).slots = s.slots := by
  have hsend' := (hu.canSend p).trans hsend
  obtain ⟨_, _, e⟩ := hu.rest
  have hanswers : (u.bound && u.link.aligned) = true := by rw [e]; exact Bool.and_eq_true_iff.mpr ⟨hbound, haligned⟩
  have hq : u.quarantined = false := by rw [e]; exact quarantined_of_bound hbound
  unfold State.probeIn
  rw [if_pos hanswers, sendOn_eq _ _ hq hsend', e]
  exact ⟨⟨rfl, rfl⟩, rfl⟩

/-- A PROBE is handed to its port, which notes when. -/
theorem State.sendProbe_reads {s : State} {p : Nat} (hq : s.quarantined = false) (hsend : s.canSend p = true) :
    ((s.sendProbe p).lport p).syncAt = s.now ∧ ((s.sendProbe p).lport p).probeTa.isSome = true
    ∧ Hands s (s.sendProbe p) p (s.routeTo (s.acrossAddr p)) (.rinkSync 0 0 0 0) := by
  unfold State.sendProbe
  rw [sendOn_eq _ _ hq hsend, lport_onLport_self]
  exact ⟨rfl, rfl, rfl, rfl⟩

/-- Settles O51, by what the arrival of each message does to the state that has taken it. -/
theorem joiningAndAlignment : Obligations.JoiningAndAlignment := by
  intro s p r hp
  have hnear {f : State → State} (body : Msg) (h : Admitted s p r) :
      (Host.Outcome.next (s.nearMsg p r body f) : Host.Outcome State Fault Refusal) = .next (f (s.took p r body)) :=
    congrArg Host.Outcome.next (nearMsg_of_admitted h body f)
  refine ⟨fun addr gen size hadmitted hoffer hbound hwait => ?_, fun a ha hdue => ?_, fun addr stale cur hadmitted => ?_,
    fun addr gen taken hadmitted hbcast hdest hnew => ?_, fun ta hadmitted hbound haligned => ?_,
    fun ta tb tc hadmitted hparent hta => ?_, fun hparent hbound haligned hsend hdue => ?_⟩
  · have htakes := Takes.took s p r (.bind 4 0 gen.toNat addr.toNat size.toNat)
    have hjoin : ((s.took p r (.bind 4 0 gen.toNat addr.toNat size.toNat)).lport p).joinWait = (s.lport p).joinWait := by
      obtain ⟨_, e⟩ := htakes.port p
      rw [e]
    refine ⟨_, hnear _ hadmitted, ?_⟩
    obtain ⟨_, _, e⟩ := htakes.rest
    generalize s.took p r (.bind 4 0 gen.toNat addr.toNat size.toNat) = u at e hjoin
    obtain ⟨hrow, hcol, hrows, hcols, hoffer', hwait', hslots⟩ := joinIn_takes (s := u) addr.toNat gen.toNat size.toNat
      (by rw [e]; exact hoffer) (by rw [e]; exact hbound) (hjoin ▸ hwait) rfl
    exact ⟨hrow, hcol, hrows, hcols, hoffer', hwait', hslots.trans (by rw [e])⟩
  · show Host.Outcome.next (s.joinOver p) = _
    rw [State.joinOver, ha]
    exact congrArg Host.Outcome.next (if_pos hdue)
  · intro c b
    have hreads : (s.took p r b).selfAddr = s.selfAddr ∧ (s.took p r b).link.gen = s.link.gen
        ∧ (s.took p r b).bound = s.bound ∧ (s.took p r b).slots = s.slots := by
      obtain ⟨_, _, e⟩ := (Takes.took s p r b).rest
      rw [e]
      exact ⟨rfl, rfl, rfl, rfl⟩
    obtain ⟨hself, hgen, hbound', hslots⟩ := hreads
    have hslot (k : Nat) : (s.took p r b).slot k = s.slot k := congrArg (Table.get _ k) hslots
    refine ⟨fun hdest haddr hstale hbound hh => ?_, fun hdest hother => ?_, fun q hdest hq hsend => ?_⟩
    · have hq := quarantined_of_bound (hbound'.trans hbound)
      have hhalted := quarantine_halts hq fun k hk => by rw [hslot]; exact hh k hk
      have hnamed : State.standDownIn addr.toNat stale.toNat (s.took p r b) = (s.took p r b).quarantine :=
        if_pos (by simp [hself, hgen, hbound', haddr, hstale, hbound])
      exact ⟨_, congrArg Host.Outcome.next ((unicast_of_admitted hadmitted hdest b _).trans hnamed), quarantine_bindState hq,
        fun k hk hne => hhalted k hk (by rw [hslot]; exact hne)⟩
    · refine congrArg Host.Outcome.next ((unicast_of_admitted hadmitted hdest b _).trans (if_neg ?_))
      rw [hself, hgen]
      rcases hother with h | h <;> simp [h]
    · exact ⟨_, rfl, unicast_passes hadmitted hdest hq hsend b _⟩
  · have hupdated := genUpdated_reads (((s.takeRx p r (.genUpdate addr.toNat gen.toNat)).noteBseq r.source r.bseq.toNat).deliverMsg
      (.genUpdate addr.toNat gen.toNat)) addr.toNat gen.toNat
    refine ⟨_, congrArg Host.Outcome.next (bcastMsg_of_admitted hadmitted hbcast hdest hnew _ taken _), ?_⟩
    obtain ⟨_, _, e⟩ := (Takes.takeRx s p r (.genUpdate addr.toNat gen.toNat)).rest
    rw [e] at hupdated ⊢
    exact hupdated
  · exact ⟨_, hnear _ hadmitted, probeIn_hands (Takes.took ..) ta _ hadmitted.2.1 hbound haligned⟩
  · intro td off flight
    have htakes := Takes.took s p r (.rinkSync 1 ta tb tc)
    obtain ⟨held, hport⟩ := htakes.port p
    have hreads : (s.took p r (.rinkSync 1 ta tb tc)).parentPort = s.parentPort
        ∧ (s.took p r (.rinkSync 1 ta tb tc)).link.aligned = s.link.aligned
        ∧ (s.took p r (.rinkSync 1 ta tb tc)).link.rinkDrifts = s.link.rinkDrifts
        ∧ (s.took p r (.rinkSync 1 ta tb tc)).rink = s.rink
        ∧ (s.took p r (.rinkSync 1 ta tb tc)).halfCount = s.halfCount := by
      obtain ⟨_, _, e⟩ := htakes.rest
      rw [e]
      exact ⟨rfl, rfl, rfl, rfl, rfl⟩
    obtain ⟨hparent', haligned, hdrifts, hrink, hhalf⟩ := hreads
    refine ⟨_, hnear _ hadmitted, ?_⟩
    obtain ⟨hflight, htoo, hfar, hnear', hdrift, hshift⟩ := echoIn_reads (s := s.took p r (.rinkSync 1 ta tb tc))
      (hparent'.trans hparent) (by rw [hport]; exact hta) (off := off) rfl (flight := flight) rfl rfl
    rw [hport, haligned, hrink] at hnear'
    rw [haligned, hdrifts] at hdrift
    rw [haligned, hhalf] at hshift
    rw [hrink] at hfar
    refine ⟨hflight, htoo, hfar, fun hf hal hoff => ?_, hdrift, hshift⟩
    obtain ⟨hat, hrink'⟩ := hnear' hf hal hoff
    rw [hat]
    exact ⟨rfl, hrink', rfl, rfl⟩
  · have hagain : s.syncAgain = s.sendProbe p := by
      unfold State.syncAgain
      rw [hparent]
      exact if_pos (by simpa [hbound, haligned, hsend] using hdue)
    exact ⟨_, congrArg Host.Outcome.next hagain, sendProbe_reads (quarantined_of_bound hbound) hsend⟩

end Sys2Proof.Machine

/-! What a loss and a proposal leave of the slots (R285, R292, R432, R433, R519). -/
namespace Sys2Proof.Machine
open State

/-- The devices that are lost from a slot's course, and the halts that wait for it. -/
def Slot.losing (x : Slot) : List Nat × List (Ticket × Bool) := (x.lostAddrs, x.halt)

/-- That, and what the slot knows of its coordinator and of the launch proposed. -/
def Slot.agreeing (x : Slot) : (List Nat × List (Ticket × Bool)) × Option (Nat × Nat) × Option Nat × Bool × Option Nat :=
  (x.losing, x.proposed, x.reproposeAt, x.acting, x.faultBoundaryAt)

/-- What f reads of each slot holds what g reads. -/
theorem Stands.of_reads {α β : Type} {f : Slot → α} {g : Slot → β} {s t : State} (h : Stands f s t) (p : α → β)
    (hp : ∀ x, p (f x) = g x) : Stands g s t :=
  ⟨h.grid, h.mem, h.flash, fun j => by rw [← hp, h.slot, hp]⟩

/-- What stands of the course that a slot holds. -/
theorem Stands.losing {s t : State} (h : Stands Slot.standing s t) : Stands Slot.losing s t :=
  h.of_reads (fun x => (x.1.2.1, x.1.2.2)) fun _ => rfl

theorem State.stands_answerTicket {α : Type} (f : Slot → α) (s : State) (t : Ticket) (opcode slot status value0 value1 : Nat)
    (payload : List Byte) (async : Bool) : Stands f s (s.answerTicket t opcode slot status value0 value1 payload async) := by
  obtain ⟨_, e⟩ := s.answerTicket_eq t opcode slot status value0 value1 payload async
  rw [e]
  exact ⟨rfl, rfl, rfl, fun _ => rfl⟩

/-- A slot that halts, no halt waiting, is not released, and keeps what it knows of the devices lost. -/
theorem State.stands_haltSlot {s : State} {k : Nat} (why : HaltReason) (hh : (s.slot k).halt = []) :
    Stands Slot.losing s (s.haltSlot k why) := by
  unfold State.haltSlot
  extract_lets x s1 s2 s3 s4 s5
  have hs1 : Stands Slot.losing s s1 := by
    unfold s1
    split
    · exact .onSlot (.refl s) rfl
    · exact .refl s
    all_goals exact .onSlot (s.stands_refund k).losing rfl
  have hs2 : Stands Slot.losing s1 s2 := by
    simp only [s2]
    split
    · exact stands_answerTicket ..
    · exact .refl s1
  have hs3 : Stands Slot.losing s2 s3 := by
    simp only [s3]
    split
    · exact .fire ..
    · exact .refl s2
  have hs5 : Stands Slot.losing s s5 := hs1.trans (hs2.trans (hs3.trans (.trans (.onSlot (.refl s3) rfl) (.fire s4 _))))
  have hhalt : ((s5.endRunResponse k why.status).slot k).halt = [] :=
    ((s5.stands_endRunResponse k why.status).halt k).trans ((congrArg Prod.snd (hs5.slot k)).trans hh)
  have hrelease (u : State) : u.releaseFor k x.halt = u := by
    rw [show x.halt = [] from hh]
    rfl
  split
  · exact .refl s
  · rw [hrelease]
    exact hs5.trans ((s5.stands_endRunResponse k why.status).losing.trans (stands_answerHalts stOK hhalt).losing)

section
variable {α : Type} {f : Slot → α}

theorem State.stands_observe (s : State) (m : Nat) (v : Int) : Stands f s (s.observe m v) := by
  unfold State.observe
  split <;> exact ⟨rfl, rfl, rfl, fun _ => rfl⟩

theorem State.stands_withLink (s : State) (link : LinkState) : Stands f s { s with link := link } := ⟨rfl, rfl, rfl, fun _ => rfl⟩

end

/-- The Louvre's decision on a lap. -/
theorem State.stands_decideLap (s : State) (k : Nat) : Stands Slot.agreeing s (s.decideLap k).1 := by
  have hcommit (u : State) (l : Nat) : Stands Slot.agreeing u (u.commitCount k l) := .onSlot (.refl u) rfl
  unfold State.decideLap
  extract_lets l1 s1 l2 s2 s3 s4
  have hs1 : Stands Slot.agreeing s s1 := ⟨rfl, rfl, rfl, fun _ => rfl⟩
  have hs4 : Stands Slot.agreeing s1 s4 :=
    .onSlot (.trans (t := s2) ⟨rfl, rfl, rfl, fun _ => rfl⟩ (stands_observe ..)) rfl
  split
  · split
    · exact hs1.trans hs4
    · exact (hs1.trans hs4).trans (hcommit s4 _)
  · exact hs1.trans ⟨rfl, rfl, rfl, fun _ => rfl⟩

/-- The answer to a proposal. -/
theorem State.stands_answerProposal (s : State) (q : Proposal) : Stands Slot.agreeing s (s.answerProposal q).1 := by
  have hearliest (k : Nat) : Stands Slot.agreeing s (s.earliestReady k).2 := by
    unfold State.earliestReady
    extract_lets x g
    split
    · exact .refl s
    · split
      · exact .refl s
      · exact ⟨rfl, rfl, rfl, fun _ => rfl⟩
  have hhold (k : Nat) : Stands Slot.agreeing s (s.holdAdmission k).1 := by
    unfold State.holdAdmission
    split
    · exact .refl s
    · exact .trans (.onSlot (.refl s) rfl) (stands_decideLap _ k)
  unfold State.answerProposal
  split
  · exact .refl s
  · next k _ =>
    dsimp only
    split_ifs
    · exact .refl s
    · exact hearliest k
    · exact .refl s
    · dsimp only
      exact (hhold k).onSlot rfl
    · exact hhold k

/-- A broadcast that proposes. -/
theorem State.stands_broadcast_propose (s : State) (slot : Option Nat) (sc : Scope) (q : Proposal) :
    Stands Slot.agreeing s (s.broadcast slot sc (.propose q)) := by
  rcases s.broadcast_propose slot sc q with ⟨link, e⟩ | ⟨link, link', e⟩
  · rw [e]
    exact stands_withLink ..
  · rw [e]
    exact (stands_withLink s link).trans ((stands_answerProposal _ q).trans (stands_withLink ..))

/-- A broadcast that names a loss is the links' affair. -/
theorem State.broadcast_lost (s : State) (slot : Option Nat) (sc : Scope) (ctag : BitVec 16) (lap addr gen : Nat) :
    ∃ link, s.broadcast slot sc (.lost ctag lap addr gen) = { s with link := link } := by
  unfold State.broadcast
  split
  · exact ⟨_, rfl⟩
  · split
    · exact ⟨_, rfl⟩
    · obtain ⟨link, e⟩ := startBcast_eq s.takeBseq.2 slot sc (.lost ctag lap addr gen) s.takeBseq.1 { TallyBody.zero with devices := 1 }
      exact ⟨link, e⟩

/-- A proposal of a slot's next lap. -/
theorem State.stands_proposeLap (s : State) (k : Nat) : Stands Slot.losing s (s.proposeLap k) := by
  unfold State.proposeLap
  split
  · exact .refl s
  · exact .trans (.onSlot (.refl s) rfl) ((stands_broadcast_propose _ _ _ _).of_reads Prod.fst fun _ => rfl)

/-- Going on from the boundary of a slot with no halt waiting. -/
theorem State.resume_stands {s : State} {k : Nat} (hh : (s.slot k).halt = []) : Stands Slot.losing s (s.resume k) := by
  unfold State.resume
  dsimp only
  split_ifs
  · exact .refl s
  · exact (stands_pauseSlot true hh).losing
  · exact (stands_pauseSlot false hh).losing
  · exact .refl s
  · exact stands_proposeLap s k
  · exact .refl s
  · exact .onSlot (.refl s) rfl

/-- A device that is lost from a slot's course, no halt waiting, is noted; the grid stands. -/
theorem State.loseMember_reads {s : State} {k addr : Nat} (hnew : (s.slot k).lostAddrs.contains addr = false)
    (hh : (s.slot k).halt = []) :
    ((s.loseMember k addr).slot k).lostAddrs = (s.slot k).lostAddrs ++ [addr] ∧ (s.loseMember k addr).grid = s.grid := by
  unfold State.loseMember
  rw [if_neg (by simpa using hnew)]
  extract_lets u x v
  have hu : (u.slot k).lostAddrs = (s.slot k).lostAddrs ++ [addr] ∧ (u.slot k).halt = [] ∧ u.grid = s.grid := by
    rw [show u.slot k = _ from slot_onSlot_self ..]
    exact ⟨rfl, hh, rfl⟩
  obtain ⟨hlost, hhalt, hgrid⟩ := hu
  have hreads {t : State} (h : Stands Slot.losing u t) :
      (t.slot k).lostAddrs = (s.slot k).lostAddrs ++ [addr] ∧ t.grid = s.grid :=
    ⟨(congrArg Prod.fst (h.slot k)).trans hlost, h.grid.trans hgrid⟩
  have hv : Stands Slot.losing u v := by
    simp only [v, State.enterSolo]
    split
    · exact .refl u
    · exact .trans (.onSlot (.onSlot (.refl u) rfl) rfl) (.fire ..)
  have hconfirm : Stands Slot.losing v (v.confirm k) := by
    refine .trans (.onSlot (.refl v) rfl) (resume_stands ?_)
    rw [slot_onSlot_self]
    exact (congrArg Prod.snd (hv.slot k)).trans hhalt
  split_ifs
  · exact hreads (stands_haltSlot _ hhalt)
  · exact hreads (hv.trans hconfirm)
  · exact hreads hv
  · exact hreads (.refl u)

end Sys2Proof.Machine

/-! The coordinator's role, and losses (R432, R434, R517 to R519, R523). -/
namespace Sys2Proof.Machine
open State

/-- A broadcast that proposes, while none of the device is outstanding, starts. -/
theorem State.broadcast_propose_starts {s : State} (hq : s.quarantined = false) (hown : s.link.own = none) (slot : Option Nat)
    (sc : Scope) (q : Proposal) : (s.broadcast slot sc (.propose q)).link.own.isSome = true := by
  unfold State.broadcast
  rw [if_neg (by simp [hq]), hown]
  rfl

/-- What a slot notes as its next lap is proposed (R432). -/
def State.noted (s : State) (k : Nat) : State :=
  s.onSlot k (fun x => { x with proposed := some (x.lapNext, roundUpTo 256 (s.rink + s.agreeSpan k)), reproposeAt := none })

/-- A slot that wants an action proposes its next lap. -/
theorem State.proposeLap_eq {s : State} {k : Nat} (hwants : s.wantedAction k ≠ none) :
    ∃ q, s.proposeLap k = (s.noted k).broadcast (some k) (s.layoutScope k) (.propose q) := by
  obtain ⟨a, ha⟩ := Option.ne_none_iff_exists'.mp hwants
  unfold State.proposeLap
  rw [ha]
  exact ⟨_, rfl⟩

/-- Its proposal starts while no broadcast of the device is outstanding. -/
theorem State.proposeLap_starts {s : State} {k : Nat} (hq : s.quarantined = false) (hown : s.link.own = none)
    (hwants : s.wantedAction k ≠ none) :
    (s.proposeLap k).link.own.isSome = true
    ∧ ((s.proposeLap k).slot k).proposed = some ((s.slot k).lapNext, roundUpTo 256 (s.rink + s.agreeSpan k))
    ∧ ((s.proposeLap k).slot k).reproposeAt = none ∧ ((s.proposeLap k).slot k).acting = (s.slot k).acting
    ∧ ((s.proposeLap k).slot k).faultBoundaryAt = (s.slot k).faultBoundaryAt := by
  obtain ⟨q, hproposes⟩ := proposeLap_eq hwants
  have hslot : (s.noted k).slot k = { s.slot k with
      proposed := some ((s.slot k).lapNext, roundUpTo 256 (s.rink + s.agreeSpan k)), reproposeAt := none } := slot_onSlot_self ..
  have hstands := ((s.noted k).stands_broadcast_propose (some k) (s.layoutScope k) q).slot k
  simp only [Slot.agreeing, Prod.mk.injEq] at hstands
  obtain ⟨-, hproposed, hagain, hacting, hfault⟩ := hstands
  rw [hslot] at hproposed hagain hacting hfault
  rw [hproposes]
  exact ⟨broadcast_propose_starts (s := s.noted k) hq hown .., hproposed, hagain, hacting, hfault⟩

/-- A slot's action rests on its state, its halts and its attempt. -/
theorem State.wantedAction_onSlot (s : State) (k : Nat) {f : Slot → Slot} (hst : (f (s.slot k)).st = (s.slot k).st)
    (hhalt : (f (s.slot k)).halt = (s.slot k).halt) (hattempt : (f (s.slot k)).attempt = (s.slot k).attempt) :
    (s.onSlot k f).wantedAction k = s.wantedAction k := by
  unfold State.wantedAction
  simp only [slot_onSlot_self, hst, hhalt, hattempt]
  rfl

/-- The span of a slot's agreement rests on its layout. -/
theorem State.agreeSpan_onSlot (s : State) (k : Nat) {f : Slot → Slot} (hinfo : (f (s.slot k)).info = (s.slot k).info) :
    (s.onSlot k f).agreeSpan k = s.agreeSpan k := by
  unfold State.agreeSpan State.layoutScope
  rw [slot_onSlot_self, hinfo]
  rfl

/-- A coordinator whose count has come, no broadcast outstanding, proposes anew. -/
theorem State.reproposeDue_reads {s : State} {k a : Nat} (hq : s.quarantined = false) (ha : (s.slot k).reproposeAt = some a)
    (hdue : a ≤ s.rink) (hc : s.coordinates k = true) (hown : s.link.own = none) (hqueue : s.link.queue = [])
    (hwants : s.wantedAction k ≠ none) :
    ((s.reproposeDue k).slot k).reproposeAt = none
    ∧ ((s.reproposeDue k).slot k).proposed = some ((s.slot k).lapNext, roundUpTo 256 (s.rink + s.agreeSpan k))
    ∧ (s.reproposeDue k).link.own.isSome = true := by
  obtain ⟨u, hu⟩ : ∃ u, u = s.onSlot k (fun x => { x with reproposeAt := none }) := ⟨_, rfl⟩
  have hproposes : s.reproposeDue k = u.proposeLap k := by
    unfold State.reproposeDue
    rw [ha, hu]
    exact if_pos (by simp [hdue, hc, hown, hqueue])
  have hwants' : u.wantedAction k ≠ none := by rw [hu, wantedAction_onSlot s k rfl rfl rfl]; exact hwants
  have hspan : u.agreeSpan k = s.agreeSpan k := by rw [hu]; exact agreeSpan_onSlot s k rfl
  have hreads : (u.slot k).lapNext = (s.slot k).lapNext ∧ u.rink = s.rink ∧ u.link = s.link := by
    rw [hu, slot_onSlot_self]
    exact ⟨rfl, rfl, rfl⟩
  obtain ⟨hlap, hrink, hlink⟩ := hreads
  obtain ⟨hstarts, hproposed, hagain, -, -⟩ := proposeLap_starts (s := u) (k := k) (by rw [State.quarantined, hlink]; exact hq)
    (by rw [hlink]; exact hown) hwants'
  rw [hproposes]
  rw [hlap, hrink, hspan] at hproposed
  exact ⟨hagain, hproposed, hstarts⟩

/-- The next in line takes the coordinator's role of a replay, and proposes. -/
theorem State.takeOver_reads {s : State} {k a : Nat} (hq : s.quarantined = false) (ha : (s.slot k).faultBoundaryAt = some a)
    (hst : (s.slot k).st = .replaying) (hc : s.coordinates k = false) (hnext : s.nextInLine k = true)
    (hdue : a + 2 * s.agreeSpan k ≤ s.now) (hown : s.link.own = none) :
    ((s.takeOver k).slot k).acting = true ∧ ((s.takeOver k).slot k).faultBoundaryAt = none
    ∧ (s.takeOver k).link.own.isSome = true := by
  obtain ⟨u, hu⟩ : ∃ u, u = s.onSlot k (fun x => { x with acting := true, faultBoundaryAt := none }) := ⟨_, rfl⟩
  have hproposes : s.takeOver k = u.proposeLap k := by
    unfold State.takeOver
    rw [ha, hu]
    exact if_pos (by simp [hst, hc, hnext, hdue])
  have hwants : u.wantedAction k ≠ none := by
    rw [hu, wantedAction_onSlot s k rfl rfl rfl]
    unfold State.wantedAction
    simp only [hst]
    split_ifs <;> simp_all
  have hreads : (u.slot k).acting = true ∧ (u.slot k).faultBoundaryAt = none ∧ u.link = s.link := by
    rw [hu, slot_onSlot_self]
    exact ⟨rfl, rfl, rfl⟩
  obtain ⟨hacting, hfault, hlink⟩ := hreads
  obtain ⟨hstarts, -, -, hacting', hfault'⟩ := proposeLap_starts (s := u) (k := k) (by rw [State.quarantined, hlink]; exact hq)
    (by rw [hlink]; exact hown) hwants
  rw [hproposes]
  exact ⟨hacting'.trans hacting, hfault'.trans hfault, hstarts⟩

/-- A slot that a CTAG finds holds a course. -/
theorem State.st_ne_empty_of_slotOfTag {s : State} {ctag k : Nat} (h : s.slotOfTag ctag = some k) : (s.slot k).st ≠ .empty := by
  have hmem := List.mem_of_find?_eq_some h
  exact bne_iff_ne.mp (List.mem_filter.mp hmem).2

/-- A loss in a course without pairs halts its slot. -/
theorem State.lostIn_halts {s : State} {k ctag addr gen : Nat} (hother : addr ≠ s.selfAddr ∨ gen ≠ s.link.gen)
    (hk : s.slotOfTag ctag = some k) (hnew : (s.slot k).lostAddrs.contains addr = false) (hpairs : (s.slot k).info.pairs = false)
    (hh : (s.slot k).halt = []) {t : State} (ht : t = (s.lostIn ctag addr gen).1) :
    (t.slot k).lostAddrs = (s.slot k).lostAddrs ++ [addr] ∧ (t.slot k).st = .halted ∧ (t.slot k).reason = .deviceLost := by
  have hloses : t = s.loseMember k addr := by
    rw [ht, State.lostIn, if_neg (by simpa [imp_iff_not_or] using hother), hk]
    rfl
  obtain ⟨u, hu⟩ : ∃ u, u = s.onSlot k (fun x => { x with lostAddrs := x.lostAddrs ++ [addr] }) := ⟨_, rfl⟩
  have hslot : u.slot k = { s.slot k with lostAddrs := (s.slot k).lostAddrs ++ [addr] } := by rw [hu, slot_onSlot_self]
  have hhalts : s.loseMember k addr = u.haltSlot k .deviceLost := by
    unfold State.loseMember
    rw [if_neg (by simpa using hnew), ← hu]
    exact if_pos (by simp [hslot, hpairs])
  obtain ⟨hst, hreason⟩ := slot_haltSlot (s := u) (k := k) .deviceLost (by rw [hslot]; exact st_ne_empty_of_slotOfTag hk)
    (by rw [hslot]; exact hh)
  rw [hloses]
  exact ⟨(loseMember_reads hnew hh).1, by rw [hhalts]; exact hst, by rw [hhalts]; exact hreason⟩

/-- A device that is told of its own loss enters QUARANTINE, and counts as lost. -/
theorem State.lostIn_self {s : State} {ctag addr gen : Nat} (hq : s.quarantined = false) (haddr : addr = s.selfAddr)
    (hgen : gen = s.link.gen) {t : State} (ht : t = (s.lostIn ctag addr gen).1) : t.link.st = 3 ∧ t.grid.deviceLost ≠ 0 := by
  rw [ht, State.lostIn, if_pos (by simp [haddr, hgen])]
  refine ⟨quarantine_bindState hq, ?_⟩
  show (if s.quarantine.grid.deviceLost == 0 then 6 else s.quarantine.grid.deviceLost) ≠ 0
  split
  · decide
  · next h => simpa using h

/-- The coordinator declares a member lost that has not answered for a replay in time. -/
theorem State.replayDeadline_reads {s : State} {k addr : Nat} (hpairs : (s.slot k).info.pairs = true)
    (hst : (s.slot k).st = .replaying) (hstage : (s.slot k).stage = .idle) (hdue : (s.slot k).boundaryAt + 480000 ≤ s.now)
    (hc : s.coordinates k = true) (hin : s.inLayout k addr = true) (hother : addr ≠ s.selfAddr)
    (hnew : (s.slot k).lostAddrs.contains addr = false) (hh : (s.slot k).halt = []) :
    ((s.replayDeadline k addr).slot k).lostAddrs = (s.slot k).lostAddrs ++ [addr]
    ∧ (s.replayDeadline k addr).grid.lossesDeclared = satAdd 32 s.grid.lossesDeclared 1 := by
  obtain ⟨u, hu⟩ : ∃ u, u = s.onSlot k (fun x => { x with
    acting := x.acting || s.layoutIndex (s.slot k).info addr == 0 && !s.coordinates k }) := ⟨_, rfl⟩
  have hdeclares : s.replayDeadline k addr = u.declareLost k [addr] := by
    unfold State.replayDeadline
    rw [hu]
    exact if_pos (by simp [hpairs, hst, hstage, hdue, hc])
  have hreads : (u.slot k).lostAddrs = (s.slot k).lostAddrs ∧ (u.slot k).halt = [] ∧ u.inLayout k addr = s.inLayout k addr
      ∧ u.selfAddr = s.selfAddr ∧ u.grid = s.grid := by
    rw [State.inLayout, hu, slot_onSlot_self]
    exact ⟨rfl, hh, rfl, rfl, rfl⟩
  obtain ⟨hlost, hhalt, hin', hself, hgrid⟩ := hreads
  have hone : ([addr].eraseDups).filter (fun a => u.inLayout k a && a != u.selfAddr && !(u.slot k).lostAddrs.contains a)
      = [addr] := by
    have hkept : (u.inLayout k addr && addr != u.selfAddr && !(u.slot k).lostAddrs.contains addr) = true := by
      rw [hin', hin, hself, hlost, hnew]
      simpa using hother
    exact List.filter_cons_of_pos hkept
  obtain ⟨v, hv⟩ : ∃ v, v = { u with grid := { u.grid with lossesDeclared := satAdd 32 u.grid.lossesDeclared 1 } } := ⟨_, rfl⟩
  obtain ⟨link, hlink⟩ := v.broadcast_lost (some k) (v.layoutScope k) (BitVec.ofNat 16 (ctagOf (u.slot k).info))
    (u.slot k).lapNext addr (u.genEntry addr).gen
  have hdeclared : u.declareLost k [addr] = State.loseMember { v with link := link } k addr := by
    unfold State.declareLost
    rw [hone, ← hlink, hv]
    rfl
  have hslot : ({ v with link := link } : State).slot k = u.slot k := by rw [hv]; rfl
  obtain ⟨hnoted, hstands⟩ := loseMember_reads (s := { v with link := link }) (k := k) (addr := addr)
    (by rw [hslot, hlost]; exact hnew) (by rw [hslot]; exact hhalt)
  rw [hdeclares, hdeclared]
  refine ⟨by rw [hnoted, hslot, hlost], ?_⟩
  rw [hstands, ← hgrid]
  exact congrArg (·.grid.lossesDeclared) hv

/-- Settles O53, by what a proposal and a loss leave of the slots. -/
theorem coordinatorAndLosses : Obligations.CoordinatorAndLosses := by
  intro s k hk hq
  refine ⟨fun a ha hdue hc hown hqueue hwants => ⟨_, rfl, reproposeDue_reads hq ha hdue hc hown hqueue hwants⟩,
    fun a ha hst hc hnext hdue hown => ⟨_, rfl, takeOver_reads hq ha hst hc hnext hdue hown⟩,
    fun p r ctag lap addr gen taken hadmitted hbcast hdest hnew => ?_,
    fun addr hpairs hst hstage hdue hc hin hother hlost hh =>
      ⟨_, rfl, replayDeadline_reads hpairs hst hstage hdue hc hin hother hlost hh⟩⟩
  have hlost := bcastMsg_of_admitted hadmitted hbcast hdest hnew (.lost ctag lap.toNat addr.toNat gen.toNat) taken
    (State.lostIn ctag.toNat addr.toNat gen.toNat)
  obtain ⟨u, hu⟩ : ∃ u, u = ((s.takeRx p r (.lost ctag lap.toNat addr.toNat gen.toNat)).noteBseq r.source r.bseq.toNat).deliverMsg
    (.lost ctag lap.toNat addr.toNat gen.toNat) := ⟨_, rfl⟩
  have hreads : u.selfAddr = s.selfAddr ∧ u.link.gen = s.link.gen ∧ u.slots = s.slots ∧ u.quarantined = s.quarantined := by
    obtain ⟨_, _, e⟩ := (Takes.takeRx s p r (.lost ctag lap.toNat addr.toNat gen.toNat)).rest
    rw [hu, e]
    exact ⟨rfl, rfl, rfl, rfl⟩
  obtain ⟨hself, hgen, hslots, hquarantined⟩ := hreads
  have hslot (j : Nat) : u.slot j = s.slot j := congrArg (Table.get _ j) hslots
  have htag : u.slotOfTag ctag.toNat = s.slotOfTag ctag.toNat := by
    simp only [State.slotOfTag, State.residents, hslot]
  rw [← hu] at hlost
  rw [← hself, ← hgen, ← htag, ← hslot]
  rw [← hquarantined] at hq
  exact ⟨fun hother htag hnone hpairs hh => ⟨_, congrArg Host.Outcome.next hlost, lostIn_halts hother htag hnone hpairs hh rfl⟩,
    fun haddr hgen => ⟨_, congrArg Host.Outcome.next hlost, lostIn_self hq haddr hgen rfl⟩⟩

end Sys2Proof.Machine
